-- ==== Sys2Proof/Word.lean ====
section
/-! DEFINITION. The word types of the block and their plainest arithmetic. -/

namespace Sys2Proof

/-- A byte of host memory, of a descriptor or of a frame. -/
abbrev Byte := BitVec 8

/-- A 32-bit register word (R7), and the width of every wrapping series of R30. -/
abbrev Word := BitVec 32

/-- A submission descriptor, 64 bytes, byte 0 in the least significant bits (R60, little-endian by R7). -/
abbrev DescBits := BitVec 512

end Sys2Proof
end

