-- ==== Sys2Proof/Syntax.lean ====
section
/-! DEFINITION. The commands of the block: one constructor of `Instr` per row of spec/opcode_table.json, and the
plain data that a command brings from outside (a host memory read, a frame, a solved measurement epoch).

Every command's first operand `dt` is the number of TMR cycles (5 ns, R25) since the command before it: the table has
no row for a clock tick, so time comes with the commands (assumption log 1).

Numbering used by the operands:
* `ring` 0-15 submission rings, 16-31 report rings (R53);
* `ep` an endpoint: a remote address 0-262,143 (R5), or 262,144 + n for the local endpoint L_n;
* `link` 0 a field port, 1 a device link port (R234). -/

namespace Sys2Proof

/-- What a read of host memory brings back: the bytes, or a read error, a poisoned completion or a time-out (R62). -/
inductive HostRead where
  | data (bytes : List Byte)
  | error
  deriving DecidableEq, Repr

/-- What the fetch of a tile brings back (R140, R141): a host memory error, or the tile's header fields as read, its
cells other than 0, and whether its CRC matches. -/
inductive TileRead where
  | error
  | tile (layer format : Nat) (crcOk : Bool) (lastEpoch : Nat) (merged : Bool) (pairs : List (Nat × Word))
      (cells : List (Nat × Nat))
  deriving DecidableEq, Repr

/-- One signal in lock at a measurement epoch, on one antenna (0 A, 1 B), as the correlators measure it (R199). `resolved`: the
search for its carrier-phase ambiguity between the antennas ends at this epoch (R195). -/
structure GnssSignal where
  antenna : Nat
  system : Nat
  sv : Nat
  signal : Nat
  prValid : Bool
  phaseValid : Bool
  halfCycleOk : Bool
  slip : Bool
  resolved : Bool
  cn0 : Nat
  lock : Nat
  pr : Nat
  phase : Int
  doppler : Int
  prSigma : Nat
  phaseSigma : Nat
  elev : Int
  azim : Nat
  deriving DecidableEq, Repr

/-- The fitted position, velocity and time of one measurement epoch (R186): earth-centred mm and mm/s, ns. -/
structure GnssFit where
  x : Int
  y : Int
  z : Int
  posSigma : Nat
  velX : Int
  velY : Int
  velZ : Int
  velSigma : Nat
  timeNs : Nat
  timeUnc : Nat
  driftPpb : Int
  deriving DecidableEq, Repr, Inhabited

/-- The carrier-phase baseline from antenna A to antenna B (R195): binary angles, mm. -/
structure GnssBaseline where
  azimuth : Int
  elevation : Int
  sigma : Nat
  lengthMm : Nat
  deriving DecidableEq, Repr, Inhabited

/-- A signal that ranges, with the one record of its satellite, and the satellite's signal in the other band where both are
tracked, for the ionosphere-free combination (R186, R188). -/
structure GnssRange where
  signal : GnssSignal
  record : BitVec 1024
  other : Option GnssSignal
  deriving DecidableEq, Repr

/-- All that a fit is made of (R186): the ranges, the broadcast Klobuchar parameters, and the corrections of the strongest SBAS
satellite where they are applied. -/
structure GnssInput where
  ranges : List GnssRange
  klobuchar : List Int
  sbas : Option (List (List Bool))
  deriving DecidableEq, Repr

/-- The radio side of one measurement epoch: what the RF front ends and the correlators measured. `agcGain` is the gain of each
band, numbered 2 x antenna + band (R203), dB; `powerOver` lists the bands whose in-band power exceeds the notch threshold;
`broadcastSec` is the time that the tracked messages give, s, GPS scale, if they have given one. -/
structure GnssEpoch where
  agcGain : List Nat
  powerOver : List Nat
  signals : List GnssSignal
  broadcastSec : Option Nat
  deriving DecidableEq, Repr

/-- What a navigation message says that GNB decodes on the die (R187, R191): its layout is its ICD's. -/
inductive NavInfo where
  | klobuchar (parameters : List Int)
  | utc (parameters : List Int)
  | leapSecond (seconds : Int)
  | galileoOffset (ns : Int)
  | beidouOffset (ns : Int)
  | iod (value : Nat)
  deriving DecidableEq, Repr

/-- One navigation word or message as received on a channel of antenna A (R200): its bits in transmission order, whether none of
it and of the word before is missing, and for each part of 256 bits the tick and the time of week of its first bit. -/
structure NavMessage where
  channel : Nat
  bits : List Bool
  complete : Bool
  polarityKnown : Bool
  parts : List (Nat × Nat)
  info : List NavInfo
  deriving DecidableEq, Repr

/-- One entry of a node's REPORT (R219). -/
structure ReportEntry where
  kind : Nat
  endpoint : Nat
  tag : Nat
  value : Nat
  deriving DecidableEq, Repr

/-- What a receiver checks of any frame before it looks inside (R205). -/
structure FrameHead where
  vlan : Bool
  etherType : Nat
  version : Nat
  fcsOk : Bool
  deriving DecidableEq, Repr

/-- A REPORT frame of a node (R209, R219). -/
structure NodeReport where
  head : FrameHead
  node : Nat
  seq : Nat
  session : Nat
  hop : Nat
  safe : Bool
  fault : Bool
  syncOk : Bool
  endpoints : Nat
  ackSeq : Nat
  beatSeen : Nat
  entries : List ReportEntry
  deriving DecidableEq, Repr

/-- A Tebecia header (R226). -/
structure TebHead where
  head : FrameHead
  ttl : Nat
  origin : Nat
  seq : Word
  instanceId : Word
  /-- LENGTH, body bytes. -/
  length : Nat := 0
  deriving DecidableEq, Repr

/-- A WRITE_RESP as received (R224): its frame, and its TOKEN. -/
structure RespHead where
  head : FrameHead
  token : Nat
  deriving DecidableEq, Repr

/-- A current in mA and how long it has stood at that level or beyond, µs (R247, R255). -/
structure HeldCurrent where
  milliamp : Nat
  us : Nat
  deriving DecidableEq, Repr

/-- A channel with its current (R255). -/
structure ChannelCurrent where
  channel : Nat
  current : HeldCurrent
  deriving DecidableEq, Repr

/-- A channel's temperature and the module's, °C (R248, R258). -/
structure Temperatures where
  channel : Int
  module_ : Int
  deriving DecidableEq, Repr

/-- The load of a bank (R250): its channels' currents in mA, how long their sum has stood, µs, and the power die's temperature,
°C. -/
structure BankLoad where
  milliamps : List (Nat × Nat)
  us : Nat
  dieC : Int
  deriving DecidableEq, Repr

/-- A bank's supply against its mean over the last second, in 10 mV, and how long it has stood, µs (R250). -/
structure BankSag where
  bank : Nat
  vbat10mV : Int
  mean10mV : Int
  us : Nat
  deriving DecidableEq, Repr

/-- A bank's supply, in 10 mV (R256). -/
structure BankVolt where
  bank : Nat
  vbat10mV : Int
  deriving DecidableEq, Repr

/-- A supply's voltage in 10 mV and how long it has been stable, ms (R253). -/
structure StableVolt where
  vbat10mV : Int
  ms : Nat
  deriving DecidableEq, Repr

/-- What an open-load diagnosis measures (R252): the mean current in mA or the output's voltage in 10 mV, VBAT in 10 mV, and how
long they have stood, µs. -/
structure LoadProbe where
  value : Int
  vbat10mV : Int
  us : Nat
  deriving DecidableEq, Repr

/-- An input FBK_n_A or FBK_n_B (R259). -/
structure FbkInput where
  channel : Nat
  inputB : Bool
  deriving DecidableEq, Repr

/-- A HEARTBEAT frame (R228); `rxTick` is the own device tick of its time stamp on the SGMII side (R205). -/
structure Heartbeat where
  teb : TebHead
  priority : Nat
  cls : Nat
  role : Nat
  tqual : Nat
  master : Nat
  candidate : Bool
  timeUnc : Nat
  originTick : Nat
  correction : Int
  calNs : Nat
  rxTick : Nat
  deriving DecidableEq, Repr

/-- A POSE frame of the time master (R231): its epoch tick and the payload fields PSE uses. -/
structure PoseFrame where
  teb : TebHead
  epochTick : Nat
  east : Int
  north : Int
  heading : Nat
  yawRate : Int
  speed : Int
  posUnc : Nat
  hdgUnc : Nat
  spdUnc : Nat
  valid : Bool
  deriving DecidableEq, Repr

/-- A coverage delta: bytes 16-63 of a COVERAGE_DELTA (R129). -/
structure Delta where
  origin : Nat
  layer : Nat
  start : Bool
  fin : Bool
  covSeq : Word
  startE : Int
  startN : Int
  endE : Int
  endN : Int
  width : Nat
  epoch : Nat
  rate : Nat
  endpoint : Nat
  duration : Nat
  calNs : Nat
  deriving DecidableEq, Repr

/-- A COVERAGE frame (R232). -/
structure CoverageFrame where
  teb : TebHead
  deltas : List Delta
  deriving DecidableEq, Repr

/-- How a port's SGMII in-band status word reads (R204). -/
inductive LinkWord where
  | up
  | down
  | wrongSpeed
  deriving DecidableEq, Repr

/-- The supply a bank event is about (R253): bank A, bank B, or PGND, which both banks need. -/
inductive Supply where
  | bankA
  | bankB
  | pgnd
  deriving DecidableEq, Repr

/-- The commands, one constructor per row of spec/opcode_table.json. -/
inductive Instr where
  -- descriptors (R64), executed from the head of a submission ring
  | nop (dt ring : Nat)
  | fence (dt ring : Nat)
  | fenceDone (dt ring : Nat)
  | fenceTimeout (dt ring : Nat)
  | endpointLoad (dt ring : Nat) (buf : HostRead)
  | sectionSet (dt ring : Nat) (buf : HostRead)
  | productSet (dt ring : Nat)
  | arenaGrant (dt ring : Nat)
  | arenaQuota (dt ring : Nat)
  | tileImport (dt ring : Nat) (buf : HostRead)
  | tileExport (dt ring : Nat) (destOk : Bool)
  | tileRelease (dt ring : Nat)
  | targetMark (dt ring : Nat) (buf : HostRead)
  | passAdvance (dt ring : Nat)
  | extFix (dt ring : Nat)
  | ephemerisLoad (dt ring : Nat) (buf : HostRead)
  | geometrySet (dt ring : Nat)
  | bankLoad (dt ring : Nat)
  | bankSwap (dt ring : Nat)
  | injectStart (dt ring : Nat)
  | traceArm (dt ring : Nat)
  | directSwitch (dt ring : Nat) (buf : HostRead)
  | directSwitchExecute (dt ring : Nat)
  | nodeWrite (dt ring : Nat)
  | nodeWriteResend (dt ring : Nat)
  | nodeWriteTimeout (dt ring : Nat)
  | calPolicy (dt ring : Nat)
  | timeSet (dt ring : Nat)
  | timeSetRelease (dt ring : Nat)
  | wardOpen (dt ring : Nat)
  | wardClose (dt ring : Nat)
  | recordRead (dt ring : Nat) (destOk : Bool)
  -- rings (03_host_rings.md)
  | doorbell (dt ring : Nat) (index : Word)
  | descriptorFetch (dt ring : Nat) (desc : DescBits)
  | descFetchFail (dt ring : Nat)
  | notBeforeReached (dt ring : Nat)
  | heldDescriptorReady (dt ring : Nat)
  | fenceAfterRelease (dt ring : Nat)
  | backlogDrain (dt ring : Nat)
  | reportWriteFail (dt ring : Nat)
  | shadowWrite (dt ring : Nat)
  | ringEnable (dt ring : Nat) (value : Word)
  | ringDisable (dt ring : Nat) (value : Word)
  | ringDrained (dt ring : Nat)
  -- host presence and link
  | hostHbWrite (dt : Nat) (value : Word)
  | devHbTick (dt : Nat)
  | hostLost (dt : Nat)
  | continueLimitExpiry (dt : Nat)
  | resume (dt : Nat) (value : Word)
  | pcieLinkDown (dt : Nat)
  | pcieLinkUp (dt speed width : Nat)
  | flr (dt : Nat)
  | perst (dt : Nat)
  -- reads with side effects (R391)
  | tickLoRead (dt : Nat)
  | optimeLoRead (dt : Nat)
  | masterOffsetLoRead (dt : Nat)
  -- time
  | pllLock (dt : Nat)
  | secondInstant (dt : Nat)
  | tpEnableWrite (dt : Nat) (value : Word)
  | slewDone (dt : Nat)
  | holdLimit (dt : Nat)
  | suspectRunTimeout (dt : Nat)
  | optimeTick (dt : Nat)
  | optimePersist (dt : Nat)
  -- pose, evaluation, escapement
  | poseEpoch (dt : Nat)
  | exclusionExpiry (dt source : Nat)
  | gleEnableWrite (dt : Nat) (value : Word)
  | probeEvaluation (dt ep : Nat)
  | overflowMigrate (dt ep : Nat)
  | escSlotExecute (dt ep : Nat)
  | escDispatch (dt ep : Nat)
  | pwmGridEdge (dt channel : Nat)
  | valveEffect (dt ep : Nat)
  | effectiveSwitch (dt ep : Nat)
  | segmentMaxExpiry (dt ep : Nat)
  -- map
  | tileFetchDone (dt layer : Nat) (tx ty : Int) (read : TileRead)
  | fetchRetry (dt layer : Nat) (tx ty : Int) (read : TileRead)
  | writebackDue (dt layer : Nat) (tx ty : Int) (evict destOk : Bool)
  | unbackedDrop (dt : Nat)
  | mergeQueueDrain (dt : Nat)
  | layerCfgWrite (dt layer : Nat) (value : Word)
  | mapFailure (dt : Nat)
  -- GNSS
  | gnssMeasEpoch (dt : Nat) (m : GnssEpoch)
  | navMessage (dt : Nat) (m : NavMessage)
  | interferenceClear (dt band : Nat)
  | isbHoldExpiry (dt system : Nat)
  | notchEngage (dt notch : Nat) (offsetKhz : Int) (depthDb aboveDb : Nat)
  | notchRelease (dt notch : Nat)
  | antOpen (dt antenna milliamp : Nat)
  | antShort (dt antenna milliamp : Nat)
  | antBiasRetry (dt antenna milliamp : Nat)
  | burstStart (dt : Nat)
  | burstWindow (dt : Nat) (m : GnssEpoch)
  | burstExit (dt : Nat)
  -- links
  | portLinkChange (dt link port : Nat) (word : LinkWord)
  | beatSend (dt : Nat)
  | commandFrameSend (dt port node : Nat)
  | ackWaitExpiry (dt port node : Nat)
  | unacked (dt port node : Nat)
  | nodeReport (dt port : Nat) (r : NodeReport)
  | nodeLost (dt port node : Nat)
  | nodeRelease (dt port node : Nat)
  | dupNodeClear (dt port node : Nat)
  | fieldRingChange (dt pair : Nat) (closed : Bool)
  | delayReq (dt link port : Nat) (h : TebHead) (t1 t2 t3 : Nat)
  | writeResp (dt port : Nat) (h : RespHead) (status : Nat) (data : List Byte)
  | heartbeatSend (dt : Nat)
  | heartbeatReceive (dt port : Nat) (h : Heartbeat)
  | dupIdClear (dt : Nat)
  | siblingLost (dt identity : Nat)
  | classPresenceElection (dt : Nat)
  | tebeciaRingChange (dt : Nat) (closed : Bool)
  | poseFrameReceive (dt port : Nat) (p : PoseFrame)
  | coverageFrameSend (dt : Nat)
  | coverageFrameReceive (dt port : Nat) (c : CoverageFrame)
  -- load switches
  | hardShortTrip (dt channel milliamp : Nat)
  | limitTrip (dt channel : Nat) (current : HeldCurrent)
  | latchTrip (dt channel : Nat) (current : HeldCurrent)
  | overtempTrip (dt channel : Nat) (celsius : Int)
  | wireModelUpdate (dt channel : Nat) (milliamps : List Int) (celsius : Temperatures)
  | curveRetry (dt channel : Nat)
  | retryRestore (dt channel : Nat)
  | inrushEnd (dt channel : Nat)
  | pullinEnd (dt channel : Nat)
  | bankOverload (dt bank : Nat) (load : BankLoad)
  | bankDip (dt : Nat) (sag : BankSag)
  | openLoadIndication (dt channel kind : Nat) (probe : LoadProbe)
  | bankCutoff (dt : Nat) (supply : Supply) (vbat10mV : Int)
  | bankReturn (dt : Nat) (supply : Supply) (vbat : StableVolt)
  | reverseBattery (dt bank : Nat) (vbat10mV : Int)
  | ambientStale (dt : Nat)
  | keeperExpiry (dt channel : Nat)
  | keeperTrip (dt : Nat) (load : ChannelCurrent)
  | keeperSupplyLoss (dt : Nat) (vbat : BankVolt)
  | lsbClearWrite (dt : Nat) (value : Word)
  -- feedback
  | feedbackEdge (dt channel : Nat) (inputB levelA levelB : Bool)
  | standstill (dt channel : Nat)
  | fbuModeWrite (dt channel : Nat) (value : Word)
  | sincosSample (dt channel : Nat) (sin cos : Int)
  | cmpWrite (dt comparator : Nat) (toCfg : Bool) (value : Word)
  | probeEnableWrite (dt probe : Nat) (value : Word)
  | probeLatch (dt probe : Nat) (rising : Bool)
  | captureEdge (dt : Nat) (input : FbkInput) (level : Bool)
  | capDataRead (dt timer : Nat)
  | capCfgWrite (dt timer : Nat) (value : Word)
  | auxSelWrite (dt : Nat) (out : Bool) (ball : Nat) (value : Word)
  | repeaterPulse (dt repeater : Nat)
  | repeaterSourceFail (dt repeater : Nat)
  | ainSample (dt input microvolt : Nat)
  | feedbackSample (dt : Nat) (ain : Bool) (index : Nat)
  -- regulators
  | regSample (dt context : Nat)
  | regOutput (dt context : Nat)
  | ctxEnableWrite (dt context : Nat) (value : Word)
  | ctxDisableWrite (dt context : Nat) (value : Word)
  | traceBlock (dt quarter : Nat) (destOk : Bool)
  | ctlLoss (dt : Nat)
  -- calibration
  | coilSample (dt channel : Nat) (codes : List Nat)
  | flowStep (dt product : Nat)
  | meterUpdate (dt context : Nat)
  -- interrupts
  | coalesceTimeout (dt source : Nat)
  | extintEdge (dt k : Nat) (rising : Bool) (heldCycles : Nat)
  | icuCommit (dt target : Nat)
  | tgtClaimRead (dt target : Nat)
  | tgtEoiWrite (dt target : Nat) (value : Word)
  | icuSwiWrite (dt : Nat) (value : Word)
  | icuPendWrite (dt w : Nat) (value : Word)
  | srcTargetWrite (dt source : Nat) (value : Word)
  | tgtParkWrite (dt target : Nat) (value : Word)
  | parkGraceExpiry (dt source : Nat)
  | msixUnmask (dt entry : Nat)
  -- recorder
  | recordCommit (dt : Nat) (readBackOk : Bool)
  | evrPowerUpScan (dt : Nat)
  | snapSelWrite (dt : Nat) (value : Word)
  | snapCommitWrite (dt : Nat) (value : Word)
  -- power, reset, presence
  | domainEnableWrite (dt : Nat) (value : Word)
  | domainFailure (dt domain : Nat)
  | functionReady (dt bit : Nat)
  | powerOn (dt : Nat)
  | porNRelease (dt : Nat) (svcJ : Bool)
  | rootClock (dt : Nat)
  | coreSupply (dt : Nat)
  | thermalWarn (dt : Nat) (celsius : Int)
  | thermal (dt : Nat) (celsius : Int)
  | supervisor (dt domain : Nat)
  | aonFail (dt : Nat)
  | hostRequest (dt : Nat) (value : Word)
  | domainResetRequest (dt : Nat) (value : Word)
  | plannedResetBegin (dt : Nat)
  | internalResetRelease (dt : Nat)
  | powerFailWarning (dt : Nat)
  | powerFailRecover (dt : Nat)
  | beatOutToggle (dt : Nat)
  | beatCtlWrite (dt : Nat) (value : Word)
  | keySwChange (dt : Nat) (pressed : Bool)
  | keyPressTimer (dt : Nat)
  | keyTimeout (dt : Nat)
  | wardExpiry (dt : Nat)
  | sealCheck (dt : Nat) (follows : Bool)
  -- any other register
  | registerWrite (dt offset : Nat) (value : Word) (allBytes : Bool)
  -- further events
  | tpPulseEnd (dt : Nat)
  | comparePulseEnd (dt comparator : Nat)
  | channelPwmEdge (dt channel : Nat)
  | antBiasRecover (dt antenna milliamp : Nat)
  | linkDelayMeasure (dt port : Nat)
  | delayResp (dt port : Nat) (h : TebHead) (t1 t2 t3 t4 : Nat)
  deriving DecidableEq, Repr

end Sys2Proof
end

