-- ==== Sys2Proof/Config.lean ====
section
/-! DEFINITION. What a member of the family fixes (R2, R4, R394), and the free values of the model: constants
with no body, of which nothing can be proved but what holds for every value. -/

namespace Sys2Proof

/-- The three members of the family (R2). -/
inductive Part where
  | ols0408
  | ols1216
  | ols2604
  deriving DecidableEq, Repr

namespace Config

/-- FIELD_PORTS of SYS_CAP0 (R2, R4). -/
def fieldPorts : Part → Nat
  | .ols0408 => 0
  | .ols1216 => 2
  | .ols2604 => 4

/-- DEVICE_LINKS of SYS_CAP0 (R2, R4). -/
def deviceLinks : Part → Nat
  | .ols0408 => 0
  | .ols1216 => 2
  | .ols2604 => 2

/-- GNSS_ANTENNAS of SYS_CAP0 (R2, R4). -/
def gnssAntennas : Part → Nat
  | .ols0408 => 0
  | .ols1216 => 1
  | .ols2604 => 2

/-- LOAD_CHANNELS of SYS_CAP0 (R2, R4). -/
def loadChannels : Part → Nat
  | .ols0408 => 8
  | .ols1216 => 16
  | .ols2604 => 32

/-- REG_CONTEXTS of SYS_CAP0 (R2, R4). -/
def regContexts : Part → Nat
  | .ols0408 => 15
  | .ols1216 => 63
  | .ols2604 => 127

/-- REMOTE_ENDPOINTS of SYS_CAP1 (R2, R4). -/
def remoteEndpoints : Part → Nat
  | .ols0408 => 0
  | .ols1216 => 16384
  | .ols2604 => 262144

/-- FINE_CACHE_KIB and COARSE_CACHE_KIB of SYS_CAP2 (R2, R4). -/
def fineCacheKib : Part → Nat
  | .ols0408 => 512
  | .ols1216 => 2048
  | .ols2604 => 8192
def coarseCacheKib : Part → Nat
  | .ols0408 => 256
  | .ols1216 => 1024
  | .ols2604 => 4096

/-- N of R6: the nodes per port that have endpoint addresses. -/
def nodesPerPort (p : Part) : Nat :=
  if fieldPorts p = 0 then 0 else remoteEndpoints p / (fieldPorts p * 256)

/-- SYS_PART (R4, R394). -/
def sysPart : Part → Word
  | .ols0408 => 0x00120408#32
  | .ols1216 => 0x00121216#32
  | .ols2604 => 0x00122604#32

/-- SYS_CAP0 (R394). -/
def sysCap0 : Part → Word
  | .ols0408 => 0x003C8000#32
  | .ols1216 => 0x00FD0122#32
  | .ols2604 => 0x01FE0224#32

/-- SYS_CAP1 (R394). -/
def sysCap1 : Part → Word
  | .ols0408 => 0x00000000#32
  | .ols1216 => 0x00004000#32
  | .ols2604 => 0x00040000#32

/-- SYS_CAP2 (R394). -/
def sysCap2 : Part → Word
  | .ols0408 => 0x01000200#32
  | .ols1216 => 0x04000800#32
  | .ols2604 => 0x10002000#32

/-- SYS_CAP3 (R394). -/
def sysCap3 : Part → Word
  | .ols0408 => 0x00109000#32
  | .ols1216 => 0x00109060#32
  | .ols2604 => 0x001090C0#32

/-- SYS_VENDOR (R393), equal on every member. -/
def sysVendor : Word := 0x00011F6E#32

/-- Free value: the SESSION a port picks when it starts beating (R210 says only that it differs from the last), as
the step from the last session to the next, less one; applied to the port and to the State counter `freeCount`. -/
opaque freeSessionStep : Nat → Nat → Nat

/-- Free value: the deviation, within R302's 2 codes, of the SWEEP value from the exact one, applied to the sample. -/
opaque freeSweep : Nat → Nat

/-- Free value: the TOKEN of a new NODE_WRITE (R225 does not number them), applied to the State counter. -/
opaque freeToken : Nat → Nat

/-- Free value: which free unit of a pool MPG takes (R132 to R134 do not say), applied to the State counter. -/
opaque freeUnit : Nat → Nat

/-- Free value: which free tracking channel GNB gives a signal (R179 does not say), applied to the State counter. -/
opaque freeChannel : Nat → Nat

/-- Free value: which usable record of a satellite a solution takes (R188 says only that it takes one), applied to the State
counter and the satellite. -/
opaque freeRecord : Nat → Nat

/-- Free value: the weighted least-squares fit (R186 states neither its weights nor the algorithms of the ICDs). -/
opaque gnssFit : GnssInput → GnssFit

/-- Free value: the residual of a signal in a fit, in 1/1,000 of its sigma (R192). -/
opaque gnssResidual : GnssInput → GnssSignal → Nat

/-- Free value: the inter-system offset of a system against the first in a fit, ns (R186). -/
opaque gnssIsb : GnssInput → Nat → Int

/-- Free value: the running value of an inter-system offset, from the last and the new offset (R192 does not say how it runs). -/
opaque isbRunning : Int → Int → Int

/-- Free value: the learned median of a band's AGC gain, from the last and the new gain (R192 does not say how it is learned). -/
opaque agcMedian : Nat → Nat → Nat

/-- Free value: the baseline from the signals with fixed ambiguities on both antennas and the configured length (R195). -/
opaque gnssBaseline : Nat → List (GnssSignal × GnssSignal) → GnssBaseline

/-- Free value: whether HEALTH bits other than 0 of a SOURCE show a signal healthy under its ICD (R191). -/
opaque ephHealthy : Nat → Nat → Nat → Bool

/-- Free value: the bias current of an antenna in mA before any sample of it, less 2, within the range of OK (R180). -/
opaque freeBiasMa : Nat → Nat

/-- Free value: the duty in 0.1 % at which the current loop of a load channel last ran (R246, R255). -/
opaque freeLoopDuty : Nat → Nat

end Config

end Sys2Proof
end

