-- ==== Sys2Proof/Machine/Tbl.lean ====
section
/-! DEFINITION. Tables of like things by number: a list of (number, thing), numbers strictly rising, holding no entry
equal to the thing an unlisted number stands for. Equal tables are therefore equal lists. -/

namespace Sys2Proof.Machine

/-- A table from numbers to things. -/
abbrev Tbl (α : Type) := List (Nat × α)

/-- The thing at number `i`; an unlisted number stands for `d`. -/
def Tbl.get {α : Type} (d : α) : Tbl α → Nat → α
  | [], _ => d
  | (j, v) :: t, i => if i = j then v else Tbl.get d t i

/-- The table without number `i`, wherever it is listed. -/
def Tbl.drop {α : Type} : Tbl α → Nat → Tbl α
  | [], _ => []
  | (j, v) :: t, i => if i = j then Tbl.drop t i else (j, v) :: Tbl.drop t i

/-- The table with `v` at number `i`, in rising order. -/
def Tbl.put {α : Type} : Tbl α → Nat → α → Tbl α
  | [], i, v => [(i, v)]
  | (j, w) :: t, i, v =>
    if i < j then (i, v) :: (j, w) :: t
    else if i = j then (i, v) :: t
    else (j, w) :: Tbl.put t i v

/-- The table with `v` at number `i`; a `v` equal to what an unlisted number stands for removes the entry. -/
def Tbl.set {α : Type} [DecidableEq α] (d : α) (t : Tbl α) (i : Nat) (v : α) : Tbl α :=
  if v = d then Tbl.drop t i else Tbl.put t i v

/-- Numbers strictly rising from above `lo`, and no entry equal to `d`. -/
def Tbl.wfFrom {α : Type} [DecidableEq α] (d : α) : Tbl α → Nat → Bool
  | [], _ => true
  | (j, v) :: t, lo => decide (lo ≤ j) && decide (v ≠ d) && Tbl.wfFrom d t (j + 1)

/-- The canonical form of a table. -/
def Tbl.wf {α : Type} [DecidableEq α] (d : α) (t : Tbl α) : Bool := Tbl.wfFrom d t 0

/-- The thing at `i` changed by `f`. -/
def Tbl.modify {α : Type} [DecidableEq α] (d : α) (t : Tbl α) (i : Nat) (f : α → α) : Tbl α :=
  Tbl.set d t i (f (Tbl.get d t i))

/-- Every listed thing changed by `f`. -/
def Tbl.mapped {α : Type} [DecidableEq α] (d : α) (f : α → α) (t : Tbl α) : Tbl α :=
  t.foldl (fun r e => Tbl.set d r e.1 (f e.2)) []

end Sys2Proof.Machine
end

