-- ==== Sys2Proof/Machine/State.lean ====
section
/-! DEFINITION. The state of the block as plain data: every register, buffer, counter, mode and pin the spec gives it,
one structure per block of R14, what survives the loss of power in `Nv`, what the block has sent out in `Out`, and the
queue of the commands that wait. Widths: a register that wraps or is cleared bit by bit is a `Word`; a count, a size or
a time is a `Nat`; a signed quantity is an `Int`. Reset values are the fields' defaults, each from the register table
of its chapter; INVENTORY.md and assumption log 4 say which ones the spec gives none for. -/

namespace Sys2Proof.Machine

/-! ### Why a step stops -/

/-- Why the block stops with a fault. No command does: whatever the host or the machine does to the block, the spec
gives the block's answer, or says that it has none to give. -/
inductive Fault where
  /-- Raised by no meaning of this model. Safe. -/
  | none
  deriving DecidableEq, Repr

/-- Why a command is refused. -/
inductive Refusal where
  /-- The command has no meaning yet; only an arm of `exec` says so. Safe. -/
  | notModelled (mnemonic : String)
  deriving DecidableEq, Repr

/-! ### What leaves the block -/

/-- One little-endian field of a report, a frame or a record: its byte offset, its size and its value. -/
structure Fld where
  off : Nat
  size : Nat
  val : Nat
  deriving DecidableEq, Repr

/-- A report (R74). Bytes not covered by a field are zero. -/
structure Report where
  opcode : Nat
  flags : Nat := 0
  seq : Word := 0
  tick : Nat
  payload : List Fld
  deriving DecidableEq, Repr

/-- A record, staged or written (R344); `code` carries the class in bits 8-11, `rpt` and `lastRep` are REPEAT and
LAST_REP. -/
structure Rec where
  code : Nat
  index : Nat := 0
  calNs : Nat
  pcycle : Word
  source : Nat
  optime : Nat
  rpt : Nat := 0
  lastRep : Nat := 0
  snap : List Word
  nsnap : Nat
  setGen : Nat
  tick : Nat
  /-- Tick of the last FOLD report for the record (R354). -/
  foldTick : Option Nat := none
  deriving DecidableEq, Repr

/-- A write by the device to host memory. -/
inductive HostWrite where
  /-- A report into its ring slot (R53, R74). -/
  | report (ring : Nat) (addr : Nat) (r : Report)
  /-- A ring index into its shadow location (R55). -/
  | shadow (ring : Nat) (addr : Nat) (index : Word)
  /-- Tile data: the cells other than 0 of a tile of a kind (R120, R139, R148). -/
  | data (addr kind : Nat) (cells : List (Nat × Nat))
  /-- A 64-byte tile header, with FORMAT and CRC (R122, R139, R148). -/
  | header (addr : Nat) (fields : List Fld)
  /-- A new table, zero-filled (R137). -/
  | zeros (addr size : Nat)
  /-- One entry of a root or leaf table (R137, R139). -/
  | entry (addr value : Nat)
  /-- Words of a trace (R304). -/
  | words (addr : Nat) (ws : List Word)
  /-- One record of RECORD_READ, as held (R355). -/
  | record (addr : Nat) (r : Rec)
  deriving DecidableEq, Repr

/-- A frame sent on a port: its header fields (R209: NODE, SEQ, SESSION; R226: ORIGIN in `node`, SEQ, TTL, INSTANCE), its
body and the records in it. A forwarded Tebecia frame goes on as it came, but for TTL and the fields listed (R227). -/
structure Frame where
  link : Nat
  port : Nat
  type : Nat
  node : Nat := 0
  seq : Nat := 0
  session : Nat := 0
  ttl : Nat := 0
  instanceId : Word := 0
  forwarded : Bool := false
  body : List Fld := []
  records : List (List Fld) := []
  /-- Addresses and EtherType (R205), and of the header VERSION, HFLAGS, HOP (Adehaet) and LENGTH (R209, R226). -/
  dst : Nat := 0
  src : Nat := 0
  etherType : Nat := 0
  version : Nat := 1
  hflags : Nat := 0
  hop : Nat := 0
  length : Nat := 0
  deriving DecidableEq, Repr

/-- What the block has sent out, newest first: writes to host memory, frames, MSI-X messages (table entry, address,
data), and the value of the last register read (R391). -/
structure Out where
  host : List HostWrite := []
  frames : List Frame := []
  msix : List (Nat × Nat × Word) := []
  readData : Word := 0
  deriving DecidableEq, Repr

/-- Status flags (R9): the register's value, and the flags that hardware has set in the BUS cycle `cyc`, which software
cannot clear in that cycle. -/
structure Flags where
  w : Word := 0
  fresh : Word := 0
  cyc : Nat := 0
  deriving DecidableEq, Repr

/-! ### HRE: rings, host presence (03_host_rings.md) -/

/-- Where a fetched descriptor stands (R66, R68). -/
inductive Stage where
  | queued
  | heldNotBefore
  | heldNotReady
  | heldFence
  | startable
  | started
  | finished
  deriving DecidableEq, Repr

/-- A fetched descriptor until its completion is written (R66, R71). -/
structure Slot where
  desc : DescBits
  index : Word
  fetchTick : Nat
  stage : Stage := .queued
  startTick : Nat := 0
  /-- FENCE: the rings waited for and the index of each (R69). -/
  marks : List (Nat × Word) := []
  /-- The slot stands for a failed descriptor read (R396): its completion carries OPCODE 0 and this SEQ. -/
  fetchFailSeq : Option Word := none
  status : Nat := 0
  detail : Nat := 0
  detail2 : Nat := 0
  doneTick : Nat := 0
  doneCal : Nat := 0
  deriving DecidableEq, Repr

/-- Whether a ring takes work (R58, R59, R63). -/
inductive RingMode where
  | disabled
  | enabled
  | error
  | draining
  deriving DecidableEq, Repr

/-- One ring (R53, R86). -/
structure Ring where
  base : Nat := 0
  log2 : Nat := 6
  complRing : Nat := 0
  complMode : Nat := 0
  shadow : Nat := 0
  seqStart : Word := 0
  mode : RingMode := .disabled
  prod : Word := 0
  cons : Word := 0
  /-- Submission: the expected SEQ (R63). Report: the next report sequence (R58). -/
  seq : Word := 0
  /-- Submission: fetched descriptors in ring order. -/
  slots : List Slot := []
  /-- Report: reports waiting for a slot, oldest first (R76). -/
  backlog : List Report := []
  /-- Report: a report was dropped since the last one created (R76). -/
  dropped : Bool := false
  shadowVal : Word := 0
  shadowTick : Nat := 0
  deriving DecidableEq, Repr

/-- HOST_STATE (R80). -/
inductive HostState where
  | unarmed
  | present
  | lostContinue
  | lostSafe
  | safeHold
  deriving DecidableEq, Repr

/-- A report route (R75, R86). -/
structure Route where
  ring : Nat := 0
  enable : Bool := true
  deriving DecidableEq, Repr

/-- An MSI-X table entry (R51, R337). -/
structure MsixEntry where
  addr : Nat := 0
  data : Word := 0
  masked : Bool := true
  deriving DecidableEq, Repr

/-- The default routes of R86 whose ring is not 16. -/
def defaultRoutes : Tbl Route :=
  [(1, { ring := 1 }), (2, { ring := 2 }), (3, { ring := 2 }), (4, { ring := 3 }), (5, { ring := 3 }),
   (6, { ring := 4 }), (7, { ring := 4 }), (8, { ring := 5 }), (9, { ring := 6 }), (11, { ring := 6 }), (12, { ring := 1 })]

/-- HRE (R86). -/
structure Hre where
  linkUp : Bool := false
  linkSpeed : Nat := 0
  linkWidth : Nat := 0
  hostState : HostState := .unarmed
  fault : Flags := {}
  devHb : Word := 0
  devHbTick : Nat := 0
  lostTimeMs : Nat := 500
  policySafe : Bool := false
  continueLimit : Nat := 50
  covDrop : Nat := 0
  hostLostCount : Nat := 0
  timerArmed : Bool := false
  timerTick : Nat := 0
  continueTick : Nat := 0
  rings : Tbl Ring := []
  routes : Tbl Route := defaultRoutes
  rptDrop : Tbl Nat := []
  rqDrop : Tbl Nat := []
  msix : Tbl MsixEntry := []
  msixEnable : Bool := false
  msixFuncMask : Bool := false
  /-- The pending-bit array: table entries whose message is held (R337). -/
  pba : Word := 0
  deriving DecidableEq, Repr

/-! ### TBU: time (02_time_and_order.md) -/

/-- Balance state (R34), codes 0, 1, 2. -/
inductive BalState where
  | freerun
  | holdover
  | locked
  deriving DecidableEq, Repr

/-- A calendar step that waits for a second instant (R37): the error d (local minus true, ns; for the first setting, true
time less 5 ns x tick), the source code, its uncertainty, whether it is the first setting or ends a suspect run, the UTC
offset it brings, the TIME_SETs that wait for it and those it turns away (ring and slot index, R42). -/
structure PendStep where
  d : Int
  source : Nat
  unc : Nat
  first : Bool
  jump : Bool := false
  utc : Option Int := none
  waiters : List (Nat × Word) := []
  losers : List (Nat × Word) := []
  deriving DecidableEq, Repr

/-- A run of suspect GNSS times (R41). `offset` is the first one's true time less 5 ns x tick. -/
structure SuspectRun where
  offset : Int
  count : Nat
  startTick : Nat
  lastTick : Nat
  deriving DecidableEq, Repr

/-- TBU (R12, R24-R49, R395). Calendar time at a tick is `calBase` carried on by 5 ns a tick from `calTick`, plus the
frequency offset and the slew in ns/s. -/
structure Tbu where
  tick : Nat := 0
  /-- TMR cycles since power-on whether or not ticks hold: the TCXO's and the keeper's view of time. -/
  wall : Nat := 0
  pllLocked : Bool := false
  calValid : Bool := false
  calBase : Int := 0
  calTick : Nat := 0
  freq : Int := 0
  freqMeasured : Bool := false
  slew : Int := 0
  /-- End tick of the running slew, or none. -/
  slewEnd : Option Nat := none
  bal : BalState := .freerun
  source : Nat := 0
  hostForced : Bool := false
  gnssValid : Bool := false
  ringValid : Bool := false
  /-- The steering source's reported uncertainty while LOCKED, and u_lock after (R35). -/
  srcUnc : Nat := 0
  lossTick : Nat := 0
  pend : Option PendStep := none
  suspect : Option SuspectRun := none
  /-- Between a RELEASE and the first steering after it (R41, R46). -/
  noTest : Bool := false
  lastInstant : Option Nat := none
  lastEmitted : Option Nat := none
  ppsStepNext : Bool := false
  /-- The least ticks from the last emitted pulse to the next: 1,500 ms after a suppressed one (R37, R38). -/
  minGap : Nat := 0
  stepTick : Option Nat := none
  utcOffset : Int := 0
  utcValid : Bool := false
  utcFromGnss : Bool := false
  optime : Nat := 0
  optimeTick : Nat := 0
  pcycle : Word := 1
  status : Flags := {}
  holdLimit : Nat := 900
  stepThresh : Nat := 50
  slewMax : Nat := 1000
  rate : Nat := 16
  accel : Nat := 14
  tpEnable : Bool := false
  tpPol : Bool := false
  tpWidth : Nat := 100
  tpRunning : Bool := false
  /-- TP_OUT at its active level, and the tick of its leading edge. -/
  tpActive : Bool := false
  tpEdge : Nat := 0
  tpCount : Word := 0
  tpSuppressed : Nat := 0
  shTick : Nat := 0
  shCal : Nat := 0
  shUnc : Word := 0xFFFFFFFF#32
  shState : Word := 0
  optimeHi : Nat := 0
  deriving DecidableEq, Repr

/-! ### ICU (13_interrupts.md) -/

/-- One interrupt source (R327, R340). -/
structure Src where
  priority : Nat := 0
  target : Nat := 0
  filter : Nat := 0
  count : Nat := 1
  timeUs : Nat := 0
  pending : Bool := false
  masked : Bool := false
  events : Nat := 0
  lastTick : Option Nat := none
  windowTick : Option Nat := none
  windowCount : Nat := 0
  /-- A window has closed and no claim has come since (R328). -/
  windowDone : Bool := false
  /-- The tick from which it is pending (R336, R339). -/
  pendTick : Nat := 0
  /-- The first BUS cycle in which it may commit (R339). -/
  dueCycle : Nat := 0
  /-- The BUS cycle in which coalescing last set the pending bit (R334). -/
  setCycle : Option Nat := none
  /-- The source has moved to the fallback target of a parked one (R336). -/
  moved : Bool := false
  deriving DecidableEq, Repr

/-- What a commit latches (R330), with its BUS cycle and whether its message was sent, or held in the pending-bit array,
for the writes of that cycle (R333). -/
structure Commit where
  source : Nat
  priority : Nat
  events : Nat
  cycle : Nat := 0
  sent : Bool := false
  held : Bool := false
  deriving DecidableEq, Repr

/-- One delivery target (R330, R340). -/
structure Target where
  threshold : Nat := 0
  parked : Bool := false
  fbEn : Bool := false
  fallback : Nat := 0
  graceUs : Nat := 0
  parkTick : Nat := 0
  slot : Option Commit := none
  /-- The running-priority stack, top first. -/
  stack : List Nat := []
  spurious : Nat := 0
  deriving DecidableEq, Repr

/-- ICU (R340). -/
structure Icu where
  srcs : Tbl Src := []
  targets : Tbl Target := []
  fault : Flags := {}
  extEdge : Tbl Nat := []
  deriving DecidableEq, Repr

/-! ### EVR (14_event_recorder.md) -/

/-- A class's snapshot set (R347): entries (BAR0 offset, valid). -/
structure SnapSet where
  entries : Tbl (Nat × Bool) := []
  gen : Nat := 0
  deriving DecidableEq, Repr

/-- A learned-delay entry (R343); 0xFFFF is none. -/
structure LearnEntry where
  ep : Nat
  onLearned : Nat := 0xFFFF
  onBase : Nat := 0xFFFF
  offLearned : Nat := 0xFFFF
  offBase : Nat := 0xFFFF
  lastChange : Nat := 0
  deriving DecidableEq, Repr

/-- EVR's volatile part (R357). -/
structure Evr where
  staged : List Rec := []
  inFlight : Option Rec := none
  /-- The record last committed may still take a fold (R350). -/
  lastFolds : Bool := false
  lastCommitted : Option Nat := none
  /-- Repeats of the record in flight, (tick, operating time), newest first; they fold once it commits (R350). -/
  foldWait : List (Nat × Nat) := []
  /-- The tick at which operating time was last persisted (R28). -/
  persistTick : Nat := 0
  /-- The power-up scan of this power cycle has run (R353). -/
  scanned : Bool := false
  lost : Nat := 0
  lostSince : Nat := 0
  fault : Flags := {}
  trigEn : Nat := 0x1FFF
  snapSel : Nat := 0
  work : Tbl (Nat × Bool) := []
  learnEvict : Nat := 0
  deriving DecidableEq, Repr

/-! ### Non-volatile stores: MRAM (14_event_recorder.md) and the power die's store (09_load_switches.md) -/

/-- The warded settings of a load channel (R255, R258). -/
structure ChNv where
  curveMode : Bool := false
  safeOn : Bool := false
  keep10ms : Nat := 0
  inrushMs : Nat := 20
  retries : Nat := 0
  insul125 : Bool := false
  wire : Nat := 1
  /-- None: the class's value as shipped, 3,000 mA (S) or 10,000 mA (H). -/
  latchMa : Option Nat := none
  blankMs : Nat := 10
  deriving DecidableEq, Repr

/-- What survives every reset and every loss of power (R255, R307, R342, R373). -/
structure Nv where
  optime : Nat := 0
  pcycle : Word := 1
  records : Tbl (Option Rec) := []
  nextIndex : Nat := 0
  permFull : Bool := false
  lifeLost : Nat := 0
  /-- Record slots left invalid by a write that did not finish (R352, R353). -/
  torn : List Nat := []
  snapSets : Tbl SnapSet := []
  learn : List LearnEntry := []
  sealEnable : Bool := false
  sealBroken : Bool := false
  /-- SAFE_OUT per regulator context, ships as 0 (R307). -/
  safeOut : Tbl Int := []
  channels : Tbl ChNv := []
  ambHost : Bool := false
  deriving DecidableEq, Repr

/-! ### PRS (15_power_reset_presence.md) -/

/-- Ward state (R368). -/
inductive Ward where
  | closed
  | armed
  | opened
  deriving DecidableEq, Repr

/-- Where a key press stands while the ward is ARMED (R369). -/
inductive Press where
  | idle
  | pressed
  | held
  | released
  deriving DecidableEq, Repr

/-- A planned reset under way (R365): its cause, its domains, its request tick, the FENCE beats sent. -/
structure Planned where
  cause : Nat
  domains : Nat
  tick : Nat
  fences : Nat := 0
  deriving DecidableEq, Repr

/-- The warded settings as they stood before the warded writes of one BUS cycle, and how many there were: a CLOSE that
executes in the same cycle turns those writes away (R372). -/
structure WardUndo where
  cycle : Nat := 0
  count : Nat := 0
  channels : Tbl ChNv := []
  safeOut : Tbl Int := []
  ambHost : Bool := false
  sealEnable : Bool := false
  snapSets : Tbl SnapSet := []
  work : Tbl (Nat × Bool) := []
  lostTimeMs : Nat := 500
  policySafe : Bool := false
  continueLimit : Nat := 50
  domainId : Nat := 0
  trigEn : Nat := 0x1FFF
  deriving DecidableEq, Repr

/-- PRS (R375). -/
structure Prs where
  /-- POR_N is released and the supplies are up. -/
  running : Bool := false
  porTick : Nat := 0
  ready : BitVec 14 := 0
  readyUs : Tbl Nat := []
  domainEn : BitVec 8 := 0xFF#8
  powered : BitVec 8 := 0x01#8
  failTick : Tbl (Option Nat) := []
  fault : Flags := {}
  cause : Nat := 1
  resetCount : Nat := 0
  /-- A die reset's internal 100 µs runs (R363). -/
  inReset : Bool := false
  resetTick : Nat := 0
  /-- The TCXO or the PLL lock is missing: PRS holds the die in reset (R363). -/
  clockLost : Bool := false
  /-- Cause code that POWER_UP will carry (R363). -/
  powerCause : Nat := 1
  aonFaultTick : Option Nat := none
  planned : Option Planned := none
  ward : Ward := .closed
  wardTick : Nat := 0
  wardAccepted : Nat := 0
  wardRefused : Nat := 0
  wardUndo : WardUndo := {}
  svcJ : Bool := false
  keyRaw : Bool := false
  keyTick : Nat := 0
  keyFiltered : Bool := false
  press : Press := .idle
  pfw : Bool := false
  beatEn : Bool := false
  dropOnSafe : Bool := false
  beatRun : Bool := false
  beatLevel : Bool := false
  /-- The latest half-period boundary served (R367), and the tick of the latest seal check (R373). -/
  beatTick : Nat := 0
  sealTick : Nat := 0
  sealFails : Nat := 0
  /-- The BUS cycle of the last write of ENABLE = 0 (R372). -/
  sealOff : Option Nat := none
  dieC : Int := 0
  deriving DecidableEq, Repr

/-- SYS (R393); SYS_UID is set at manufacture. -/
structure SysRegs where
  part : Part := .ols2604
  uid : BitVec 64 := 0
  scratch : Word := 0
  deriving DecidableEq, Repr

/-! ### GLE and ESC (04_endpoints_lookahead.md) -/

/-- Endpoint mode (R89), codes 0-3. -/
inductive EpMode where
  | onoff
  | pwm
  | disabled
  | latched
  deriving DecidableEq, Repr

/-- An endpoint entry (R87, R88, R90, R91). -/
structure Entry where
  xMm : Int := 0
  yMm : Int := 0
  width : Nat := 0
  length : Nat := 0
  onDelay : Nat := 0
  offDelay : Nat := 0
  section_ : Nat := 0
  noCoverage : Bool := false
  noDemand : Bool := false
  feeder : Bool := false
  product : Nat := 0
  mode : EpMode := .disabled
  phaseGroup : Nat := 0
  overlap : Nat := 0
  boundary : Nat := 0
  deriving DecidableEq, Repr

/-- What creates an escapement event (R96, R102, R105, R81, R95). -/
inductive Creator where
  | probe
  | latch
  | feeder
  | forced
  deriving DecidableEq, Repr

/-- A pending escapement event (R109, R110): execution tick, the duty (0.1 %) it carries, the rate of its decision, the
delay (10 µs) under which it was scheduled, the bracket of probe samples it lies in, and where it waits. -/
structure PEvent where
  tick : Nat
  on : Bool
  duty : Option Nat := none
  rate : Nat := 0
  delay : Nat := 0
  /-- The product's transport delay (100 µs) under which it was scheduled (R99). -/
  transport : Nat := 0
  creator : Creator := .probe
  lo : Nat := 0
  hi : Nat := 0
  /-- Of a feeder's event: the member that it follows (R105). -/
  member : Option Nat := none
  /-- The dispatch lead in force when it was inserted, µs (R117). -/
  leadUs : Nat := 0
  dispatched : Bool := false
  /-- Dropped at dispatch (R111): it sets the held state at its tick and has no other effect. -/
  dropped : Bool := false
  far : Bool := false
  deriving DecidableEq, Repr

/-- The result of a test of R104: on or off, the rate, the places in the order of R104 of the tests that fail, and the
quantities R103 interpolates, by test, in 1/65,536, positive where the test closes the endpoint. -/
structure TestRes where
  on : Bool
  rate : Nat
  fails : List Nat
  quantities : List (Nat × Int)
  deriving DecidableEq, Repr

/-- The probe of an endpoint (R102): the last sample tick with its test, and the next sample tick. -/
structure Probe where
  last : Option (Nat × TestRes) := none
  next : Nat
  /-- The tick at which the evaluation of that sample falls due (R102). -/
  due : Nat
  /-- The event the probe could not store and holds (R109, R110). -/
  held : Option PEvent := none
  deriving DecidableEq, Repr

/-- The dynamic state of an endpoint in GLE, ESC and LCA. -/
structure EpDyn where
  /-- The entry that waits, and the tick after which it applies (R95). -/
  staged : Option Entry := none
  stagedAfter : Nat := 0
  /-- A change of the delays alone that waits for an idle evaluation (R95). -/
  stagedDelays : Option (Nat × Nat) := none
  /-- The rate of the latest decision (R127). -/
  decided : Nat := 0
  /-- The state ESC holds for the endpoint, and the duty and rate in force. -/
  heldOn : Bool := false
  duty : Nat := 1000
  rate : Nat := 0
  onEv : Option PEvent := none
  offEv : Option PEvent := none
  /-- The execution tick of the last event of each kind (R110, MIN_DWELL). -/
  lastOn : Option Nat := none
  lastOff : Option Nat := none
  /-- The tags of the last dispatched ON and OFF that change the endpoint's state (R311). -/
  tagOn : Option Nat := none
  tagOff : Option Nat := none
  probe : Option Probe := none
  /-- In product demand (R16, R108), with the rate and duty that have reached valve effect. -/
  inDemand : Bool := false
  demandRate : Nat := 0
  demandDuty : Nat := 1000
  /-- Effectively on, and the section it is on in (R15, R114). -/
  effOn : Bool := false
  effSec : Nat := 0
  /-- A forced OFF found both kinds of event pending: it is inserted once one of them has executed (R81, R95, R110). -/
  owesOff : Bool := false
  /-- A local PWM output (R107): the grid is followed, the tick of its last edge, whether it is open, and the duty of
  the present pulse. -/
  pwmRun : Bool := false
  pwmOpenTick : Nat := 0
  pwmOpen : Bool := false
  pwmDuty : Nat := 0
  deriving DecidableEq, Repr

/-- A section (R96, R97, R114). -/
structure Section where
  state : Nat := 0
  latch : Bool := false
  effOn : Bool := false
  lateCount : Nat := 0
  satCount : Nat := 0
  deriving DecidableEq, Repr

/-- A product (R98). -/
structure Product where
  enable : Bool := false
  zeroRateOff : Bool := false
  targetMode : Nat := 0
  covLayer : Nat := 0xFF
  bndLayer : Nat := 0xFF
  tgtLayer : Nat := 0xFF
  rxLayer : Nat := 0xFF
  transport : Nat := 0
  rateDefault : Nat := 0
  rateNom : Nat := 0
  rateUnit : Nat := 0
  dutyBase : Nat := 0
  dutyMin : Nat := 0
  dutyMax : Nat := 0
  pwmPeriod : Nat := 0
  phaseGroups : Nat := 0
  minDwell : Nat := 0
  minSpeed : Nat := 0
  deriving DecidableEq, Repr

/-- A switch on its way to its valve effect (R16) or to its effective time at the ground (R15). -/
structure Effect where
  ep : Nat
  tick : Nat
  on : Bool
  rate : Nat
  duty : Nat
  /-- The delay (10 µs) that its event carried (R312). -/
  delay : Nat := 0
  /-- The tick at which the switch executes. -/
  exec : Nat := 0
  /-- No switch, but a new rate decision for an endpoint that stays on (R127). -/
  rateOnly : Bool := false
  deriving DecidableEq, Repr

/-- GLE (R116) with its stores. -/
structure Gle where
  enable : Bool := false
  running : Bool := false
  poseOk : Bool := false
  overload : Bool := false
  fault : Flags := {}
  poseLimit : Nat := 250
  probeSteps : Nat := 2
  rateMin : Nat := 200
  load : Nat := 0
  lateCount : Nat := 0
  lateMax : Nat := 0
  pendingFullCount : Nat := 0
  dutyLimitCount : Nat := 0
  demand : Tbl Nat := []
  entries : Tbl Entry := []
  dyn : Tbl EpDyn := []
  sections : Tbl Section := []
  products : Tbl Product := []
  /-- The second of ticks in which the latest evaluation ran, and how many have run in it (R113). -/
  evalSec : Nat := 0
  evalCount : Nat := 0
  valveQ : List Effect := []
  effQ : List Effect := []
  deriving DecidableEq, Repr

/-- ESC (R117). Its events are held with their endpoints. -/
structure Esc where
  leadUs : Nat := 5000
  fault : Flags := {}
  cancelCount : Nat := 0
  drop : Tbl Nat := []
  deriving DecidableEq, Repr

/-! ### MPG (05_map_pager.md) -/

/-- A layer (R118, R153). -/
structure Layer where
  kind : Nat := 0
  cell : Nat := 0
  enable : Bool := false
  share : Bool := false
  samePass : Bool := false
  autoPass : Bool := true
  unknownMode : Bool := false
  unknownValue : Nat := 0
  use : Nat := 0
  isOver : Bool := false
  quota : Nat := 0xFFFFFFFF
  epoch : Word := 0
  /-- The heading at the start of the present pass epoch, in 1/65,536 units of a binary angle, none until a valid pose
  gives it (R126). -/
  startHeading : Option Int := none
  root : Option Nat := none
  /-- The ticks of the latest pose epochs at which the pass epoch advanced, newest first (R126). -/
  advances : List Nat := []
  deriving DecidableEq, Repr

/-- Where a tile is (R121): absent; in the table but not in the cache; in the cache; dropped or failed. -/
inductive Place where
  | absent
  | away
  | resident
  | lost
  deriving DecidableEq, Repr

/-- A tile (R122, R135, R139, R142). `cells` lists the cells other than 0 by cell index k (R120). -/
structure Tile where
  place : Place := .absent
  cells : Tbl Nat := []
  lastEpoch : Word := 0
  merged : Bool := false
  /-- Origin pairs, oldest first (R122). -/
  pairs : List (Nat × Word) := []
  dirty : Bool := false
  dirtyTick : Nat := 0
  unbacked : Bool := false
  /-- Order of becoming unbacked, or of being lost. -/
  order : Nat := 0
  frame : Option Nat := none
  header : Option Nat := none
  leafValid : Bool := false
  folded : Option Nat := none
  /-- Tick of the last failed fetch, waiting for its retry (R141). -/
  failTick : Option Nat := none
  /-- Tick of the last access, for the choice of the least recently used (R140). -/
  useTick : Nat := 0
  /-- It was read while it was not resident, so MPG fetches it (R121). -/
  sought : Bool := false
  deriving DecidableEq, Repr

/-- A grant (R131, R132): host address, size and arena offset in 2 MiB units, pool. -/
structure Grant where
  addr : Nat
  size : Nat
  pool : Nat
  offset : Nat
  deriving DecidableEq, Repr

/-- An open as-applied strip (R127, R398): its layer, the start of its present segment, the newest epoch centre, and the
rate the segment carries. Positions are in 1/65,536 mm. -/
structure Strip where
  layer : Nat
  /-- Waiting for the first pose with VALID set. -/
  waiting : Bool := false
  first : Bool := true
  startTick : Nat := 0
  startE : Int := 0
  startN : Int := 0
  /-- Centres at the pose epochs since the segment's start, newest first: tick, east, north. -/
  centres : List (Nat × Int × Int) := []
  rate : Nat := 0
  /-- The pass epoch its present segment belongs to (R126). -/
  epoch : Word := 0
  deriving DecidableEq, Repr

/-- A delta that waits for tiles to become resident: the tiles by key, and whether it is the device's own (R145). -/
structure MergeWait where
  delta : Delta
  keys : List Nat
  own : Bool := false
  deriving DecidableEq, Repr

/-- A PASS_ADVANCE that waits for the next pose epoch (R126). -/
structure PassWait where
  ring : Nat
  index : Word
  mask : Nat
  deriving DecidableEq, Repr

/-- MPG (R153). -/
structure Mpg where
  fault : Flags := {}
  domainId : Nat := 0
  reversalAngle : Nat := 0x6000
  segTol : Nat := 10
  segMax : Nat := 1000
  aheadMs : Nat := 2000
  wbInterval : Nat := 50
  tileDrop : Nat := 0
  mergeDrop : Nat := 0
  oor : Nat := 0
  unknownRead : Nat := 0
  layers : Tbl Layer := []
  tiles : Tbl Tile := []
  grants : List Grant := []
  /-- Units in use per pool, by arena offset in units of the pool, rising. -/
  used : Tbl (List Nat) := []
  /-- Leaf tables: (layer, leaf number) as one number, to the table's frame. -/
  leaves : Tbl (Option Nat) := []
  /-- The entries other than 0 of the root and leaf tables in host memory, by arena offset (R137). -/
  tables : Tbl Nat := []
  strips : Tbl (Option Strip) := []
  /-- The coverage sequence the next delta takes (R30). -/
  covSeq : Word := 0
  mergeQ : List MergeWait := []
  passWaits : List PassWait := []
  orderCount : Nat := 0
  freeCount : Nat := 0
  deriving DecidableEq, Repr

/-! ### PSE (06_pose_geometry.md) -/

/-- A geometry model (R159). -/
structure Model where
  model : Nat := 0
  fallback : Nat := 0
  rollComp : Bool := false
  antAX : Int := 0
  antAY : Int := 0
  antAZ : Int := 0
  antBX : Int := 0
  antBY : Int := 0
  antBZ : Int := 0
  towX : Int := 0
  towY : Int := 0
  hitchX : Int := 0
  axleX : Int := 0
  mountYaw : Int := 0
  followX : Int := 0
  followY : Int := 0
  deriving DecidableEq, Repr

/-- A pose in PSE: lengths in 1/65,536 mm, angles in 1/65,536 of a binary angle unit, rates per second; the 1-sigma
of each component in the same units, none while it has never been measured (R166, R167). -/
structure PoseState where
  tick : Nat := 0
  east : Int := 0
  north : Int := 0
  heading : Int := 0
  speed : Int := 0
  yaw : Int := 0
  sPos : Option Nat := none
  sHdg : Option Nat := none
  sSpd : Option Nat := none
  sYaw : Option Nat := none
  /-- VALID of a published pose (R173, R398). -/
  valid : Bool := false
  deriving DecidableEq, Repr

/-- Per measurement source and quantity (R171): consecutive rejections, the tick of the first of them and the best rejected
measurement of the run (tick, sigma, value: two coordinates or one), and the exclusion's end. Numbered 0 own position,
1 own heading, 2 EXT_FIX position, 3 EXT_FIX heading, 4 EXT_FIX speed, 5 ring position, 6 ring heading, 7 GNSS velocity,
8-11 FBU speed sources, 12 course over ground, 13 hitch line, 14 ring speed. -/
structure PSource where
  rejects : Nat := 0
  runTick : Nat := 0
  lastTick : Nat := 0
  lastAccepted : Option Nat := none
  excludedUntil : Option Nat := none
  bestTick : Nat := 0
  bestSigma : Nat := 0
  bestA : Int := 0
  bestB : Int := 0
  deriving DecidableEq, Repr

/-- A GEOMETRY_SET MODEL that waits for the next pose epoch (R161). -/
structure ModelWait where
  ring : Nat
  index : Word
  model : Model
  deriving DecidableEq, Repr

/-- The vehicle's pose as PSE carries it on under TRAILED and MOUNTED (R163, R164), with the 1-sigma and the tick of its
last position. -/
structure VehicleFix where
  pose : PoseState
  posTick : Option Nat := none
  sigma : Nat := 0
  deriving DecidableEq, Repr

/-- What the fusion carries from tick to tick (R166-R173): the pose, sigma_pos at the last accepted position and its tick,
the ticks of the last accepted headings by level and of any, of speeds, the last accepted heading for the yaw rate, each
source's last accepted tick (plus 1), the sources whose last accepted speed is not 0, and STANDSTILL. -/
structure Filter where
  pose : PoseState := {}
  sPos0 : Nat := 0
  posTick : Option Nat := none
  hdgTick : Option Nat := none
  lastPrimary : Option Nat := none
  lastFallback : Option Nat := none
  lastCog : Option Nat := none
  lastSpd : Option Nat := none
  lastHdg : Option (Nat × Int) := none
  vehicle : Option VehicleFix := none
  acc : Tbl Nat := []
  moving : List Nat := []
  standstill : Bool := false
  deriving DecidableEq, Repr

/-- The measurements of one source at one tick (R155, R168). `rank` orders equal ticks: 0 own GNSS, 1 ring, 2 EXT_FIX, 3-6
FBU speed sources. Positions are of antenna A (own), of the master's reference (ring), of the vehicle or the implement
(EXT_FIX); each has its value and 1-sigma in 1/65,536 of its unit. -/
structure PFix where
  tick : Nat
  rank : Nat
  pos : Option (Int × Int × Nat) := none
  hdg : Option (Int × Nat) := none
  spd : Option (Int × Nat) := none
  vel : Option (Int × Int × Nat) := none
  yaw : Option Int := none
  vehicle : Bool := false
  unsigned : Bool := false
  /-- The elevation of the antenna baseline, 2^32 to the turn (R162); the heading of an own fix is the baseline's azimuth. -/
  elev : Option Int := none
  /-- A re-initialisation: the value of this position or heading is taken as it is (R171), in the name of the one source
  that `skip` then lists. -/
  forced : Bool := false
  /-- Sources that were excluded when it came (R171). -/
  skip : List Nat := []
  deriving DecidableEq, Repr

/-- One speed source setting (R177). -/
structure SpeedSrc where
  channel : Nat := 0
  enable : Bool := false
  signed : Bool := false
  rel : Nat := 10
  floor : Nat := 5
  scale : Nat := 0
  deriving DecidableEq, Repr

/-- PSE (R177). -/
structure Pse where
  model : Model := {}
  modelWaits : List ModelWait := []
  originSet : Bool := false
  originLat : Int := 0
  originLon : Int := 0
  originHeight : Int := 0
  cur : PoseState := {}
  /-- Epochs before the latest as they were published, newest first, at most 64 (R155, R156). -/
  hist : List PoseState := []
  /-- The fusion's state at the latest epochs, newest first, at most 66, and the measurements since the oldest, in the order
  in which they apply (R155, R168). -/
  filters : List Filter := []
  fixes : List PFix := []
  /-- Measurements older than this tick are stale (R161). -/
  histFloor : Nat := 0
  valid : Bool := false
  /-- Acceptances from this tick on count for VALID (R173). -/
  validSince : Nat := 0
  /-- Up of the own solution (R157, R174). -/
  up : Int := 0
  standstill : Bool := false
  resetFlag : Bool := false
  pqual : BitVec 8 := 0
  sources : BitVec 8 := 0
  hdgLevel : Nat := 3
  epoch : Word := 0
  epochTick : Option Nat := none
  srcs : Tbl PSource := []
  fault : Flags := {}
  gate : Nat := 4
  rejectN : Nat := 5
  excludeS : Nat := 10
  cogMin : Nat := 1000
  posGrowth : Nat := 50
  hdgGrowth : Nat := 18
  speedSrcs : Tbl SpeedSrc := []
  rejectCount : Tbl Nat := []
  deriving DecidableEq, Repr

/-! ### GNB (07_gnss_baseband.md) -/

/-- A stored ephemeris record (R189, R191): its 128 bytes as one number, and the run of differing broadcast IODs. -/
structure Eph where
  system : Nat
  sv : Nat
  source : Nat
  iod : Nat
  health : Nat
  toe : Nat
  bits : BitVec 1024
  iodMisses : Nat := 0
  stale : Bool := false
  deriving DecidableEq, Repr

/-- The assistance record (R190). -/
structure Assist where
  calNs : Nat := 0
  atTick : Nat := 0
  timeUncUs : Nat := 0
  lat : Int := 0
  lon : Int := 0
  heightMm : Int := 0
  posUncM : Nat := 0
  deriving DecidableEq, Repr

/-- An EPHEMERIS_LOAD with the records that wait (R188). -/
structure EphWait where
  ring : Nat
  index : Word
  records : List Eph
  assists : List Assist
  deriving DecidableEq, Repr

/-- Antenna bias state (R180), codes 0-3. -/
inductive Bias where
  | off
  | ok
  | opened
  | short
  deriving DecidableEq, Repr

/-- A notch (R194, R203). -/
structure Notch where
  /-- The tick at which its peak was last seen above the threshold. -/
  overTick : Nat := 0
  enable : Bool := true
  active : Bool := false
  depthDb : Nat := 0
  offsetKhz : Int := 0
  deriving DecidableEq, Repr

/-- A band of an antenna (R192, R203). -/
structure Band where
  gain : Nat := 0
  median : Nat := 0
  interfered : Bool := false
  failTick : Nat := 0
  deriving DecidableEq, Repr

/-- What a tracking channel tracks (R179). -/
structure Track where
  system : Nat
  sv : Nat
  signal : Nat
  deriving DecidableEq, Repr

/-- GNB (R203). -/
structure Gnb where
  /-- The 192 tracking channels (R179). -/
  chans : Tbl (Option Track) := []
  /-- Channels with a cycle slip since their last report (R199). -/
  slips : List Nat := []
  /-- Signals whose ambiguities between the antennas are fixed (R195). -/
  ambiguities : List Track := []
  /-- Per channel: messages since lock (R200), and the last two bits of the last LNAV word (R201). -/
  msgCount : Tbl Nat := []
  lastBits : Tbl (Option (Bool × Bool)) := []
  /-- What the messages say (R187): ionosphere, UTC, GPS-Galileo and BeiDou-GPS offsets, and per SBAS satellite its messages,
  newest first, the latest 64. -/
  klobuchar : List Int := []
  utc : List Int := []
  galileoOffset : Option Int := none
  beidouOffset : Option Int := none
  sbas : Tbl (List (List Bool)) := []
  /-- The broadcast IOD last heard, by satellite and SOURCE (R191). -/
  iods : Tbl (Option Nat) := []
  /-- The running inter-system offsets (R192). -/
  isbRun : Tbl (Option Int) := []
  freeCount : Nat := 0
  fix : Bool := false
  /-- The last epoch with a solution, none before the first and once a solution has been lost for 2 s (R202). -/
  fixTick : Option Nat := none
  fixSinceReady : Bool := false
  /-- This power cycle has had a solution (R197). -/
  everFixed : Bool := false
  hdg : Bool := false
  burst : Bool := false
  armed : Bool := false
  /-- Tick since which burst tracking has been allowed without a break (R198). -/
  allowedSince : Option Nat := none
  resumeTick : Nat := 0
  timeOk : Bool := false
  signals : Nat := 0
  hdgSignals : Nat := 0
  fault : Flags := {}
  sysEn : Nat := 0x1F
  bandL1 : Bool := true
  bandL5 : Bool := true
  measRate : Nat := 3
  sbasCorr : Bool := true
  elevMask : Nat := 10
  ephMaxAge : Nat := 4
  biasEn : Tbl Bool := []
  bias : Tbl Bias := []
  /-- The bias current last sampled, none before the first since the bias came on (R180). -/
  biasMa : Tbl (Option Nat) := []
  shortTick : Tbl Nat := []
  burstEn : Bool := false
  burstMs : Nat := 60
  burstSpeed : Nat := 300
  resGate : Nat := 5
  clkTol : Nat := 300
  driftTol : Nat := 50
  agcTol : Nat := 6
  isbTol : Nat := 50
  isbHold : Nat := 60
  notchThresh : Nat := 15
  hdgMinSignals : Nat := 5
  hdgMinCn0 : Nat := 30
  baselineCfg : Nat := 0
  baselineMeas : Nat := 0
  baselineFails : Nat := 0
  measDiv : Nat := 0
  navEn : Bool := true
  navFailedEn : Bool := true
  notches : Tbl Notch := []
  bands : Tbl Band := []
  isbUntil : Tbl Nat := []
  eph : List Eph := []
  /-- EPHEMERIS_LOADs that wait for the next measurement epoch (R188). -/
  ephWait : List EphWait := []
  assist : Assist := {}
  ephInUse : Nat := 0
  navFail : Nat := 0
  exclude : Nat := 0
  solFail : Nat := 0
  measCount : Nat := 0
  lastMeasTick : Option Nat := none
  sinceReport : Nat := 0
  deriving DecidableEq, Repr

/-! ### FLP and DLK (08_links.md) -/

/-- Port state (R234), codes 0-3. -/
inductive PState where
  | down
  | up
  | running
  | secondary
  deriving DecidableEq, Repr

/-- A record waiting for or carried by a COMMAND frame (R215), with what R15 needs once it is acknowledged. -/
structure CmdRec where
  endpoint : Nat
  kind : Nat
  tag : Nat
  value : Nat
  tick : Nat := 0
  ep : Option Nat := none
  effect : Option Effect := none
  counted : Bool := false
  deriving DecidableEq, Repr

/-- A COMMAND frame sent and not yet acknowledged (R218). -/
structure SentFrame where
  seq : Nat
  records : List CmdRec
  sentTick : Nat
  retries : Nat := 0
  deriving DecidableEq, Repr

/-- A node of a field port (R207, R218, R221, R236). -/
structure Node where
  present : Bool := false
  safe : Bool := false
  syncOk : Bool := false
  dup : Bool := false
  hop : Nat := 0
  endpoints : Nat := 0
  seen : Bool := false
  lastBeat : Nat := 0
  lastReportTick : Nat := 0
  /-- SEQ of the reports last processed, newest first, at most 8, to know copies of them in a ring (R208, R209). -/
  repSeqs : List Nat := []
  singleBeats : Nat := 0
  safeBeats : Nat := 0
  sendSafe : Bool := false
  /-- It has sent a SEAT entry (R312). -/
  hasSeat : Bool := false
  seq : Nat := 0
  ackSeq : Nat := 0
  waiting : List CmdRec := []
  waitTick : Nat := 0
  sent : List SentFrame := []
  /-- Newest FEEDBACK entry per feedback channel: (tag, value) (R219, R286). -/
  feedback : Tbl (Option (Nat × Int)) := []
  deriving DecidableEq, Repr

/-- A field port or a device link port (R204, R236). -/
structure Port where
  state : PState := .down
  linked : Bool := false
  speedBad : Bool := false
  session : Nat := 0
  /-- The last session picked, kept when LNK resets (R210), and the tick from which BEATs go out. -/
  lastSession : Nat := 0
  beatFrom : Nat := 0
  beatCount : Word := 0
  ringClosed : Bool := false
  txNs : Nat := 0
  rxNs : Nat := 0
  unacked : Nat := 0
  reject : Nat := 0
  badFrame : Nat := 0
  /-- Device link ports: link_delay in 2^-16 ns, and the DELAY_REQ that waits for its answer (R213, R227). -/
  linkDelay : Int := 0
  reqT1 : Option Nat := none
  deriving DecidableEq, Repr

/-- A NODE_WRITE under way (R224, R225). -/
structure WritePend where
  ring : Nat
  index : Word
  port : Nat
  node : Nat
  addr : Nat
  op : Nat
  count : Nat
  data : Nat
  token : Nat
  startTick : Nat
  lastTick : Nat
  timeoutMs : Nat
  deriving DecidableEq, Repr

/-- FLP (R236). -/
structure Flp where
  portEn : BitVec 4 := 0
  ring01 : Bool := false
  ring23 : Bool := false
  etherType : Nat := 0x88B5
  timeout : Nat := 10
  recover : Nat := 100
  ackWait : Nat := 10
  retry : Nat := 2
  fault : Flags := {}
  ports : Tbl Port := []
  /-- Nodes by 256 x port + node. -/
  nodes : Tbl Node := []
  writes : List WritePend := []
  /-- The latest beat instant served (R211). -/
  beatTick : Nat := 0
  freeCount : Nat := 0
  deriving DecidableEq, Repr

/-- A sibling (R228, R233, R237). -/
structure Sibling where
  identity : Nat
  cls : Nat
  priority : Nat
  hops : Nat
  role : Nat
  candidate : Bool
  tqual : Nat
  instanceId : Word
  lastTick : Nat
  /-- Tick since which it has been a CLASS 1 candidate (R229). -/
  clsTick : Nat
  deriving DecidableEq, Repr

/-- A received frame's series: (origin, instance, type) and the last SEQ processed (R227). -/
structure Series where
  origin : Nat
  instanceId : Word
  type : Nat
  seq : Word
  deriving DecidableEq, Repr

/-- DLK (R237). -/
structure Dlk where
  portEn : BitVec 2 := 0
  elect : Bool := true
  priority : Nat := 128
  etherType : Nat := 0x88B6
  fault : Flags := {}
  instanceId : Word := 0
  instanceSet : Bool := false
  master : Bool := false
  masterId : Nat := 0
  ringClosed : Bool := false
  timeOk : Bool := false
  dupId : Bool := false
  dupTick : Nat := 0
  ports : Tbl Port := []
  /-- DLK_SIBLING slots. -/
  siblings : Tbl (Option Sibling) := []
  seen : List Series := []
  sendSeq : Tbl Word := []
  masterOffset : Int := 0
  masterHi : Word := 0
  masterUnc : Nat := 0
  /-- Own tick of the heartbeat behind the offset, and the offset's change per own tick in 2^-32 (R230). -/
  offTick : Option Nat := none
  masterRate : Int := 0
  /-- The latest instant of an own heartbeat, and the CLASS it announced with the tick since which (R228, R229). -/
  hbTick : Nat := 0
  ownCls : Nat := 0
  ownClsTick : Nat := 0
  covUnsent : Nat := 0
  covGap : Nat := 0
  /-- Deltas waiting for a COVERAGE frame, oldest first, and the tick of the first (R232). -/
  outQ : List Delta := []
  outTick : Nat := 0
  deriving DecidableEq, Repr

/-! ### LSB (09_load_switches.md) -/

/-- Who holds a channel (R239); the keeper's hold is a state of its own (R255). -/
inductive Holding where
  | escapement
  | direct
  | regulator
  | keeper
  deriving DecidableEq, Repr

/-- What a channel's holder commands (R242): off, on, PWM at a duty (0.1 %) and period (µs), or a current (mA) at a
frequency (Hz). -/
inductive ChCmd where
  | off
  | on
  | pwm (duty periodUs : Nat)
  | current (milliamp hz : Nat)
  deriving DecidableEq, Repr

/-- Protection state (R258), codes 0-2. -/
inductive Prot where
  | armed
  | tripped
  | latched
  deriving DecidableEq, Repr

/-- A load channel (R238-R258). `theta` is the wire model's rise in 2^-20 K. -/
structure Channel where
  holding : Holding := .direct
  context : Nat := 0
  bindCurrent : Bool := false
  bindArg : Nat := 0
  cmd : ChCmd := .off
  out : Bool := false
  /-- The tick at which the output last went off, and on. -/
  offTick : Nat := 0
  onTick : Nat := 0
  inrush : Bool := false
  inrushTick : Nat := 0
  pullin : Bool := false
  pullinTick : Nat := 0
  hold : Bool := false
  /-- The period edge from which the present PWM period runs, and a duty that applies from the next (R288). -/
  pwmTick : Nat := 0
  nextDuty : Option Nat := none
  prot : Prot := .armed
  retriesUsed : Nat := 0
  theta : Nat := 0
  sat : Bool := false
  openOn : Bool := false
  openOff : Bool := false
  shortBat : Bool := false
  tempC : Int := 0
  sense : Nat := 0
  faults : Flags := {}
  trips : Nat := 0
  /-- The keeper's hold: its start on the wall clock, or none. -/
  keepTick : Option Nat := none
  keepTripped : Bool := false
  /-- The channel took SAFE at a reset and waits for a re-claim (R255). -/
  inSafe : Bool := false
  /-- A CLEAR after a keeper trip, remembered to the re-claim (R255). -/
  clearSeen : Bool := false
  /-- HOLD_EN and PULLIN_MS as they stood at a reset, for the hold mode of the keeper and of SAFE (R255). -/
  keptHold : Option (Bool × Nat) := none
  /-- An endpoint's channel goes on as the keeper or SAFE left it, to the endpoint's first event (R256). -/
  carried : Bool := false
  /-- The tick from which the present command stands (R246), that of the last trip (R243), and the tick to which the wire
  model has run (R248). -/
  setTick : Nat := 0
  tripTick : Option Nat := none
  wireTick : Nat := 0
  /-- An OVERTEMP trip, and the channel has not come to 150 °C since (R247). -/
  hot : Bool := false
  /-- The coil search after a local ON: the tick of the ON (R251, R311). -/
  coil : Option Nat := none
  holdEn : Bool := false
  pullinMs : Nat := 30
  holdDuty : Nat := 40
  holdKhz : Nat := 16
  offDiag : Bool := true
  openOnMa : Nat := 5
  deriving DecidableEq, Repr

/-- One entry of a DIRECT_SWITCH (R241). -/
structure SwEntry where
  channel : Nat
  op : Nat
  value : Nat
  value2 : Nat
  context : Nat
  deriving DecidableEq, Repr

/-- A DIRECT_SWITCH that waits for its tick (R243). -/
structure SwWait where
  ring : Nat
  index : Word
  tick : Nat
  entries : List SwEntry
  deriving DecidableEq, Repr

/-- LSB (R258). -/
structure Lsb where
  /-- Banks that a supply event has cut off (R253), and PGND lost; a bank is in service while LSB is ready and neither
  holds. -/
  bankCut : Tbl Bool := []
  pgndLost : Bool := false
  /-- The cuts of a bank that have not met their return level: overvoltage, undervoltage (R253). -/
  overCut : Tbl Bool := []
  underCut : Tbl Bool := []
  reversed : Tbl Bool := []
  /-- Banks whose keeper has lost its supply (R256). -/
  keeperDead : Tbl Bool := []
  fault : Flags := {}
  vbat : Tbl Int := []
  hostC : Int := 0
  hostCTick : Nat := 0
  hostCStale : Bool := false
  moduleC : Int := 0
  chans : Tbl Channel := []
  waits : List SwWait := []
  /-- The model's own: how many duties of the current loop have been taken (log 169). -/
  freeCount : Nat := 0
  deriving DecidableEq, Repr

/-! ### FBU (10_feedback.md) -/

/-- A feedback channel (R259-R268, R282). -/
structure Fch where
  mode : Nat := 0
  quadX : Nat := 2
  fallEdge : Bool := false
  dirInv : Bool := false
  dirFix : Bool := false
  dirSel : Nat := 0
  scEn : Bool := false
  minEdge : Nat := 1
  refMode : Nat := 0
  missing : Nat := 1
  teeth : Nat := 0
  avg : Nat := 1
  stillMs : Nat := 500
  rptMs : Nat := 0
  pos : Int := 0
  scSpeed : Int := 0
  rev : Int := 0
  sync : Bool := false
  reverse : Bool := false
  still : Bool := true
  scSource : Bool := false
  scValid : Bool := false
  fine : Nat := 0
  angle : Nat := 0
  faults : Flags := {}
  idxErr : Int := 0
  edgeFast : Nat := 0
  levelA : Bool := false
  levelB : Bool := false
  lastA : Option Nat := none
  lastB : Option Nat := none
  /-- Tick of the last accepted and counted edge (R267, R280). -/
  edgeTick : Nat := 0
  anyEdge : Bool := false
  /-- Timed intervals since the last standstill or reversal, newest first: (ticks, intervals counted) (R266). -/
  intervals : List (Nat × Nat) := []
  lastInterval : Option Nat := none
  lastSpeed : Int := 0
  /-- Edges in the present direction since standstill or reversal (R267, R268). -/
  run : Nat := 0
  /-- Extra-tooth test under way: the short interval and the one before it (R262). -/
  extra : Option (Nat × Nat) := none
  sinceRef : Nat := 0
  refSeen : Bool := false
  skipCompare : Bool := true
  scCount : Int := 0
  scAngle : Option Nat := none
  scGood : Nat := 0
  /-- No edge has been accepted since the channel or its tracks were enabled (R265). -/
  scStart : Bool := false
  /-- The tick of the last sample of the tracks (R264). -/
  scTick : Option Nat := none
  scLatest : List (Nat × Int) := []
  /-- Recent fault events among the last expected intervals (R265). -/
  faultTicks : List Nat := []
  cleanEdges : Nat := 0
  /-- Fault count of the sin/cos advance since the last edge, in 1/1,024 period. -/
  scAdvance : Int := 0
  deriving DecidableEq, Repr

/-- A comparator (R271, R272, R282). -/
structure Cmp where
  value : Int := 0
  arm : Bool := false
  down : Bool := false
  immediate : Bool := false
  action : Nat := 0
  fired : Bool := false
  behind : Bool := false
  pulseUs : Nat := 10
  step : Int := 0
  level : Bool := false
  pulseTick : Option Nat := none
  deriving DecidableEq, Repr

/-- A probe (R270). -/
structure ProbeCfg where
  enable : Bool := false
  polarity : Nat := 0
  oneShot : Bool := false
  src : Nat := 0
  timer : Nat := 0
  deriving DecidableEq, Repr

/-- A repeater (R273, R274). -/
structure Rep where
  mode : Nat := 0
  inv : Bool := false
  /-- OVER_RATE, at its bit in FBU_REP_CFG. -/
  overRate : Flags := {}
  src : Nat := 0
  ppm : Nat := 130
  scale : Nat := 0
  acc : Nat := 0
  stopped : Bool := false
  /-- The level in ECHO; in a SYNTH mode the output is high for `high` ticks from its last pulse (R273). -/
  level : Bool := false
  pulseTick : Nat := 0
  high : Nat := 0
  poseTick : Nat := 0
  pulses : Nat := 0
  deriving DecidableEq, Repr

/-- An entry of a capture FIFO (R270, R279): the tick, the edge's polarity, and of a probe the position and FINE. -/
structure CapEntry where
  tick : Nat
  rising : Bool
  pos : Option Int := none
  fine : Option Nat := none
  deriving DecidableEq, Repr

/-- A capture timer (R276, R279): its FIFO, oldest first, and the level of its input as it last was. -/
structure Cap where
  enable : Bool := false
  input : Nat := 0
  polarity : Nat := 2
  probeOwner : Option Nat := none
  level : Bool := false
  fifo : List CapEntry := []
  deriving DecidableEq, Repr

/-- An analogue input (R275). -/
structure Ain where
  current : Bool := false
  avgLog2 : Nat := 0
  low : Bool := false
  high : Bool := false
  rptMs : Nat := 0
  value : Nat := 0
  lowLim : Nat := 0
  highLim : Nat := 0xFFFF
  samples : List Nat := []
  inside : Nat := 0
  deriving DecidableEq, Repr

/-- FBU (R282). -/
structure Fbu where
  fault : Flags := {}
  claimLast : Nat := 0
  claimCount : Nat := 0
  auxi : Tbl Nat := []
  auxo : Tbl Nat := []
  cmpRoute : Tbl Nat := []
  chans : Tbl Fch := []
  cmps : Tbl Cmp := []
  probes : Tbl ProbeCfg := []
  reps : Tbl Rep := []
  caps : Tbl Cap := []
  ains : Tbl Ain := []
  deriving DecidableEq, Repr

/-! ### RGE (11_regulators.md) -/

/-- A coefficient bank (R293). -/
structure Bank where
  order : Nat := 2
  fbScale : Nat := 0
  b : List Int := [0, 0, 0, 0]
  a : List Int := [0, 0, 0]
  pts : List (Int × Int) := [(0, 0), (0, 0), (0, 0), (0, 0), (0, 0), (0, 0), (0, 0)]
  deriving DecidableEq, Repr

/-- Context state (R309), codes 0-4. -/
inductive CtxState where
  | disabled
  | closed
  | lostHold
  | lostFf
  | safe
  deriving DecidableEq, Repr

/-- A bank swap that waits (R295, R320): mode, tick, and the descriptor that asked, or the calibrator. -/
structure SwapReq where
  mode : Nat
  tick : Nat
  byHost : Bool
  waiter : Option (Nat × Word) := none
  deriving DecidableEq, Repr

/-- A test-signal injection (R301, R302). -/
structure Inject where
  point : Nat
  wave : Nat
  log : Bool
  amp : Int
  duration : Nat
  p1 : Nat
  p2 : Nat
  tick : Nat
  waiter : Option (Nat × Word) := none
  j : Nat := 0
  /-- SWEEP phase in 2^-96 turn; PRBS register, stage k in bit k - 1. -/
  phase : Nat := 0
  lfsr : Nat := 0
  deriving DecidableEq, Repr

/-- A regulator context (R283-R309). -/
structure Ctx where
  enable : Bool := false
  period : Nat := 3
  spProduct : Bool := false
  product : Nat := 0
  ffEn : Bool := false
  idleZero : Bool := true
  lossMode : Nat := 1
  srcAddr : Nat := 0
  srcKind : Nat := 0
  tgtAddr : Nat := 0
  remote : Bool := false
  bound : Option Nat := none
  sampleOfs : Nat := 0
  outPhase : Nat := 20
  flightUs : Nat := 0
  outMax : Int := 8388607
  outMin : Int := 0
  setpoint : Int := 0
  lossMin : Int := 0
  spScale : Nat := 0
  fbShift : Nat := 24
  fbOffset : Int := 0
  moveMin : Nat := 83886
  frozenN : Nat := 50
  state : CtxState := .disabled
  bankSel : Bool := false
  bank0 : Bank := {}
  bank1 : Bank := {}
  clampHi : Bool := false
  clampLo : Bool := false
  tgtLost : Bool := false
  idle : Bool := false
  cause : Nat := 0
  y : Int := 0
  faults : Flags := {}
  lostCount : Nat := 0
  eHist : List Int := [0, 0, 0]
  hHist : List Int := [0, 0, 0]
  hPrev : Int := 0
  presetNext : Bool := false
  /-- The next sample takes h_prev from the present output: enabling (R292) and recovery (R300). -/
  presetY : Bool := false
  /-- ENABLE is set and the next sample instant, which starts the context in CLOSED, has not come (R292). -/
  starting : Bool := false
  swaps : List SwapReq := []
  inject : Option Inject := none
  /-- Injections that wait for their first sample, oldest first (R301). -/
  injects : List Inject := []
  samples : Word := 0
  startTick : Nat := 0
  sampleTick : Nat := 0
  lostTick : Nat := 0
  r : Int := 0
  f : Int := 0
  e : Int := 0
  v : Int := 0
  ff : Int := 0
  w : Int := 0
  raw : Int := 0
  /-- Lost-feedback tests (R298): when the speed conditions began; samples without a new tag; the frozen window. -/
  condTick : Option Nat := none
  tagLast : Option Nat := none
  tagStuck : Nat := 0
  tagFresh : Nat := 0
  frozen : List (Int × Int) := []
  aisBase : Int := 0
  hostOwnsShadow : Bool := false
  calStaged : Bool := false
  /-- Outputs that wait for their output phase: tick and value (R284, R292). -/
  outs : List (Nat × Int) := []
  /-- The output phase of the last record sent to a remote target (R289). -/
  lastOut : Nat := 0
  deriving DecidableEq, Repr

/-- A trace quarter (R303, R304): kept words, newest sample first. -/
structure Trace where
  busy : Bool := false
  context : Nat := 0
  nodes : Nat := 0
  trigger : Nat := 0
  decim : Nat := 1
  pre : Nat := 0
  samples : Nat := 0
  atTick : Nat := 0
  dest : Nat := 0
  kept : List (List Word) := []
  skip : Nat := 0
  trigIndex : Option Nat := none
  trigTick : Nat := 0
  /-- 0 running or done, 1 stopped, 2 context off (R304). -/
  status : Nat := 0
  ended : Bool := false
  deriving DecidableEq, Repr

/-- RGE (R309). -/
structure Rge where
  fault : Flags := {}
  statusMs : Nat := 0
  selContext : Nat := 0
  selShadow : Bool := false
  ctxs : Tbl Ctx := []
  traces : Tbl Trace := []
  /-- CTL alone is lost and SAFE_OUT has not reached the targets yet; the remote ones by context and address (R307). -/
  ctlLost : Bool := false
  lostTargets : List (Nat × Nat) := []
  deriving DecidableEq, Repr

/-! ### LCA (12_live_calibration.md) -/

/-- A delay policy of a product (R321). -/
structure DelayPol where
  mode : Nat := 0
  sources : Nat := 0
  deadband : Nat := 0
  stepMax : Nat := 0
  maxDev : Nat := 0
  minSamples : Nat := 0
  avgShift : Nat := 0
  outlier : Nat := 0
  coilLag : Int := 0
  respContext : Nat := 0
  stepMin : Nat := 0
  respLag : Int := 0
  deriving DecidableEq, Repr

/-- A meter policy of a context (R321) with its running sums (R318, R319). -/
structure MeterPol where
  mode : Nat := 0
  refCapture : Bool := false
  pressAin : Nat := 0
  swapMode : Nat := 0
  factorMax : Nat := 0
  pressZero : Nat := 0
  updateS : Nat := 0
  rhoRefCfg : Nat := 0
  steadyMs : Nat := 0
  rhoRef : Option Nat := none
  sum : Nat := 0
  count : Nat := 0
  startOptime : Nat := 0
  startTick : Nat := 0
  lastOptime : Nat := 0
  /-- Factors in force, newest first: (operating time at which each came into force, factor) (R319). -/
  history : List (Nat × Nat) := []
  base : Nat := 0
  staged : Option Nat := none
  /-- Demand at the start of the present steady stretch, and that stretch's start tick. -/
  steadyDemand : Nat := 0
  steadyTick : Nat := 0
  deriving DecidableEq, Repr

/-- The calibrator's view of one delay of one endpoint (R313, R314); `none` for an estimate that still stands at the
delay in force. -/
structure DelayCal where
  est : Option Int := none
  n : Nat := 0
  rejected : Nat := 0
  base : Option Nat := none
  staged : Option Nat := none
  stagedOrder : Nat := 0
  /-- The staged delay waits for APPLY_RATE (R315). -/
  held : Bool := false
  source : Nat := 0
  deriving DecidableEq, Repr

/-- LCA (R325). Delays by 2 x endpoint (on) and 2 x endpoint + 1 (off). -/
structure Lca where
  fault : Flags := {}
  applyRate : Nat := 16
  samples : Nat := 0
  rejected : Nat := 0
  applied : Nat := 0
  notDetected : Nat := 0
  viewEp : Nat := 0
  viewLocal : Bool := false
  order : Nat := 0
  /-- Ticks of the delays applied within the last second (R315). -/
  applyTicks : List Nat := []
  pols : Tbl DelayPol := []
  meters : Tbl MeterPol := []
  delays : Tbl DelayCal := []
  /-- Per product the last valve effect (tick plus 1) whose FLOW step has been judged (R312). -/
  flowDone : Tbl Nat := []
  /-- Recent feedback samples of the response contexts: (context, tick, f, CLOSED and not injecting) newest first (R312). -/
  respHist : List (Nat × Nat × Int × Bool) := []
  /-- Recent valve effects: (product, tick, on, endpoint, delay) newest first (R312). -/
  effHist : List (Nat × Nat × Bool × Nat × Nat) := []
  deriving DecidableEq, Repr

/-! ### The whole block -/

/-- The state of the block. -/
structure State where
  pending : List Instr := []
  sys : SysRegs := {}
  nv : Nv := {}
  out : Out := {}
  prs : Prs := {}
  tbu : Tbu := {}
  icu : Icu := {}
  evr : Evr := {}
  hre : Hre := {}
  gle : Gle := {}
  esc : Esc := {}
  mpg : Mpg := {}
  pse : Pse := {}
  gnb : Gnb := {}
  flp : Flp := {}
  dlk : Dlk := {}
  lsb : Lsb := {}
  fbu : Fbu := {}
  rge : Rge := {}
  lca : Lca := {}
  deriving DecidableEq, Repr

/-- The block right after power-on reset, before POR_N is released: every register at its reset value, nothing in any
store, no command waiting. Which reset values the spec gives and which are this model's is in assumption log 4. -/
def State.reset : State := {}

end Sys2Proof.Machine
end

