-- ==== Sys2Proof/Machine/Bits.lean ====
section
/-! DEFINITION. Bit fields, byte order, signs, saturation and rounding: the small arithmetic the meanings share. -/

namespace Sys2Proof.Machine

/-- The unsigned field of `len` bits at bit `lo`. -/
def bits (w : Word) (lo len : Nat) : Nat := (w.toNat / 2 ^ lo) % 2 ^ len

/-- Bit `i` of a register. -/
def bit (w : Word) (i : Nat) : Bool := bits w i 1 == 1

/-- A truth value as a register bit. -/
def b2n (b : Bool) : Nat := if b then 1 else 0

/-- A register word from its fields (lowest bit, width, value). -/
def pack (fs : List (Nat × Nat × Nat)) : Word :=
  BitVec.ofNat 32 (fs.foldl (fun acc f => acc + (f.2.2 % 2 ^ f.2.1) * 2 ^ f.1) 0)

/-- Bit `i` set. -/
def setBit (w : Word) (i : Nat) : Word := w ||| BitVec.ofNat 32 (2 ^ i)

/-- A status flag that hardware sets in a BUS cycle (R9). -/
def setFlag (f : Flags) (cyc i : Nat) : Flags :=
  { w := setBit f.w i, fresh := setBit (if f.cyc = cyc then f.fresh else 0) i, cyc }

/-- Writing 1 clears (R8), but for flags that hardware has set in the same BUS cycle (R9). -/
def w1c (f : Flags) (cyc : Nat) (v : Word) : Flags :=
  { f with w := f.w &&& ~~~(if f.cyc = cyc then v &&& ~~~f.fresh else v) }

/-- The two's complement of `n` bits that stands for `i` (R7). -/
def toTwos (n : Nat) (i : Int) : Nat := (i % (2 ^ n : Nat)).toNat

/-- The signed value of an `n`-bit two's complement. -/
def fromTwos (n : Nat) (v : Nat) : Int :=
  let m := v % 2 ^ n
  if 2 * m < 2 ^ n then (m : Int) else (m : Int) - (2 ^ n : Nat)

/-- A signed field of a register. -/
def sbits (w : Word) (lo len : Nat) : Int := fromTwos len (bits w lo len)

/-- The nearer limit for a value outside `lo` to `hi`. -/
def nearest (lo hi v : Nat) : Nat := if v < lo then lo else if hi < v then hi else v

/-- A count that saturates at `cap`. -/
def satAdd (cap v n : Nat) : Nat := min cap (v + n)

/-- A 32-bit count that saturates (R86 and others). -/
def count32 (v : Nat) : Nat := satAdd 0xFFFFFFFF v 1

/-- The clamp of an integer to `lo` … `hi`. -/
def clampInt (lo hi v : Int) : Int := if v < lo then lo else if hi < v then hi else v

/-- sat24 of R283. -/
def sat24 (v : Int) : Int := clampInt (-8388608) 8388607 v

/-- a / b rounded half up, for b > 0. -/
def divHalfUp (a : Int) (b : Nat) : Int := Int.fdiv (2 * a + b) (2 * b)

/-- a / b rounded toward zero. -/
def divTrunc (a b : Int) : Int := Int.tdiv a b

/-- a precedes b in serial arithmetic (R31). -/
def precedes (a b : Word) : Bool :=
  let d := (b - a).toNat
  decide (1 ≤ d) && decide (d ≤ 2147483647)

/-- a is at or before b in serial arithmetic (R31). -/
def atOrBefore (a b : Word) : Bool := decide (a = b) || precedes a b

/-- The same comparison modulo 2^16 for frame sequences (R209). -/
def precedes16 (a b : Nat) : Bool :=
  let d := (b + 65536 - a % 65536) % 65536
  decide (1 ≤ d) && decide (d ≤ 32767)

/-- The signed difference a - b of two binary angles given in 1/65,536 units (a full turn is 2^32). -/
def angleDiff (a b : Int) : Int := fromTwos 32 (toTwos 32 (a - b))

/-- A register write seen byte-enable by byte-enable is whole or nothing (R389). -/
def wordAt (bytes : List Byte) (off size : Nat) : Nat :=
  ((bytes.drop off).take size).foldr (fun b acc => b.toNat + 256 * acc) 0

/-- A signed little-endian field of a buffer. -/
def swordAt (bytes : List Byte) (off size : Nat) : Int := fromTwos (8 * size) (wordAt bytes off size)

/-- The first offset among checks (holds?, offset) that fail: the lowest offset whose check is false. -/
def firstBad (checks : List (Bool × Nat)) : Option Nat :=
  checks.foldl (fun acc c =>
    if c.1 then acc else match acc with
      | none => some c.2
      | some o => some (min o c.2)) none

end Sys2Proof.Machine
end

