-- ==== Sys2Proof/Machine/Num.lean ====
section
/-! DEFINITION. Integer square root, sine, cosine and arctangent on binary angles, in fixed point. The spec states the
results these give (R100, R157, R162-R165, R176, R264) and no precision for them: DESIGN CHOICE, assumption log 6.
An angle here is a fraction of a turn, 2^32 to the turn; a sine or cosine is in 2^-30. -/

namespace Sys2Proof.Machine

/-- The bits of a square root from bit `k - 1` down, given the part found so far. -/
def isqrtLoop (n : Nat) : Nat → Nat → Nat
  | 0, r => r
  | k + 1, r =>
    let c := r + 2 ^ k
    isqrtLoop n k (if c * c ≤ n then c else r)

/-- The square root of a natural number below 2^256, rounded down. -/
def isqrt (n : Nat) : Nat := isqrtLoop n 128 0

/-- The square root rounded up. -/
def isqrtUp (n : Nat) : Nat :=
  let r := isqrt n
  if r * r = n then r else r + 1

/-- x·y in 2^-40. -/
def mul40 (x y : Int) : Int := Int.fdiv (x * y) 1099511627776

/-- The sine of an angle of the first quarter turn (`q` below or at 2^30, 2^32 to the turn), in 2^-40: the Taylor
series to the 15th power. -/
def sinQuarter40 (q : Nat) : Int :=
  -- q / 2^30 quarter turns; pi/2 in 2^-40 is 1727108826178
  let x : Int := Int.fdiv (1727108826178 * q) 1073741824
  let x2 := mul40 x x
  let one : Int := 1099511627776
  let t := one - mul40 x2 one / 210
  let t := one - mul40 x2 t / 156
  let t := one - mul40 x2 t / 110
  let t := one - mul40 x2 t / 72
  let t := one - mul40 x2 t / 42
  let t := one - mul40 x2 t / 20
  let t := one - mul40 x2 t / 6
  mul40 x t

/-- The sine of a binary angle (2^32 to the turn), in 2^-30, rounded half up. -/
def sin30 (a : Int) : Int :=
  let u := toTwos 32 a
  let q := u % 1073741824
  let v := match u / 1073741824 with
    | 0 => sinQuarter40 q
    | 1 => sinQuarter40 (1073741824 - q)
    | 2 => - sinQuarter40 q
    | _ => - sinQuarter40 (1073741824 - q)
  clampInt (-1073741824) 1073741824 (divHalfUp v 1024)

/-- The cosine of a binary angle (2^32 to the turn), in 2^-30. -/
def cos30 (a : Int) : Int := sin30 (a + 1073741824)

/-- The tangent, in 2^-30; where the cosine is 0 the largest value its sign allows. -/
def tan30 (a : Int) : Int :=
  let c := cos30 a
  if c = 0 then (if 0 ≤ sin30 a then 1 else -1) * 1152921504606846976
  else Int.tdiv (sin30 a * 1073741824) c

/-- The arctangents of 2^-k for k = 1, 2, …, 2^32 to the turn, the first being that of 1. -/
def cordicTable : List Int :=
  [536870912, 316933406, 167458907, 85004756, 42667331, 21354465, 10679838, 5340245] ++
  [2670163, 1335087, 667544, 333772, 166886, 83443, 41722, 20861] ++
  [10430, 5215, 2608, 1304, 652, 326, 163, 81, 41, 20, 10, 5, 3, 1, 1, 0]

/-- The turning of a vector onto the positive x axis by the table's angles: `k` is the shift of the next one. -/
def cordic : List Int → Nat → Int → Int → Int → Int
  | [], _, _, _, z => z
  | t :: ts, k, x, y, z =>
    if 0 ≤ y then cordic ts (k + 1) (x + Int.fdiv y (2 ^ k : Nat)) (y - Int.fdiv x (2 ^ k : Nat)) (z + t)
    else cordic ts (k + 1) (x - Int.fdiv y (2 ^ k : Nat)) (y + Int.fdiv x (2 ^ k : Nat)) (z - t)

/-- The angle of the point (x, y) from the positive x axis toward positive y, 2^32 to the turn, in 0 to 2^32 - 1. -/
def atan2 (y x : Int) : Int :=
  let big : Int := 68719476736
  let z :=
    if y = 0 then (if 0 ≤ x then 0 else 2147483648)
    else if x = 0 then (if 0 ≤ y then 1073741824 else 3221225472)
    else if 0 ≤ x then cordic cordicTable 0 (x * big) (y * big) 0
    else 2147483648 + cordic cordicTable 0 (-x * big) (-y * big) 0
  (toTwos 32 z : Int)

/-- The heading of a displacement (east, north): clockwise from north (R11), 2^32 to the turn. -/
def headingOf (east north : Int) : Int := atan2 east north

/-- The length of a vector. -/
def hypot (x y : Int) : Nat := isqrt (x * x + y * y).toNat

end Sys2Proof.Machine
end

