-- ==== Sys2Proof/Machine/Ops.lean ====
section
/-! DEFINITION. The operations every meaning is built from: the passing of time, calendar time and its uncertainty,
domains and ready bits, interrupt sources, host memory writes, reports and the FAULT report. -/

namespace Sys2Proof.Machine

/-! ### Parts of the state -/

def State.onSys (f : SysRegs → SysRegs) (s : State) : State := { s with sys := f s.sys }
def State.onNv (f : Nv → Nv) (s : State) : State := { s with nv := f s.nv }
def State.onOut (f : Out → Out) (s : State) : State := { s with out := f s.out }
def State.onPrs (f : Prs → Prs) (s : State) : State := { s with prs := f s.prs }
def State.onTbu (f : Tbu → Tbu) (s : State) : State := { s with tbu := f s.tbu }
def State.onIcu (f : Icu → Icu) (s : State) : State := { s with icu := f s.icu }
def State.onEvr (f : Evr → Evr) (s : State) : State := { s with evr := f s.evr }
def State.onHre (f : Hre → Hre) (s : State) : State := { s with hre := f s.hre }
def State.onGle (f : Gle → Gle) (s : State) : State := { s with gle := f s.gle }
def State.onEsc (f : Esc → Esc) (s : State) : State := { s with esc := f s.esc }
def State.onMpg (f : Mpg → Mpg) (s : State) : State := { s with mpg := f s.mpg }
def State.onPse (f : Pse → Pse) (s : State) : State := { s with pse := f s.pse }
def State.onGnb (f : Gnb → Gnb) (s : State) : State := { s with gnb := f s.gnb }
def State.onFlp (f : Flp → Flp) (s : State) : State := { s with flp := f s.flp }
def State.onDlk (f : Dlk → Dlk) (s : State) : State := { s with dlk := f s.dlk }
def State.onLsb (f : Lsb → Lsb) (s : State) : State := { s with lsb := f s.lsb }
def State.onFbu (f : Fbu → Fbu) (s : State) : State := { s with fbu := f s.fbu }
def State.onRge (f : Rge → Rge) (s : State) : State := { s with rge := f s.rge }
def State.onLca (f : Lca → Lca) (s : State) : State := { s with lca := f s.lca }

/-- A ring's registers and queues (R53). -/
def State.ring (s : State) (n : Nat) : Ring := Tbl.get {} s.hre.rings n

/-- Ring `n` changed by `f`. -/
def State.onRing (n : Nat) (f : Ring → Ring) (s : State) : State :=
  s.onHre fun h => { h with rings := Tbl.modify {} h.rings n f }

/-- The member of the family (R2). -/
def State.part (s : State) : Part := s.sys.part

/-! ### Time -/

/-- 1 µs, 1 ms and 1 s of device ticks (R11). -/
def usTicks : Nat := 200
def msTicks : Nat := 200000
def secTicks : Nat := 200000000

/-- `dt` TMR cycles pass. Device ticks count only while the PLL is locked (R24); the wall count stands for the clocks
that do not depend on it. -/
def State.elapse (s : State) (dt : Nat) : State :=
  s.onTbu fun t => { t with tick := if t.pllLocked then t.tick + dt else t.tick, wall := t.wall + dt }

/-- The device tick now (R25). -/
def State.now (s : State) : Nat := s.tbu.tick

/-- The BUS cycle now: two TMR cycles (R23). -/
def State.cycle (s : State) : Nat := s.now / 2

/-- Calendar time at a device tick, ns (R27, R37): 0 while it is not valid. -/
def Tbu.calAt (t : Tbu) (tick : Nat) : Int :=
  if t.calValid then
    let d : Int := (tick : Int) - t.calTick
    t.calBase + 5 * d + Int.fdiv ((t.freq + t.slew) * d) 200000000
  else 0

/-- Calendar time at a device tick as a 64-bit field. -/
def Tbu.calField (t : Tbu) (tick : Nat) : Nat := toTwos 64 (t.calAt tick)

/-- Calendar time now as a 64-bit field. -/
def State.cal (s : State) : Nat := s.tbu.calField s.now

/-- The balance's model re-based at a device tick, so that a change of its rate leaves the past as it was. -/
def Tbu.rebase (t : Tbu) (tick : Nat) : Tbu :=
  if t.calValid then { t with calBase := t.calAt tick, calTick := tick } else t

/-- TBU_UNC (R35): saturating, and 0xFFFF_FFFF without calendar time. -/
def Tbu.uncAt (t : Tbu) (tick : Nat) : Nat :=
  if t.calValid then
    match t.bal with
    | .locked => min 0xFFFFFFFF (t.srcUnc + 20)
    | _ =>
      let d := tick - t.lossTick
      min 0xFFFFFFFF (t.srcUnc +
        (t.rate * d * 200000000000 + t.accel * d * d) / (200000000 * 200000000 * 1000))
  else 0xFFFFFFFF

/-- The balance state's code (R34). -/
def BalState.code : BalState → Nat
  | .freerun => 0
  | .holdover => 1
  | .locked => 2

/-- The time-quality byte (R36). -/
def Tbu.tqual (t : Tbu) (tick : Nat) : Nat :=
  let stepped := match t.stepTick with
    | some k => decide (tick ≤ k + 2 * secTicks)
    | none => false
  t.bal.code + 4 * b2n t.calValid + 8 * b2n t.slewEnd.isSome + 16 * t.source + 128 * b2n stepped

/-! ### Domains and ready bits -/

/-- Whether power domain `d` (R358) is powered and out of reset. -/
def State.powered (s : State) (d : Nat) : Bool := s.prs.powered.getLsbD d

/-- Whether ready bit `b` (R360) is set. -/
def State.isReady (s : State) (b : Nat) : Bool := s.prs.ready.getLsbD b

/-- The domain an interrupt source's block lives in (R14, R326). -/
def srcDomain (n : Nat) : Nat :=
  if n < 64 then 1
  else if n < 96 then 2
  else if n < 128 then 3
  else if n < 160 then 2
  else if n < 224 then 4
  else if n < 288 then 5
  else if n < 352 then 7
  else if n < 464 then 6
  else 0

/-! ### Interrupt sources (R327, R328) -/

/-- An interrupt source's registers and stages. -/
def State.src (s : State) (n : Nat) : Src := Tbl.get {} s.icu.srcs n

def State.onSrc (n : Nat) (f : Src → Src) (s : State) : State :=
  s.onIcu fun i => { i with srcs := Tbl.modify {} i.srcs n f }

/-- The source becomes pending at a tick, and may commit from a BUS cycle on. -/
def Src.pend (c : Src) (tick due : Nat) : Src :=
  if c.pending then c else { c with pending := true, pendTick := tick, dueCycle := due }

/-- The coalescing window closes and the source becomes pending (R328); it may commit one BUS cycle later (R339). -/
def Src.closeWindow (c : Src) (tick : Nat) : Src :=
  { (c.pend tick (tick / 2 + 1)) with windowTick := none, windowCount := 0, windowDone := true, setCycle := some (tick / 2) }

/-- An accepted event: the counter, then coalescing (R327, R328), which sets the pending bit in the next BUS cycle
(R339). -/
def Src.accept (c : Src) (tick : Nat) : Src :=
  let c := { c with events := satAdd 255 c.events 1, lastTick := some tick }
  if c.windowDone then c
  else
    let c := { c with windowTick := some (c.windowTick.getD tick), windowCount := c.windowCount + 1 }
    if c.count ≤ c.windowCount then c.closeWindow (tick + 2) else c

/-- Whether the filter merges an event into the last accepted one (R327), in BUS cycles of 2 ticks. -/
def Src.merges (c : Src) (tick : Nat) : Bool :=
  match c.lastTick with
  | some k => decide (tick / 2 < k / 2 + c.filter)
  | none => false

/-- One event on a source through the stages of R327. -/
def Src.event (c : Src) (tick : Nat) : Src := if c.merges tick then c else c.accept tick

/-- Source `n` raises an event; a block whose domain is off raises none (R326). -/
def State.raise (n : Nat) (s : State) : State :=
  if s.powered (srcDomain n) then s.onSrc n (fun c => c.event s.now) else s

/-! ### Reports (R74-R76) -/

/-- A field of a report, a frame or a record. -/
def fld (off size val : Nat) : Fld := { off, size, val := val % 2 ^ (8 * size) }

/-- A signed field. -/
def sfld (off size : Nat) (val : Int) : Fld := { off, size, val := toTwos (8 * size) val }

/-- LENGTH of a report: the payload bytes its fields use (R74). -/
def Report.length (r : Report) : Nat :=
  r.payload.foldl (fun m f => max m (f.off + f.size)) 16 - 16

/-- The bytes of a field at an offset of a buffer of `n` bytes. -/
def fieldByte (fs : List Fld) (i : Nat) : Byte :=
  match fs.find? (fun f => decide (f.off ≤ i) && decide (i < f.off + f.size)) with
  | some f => BitVec.ofNat 8 (f.val / 2 ^ (8 * (i - f.off)))
  | none => 0

/-- The 64 bytes of a report (R74). -/
def Report.bytes (r : Report) : List Byte :=
  let fs := [fld 0 1 r.opcode, fld 1 1 r.flags, fld 2 2 r.length, fld 4 4 r.seq.toNat, fld 8 8 r.tick] ++ r.payload
  (List.range 64).map (fieldByte fs)

/-- A ring's size in slots (R53). -/
def Ring.size (r : Ring) : Nat := 2 ^ r.log2

/-- Slots of a ring that the other side has not yet taken (R53). -/
def Ring.used (r : Ring) : Nat := (r.prod - r.cons).toNat

/-- Whether the ring takes work or reports. -/
def Ring.isEnabled (r : Ring) : Bool := match r.mode with
  | .disabled => false
  | .draining => false
  | _ => true

/-- The address of a slot of a ring (R53). -/
def Ring.slotAddr (r : Ring) (i : Word) : Nat := r.base + 64 * (i.toNat % r.size)

/-- Something leaves for host memory. -/
def State.hostWrite (w : HostWrite) (s : State) : State := s.onOut fun o => { o with host := w :: o.host }

/-- LENGTH of a frame: COMMAND and COVERAGE by their records, any other to its last field (R209, R215, R226, R232). -/
def Frame.bodyBytes (f : Frame) : Nat :=
  if f.type = 2 then 8 * f.records.length
  else if f.type = 0x23 then 8 + 48 * f.records.length
  else f.body.foldl (fun n x => max n (x.off + x.size)) 0

/-- The Ethernet side of a frame and the parts of its header that are the same for all of its kind (R205, R209, R226); a
forwarded frame keeps its LENGTH. -/
def Frame.addressed (f : Frame) (etherType : Nat) : Frame :=
  { f with dst := if f.link = 0 then 0x03000000B500 else 0x03000000B600, src := 0x020000000000, etherType, version := 1,
           length := if f.forwarded then f.length else f.bodyBytes }

/-- A frame leaves on a port. -/
def State.sendFrame (f : Frame) (s : State) : State :=
  s.onOut fun o => { o with frames := f.addressed (if f.link = 0 then s.flp.etherType else s.dlk.etherType) :: o.frames }

/-- A fault flag of HRE. -/
def State.hreFault (i : Nat) (s : State) : State := s.onHre fun h => { h with fault := setFlag h.fault s.cycle i }

/-- A dropped or lost COVERAGE_DELTA counts, and raises COV_DROP (R75, R76). -/
def State.covDrop (op : Nat) (s : State) : State :=
  if op = 0x41 then (s.onHre fun h => { h with covDrop := count32 h.covDrop }).raise 55 else s

/-- A report of an opcode whose route or ring is disabled is dropped and counted (R70, R75); HRE in reset counts
nothing. -/
def State.dropRouted (op : Nat) (s : State) : State :=
  if s.powered 1 then
    ((s.onHre fun h => { h with rptDrop := Tbl.modify 0 h.rptDrop (op - 0x40) count32 }).hreFault 3).covDrop op
  else s

/-- A report that finds its ring and backlog full is dropped and counted (R76). -/
def State.dropQueued (ring op : Nat) (s : State) : State :=
  ((((s.onRing ring fun r => { r with dropped := true }).onHre fun h =>
      { h with rqDrop := Tbl.modify 0 h.rqDrop (ring - 16) count32 }).hreFault 3).raise (16 + ring)).covDrop op

/-- A report takes its sequence number and its slot (R30, R53, R74). -/
def State.writeReport (ring : Nat) (rp : Report) (s : State) : State :=
  let r := s.ring ring
  ((s.hostWrite (.report ring (r.slotAddr r.prod) { rp with seq := r.seq })).onRing ring fun r =>
    { r with seq := r.seq + 1, prod := r.prod + 1 }).raise ring

/-- Whether a report ring is full (R53). -/
def Ring.isFull (r : Ring) : Bool := decide (r.size ≤ r.used)

/-- A report for an enabled report ring: written, held in the backlog of 64, or dropped (R76). -/
def State.enqueue (ring : Nat) (rp : Report) (s : State) : State :=
  let r := s.ring ring
  let rp' := { rp with flags := rp.flags + b2n r.dropped }
  if r.backlog = [] ∧ r.isFull = false then
    (s.onRing ring fun r => { r with dropped := false }).writeReport ring rp'
  else if r.backlog.length < 64 then
    s.onRing ring fun r => { r with dropped := false, backlog := r.backlog ++ [rp'] }
  else s.dropQueued ring rp.opcode

/-- A report ring's number for an opcode, and whether its route is enabled (R75). -/
def State.route (s : State) (op : Nat) : Route := Tbl.get {} s.hre.routes (op - 0x40)

/-- A report of any opcode but COMPLETION (R75). `flags` has bit 0 clear. -/
def State.report (op flags tick : Nat) (payload : List Fld) (s : State) : State :=
  let rt := s.route op
  let ring := 16 + rt.ring
  if rt.enable = true ∧ (s.ring ring).isEnabled = true then
    s.enqueue ring { opcode := op, flags, tick, payload }
  else s.dropRouted op

/-- The FAULT report (R78). -/
def State.faultReport (code subject source value value2 : Nat) (s : State) : State :=
  s.report 0x4A 0 s.now
    [fld 16 2 code, fld 18 2 subject, fld 20 2 source, fld 24 4 value, fld 28 4 value2, fld 32 8 s.cal]

/-- A host memory access fails: HRE_FAULT.DMA_ERROR and its source (R85, R86). -/
def State.dmaError (s : State) : State := (s.hreFault 1).raise 53

/-- What a command answers. -/
abbrev Answer := Host.Outcome State Fault Refusal

/-- Host accesses reach the block: the PCIe link is up and HST is powered (R83). -/
def State.hostUp (s : State) : Bool := s.hre.linkUp && s.powered 1

/-- Host accesses reach a block: the link is up and the block's domain `d` is on (R19, R83). -/
def State.hostTo (s : State) (d : Nat) : Bool := s.hostUp && s.powered d

/-- `f` where a condition holds; otherwise nothing but the time that has passed (assumption log 3). -/
def State.when (b : Bool) (f : State → State) (s : State) : State := if b then f s else s

/-- The value of a register read that the block answers (R391). -/
def State.readOut (w : Word) (s : State) : State := s.onOut fun o => { o with readData := w }

end Sys2Proof.Machine
end

