-- ==== Sys2Proof/Machine/View.lean ====
section
/-! DEFINITION. What the registers show that no field holds as such: interrupt candidates, load channel classes,
feedback speeds, regulator rates, counts. -/

namespace Sys2Proof.Machine

/-! ### ICU -/

def State.target (s : State) (t : Nat) : Target := Tbl.get {} s.icu.targets t

def State.onTarget (t : Nat) (f : Target → Target) (s : State) : State :=
  s.onIcu fun i => { i with targets := Tbl.modify {} i.targets t f }

/-- Source `n` is in a target's slot (R340). -/
def State.committed (s : State) (n : Nat) : Bool :=
  s.icu.targets.any fun e => match e.2.slot with
    | some c => c.source == n
    | none => false

/-- The effective target of a source (R336): its own, or for a parked one the fallback it has moved to. -/
def State.effTarget (s : State) (n : Nat) : Nat :=
  let c := s.src n
  let t := s.target c.target
  if t.parked && t.fbEn && (t.fallback != c.target) && (c.moved || t.graceUs == 0)
      && !(s.target t.fallback).parked then t.fallback else c.target

/-- The running level of a target (R330). -/
def Target.level (t : Target) : Nat := t.stack.headD 0

/-- Source `n` would deliver at target `t` but for the park and the levels. -/
def State.waits (s : State) (t n : Nat) : Bool :=
  let c := s.src n
  c.pending && !c.masked && decide (1 ≤ c.priority) && !s.committed n && s.effTarget n == t

/-- The sources in the table whose registers differ from reset: only these can be pending. -/
def State.sources (s : State) : List Nat := s.icu.srcs.map Prod.fst

/-! ### LSB -/

/-- Channel `n` is of class H (R238). -/
def State.classH (s : State) (n : Nat) : Bool :=
  decide (24 ≤ n) && Config.loadChannels s.part == 32

/-- The bank of a channel: 0 A, 1 B (R238). -/
def State.bankOf (s : State) (n : Nat) : Nat :=
  if 16 ≤ n ∧ Config.loadChannels s.part = 32 then 1 else 0

/-- A bank in service (R253, R258): LSB ready, the bank not cut off, PGND present. -/
def State.bankOn (s : State) (b : Nat) : Bool :=
  s.isReady 2 && !(Tbl.get false s.lsb.bankCut b) && !s.lsb.pgndLost

def State.chan (s : State) (n : Nat) : Channel := Tbl.get {} s.lsb.chans n

def State.chNv (s : State) (n : Nat) : ChNv := Tbl.get {} s.nv.channels n

/-- LATCH_MA: 3,000 mA (S) or 10,000 mA (H) as shipped (R258). -/
def State.latchMa (s : State) (n : Nat) : Nat :=
  (s.chNv n).latchMa.getD (if s.classH n then 10000 else 3000)

/-! ### FBU -/

def State.fch (s : State) (n : Nat) : Fch := Tbl.get {} s.fbu.chans n

/-- FBU_CH_SPEED (R266, R267): the last interval speed, or in magnitude the bound of one count over the time since the
last edge; 0 in standstill. -/
def Fch.speedAt (c : Fch) (tick : Nat) : Int :=
  let d := tick - c.edgeTick
  if c.still = true ∨ c.stillMs * msTicks ≤ d then 0
  else if d = 0 then c.lastSpeed
  else
    let bound : Int := ((16 * secTicks / d : Nat) : Int)
    if 0 ≤ c.lastSpeed then min c.lastSpeed bound else max c.lastSpeed (-bound)

def State.fchSpeed (s : State) (n : Nat) : Int := (s.fch n).speedAt s.now

def State.fcmp (s : State) (m : Nat) : Cmp := Tbl.get {} s.fbu.cmps m
def State.cap (s : State) (k : Nat) : Cap := Tbl.get {} s.fbu.caps k
def State.ain (s : State) (a : Nat) : Ain := Tbl.get {} s.fbu.ains a
def State.rep (s : State) (r : Nat) : Rep := Tbl.get {} s.fbu.reps r
/-- TP_OUT at its pin: active high, or low with POL (R43, R44). -/
def State.tpLevel (s : State) : Bool := s.tbu.tpActive != s.tbu.tpPol

/-- The level of a repeater's output (R273): a SYNTH output rests low between its pulses. -/
def State.repLevel (s : State) (r : Nat) : Bool :=
  let p := s.rep r
  match p.mode with
  | 1 => p.level
  | 2 | 3 => !p.stopped && p.pulses != 0 && decide (s.now < p.pulseTick + p.high)
  | _ => false

/-- The level of an output function (R271, R273, R276, R278): a comparator as FBU_CMP_ROUTE names it, a repeater, a copy of
TP_OUT or of BEAT_OUT. -/
def State.functionLevel (s : State) (f : Nat) : Bool :=
  if 1 ≤ f ∧ f ≤ 4 then (s.fcmp (Tbl.get 0 s.fbu.cmpRoute (f - 1))).level
  else if 5 ≤ f ∧ f ≤ 8 then s.repLevel (f - 5)
  else if f = 9 then s.tpLevel
  else f == 10 && s.prs.beatLevel

/-- The level of an AUXO ball (R276, R278): low without a function, and while CTL is off or in reset. -/
def State.auxoLevel (s : State) (k : Nat) : Bool := s.isReady 3 && s.functionLevel (Tbl.get 0 s.fbu.auxo k)

def State.fprobe (s : State) (j : Nat) : ProbeCfg := Tbl.get {} s.fbu.probes j

/-! ### RGE -/

def State.ctx (s : State) (c : Nat) : Ctx := Tbl.get {} s.rge.ctxs c

/-- The context number exists on the member (R5, R390); 0 is the self-test. -/
def State.ctxExists (s : State) (c : Nat) : Bool := decide (c ≤ Config.regContexts s.part)

/-- The sample period in µs of a PERIOD code (R284). -/
def periodUs : Nat → Nat
  | 0 => 125
  | 1 => 250
  | 2 => 500
  | 3 => 1000
  | 4 => 2000
  | _ => 4000

/-- The context state's code (R309). -/
def CtxState.code : CtxState → Nat
  | .disabled => 0
  | .closed => 1
  | .lostHold => 2
  | .lostFf => 3
  | .safe => 4

/-- The bank in use, and the shadow bank (R293). -/
def Ctx.active (c : Ctx) : Bank := if c.bankSel then c.bank1 else c.bank0
def Ctx.shadow (c : Ctx) : Bank := if c.bankSel then c.bank0 else c.bank1

/-! ### Links -/

def State.port (s : State) (p : Nat) : Port := Tbl.get {} s.flp.ports p
def State.dport (s : State) (q : Nat) : Port := Tbl.get {} s.dlk.ports q

/-- Node `n` of field port `p`. -/
def State.node (s : State) (p n : Nat) : Node := Tbl.get {} s.flp.nodes (256 * p + n)

/-- A port state's code (R234). -/
def PState.code : PState → Nat
  | .down => 0
  | .up => 1
  | .running => 2
  | .secondary => 3

/-- Nodes PRESENT on a port (R236). -/
def State.nodesPresent (s : State) (p : Nat) : Nat :=
  (s.flp.nodes.filter fun e => e.1 / 256 == p && e.2.present).length

/-- Devices seen on the Tebecia ring, self included (R237): 0 while no device link port is enabled. -/
def State.members (s : State) : Nat :=
  if s.dlk.portEn = 0#2 then 0 else s.dlk.siblings.length + 1

/-! ### MPG -/

def State.layer (s : State) (l : Nat) : Layer := Tbl.get {} s.mpg.layers l

/-- Units of a pool in 2 MiB of granted memory (R131). -/
def poolUnitsPer2M : Nat → Nat
  | 0 => 256
  | 1 => 128
  | 2 => 64
  | 3 => 16
  | 4 => 32768
  | _ => 4

/-- Units granted to a pool (R131). -/
def State.poolUnits (s : State) (c : Nat) : Nat :=
  ((s.mpg.grants.filter fun g => g.pool == c).map fun g => g.size * poolUnitsPer2M c).foldl (· + ·) 0

/-- Units of a pool in use. -/
def State.poolUsed (s : State) (c : Nat) : Nat := (Tbl.get [] s.mpg.used c).length

/-- Free units of a pool (R153). -/
def State.poolFree (s : State) (c : Nat) : Nat := s.poolUnits c - s.poolUsed c

/-- Unbacked tiles held (R135). -/
def State.unbackedCount (s : State) : Nat := (s.mpg.tiles.filter fun e => e.2.unbacked).length

/-! ### GLE and ESC -/

def State.entry (s : State) (ep : Nat) : Entry := Tbl.get {} s.gle.entries ep

/-- The dynamic state of an endpoint that nothing has touched. -/
def EpDyn.zero : EpDyn := {}

def State.dyn (s : State) (ep : Nat) : EpDyn := Tbl.get {} s.gle.dyn ep
def State.section_ (s : State) (n : Nat) : Section := Tbl.get {} s.gle.sections n
def State.product (s : State) (p : Nat) : Product := Tbl.get {} s.gle.products p

/-- Local endpoints are numbered from here (assumption log 1). -/
def localBase : Nat := 262144

/-- The events an endpoint has in the escapement, wheel and overflow list (R109). -/
def EpDyn.events (d : EpDyn) : List PEvent := d.onEv.toList ++ d.offEv.toList

/-- Events pending in ESC. -/
def State.escPending (s : State) : Nat :=
  (s.gle.dyn.map fun e => e.2.events.length).foldl (· + ·) 0

/-- Events in the overflow list. -/
def State.escOverflow (s : State) : Nat :=
  (s.gle.dyn.map fun e => (e.2.events.filter fun v => v.far).length).foldl (· + ·) 0

/-! ### LCA -/

def State.delayCal (s : State) (k : Nat) : DelayCal := Tbl.get {} s.lca.delays k

/-- Staged delays that have not applied (R325). -/
def State.stagedCount (s : State) : Nat := (s.lca.delays.filter fun e => e.2.staged.isSome).length

end Sys2Proof.Machine
end

