-- ==== Sys2Proof/Machine/Geom.lean ====
section
/-! DEFINITION. Plane geometry of the field frame: the path of R100, interpolation between epochs (R156), footprints
and their overlap with cells (R100, R104). Lengths are in 1/65,536 mm, angles 2^32 to the turn. -/

namespace Sys2Proof.Machine

/-- A yaw rate of 0 in binary angle units (R100). -/
def PoseState.straight (p : PoseState) : Bool := divHalfUp p.yaw 65536 == 0

/-- ω × y for y in mm: the forward speed that the yaw rate gives a point at implement-frame y (R100). -/
def PoseState.yawSpeed (p : PoseState) (y : Int) : Int := Int.fdiv (y * p.yaw * 6283185307) 65536000000000

/-- The forward speed of a point at implement-frame y (R100). -/
def PoseState.speedAtY (p : PoseState) (y : Int) : Int := p.speed + p.yawSpeed y

/-- The heading after `dt` ticks at the pose's yaw rate (R100). -/
def PoseState.headingAfter (p : PoseState) (dt : Int) : Int := p.heading + Int.fdiv (p.yaw * dt) 200000000

/-- The path of constant speed and yaw rate: (east, north, heading) `dt` ticks after the pose (R100). -/
def PoseState.ahead (p : PoseState) (dt : Int) : Int × Int × Int :=
  if p.straight then
    let d := Int.fdiv (p.speed * dt) 200000000
    (p.east + Int.fdiv (d * sin30 p.heading) 1073741824, p.north + Int.fdiv (d * cos30 p.heading) 1073741824, p.heading)
  else
    let psi := p.headingAfter dt
    let r := divTrunc (p.speed * 4294967296000000000) (6283185307 * p.yaw)
    (p.east + Int.fdiv (r * (cos30 p.heading - cos30 psi)) 1073741824,
     p.north + Int.fdiv (r * (sin30 psi - sin30 p.heading)) 1073741824, psi)

/-- The field-frame east and north of an implement-frame point (x, y) in mm at a heading (R100). -/
def rotE (x y psi : Int) : Int := Int.fdiv (x * sin30 psi - y * cos30 psi) 16384
def rotN (x y psi : Int) : Int := Int.fdiv (x * cos30 psi + y * sin30 psi) 16384

/-- The pose between two epochs (R156): `a` the earlier, `b` the later. -/
def interp (a b : PoseState) (tick : Nat) : PoseState :=
  let n : Int := (tick : Int) - a.tick
  let w : Int := (b.tick : Int) - a.tick
  if w = 0 then b
  else
    { b with tick, east := a.east + Int.fdiv ((b.east - a.east) * n) w,
             north := a.north + Int.fdiv ((b.north - a.north) * n) w,
             heading := a.heading + Int.fdiv (angleDiff b.heading a.heading * n) w }

/-- The pose at a tick, from epochs newest first: between the two it lies in, else the nearest kept one. -/
def poseIn : List PoseState → Nat → Option PoseState
  | [], _ => none
  | [p], _ => some p
  | b :: a :: t, tick =>
    if b.tick ≤ tick then some b
    else if a.tick ≤ tick then some (interp a b tick)
    else poseIn (a :: t) tick

/-- PSE's pose interpolated to a tick (R15, R156). -/
def State.poseAt (s : State) (tick : Nat) : PoseState :=
  (poseIn (s.pse.cur :: s.pse.hist) tick).getD s.pse.cur

/-- The footprint centre of an implement-frame point under a pose, in 1/65,536 mm. -/
def PoseState.centre (p : PoseState) (x y : Int) : Int × Int :=
  (p.east + rotE x y p.heading, p.north + rotN x y p.heading)

/-! ### Footprints -/

/-- A footprint (R100): its centre, the sine and cosine of its heading in 2^-30, its half length and half width, and
the endpoint's own forward speed. -/
structure Foot where
  e : Int
  n : Int
  sn : Int
  cs : Int
  hl : Int
  hw : Int
  ve : Int
  deriving DecidableEq, Repr

/-- LENGTH in 10 mm units; 0 is taken as 1 (R87). -/
def Entry.lengthUnits (e : Entry) : Nat := if e.length = 0 then 1 else e.length

/-- The footprint of an endpoint predicted to a tick (R100). -/
def PoseState.foot (p : PoseState) (en : Entry) (tick : Nat) : Foot :=
  let a := p.ahead ((tick : Int) - p.tick)
  { e := a.1 + rotE en.xMm en.yMm a.2.2, n := a.2.1 + rotN en.xMm en.yMm a.2.2,
    sn := sin30 a.2.2, cs := cos30 a.2.2,
    hl := 327680 * en.lengthUnits, hw := 81920 * en.width, ve := p.speedAtY en.yMm }

/-- The point `al` along the heading and `ac` to its right of the centre. -/
def Foot.corner (f : Foot) (al ac : Int) : Int × Int :=
  (f.e + Int.fdiv (al * f.sn + ac * f.cs) 1073741824, f.n + Int.fdiv (al * f.cs - ac * f.sn) 1073741824)

/-- The corners of a footprint. -/
def Foot.corners (f : Foot) : List (Int × Int) :=
  [f.corner f.hl f.hw, f.corner f.hl (-f.hw), f.corner (-f.hl) (-f.hw), f.corner (-f.hl) f.hw]

/-- One edge of a polygon cut by the half-plane where `f` is at or above 0: its start if inside, then the crossing. -/
def clipEdge (f : Int × Int → Int) (p q : Int × Int) : List (Int × Int) :=
  let a := f p
  let b := f q
  let cut : Int × Int := (p.1 + divTrunc ((q.1 - p.1) * a) (a - b), p.2 + divTrunc ((q.2 - p.2) * a) (a - b))
  if 0 ≤ a then (if 0 ≤ b then [p] else [p, cut]) else (if 0 ≤ b then [cut] else [])

/-- A polygon cut by a half-plane. -/
def clipPoly (f : Int × Int → Int) (ps : List (Int × Int)) : List (Int × Int) :=
  match ps with
  | [] => []
  | h :: t => (ps.zip (t ++ [h])).flatMap fun e => clipEdge f e.1 e.2

/-- Twice the area of a polygon. -/
def area2 (ps : List (Int × Int)) : Nat :=
  match ps with
  | [] => 0
  | h :: t => ((ps.zip (t ++ [h])).foldl (fun acc e => acc + (e.1.1 * e.2.2 - e.2.1 * e.1.2)) (0 : Int)).natAbs

/-- Twice the area that a polygon shares with the square cell at column `ce`, row `cn` of side `c` (1/65,536 mm). -/
def cellArea2 (ps : List (Int × Int)) (c : Int) (ce cn : Int) : Nat :=
  let q := clipPoly (fun p => p.1 - ce * c) ps
  let q := clipPoly (fun p => (ce + 1) * c - p.1) q
  let q := clipPoly (fun p => p.2 - cn * c) q
  area2 (clipPoly (fun p => (cn + 1) * c - p.2) q)

/-- The integers from `a` to `b`. -/
def intRange (a b : Int) : List Int := (List.range (b - a + 1).toNat).map fun (i : Nat) => a + (i : Int)

/-- The least and the greatest of some numbers. -/
def minOf (xs : List Int) : Int := xs.foldl min (xs.headD 0)
def maxOf (xs : List Int) : Int := xs.foldl max (xs.headD 0)

/-- The cells of side `c` that a polygon's bounding box, widened by `margin`, touches. -/
def cellsOf (ps : List (Int × Int)) (c margin : Int) : List (Int × Int) :=
  let xs := ps.map Prod.fst
  let ys := ps.map Prod.snd
  (intRange (Int.fdiv (minOf ys - margin) c) (Int.fdiv (maxOf ys + margin) c)).flatMap fun cn =>
    (intRange (Int.fdiv (minOf xs - margin) c) (Int.fdiv (maxOf xs + margin) c)).map fun ce => (ce, cn)

/-- The reach of a cell along the footprint's direction of travel: the least and the greatest along-track distance from
the footprint's centre at which the cell lies within the footprint's width, if it does. -/
def Foot.reach (f : Foot) (c ce cn : Int) : Option (Int × Int) :=
  let rel (p : Int × Int) : Int × Int :=
    (Int.fdiv ((p.1 - f.e) * f.sn + (p.2 - f.n) * f.cs) 1073741824,
     Int.fdiv ((p.1 - f.e) * f.cs - (p.2 - f.n) * f.sn) 1073741824)
  let sq := [(ce * c, cn * c), ((ce + 1) * c, cn * c), ((ce + 1) * c, (cn + 1) * c), (ce * c, (cn + 1) * c)].map rel
  let q := clipPoly (fun p => f.hw - p.2) (clipPoly (fun p => p.2 + f.hw) sq)
  if area2 q = 0 then none else some (minOf (q.map Prod.fst), maxOf (q.map Prod.fst))

end Sys2Proof.Machine
end

