-- ==== Sys2Proof/Machine/RegRead.lean ====
section
/-! DEFINITION. What a read of each BAR0 register returns, without side effects (R10, R19, R388-R391): used by the
snapshots of EVR (R348) and by the statements about registers. -/

namespace Sys2Proof.Machine

/-- The index of a register in an array of `n` words at `base`. -/
def arr (o base n : Nat) : Option Nat :=
  if base ≤ o ∧ o < base + 4 * n then some ((o - base) / 4) else none

/-- A natural number as a register word. -/
def w32 (n : Nat) : Word := BitVec.ofNat 32 n

/-- A signed number as a register word. -/
def i32 (i : Int) : Word := BitVec.ofInt 32 i

/-- A word whose bit `i` is `p i`, for `i` below `n`. -/
def packBits (n : Nat) (p : Nat → Bool) : Word := pack ((List.range n).map fun i => (i, 1, b2n (p i)))

/-- The first array that holds the offset gives the word. -/
def firstSome : List (Option Word) → Word
  | [] => 0
  | some w :: _ => w
  | none :: t => firstSome t

/-- SYS (R4, R393). -/
def State.readSys (s : State) (o : Nat) : Word :=
  match o with
  | 0x0 => Config.sysPart s.part
  | 0x4 => Config.sysVendor
  | 0x8 => s.sys.uid.setWidth 32
  | 0xC => (s.sys.uid >>> 32).setWidth 32
  | 0x10 => Config.sysCap0 s.part
  | 0x14 => Config.sysCap1 s.part
  | 0x18 => Config.sysCap2 s.part
  | 0x1C => Config.sysCap3 s.part
  | 0x20 => s.sys.scratch
  | _ => 0

/-- The ward's state code (R368). -/
def Ward.code : Ward → Nat
  | .closed => 0
  | .armed => 1
  | .opened => 2

/-- REMAIN_S (R375), rounded up: assumption log 19. -/
def State.wardRemain (s : State) : Nat :=
  let len := match s.prs.ward with
    | .closed => 0
    | .armed => 30
    | .opened => 120
  let left := s.prs.wardTick + len * secTicks - s.now
  if s.prs.ward = .closed then 0 else min 255 ((left + secTicks - 1) / secTicks)

/-- Whether domain `d` has failed within the last 10 s (R375). -/
def State.failedLately (s : State) (d : Nat) : Bool :=
  match Tbl.get none s.prs.failTick d with
  | some t => decide (s.now ≤ t + 10 * secTicks)
  | none => false

/-- PRS (R375). -/
def State.readPrs (s : State) (o : Nat) : Word :=
  let p := s.prs
  match o with
  | 0x0 => w32 p.ready.toNat
  | 0x4 => pack [(0, 2, p.ward.code), (2, 1, b2n p.svcJ), (3, 1, b2n p.keyFiltered), (4, 1, b2n p.beatRun),
      (5, 1, b2n p.pfw)]
  | 0x8 => p.fault.w
  | 0xC => pack [(0, 4, p.cause), (16, 16, p.resetCount)]
  | 0x14 => w32 p.domainEn.toNat
  | 0x18 => pack ((0, 8, p.powered.toNat) :: (List.range 8).map fun d => (8 + d, 1, b2n (s.failedLately d)))
  | 0x20 => pack [(0, 1, b2n p.beatEn), (1, 1, b2n p.dropOnSafe)]
  | 0x24 => pack [(0, 8, s.wardRemain), (16, 16, p.wardRefused)]
  | 0x28 => pack [(0, 1, b2n s.nv.sealEnable), (1, 1, b2n s.nv.sealBroken)]
  | 0x2C => pack [(0, 8, toTwos 8 p.dieC)]
  | _ => match arr o 0x40 14 with
    | some b => w32 (Tbl.get 0 p.readyUs b)
    | none => 0

/-- TBU (R26, R49): the words a TBU_TICK_LO read latches come from their shadows. -/
def State.readTbu (s : State) (o : Nat) : Word :=
  let t := s.tbu
  match o with
  | 0x0 => w32 t.tick
  | 0x4 => w32 (t.shTick / 2 ^ 32)
  | 0x8 => w32 t.shCal
  | 0xC => w32 (t.shCal / 2 ^ 32)
  | 0x10 => t.shUnc
  | 0x14 => t.shState
  | 0x18 => t.status.w
  | 0x20 => pack [(0, 12, t.holdLimit)]
  | 0x24 => pack [(0, 14, t.stepThresh), (16, 10, t.slewMax)]
  | 0x28 => pack [(0, 16, t.rate), (16, 16, t.accel)]
  | 0x30 => pack [(0, 1, b2n t.tpEnable), (1, 1, b2n t.tpPol), (2, 9, t.tpWidth), (31, 1, b2n t.tpRunning)]
  | 0x34 => t.tpCount
  | 0x38 => pack [(0, 16, t.tpSuppressed)]
  | 0x40 => w32 t.optime
  | 0x44 => pack [(0, 8, t.optimeHi)]
  | 0x48 => t.pcycle
  | _ => 0

/-- One target's registers (R340). -/
def State.readTarget (s : State) (t o : Nat) : Word :=
  let g := s.target t
  match o with
  | 0x0 => pack [(0, 4, g.threshold), (4, 1, b2n g.parked), (5, 1, b2n g.fbEn), (6, 4, g.fallback), (16, 16, g.graceUs)]
  | 0x4 => match g.slot with
    | some c => pack [(0, 9, c.source), (16, 8, c.events), (24, 4, c.priority)]
    | none => pack [(31, 1, 1)]
  | 0xC => pack ([(0, 4, g.level), (4, 4, g.stack.length), (8, 1, b2n g.slot.isSome),
      (9, 1, b2n (g.parked && s.sources.any fun n => s.waits t n))] ++
      match g.slot with
      | some c => [(16, 9, c.source), (25, 4, c.priority)]
      | none => [])
  | 0x10 => packBits 16 fun p => decide (1 ≤ p) && g.stack.contains p
  | 0x14 => w32 g.spurious
  | _ => 0

/-- ICU (R340), `o` from 0x0_4000. -/
def State.readIcu (s : State) (o : Nat) : Word :=
  match o with
  | 0x0 => packBits 32 fun i => if i < 16 then (s.target i).slot.isSome else (s.target (i - 16)).parked
  | 0x4 => s.icu.fault.w
  | 0x20 => pack ((List.range 8).map fun k => (2 * k, 2, Tbl.get 0 s.icu.extEdge k))
  | _ =>
    if 0x200 ≤ o ∧ o < 0x400 then s.readTarget ((o - 0x200) / 0x20) (o % 0x20)
    else firstSome [
      (arr o 0x80 16).map fun w => packBits 32 fun b => (s.src (32 * w + b)).pending,
      (arr o 0x100 16).map fun w => packBits 32 fun b => (s.src (32 * w + b)).masked,
      (arr o 0x180 16).map fun w => packBits 32 fun b => s.committed (32 * w + b),
      (arr o 0x400 128).map fun k => pack ((List.range 4).map fun i => (8 * i, 8, (s.src (4 * k + i)).events)),
      (arr o 0x800 512).map fun n =>
        let c := s.src n
        pack [(0, 4, c.priority), (4, 4, c.target), (8, 8, c.filter)],
      (arr o 0x1000 512).map fun n =>
        let c := s.src n
        pack [(0, 8, c.count), (8, 16, c.timeUs)]]

/-- The oldest circulating index held (R357). -/
def Nv.oldest (n : Nv) : Nat := if n.nextIndex ≤ 10240 then 2048 else n.nextIndex - 8192

/-- A snapshot entry as its register (R357). -/
def snapWord (e : Nat × Bool) : Word := pack [(2, 18, e.1 / 4), (31, 1, b2n e.2)]

/-- EVR (R357). -/
def State.readEvr (s : State) (o : Nat) : Word :=
  let v := s.evr
  match o with
  | 0x0 => pack [(0, 6, v.staged.length), (6, 1, b2n v.inFlight.isSome), (7, 1, b2n s.nv.permFull)]
  | 0x4 => w32 s.nv.nextIndex
  | 0x8 => w32 s.nv.oldest
  | 0xC => w32 v.lost
  | 0x10 => v.fault.w
  | 0x14 => pack [(0, 17, s.nv.learn.length), (17, 15, v.learnEvict)]
  | 0x18 => w32 s.nv.lifeLost
  | 0x20 => w32 v.trigEn
  | 0x24 => pack [(0, 4, v.snapSel), (16, 16, (Tbl.get {} s.nv.snapSets v.snapSel).gen)]
  | _ => match arr o 0x100 48 with
    | some k => snapWord (Tbl.get (0, false) v.work k)
    | none => 0

/-- The host state's code (R80). -/
def HostState.code : HostState → Nat
  | .unarmed => 0
  | .present => 1
  | .lostContinue => 2
  | .lostSafe => 3
  | .safeHold => 4

/-- RING_STATUS.STATE (R86). -/
def Ring.state (r : Ring) : Nat :=
  match r.mode with
  | .disabled => 0
  | .error => 6
  | .draining => 7
  | .enabled =>
    match (r.slots.filter fun d => d.stage ≠ .started ∧ d.stage ≠ .finished).head? with
    | some d => match d.stage with
      | .heldNotBefore => 3
      | .heldNotReady => 4
      | .heldFence => 5
      | _ => 2
    | none => if r.slots = [] ∧ r.prod = r.cons then 1 else 2

/-- RING_STATUS.STATE of a report ring: IDLE while no report waits in its backlog. -/
def Ring.reportState (r : Ring) : Nat :=
  match r.mode with
  | .disabled => 0
  | _ => if r.backlog.isEmpty then 1 else 2

/-- One ring's registers (R86). -/
def State.readRing (s : State) (n o : Nat) : Word :=
  let r := s.ring n
  match o with
  | 0x0 => w32 r.base
  | 0x4 => w32 (r.base / 2 ^ 32)
  | 0x8 => pack [(0, 5, r.log2), (8, 1, b2n r.isEnabled), (9, 4, r.complRing), (13, 1, r.complMode)]
  | 0xC => w32 r.shadow
  | 0x10 => w32 (r.shadow / 2 ^ 32)
  | 0x14 => r.seqStart
  | 0x18 => if n < 16 then pack [(0, 3, r.state)]
    else pack [(0, 3, r.reportState), (3, 1, b2n (!r.backlog.isEmpty)), (4, 7, r.backlog.length)]
  | 0x1C => if n < 16 then r.cons else r.prod
  | _ => 0

/-- The MSI-X table and the pending-bit array (R51, R337), as the Base Specification lays them out. -/
def State.readMsix (s : State) (o : Nat) : Word :=
  if o < 0x100 then
    let e := Tbl.get {} s.hre.msix (o / 16)
    match o % 16 with
    | 0 => w32 e.addr
    | 4 => w32 (e.addr / 2 ^ 32)
    | 8 => e.data
    | _ => w32 (b2n e.masked)
  else if o = 0x800 then s.hre.pba
  else 0

/-- HRE (R86), `o` from 0x0_8000. -/
def State.readHre (s : State) (o : Nat) : Word :=
  let h := s.hre
  match o with
  | 0x0 => pack [(0, 1, b2n h.linkUp), (1, 3, h.linkSpeed), (4, 4, h.linkWidth), (8, 3, h.hostState.code)]
  | 0x4 => h.fault.w
  | 0x14 => h.devHb
  | 0x20 => pack [(0, 14, h.lostTimeMs), (16, 1, b2n h.policySafe), (17, 9, h.continueLimit)]
  | 0x28 => w32 h.covDrop
  | 0x2C => w32 h.hostLostCount
  | _ =>
    if 0x400 ≤ o ∧ o < 0x800 then s.readRing ((o - 0x400) / 0x20) (o % 0x20)
    else if 0x1000 ≤ o ∧ o < 0x2000 then s.readMsix (o - 0x1000)
    else firstSome [
      (arr o 0x200 15).map fun k =>
        let rt : Route := Tbl.get {} h.routes k
        pack [(0, 4, rt.ring), (8, 1, b2n (rt.enable && k != 0))],
      (arr o 0x280 15).map fun k => w32 (Tbl.get 0 h.rptDrop k),
      (arr o 0x300 16).map fun k => w32 (Tbl.get 0 h.rqDrop k)]

/-- GLE (R116), `o` from 0x1_0000. -/
def State.readGle (s : State) (o : Nat) : Word :=
  let g := s.gle
  match o with
  | 0x0 => w32 (b2n g.enable)
  | 0x4 => pack [(0, 1, b2n g.running), (1, 1, b2n g.poseOk), (2, 1, b2n g.overload)]
  | 0x8 => g.fault.w
  | 0x10 => pack [(0, 16, g.poseLimit)]
  | 0x14 => pack [(0, 3, g.probeSteps), (16, 8, g.rateMin)]
  | 0x18 => w32 g.load
  | 0x1C => w32 g.lateCount
  | 0x20 => w32 g.lateMax
  | 0x24 => w32 g.pendingFullCount
  | 0x28 => w32 g.dutyLimitCount
  | _ => match arr o 0x100 64 with
    | some p => if p = 0 then 0 else w32 (Tbl.get 0 g.demand p)
    | none => 0

/-- ESC (R117), `o` from 0x1_4000. -/
def State.readEsc (s : State) (o : Nat) : Word :=
  match o with
  | 0x0 => pack [(0, 16, s.esc.leadUs)]
  | 0x4 => pack [(0, 18, s.now / 2000)]
  | 0x8 => pack [(0, 20, s.escPending)]
  | 0xC => pack [(0, 15, s.escOverflow)]
  | 0x10 => s.esc.fault.w
  | 0x14 => w32 s.esc.cancelCount
  | _ => match arr o 0x20 4 with
    | some p => if p < Config.fieldPorts s.part then w32 (Tbl.get 0 s.esc.drop p) else 0
    | none => 0

/-- MPG (R153), `o` from 0x1_8000. -/
def State.readMpg (s : State) (o : Nat) : Word :=
  let m := s.mpg
  match o with
  | 0x0 => pack [(0, 6, min 32 s.unbackedCount), (8, 1, b2n (m.layers.any fun e => e.2.isOver)),
      (9, 1, b2n ((List.range 6).any fun c => decide (0 < s.poolUnits c) && s.poolFree c == 0))]
  | 0x4 => m.fault.w
  | 0x10 => pack [(0, 14, m.domainId)]
  | 0x14 => pack [(0, 16, m.reversalAngle)]
  | 0x18 => pack [(0, 8, m.segTol), (8, 12, m.segMax)]
  | 0x1C => pack [(0, 16, m.aheadMs), (16, 10, m.wbInterval)]
  | 0x20 => pack [(0, 14, (m.grants.map fun g => g.size).foldl (· + ·) 0), (16, 7, m.grants.length)]
  | 0x30 => w32 m.tileDrop
  | 0x34 => w32 m.mergeDrop
  | 0x38 => w32 m.oor
  | 0x3C => w32 m.unknownRead
  | _ => firstSome [
      (arr o 0x40 6).map fun c => w32 (s.poolFree c),
      (arr o 0x100 32).map fun l =>
        let y := s.layer l
        pack [(0, 2, y.kind), (2, 3, y.cell), (5, 1, b2n y.enable), (6, 1, b2n y.share), (7, 1, b2n y.samePass),
          (8, 1, b2n y.autoPass), (9, 1, b2n y.unknownMode), (16, 16, y.unknownValue)],
      (arr o 0x180 32).map fun l =>
        let y := s.layer l
        pack [(0, 31, y.use), (31, 1, b2n y.isOver)],
      (arr o 0x200 32).map fun l => w32 (s.layer l).quota,
      (arr o 0x280 32).map fun l => if (s.layer l).kind = 0 then (s.layer l).epoch else 0,
      (arr o 0x300 32).map fun l => match (s.layer l).root with
        | some r => pack [(0, 15, r), (31, 1, 1)]
        | none => 0]

/-- PSE (R177), `o` from 0x2_0000. -/
def State.readPse (s : State) (o : Nat) : Word :=
  let p := s.pse
  match o with
  | 0x0 => pack [(0, 8, p.pqual.toNat), (8, 8, p.sources.toNat), (16, 2, p.model.model), (18, 1, b2n p.originSet)]
  | 0x4 => p.fault.w
  | 0x10 => pack [(0, 4, p.gate), (4, 4, p.rejectN), (8, 8, p.excludeS), (16, 16, p.cogMin)]
  | 0x14 => pack [(0, 16, p.posGrowth), (16, 16, p.hdgGrowth)]
  | 0x60 => p.epoch
  | _ => firstSome [
      (arr o 0x20 4).map fun k =>
        let c : SpeedSrc := Tbl.get {} p.speedSrcs k
        pack [(0, 4, c.channel), (4, 1, b2n c.enable), (5, 1, b2n c.signed), (8, 10, c.rel), (18, 8, c.floor)],
      (arr o 0x30 4).map fun k => w32 (Tbl.get {} p.speedSrcs k).scale,
      (arr o 0x40 8).map fun k => w32 (Tbl.get 0 p.rejectCount k)]

/-- The bias state's code (R180). -/
def Bias.code : Bias → Nat
  | .off => 0
  | .ok => 1
  | .opened => 2
  | .short => 3

/-- The monitored bias current of an antenna, mA (R180, R203): none flows in OFF and SHORT; before its first sample it is a free
value in OK's range (assumption log 167). -/
def Gnb.biasCurrent (g : Gnb) (a : Nat) : Nat :=
  match Tbl.get .off g.bias a with
  | .off => 0
  | .short => 0
  | _ => (Tbl.get none g.biasMa a).getD (2 + Config.freeBiasMa a % 59)

/-- A band of an antenna present on the member (R3). -/
def State.bandExists (s : State) (m : Nat) : Bool := decide (m / 2 < Config.gnssAntennas s.part)

/-- GNB (R203), `o` from 0x2_4000; nothing on a member without an antenna. -/
def State.readGnb (s : State) (o : Nat) : Word :=
  let g := s.gnb
  let inter (a : Nat) : Bool := (Tbl.get {} g.bands (2 * a)).interfered || (Tbl.get {} g.bands (2 * a + 1)).interfered
  let two := decide (2 ≤ Config.gnssAntennas s.part)
  if Config.gnssAntennas s.part = 0 then 0
  else match o with
  | 0x0 => pack [(0, 1, b2n g.fix), (1, 1, b2n g.hdg), (2, 1, b2n g.burst), (3, 1, b2n g.armed), (4, 1, b2n g.timeOk),
      (5, 1, b2n (inter 0)), (6, 1, b2n (inter 1)), (8, 8, g.signals), (16, 8, g.hdgSignals)]
  | 0x4 => g.fault.w
  | 0x10 => pack [(0, 5, g.sysEn), (8, 1, b2n g.bandL1), (9, 1, b2n g.bandL5), (12, 3, g.measRate),
      (16, 1, b2n g.sbasCorr), (17, 7, g.elevMask), (24, 8, g.ephMaxAge)]
  | 0x14 => pack [(0, 1, b2n (Tbl.get true g.biasEn 0)), (1, 1, b2n (two && Tbl.get true g.biasEn 1))]
  | 0x18 => pack [(0, 2, (Tbl.get .off g.bias 0).code), (2, 2, (Tbl.get .off g.bias 1).code),
      (8, 8, min 255 (g.biasCurrent 0)), (16, 8, min 255 (g.biasCurrent 1))]
  | 0x20 => pack [(0, 1, b2n g.burstEn), (1, 8, g.burstMs), (16, 16, g.burstSpeed)]
  | 0x24 => pack [(0, 4, g.resGate), (4, 12, g.clkTol), (16, 8, g.driftTol), (24, 4, g.agcTol)]
  | 0x28 => pack [(0, 12, g.isbTol), (16, 8, g.isbHold), (24, 8, g.notchThresh)]
  | 0x2C => pack [(0, 4, g.hdgMinSignals), (4, 8, g.hdgMinCn0)]
  | 0x30 => pack [(0, 12, g.baselineCfg), (16, 12, g.baselineMeas)]
  | 0x34 => pack [(0, 6, g.measDiv), (6, 1, b2n g.navEn), (7, 1, b2n g.navFailedEn)]
  | 0x70 => pack [(0, 8, g.eph.length), (8, 8, g.ephInUse)]
  | 0x74 => w32 g.navFail
  | 0x78 => w32 g.exclude
  | 0x7C => w32 g.solFail
  | _ => firstSome [
      (arr o 0x40 8).map fun n => if s.bandExists (n / 2) then
          let c : Notch := Tbl.get {} g.notches n
          pack [(0, 1, b2n c.enable), (1, 1, b2n c.active), (8, 8, c.depthDb), (16, 16, toTwos 16 c.offsetKhz)]
        else 0,
      (arr o 0x60 4).map fun m => if s.bandExists m then
          let b : Band := Tbl.get {} g.bands m
          pack [(0, 8, b.gain), (8, 8, b.median)]
        else 0]

/-- A PHY latency register (R236). -/
def Port.latWord (p : Port) : Word := pack [(0, 16, p.txNs), (16, 16, p.rxNs)]

/-- FLP (R236), `o` from 0x3_0000; absent ports read 0. -/
def State.readFlp (s : State) (o : Nat) : Word :=
  let f := s.flp
  let np := Config.fieldPorts s.part
  let live (p : Nat) (w : Word) : Word := if p < np then w else 0
  if np = 0 then 0
  else match o with
  | 0x0 => pack [(0, 4, f.portEn.toNat), (4, 1, b2n f.ring01), (5, 1, b2n f.ring23)]
  | 0x4 => pack [(0, 16, f.etherType)]
  | 0x8 => pack [(0, 8, f.timeout), (8, 8, f.recover), (16, 8, f.ackWait), (24, 3, f.retry)]
  | 0xC => f.fault.w
  | _ =>
    if 0x1000 ≤ o ∧ o < 0x2000 then
      let p := (o - 0x1000) / 0x400
      let n := s.node p ((o % 0x400) / 4)
      live p (pack [(0, 1, b2n n.present), (1, 1, b2n n.safe), (2, 1, b2n n.syncOk), (3, 1, b2n n.dup), (4, 8, n.hop),
        (12, 8, n.endpoints)])
    else firstSome [
      (arr o 0x10 4).map fun p =>
        let q := s.port p
        live p (pack [(0, 2, q.state.code), (2, 9, s.nodesPresent p), (11, 1, b2n q.ringClosed), (12, 16, q.session)]),
      (arr o 0x20 4).map fun p => live p (s.port p).latWord,
      (arr o 0x30 4).map fun p => live p (w32 (s.port p).unacked),
      (arr o 0x40 4).map fun p => live p (w32 (s.port p).reject),
      (arr o 0x50 4).map fun p => live p (w32 (s.port p).badFrame)]

/-- A sibling heard within the last 5 ms (R233, R237). -/
def Sibling.valid (b : Sibling) (now : Nat) : Bool := decide (now ≤ b.lastTick + 5 * msTicks)

/-- DLK (R237), `o` from 0x3_4000. -/
def State.readDlk (s : State) (o : Nat) : Word :=
  let d := s.dlk
  if Config.deviceLinks s.part = 0 then 0
  else match o with
  | 0x0 => pack [(0, 2, d.portEn.toNat), (2, 1, b2n d.elect), (8, 8, d.priority)]
  | 0x4 => pack [(0, 16, d.etherType)]
  | 0x8 => pack [(0, 1, b2n d.master), (1, 1, b2n d.ringClosed), (2, 7, s.members), (9, 1, b2n d.timeOk),
      (16, 14, d.masterId)]
  | 0xC => d.fault.w
  | 0x10 => d.instanceId
  | 0x30 => w32 d.covUnsent
  | 0x34 => w32 d.covGap
  | 0x40 => i32 d.masterOffset
  | 0x44 => d.masterHi
  | _ => firstSome [
      (arr o 0x20 2).map fun q => (s.dport q).latWord,
      (arr o 0x100 64).map fun i => match Tbl.get none d.siblings i with
        | some b => pack [(0, 14, b.identity), (14, 1, b2n (b.valid s.now)), (15, 1, b.cls), (16, 8, b.priority),
            (24, 6, b.hops)]
        | none => 0]

/-- What a channel follows (R239, R258): the keeper while it holds. -/
def Channel.holdCode (c : Channel) : Nat :=
  if c.keepTick.isSome then 3
  else match c.holding with
    | .escapement => 0
    | .direct => 1
    | .regulator => 2
    | .keeper => 3

/-- The protection state's code (R258). -/
def Prot.code : Prot → Nat
  | .armed => 0
  | .tripped => 1
  | .latched => 2

/-- LSB (R258), `o` from 0x3_8000; absent channels read 0. -/
def State.readLsb (s : State) (o : Nat) : Word :=
  let l := s.lsb
  let nc := Config.loadChannels s.part
  let per (b : Nat) (f : Nat → Word) : Option Word := (arr o b 32).map fun n => if n < nc then f n else 0
  match o with
  | 0x0 => pack [(0, 1, b2n (s.bankOn 0)), (1, 1, b2n (decide (nc = 32) && s.bankOn 1)),
      (2, 1, b2n (s.isReady 2 && !l.pgndLost)), (3, 1, b2n (l.chans.any fun e => e.2.keepTick.isSome))]
  | 0x4 => l.fault.w
  | 0x8 => pack [(0, 16, toTwos 16 (Tbl.get 0 l.vbat 0)), (16, 16, toTwos 16 (Tbl.get 0 l.vbat 1))]
  | 0xC => pack [(0, 8, toTwos 8 l.hostC), (8, 1, b2n s.nv.ambHost), (16, 8, toTwos 8 l.moduleC)]
  | _ => firstSome [
      per 0x100 fun n =>
        let v := s.chNv n
        pack [(0, 1, b2n v.curveMode), (1, 1, b2n v.safeOn), (2, 8, v.keep10ms), (10, 8, v.inrushMs), (18, 3, v.retries),
          (21, 1, b2n v.insul125), (22, 3, v.wire)],
      per 0x180 fun n => pack [(0, 16, s.latchMa n), (16, 10, (s.chNv n).blankMs)],
      per 0x200 fun n =>
        let c := s.chan n
        pack [(0, 1, b2n c.holdEn), (1, 8, c.pullinMs), (9, 7, c.holdDuty), (16, 5, c.holdKhz)],
      per 0x280 fun n => pack [(0, 1, b2n (s.chan n).offDiag), (1, 8, (s.chan n).openOnMa)],
      per 0x300 fun n =>
        let c := s.chan n
        pack [(0, 1, b2n c.out), (1, 2, c.holdCode), (3, 2, c.prot.code), (5, 3, (s.chNv n).retries - c.retriesUsed),
          (8, 1, b2n c.inrush), (9, 1, b2n c.pullin), (10, 1, b2n c.sat), (11, 1, b2n c.openOn), (12, 1, b2n c.openOff),
          (13, 1, b2n c.shortBat), (24, 8, toTwos 8 (min 127 c.tempC))],
      per 0x380 fun n => pack [(0, 12, (s.chan n).sense), (16, 12, (s.chan n).theta * 10 / 1048576)],
      per 0x400 fun n => (s.chan n).faults.w,
      per 0x480 fun n => w32 (s.chan n).trips]

/-- DATA of a capture entry (R282): the position, or bit 0 the polarity for raw capture. -/
def CapEntry.data (e : CapEntry) : Word :=
  match e.pos with
  | some p => i32 p
  | none => w32 (b2n e.rising)

/-- FBU (R282), `o` from 0x3_C000. -/
def State.readFbu (s : State) (o : Nat) : Word :=
  let f := s.fbu
  match o with
  | 0x4 => f.fault.w
  | 0x8 => pack [(0, 6, f.claimLast), (16, 16, f.claimCount)]
  | 0x60 => pack ((List.range 4).map fun k => (8 * k, 5, Tbl.get 0 f.cmpRoute k))
  | _ => firstSome [
      (arr o 0x20 8).map fun k => pack [(0, 4, Tbl.get 0 f.auxi k)],
      (arr o 0x40 8).map fun k => pack [(0, 4, Tbl.get 0 f.auxo k)],
      (arr o 0x100 16).map fun n =>
        let c := s.fch n
        pack [(0, 2, c.mode), (2, 2, c.quadX), (4, 1, b2n c.fallEdge), (5, 1, b2n c.dirInv), (6, 1, b2n c.dirFix),
          (7, 3, c.dirSel), (10, 1, b2n c.scEn), (16, 16, c.minEdge)],
      (arr o 0x140 16).map fun n =>
        let c := s.fch n
        pack [(0, 2, c.refMode), (2, 2, c.missing), (16, 16, c.teeth)],
      (arr o 0x180 16).map fun n =>
        let c := s.fch n
        pack [(0, 4, c.avg), (4, 12, c.stillMs), (16, 8, c.rptMs)],
      (arr o 0x200 16).map fun n => i32 (s.fch n).pos,
      (arr o 0x240 16).map fun n => i32 (s.fchSpeed n),
      (arr o 0x280 4).map fun n => i32 (s.fch n).scSpeed,
      (arr o 0x2A0 16).map fun n => i32 (s.fch n).rev,
      (arr o 0x300 16).map fun n =>
        let c := s.fch n
        pack [(0, 1, b2n c.sync), (1, 1, b2n c.reverse), (2, 1, b2n c.still), (3, 1, b2n c.scSource), (4, 1, b2n c.scValid),
          (6, 10, c.fine), (16, 16, c.angle)],
      (arr o 0x340 16).map fun n => pack [(0, 6, (s.fch n).faults.w.toNat), (16, 16, toTwos 16 (s.fch n).idxErr)],
      (arr o 0x380 16).map fun n => w32 (s.fch n).edgeFast,
      (arr o 0x400 32).map fun m => i32 (s.fcmp m).value,
      (arr o 0x480 32).map fun m =>
        let c := s.fcmp m
        pack [(0, 1, b2n c.arm), (1, 1, b2n c.down), (2, 1, b2n c.immediate), (3, 2, c.action), (5, 1, b2n c.fired),
          (6, 1, b2n c.behind), (7, 9, c.pulseUs), (16, 16, toTwos 16 c.step)],
      (arr o 0x500 4).map fun j =>
        let p := s.fprobe j
        pack [(0, 1, b2n p.enable), (1, 2, p.polarity), (3, 1, b2n p.oneShot), (4, 4, p.src), (8, 4, p.timer)],
      (arr o 0x540 4).map fun r =>
        let p := s.rep r
        pack [(0, 2, p.mode), (2, 1, b2n p.inv), (3, 1, b2n (bit p.overRate.w 3)), (4, 5, p.src), (16, 16, p.ppm)],
      (arr o 0x550 4).map fun r => w32 (s.rep r).scale,
      (arr o 0x600 16).map fun k =>
        let c := s.cap k
        pack [(0, 1, b2n c.enable), (1, 5, c.input), (6, 2, c.polarity), (8, 4, c.fifo.length), (12, 1, b2n c.probeOwner.isSome)],
      (arr o 0x640 16).map fun k => w32 (((s.cap k).fifo.head?.map CapEntry.tick).getD 0),
      (arr o 0x680 16).map fun k => ((s.cap k).fifo.head?.map CapEntry.data).getD 0,
      (arr o 0x700 16).map fun a =>
        let c := s.ain a
        pack [(0, 1, b2n c.current), (1, 3, c.avgLog2), (4, 1, b2n c.low), (5, 1, b2n c.high), (8, 8, c.rptMs), (16, 16, c.value)],
      (arr o 0x740 16).map fun a => pack [(0, 16, (s.ain a).lowLim), (16, 16, (s.ain a).highLim)]]

/-- Word `w` of a bank (R293): ORDER and FB_SCALE, b, a, then the points of the table. -/
def Bank.word (b : Bank) (w : Nat) : Word :=
  match w with
  | 0 => w32 b.order
  | 1 => w32 b.fbScale
  | _ =>
    if w < 6 then i32 (b.b.getD (w - 2) 0)
    else if w < 9 then i32 (b.a.getD (w - 6) 0)
    else
      let p := b.pts.getD ((w - 9) / 2) (0, 0)
      i32 (if (w - 9) % 2 = 0 then p.1 else p.2)

/-- One context's registers (R309). -/
def State.readCtx (s : State) (n o : Nat) : Word :=
  let c := s.ctx n
  let v24 (i : Int) : Word := pack [(0, 24, toTwos 24 i)]
  match o with
  | 0x0 => pack [(0, 1, b2n c.enable), (1, 3, c.period), (4, 2, b2n c.spProduct), (6, 6, c.product), (12, 1, b2n c.ffEn),
      (13, 1, b2n c.idleZero), (14, 2, c.lossMode)]
  | 0x4 => pack [(0, 18, c.srcAddr), (18, 3, if n = 0 then 4 else c.srcKind)]
  | 0x8 => pack [(0, 18, c.tgtAddr), (18, 1, b2n c.remote), (19, 1, b2n c.bound.isSome), (20, 5, c.bound.getD 0)]
  | 0xC => pack [(0, 12, c.sampleOfs), (12, 12, c.outPhase)]
  | 0x10 => pack [(0, 10, c.flightUs)]
  | 0x14 => v24 c.outMax
  | 0x18 => v24 c.outMin
  | 0x1C => v24 (Tbl.get 0 s.nv.safeOut n)
  | 0x20 => v24 c.setpoint
  | 0x24 => w32 c.spScale
  | 0x28 => pack [(0, 6, c.fbShift), (16, 16, toTwos 16 c.fbOffset)]
  | 0x2C => v24 c.lossMin
  | 0x30 => pack [(0, 24, c.moveMin), (24, 8, c.frozenN)]
  | 0x34 => pack [(0, 3, c.state.code), (3, 1, b2n c.bankSel), (4, 1, b2n c.clampHi), (5, 1, b2n c.clampLo),
      (6, 1, b2n c.inject.isSome), (7, 1, b2n (!c.swaps.isEmpty)), (8, 1, b2n c.tgtLost), (9, 1, b2n c.idle), (10, 2, c.cause)]
  | 0x38 => v24 c.y
  | 0x3C => pack [(0, 6, c.faults.w.toNat), (16, 16, c.lostCount)]
  | _ => 0

/-- Contexts enabled (R309). -/
def State.ctxsEnabled (s : State) : List (Nat × Ctx) := s.rge.ctxs.filter fun e => e.2.enable

/-- Samples per second of the enabled contexts (R309). -/
def State.rgeRate (s : State) : Nat :=
  (s.ctxsEnabled.map fun e => 1000000 / periodUs e.2.period).foldl (· + ·) 0

/-- RGE (R309), `o` from 0x4_0000; absent contexts read 0. -/
def State.readRge (s : State) (o : Nat) : Word :=
  let g := s.rge
  match o with
  | 0x0 => pack [(0, 8, s.ctxsEnabled.length)]
  | 0x4 => g.fault.w
  | 0xC => w32 s.rgeRate
  | 0x10 => pack ((List.range 4).flatMap fun q =>
      let t : Trace := Tbl.get {} g.traces q
      [(8 * q, 7, if t.busy then t.context else 0), (8 * q + 7, 1, b2n t.busy)])
  | 0x14 => pack [(0, 16, g.statusMs)]
  | 0x20 => pack [(0, 7, g.selContext), (7, 1, b2n g.selShadow)]
  | _ =>
    if 0x1000 ≤ o ∧ o < 0x3000 then
      let n := (o - 0x1000) / 0x40
      if s.ctxExists n then s.readCtx n (o % 0x40) else 0
    else match arr o 0x100 23 with
    | some w =>
      if s.ctxExists g.selContext then
        (if g.selShadow then (s.ctx g.selContext).shadow else (s.ctx g.selContext).active).word w
      else 0
    | none => 0

/-- The endpoint LCA_VIEW_SEL names (R325). -/
def Lca.viewKey (l : Lca) : Nat := if l.viewLocal then localBase + l.viewEp else l.viewEp

/-- The delay in force of an endpoint: kind 0 on, 1 off, in 10 µs (R87). -/
def State.delayOf (s : State) (ep kind : Nat) : Nat :=
  if kind = 0 then (s.entry ep).onDelay else (s.entry ep).offDelay

/-- The base of a delay: the value last loaded by ENDPOINT_LOAD (R314). -/
def State.delayBase (s : State) (ep kind : Nat) : Nat :=
  (s.delayCal (2 * ep + kind)).base.getD (s.delayOf ep kind)

/-- The estimate of a delay, µs (R313). -/
def State.delayEst (s : State) (ep kind : Nat) : Int :=
  (s.delayCal (2 * ep + kind)).est.getD (10 * (s.delayOf ep kind : Int))

/-- LCA (R325), `o` from 0x4_8000. -/
def State.readLca (s : State) (o : Nat) : Word :=
  let l := s.lca
  let k := l.viewKey
  match o with
  | 0x0 => pack [(0, 19, s.stagedCount), (19, 1, b2n (l.delays.any fun e => e.2.held)),
      (20, 1, b2n ((l.pols.any fun e => e.2.mode != 0) || l.meters.any fun e => e.2.mode != 0))]
  | 0x4 => l.fault.w
  | 0x10 => pack [(0, 5, l.applyRate)]
  | 0x20 => w32 l.samples
  | 0x24 => w32 l.rejected
  | 0x28 => w32 l.applied
  | 0x2C => w32 l.notDetected
  | 0x40 => pack [(0, 18, l.viewEp), (18, 1, b2n l.viewLocal)]
  | 0x44 => pack [(0, 16, s.delayOf k 0), (16, 16, s.delayOf k 1)]
  | 0x48 => pack [(0, 16, s.delayBase k 0), (16, 16, s.delayBase k 1)]
  | 0x4C => pack [(0, 16, (s.delayCal (2 * k)).staged.getD 0xFFFF), (16, 16, (s.delayCal (2 * k + 1)).staged.getD 0xFFFF)]
  | 0x50 => i32 (s.delayEst k 0)
  | 0x54 => i32 (s.delayEst k 1)
  | _ => 0

/-- The domain that owns a BAR0 offset (R388). -/
def offDomain (o : Nat) : Nat :=
  if o < 0x8000 then 0
  else if o < 0x10000 then 1
  else if o < 0x18000 then 2
  else if o < 0x20000 then 3
  else if o < 0x24000 then 2
  else if o < 0x30000 then 4
  else if o < 0x38000 then 5
  else if o < 0x3C000 then 7
  else if o < 0x50000 then 6
  else 0

/-- A read of BAR0 without side effects (R10, R19, R388-R391): registers of a domain that is off, reserved offsets and
reads that are not aligned return zero. -/
def State.regRead (s : State) (o : Nat) : Word :=
  if o % 4 ≠ 0 ∨ s.powered (offDomain o) = false then 0
  else if o < 0x1000 then s.readSys o
  else if o < 0x2000 then s.readPrs (o - 0x1000)
  else if o < 0x4000 then s.readTbu (o - 0x2000)
  else if o < 0x6000 then s.readIcu (o - 0x4000)
  else if o < 0x8000 then s.readEvr (o - 0x6000)
  else if o < 0x10000 then s.readHre (o - 0x8000)
  else if o < 0x14000 then s.readGle (o - 0x10000)
  else if o < 0x18000 then s.readEsc (o - 0x14000)
  else if o < 0x20000 then s.readMpg (o - 0x18000)
  else if o < 0x24000 then s.readPse (o - 0x20000)
  else if o < 0x30000 then s.readGnb (o - 0x24000)
  else if o < 0x34000 then s.readFlp (o - 0x30000)
  else if o < 0x38000 then s.readDlk (o - 0x34000)
  else if o < 0x3C000 then s.readLsb (o - 0x38000)
  else if o < 0x40000 then s.readFbu (o - 0x3C000)
  else if o < 0x48000 then s.readRge (o - 0x40000)
  else if o < 0x50000 then s.readLca (o - 0x48000)
  else 0

end Sys2Proof.Machine
end

