-- ==== Sys2Proof/Machine/RecordOps.lean ====
section
/-! DEFINITION. Taking a record of an event: snapshot, folding, staging, loss (R344-R351, R354), and the bytes of a
record in the MRAM. -/

namespace Sys2Proof.Machine

/-- Classes that are always recorded (R346). -/
def classAlways (k : Nat) : Bool := k == 0 || k == 1 || k == 10 || k == 11 || k == 12

/-- Classes whose codes never fold (R350). -/
def classNeverFolds (k : Nat) : Bool := k == 1 || k == 10 || k == 12

/-- The class of a code (R344). -/
def codeClass (code : Nat) : Nat := code / 256

/-- The valid entries of a snapshot set, in order (R347). -/
def SnapSet.offsets (t : SnapSet) : List Nat := (t.entries.filter fun e => e.2.2).map fun e => e.2.1

/-- The captured words of an event (R348): with fixed words, words 0-7 and then at most 40 of the set; without, at
most 48 of the set. The count is NSNAP. -/
def State.snapshot (s : State) (code : Nat) (fixed : List (Nat × Word)) : List Word × Nat :=
  let t : SnapSet := Tbl.get {} s.nv.snapSets (codeClass code)
  if code = 0x0C02 then ((List.range 48).map fun i => Tbl.get 0 fixed i, 48)
  else if fixed = [] then
    let ws := (t.offsets.take 48).map s.regRead
    (ws, ws.length)
  else
    let ws := (t.offsets.take 40).map s.regRead
    ((List.range 8).map (fun i => Tbl.get 0 fixed i) ++ ws, 8 + ws.length)

/-- The record of an event accepted now (R344). -/
def State.makeRec (s : State) (code source : Nat) (fixed : List (Nat × Word)) : Rec :=
  let sn := s.snapshot code fixed
  { code, calNs := s.cal, pcycle := s.tbu.pcycle, source, optime := s.tbu.optime, snap := sn.1, nsnap := sn.2,
    setGen := (Tbl.get {} s.nv.snapSets (codeClass code)).gen, tick := s.now }

/-- The RECORD report of a record (R354). -/
def State.recordReport (r : Rec) (fold : Bool) (tick : Nat) (s : State) : State :=
  s.report 0x4B 0 tick
    ([fld 16 4 r.index, fld 20 2 r.code, fld 22 2 r.source, fld 24 5 r.optime,
      fld 29 1 (b2n fold + 2 * b2n (decide (r.index < 2048))), fld 30 2 r.rpt, fld 32 4 r.pcycle.toNat,
      fld 36 3 r.lastRep, fld 40 8 r.calNs] ++
     (List.range 4).map fun i => fld (48 + 4 * i) 4 (r.snap.getD i 0).toNat)

/-- A repeat folded into a record (R344, R350). -/
def Rec.fold (r : Rec) (optime : Nat) : Rec :=
  { r with rpt := satAdd 0xFFFF r.rpt 1, lastRep := min 0xFFFFFF (optime - r.optime) }

/-- A FOLD report is due for a record at a tick: at most one per record per 100 ms (R354). -/
def Rec.foldDue (r : Rec) (tick : Nat) : Bool :=
  match r.foldTick with
  | some t => decide (t + 100 * msTicks ≤ tick)
  | none => true

/-- Two accounts of one event may fold together (R350). -/
def Rec.same (r : Rec) (code source : Nat) : Bool := r.code == code && r.source == source

/-- The first staged entry of a code and source takes the fold. -/
def foldStaged (code source optime tick : Nat) : List Rec → List Rec
  | [] => []
  | r :: t =>
    if r.same code source then
      { (r.fold optime) with foldTick := if r.foldDue tick then some tick else r.foldTick } :: t
    else r :: foldStaged code source optime tick t

/-- The slot a record index is held in: permanent ones by index, circulating ones 2,048 + (index - 2,048) mod 8,192
(R341). -/
def recSlot (i : Nat) : Nat := if i < 2048 then i else 2048 + (i - 2048) % 8192

/-- A record in flight: its index is taken, its slot's old record is invalid (R349, R352). -/
def State.startWrite (r : Rec) (s : State) : State :=
  let i := s.nv.nextIndex
  (s.onNv fun n =>
    { n with nextIndex := i + 1, records := Tbl.set none n.records (recSlot i) none,
             torn := n.torn.filter fun k => k != recSlot i }).onEvr fun v =>
    { v with inFlight := some { r with index := i }, lastFolds := false, foldWait := [] }

/-- The last committed record, while it can take a fold (R350). -/
def State.lastFoldable (s : State) (code source : Nat) : Option Rec :=
  if s.evr.lastFolds then
    match s.evr.lastCommitted with
    | some i => match Tbl.get none s.nv.records (recSlot i) with
      | some r => if r.same code source && r.pcycle == s.tbu.pcycle then some r else none
      | none => none
    | none => none
  else none

/-- The place of a staged entry: the index it will take is the next index plus its place (R349). -/
def stagedPlace (code source : Nat) : List Rec → Nat
  | [] => 0
  | r :: t => if r.same code source then 0 else stagedPlace code source t + 1

/-- An event folds, or answers none (R350). -/
def State.tryFold (code source : Nat) (s : State) : Option State :=
  let tick := s.now
  let op := s.tbu.optime
  if classNeverFolds (codeClass code) then none
  else match s.evr.staged.find? fun r => r.same code source with
  | some r =>
    let s' := s.onEvr fun v => { v with staged := foldStaged code source op tick v.staged }
    some (if r.foldDue tick then
        s'.recordReport { (r.fold op) with index := s.nv.nextIndex + stagedPlace code source s.evr.staged } true tick
      else s')
  | none =>
    match s.lastFoldable code source with
    | some r =>
      let due := r.foldDue tick
      let r' := { (r.fold op) with foldTick := if due then some tick else r.foldTick }
      let s' := s.onNv fun n => { n with records := Tbl.set none n.records (recSlot r.index) (some r') }
      some (if due then s'.recordReport r' true tick else s')
    | none =>
      match s.evr.inFlight with
      | some r =>
        if r.same code source then some (s.onEvr fun v => { v with foldWait := (tick, op) :: v.foldWait }) else none
      | none => none

/-- `r` goes before `q` among the events of one BUS cycle: by CODE, then by SOURCE (R349). -/
def Rec.goesBefore (r q : Rec) : Bool := r.tick / 2 == q.tick / 2 && (decide (r.code < q.code) || (r.code == q.code && decide (r.source < q.source)))

/-- An entry takes its place in the staging queue (R349). -/
def insertRec (r : Rec) : List Rec → List Rec
  | [] => [r]
  | q :: t => if r.goesBefore q then r :: q :: t else q :: insertRec r t

/-- An event is lost (R351). -/
def State.loseEvent (s : State) : State :=
  ((s.onEvr fun v => { v with lost := count32 v.lost, lostSince := count32 v.lostSince, fault := setFlag v.fault s.cycle 0 }).onNv
    fun n => { n with lifeLost := count32 n.lifeLost }).raise 489

/-- An entry enters the staging queue; the last of more than 32 is lost (R349, R351). -/
def State.enterStaging (r : Rec) (s : State) : State :=
  let q := insertRec r s.evr.staged
  if q.length ≤ 32 then s.onEvr fun v => { v with staged := q, lastFolds := false }
  else (s.onEvr fun v => { v with staged := q.take 32 }).loseEvent

/-- An accepted event that does not fold goes to the sequencer, to the staging queue, or is lost (R349, R351). Before
the power-up scan the sequencer takes none, since POWER_UP is the first record of a power cycle (R353). An event of the BUS
cycle of the one in flight that goes before it takes its place and its index. -/
def State.stage (r : Rec) (s : State) : State :=
  match s.evr.inFlight with
  | none => if s.evr.staged = [] ∧ s.evr.scanned = true then s.startWrite r else s.enterStaging r
  | some f =>
    if r.goesBefore f then
      (s.onEvr fun v => { v with inFlight := some { r with index := f.index }, foldWait := [] }).enterStaging
        (s.evr.foldWait.foldr (fun w q => q.fold w.2) f)
    else s.enterStaging r

/-- EVR takes a record of an event (R346, R349-R351). `fixed` are the code's fixed words. -/
def State.record (code source : Nat) (fixed : List (Nat × Word)) (s : State) : State :=
  if classAlways (codeClass code) || s.evr.trigEn.testBit (codeClass code) then
    match s.tryFold code source with
    | some s' => s'
    | none => s.stage (s.makeRec code source fixed)
  else s

/-- One step of the CRC-32 of IEEE 802.3 over a bit, reflected form (PRESUMED, assumption log 20). -/
def crcBit (c : BitVec 32) : BitVec 32 := if c.getLsbD 0 then (c >>> 1) ^^^ 0xEDB88320#32 else c >>> 1

def crcByte (c : BitVec 32) (b : Byte) : BitVec 32 :=
  (List.range 8).foldl (fun c _ => crcBit c) (c ^^^ b.setWidth 32)

/-- The CRC-32 of IEEE 802.3 of some bytes. -/
def crc32 (bs : List Byte) : Word := ~~~(bs.foldl crcByte 0xFFFFFFFF#32)

/-- The fields of a committed record in the MRAM but for its CRC (R344). -/
def Rec.fields (r : Rec) : List Fld :=
  [fld 0 2 0xC3A5, fld 2 2 r.code, fld 4 4 r.index, fld 8 8 r.calNs, fld 16 4 r.pcycle.toNat, fld 20 2 r.source,
    fld 24 3 r.optime, fld 27 2 r.rpt, fld 29 3 r.lastRep] ++
  ((List.range 48).map fun i => fld (32 + 4 * i) 4 (r.snap.getD i 0).toNat) ++
  [fld 228 1 r.nsnap, fld 229 1 (r.optime / 2 ^ 32), fld 230 2 r.setGen]

/-- The 256 bytes of a committed record (R344, R345). -/
def Rec.bytes (r : Rec) : List Byte :=
  let bs := (List.range 256).map (fieldByte r.fields)
  let crc := crc32 ((bs.drop 2).take 25 ++ (bs.drop 32).take 192)
  bs.take 224 ++ (List.range 4).map (fun i => BitVec.ofNat 8 (crc.toNat / 2 ^ (8 * i))) ++ bs.drop 228

end Sys2Proof.Machine
end

