-- ==== Sys2Proof/Machine/Operands.lean ====
section
/-! DEFINITION. The fields of descriptors and of INDIRECT buffers, and the checks that complete a descriptor with
BAD_PARAM (R60-R62, R72). -/

namespace Sys2Proof.Machine

/-- An unsigned little-endian field of a descriptor (R60). -/
def dfield (d : DescBits) (off size : Nat) : Nat := (d.toNat / 2 ^ (8 * off)) % 2 ^ (8 * size)

/-- A signed field of a descriptor. -/
def dsfield (d : DescBits) (off size : Nat) : Int := fromTwos (8 * size) (dfield d off size)

/-- OPCODE, LENGTH, SEQ and NOT_BEFORE (R60). -/
def dOpcode (d : DescBits) : Nat := dfield d 0 1
def dLength (d : DescBits) : Nat := dfield d 2 2
def dSeq (d : DescBits) : Word := BitVec.ofNat 32 (dfield d 4 4)
def dNotBefore (d : DescBits) : Nat := dfield d 8 8

/-- A FLAGS bit (R61): 0 NO_WAIT, 1 FENCE_AFTER, 2 FORCE, 3 INDIRECT, 4-7 per opcode. -/
def dFlag (d : DescBits) (i : Nat) : Bool := (dfield d 1 1).testBit i

/-- The bytes of a payload: of the descriptor itself, so that direct and INDIRECT forms are read alike. -/
def dBytes (d : DescBits) (off size : Nat) : List Byte :=
  (List.range size).map fun i => BitVec.ofNat 8 (dfield d (off + i) 1)

/-- Checks that `size` bytes at `off` are zero, one per byte (R10). -/
def zeroBytes (d : DescBits) (off size : Nat) : List (Bool × Nat) :=
  (List.range size).map fun i => (dfield d (off + i) 1 == 0, off + i)

/-- Checks that `size` bytes of a buffer at `off` are zero, reported at `base` + their place. -/
def zeroBuf (b : List Byte) (off size base : Nat) : List (Bool × Nat) :=
  (List.range size).map fun i => (b.getD (off + i) 0 == 0, base + i)

/-- The FLAGS byte allows only NO_WAIT, FENCE_AFTER and the bits of `mask` (R61, R62). -/
def flagCheck (d : DescBits) (mask : Nat) : Bool × Nat :=
  ((dfield d 1 1 &&& (0xFC - (mask &&& 0xFC))) == 0, 1)

/-- A buffer length that R62 allows. -/
def bufLenOk (d : DescBits) : Bool := dfield d 24 4 % 8 == 0 && decide (8 ≤ dfield d 24 4) && decide (dfield d 24 4 ≤ 4194304)

/-- The checks of an INDIRECT descriptor's address, length and reserved bytes (R62). -/
def indirectChecks (d : DescBits) : List (Bool × Nat) :=
  [(dfield d 16 8 % 8 == 0, 16), (bufLenOk d, 24)] ++ zeroBytes d 28 36

/-- LENGTH matches the buffer length, where that is a length R62 allows; where it is not, byte 24 offends (R62, R72; assumption log 145). -/
def lengthFits (d : DescBits) (bytes : Nat) : Bool := !bufLenOk d || dfield d 24 4 == bytes

/-- A value between two limits. -/
def inRange (lo hi v : Nat) : Bool := decide (lo ≤ v) && decide (v ≤ hi)

/-- The status codes of R72. -/
def stOk : Nat := 0x00
def stNotReady : Nat := 0x01
def stClaimDenied : Nat := 0x02
def stWarded : Nat := 0x03
def stOverQuota : Nat := 0x04
def stSeqGap : Nat := 0x05
def stBadOpcode : Nat := 0x06
def stBadParam : Nat := 0x07
def stAborted : Nat := 0x08
def stDmaError : Nat := 0x09

/-- Whether ports `p` and `p` xor 1 form a ring (R206, R236). -/
def State.inRing (s : State) (p : Nat) : Bool := if p < 2 then s.flp.ring01 else s.flp.ring23

/-- A field port that exists and carries addresses: on the member, and not the odd port of a ring pair (R206, R224). -/
def State.portExists (s : State) (p : Nat) : Bool :=
  decide (p < Config.fieldPorts s.part) && !(p % 2 == 1 && s.inRing p)

/-- A remote endpoint, output or feedback address that exists (R5, R6, R206). -/
def State.remoteExists (s : State) (addr : Nat) : Bool :=
  s.portExists (addr / 65536) && decide (addr / 256 % 256 < Config.nodesPerPort s.part)

/-- The endpoint number of an address and a LOCAL flag. -/
def epOf (addr : Nat) (isLocal : Bool) : Nat := if isLocal then localBase + addr else addr

/-- An endpoint named by its number exists (R5, R6). -/
def State.epExists (s : State) (ep : Nat) : Bool :=
  if localBase ≤ ep then decide (ep - localBase < Config.loadChannels s.part) else s.remoteExists ep

/-- The byte of an ADDRESS at 16 that names an absent resource: 16 a local index, 18 a port, 17 a node (R72). -/
def State.absentByte (s : State) (a : Nat) (isLocal : Bool) : Option Nat :=
  if isLocal then (if a < Config.loadChannels s.part then none else some 16)
  else if s.portExists (a / 65536) = false then some 18
  else if s.remoteExists a then none
  else some 17

/-- `n` slices of `size` bytes with their offsets. -/
def slices (b : List Byte) (size n : Nat) : List (Nat × List Byte) :=
  (List.range n).map fun i => (size * i, (b.drop (size * i)).take size)

/-- The byte of a DIRECT_SWITCH entry that names a channel, or in a BIND a context, absent on the member (R3, R241). -/
def State.switchAbsent (s : State) (e : List Byte) : Option Nat :=
  if Config.loadChannels s.part ≤ wordAt e 0 1 then some 0
  else if wordAt e 1 1 = 4 ∧ s.ctxExists (wordAt e 6 1) = false then some 6
  else none

/-- The first such byte among entries that stand from `base` on. -/
def State.switchesAbsent (s : State) (base : Nat) (es : List (Nat × List Byte)) : Option Nat :=
  es.findSome? fun e => (s.switchAbsent e.2).map fun o => base + e.1 + o

/-- The port and the node of block `b` of an INDIRECT ENDPOINT_LOAD (R94). -/
def State.blockPort (s : State) (b : Nat) : Nat := b / max 1 (Config.nodesPerPort s.part)
def State.blockNode (s : State) (b : Nat) : Nat := b % max 1 (Config.nodesPerPort s.part)

/-- Where an INDIRECT ENDPOINT_LOAD names endpoints absent on the member: LENGTH where it goes past the store, else the
buffer's first entry of a port without addresses (R68, R94; assumption log 155). -/
def State.loadAbsent (s : State) (d : DescBits) : Option Nat :=
  let n := dLength d
  if (if dFlag d 4 then Config.loadChannels s.part else Config.remoteEndpoints s.part / 256) < n then some 2
  else if dFlag d 4 then none
  else ((List.range n).find? fun b => !s.portExists (s.blockPort b)).map fun b => 4096 * b

/-- The offset at which a descriptor names a resource absent on the member (R3, R6, R68, R72). What the buffer of an
INDIRECT DIRECT_SWITCH names is judged once its bytes are there. -/
def State.absentOffset (s : State) (d : DescBits) : Option Nat :=
  let bad (ok : Bool) (o : Nat) : Option Nat := if ok then none else some o
  match dOpcode d with
  | 0x03 =>
    if dFlag d 3 then s.loadAbsent d
    else
      let a := dfield d 16 4 % 2 ^ 18
      let f (k : Nat) : Option Nat := s.absentByte (a + k) (dFlag d 4)
      match f 0 with
      | some o => some o
      | none => if dLength d = 2 then f 1 else none
  | 0x0D => bad (decide (0 < Config.gnssAntennas s.part)) 0
  | 0x0F => bad (s.ctxExists (dfield d 16 1)) 16
  | 0x10 => ((List.range 128).find? fun c => (dfield d 16 16).testBit c && !s.ctxExists c).map fun c => 16 + c / 8
  | 0x11 => bad (s.ctxExists (dfield d 16 1)) 16
  | 0x12 => bad (s.ctxExists (dfield d 16 1)) 16
  | 0x13 =>
    if dFlag d 3 then none
    else s.switchesAbsent 24 (slices (dBytes d 24 40) 8 (min 5 (dLength d)))
  | 0x14 => bad (s.portExists (dfield d 16 1)) 16
  | 0x15 => match dfield d 16 1 with
    | 0 => bad (s.ctxExists (dfield d 32 1)) 32
    | 1 => bad (s.ctxExists (dfield d 17 1)) 17
    | _ => none
  | _ => none

/-- The ready bit an opcode waits for (R64, R360); none for an opcode the table does not list. -/
def readyBitOf (d : DescBits) : Option Nat :=
  match dOpcode d with
  | 0x01 => some 1
  | 0x02 => some 1
  | 0x03 => some 4
  | 0x04 => some 4
  | 0x05 => some 4
  | 0x06 => some 5
  | 0x07 => some 5
  | 0x08 => some 5
  | 0x09 => some 5
  | 0x0A => some 5
  | 0x0B => some 5
  | 0x0C => some 4
  | 0x0D => some 6
  | 0x0E => some 4
  | 0x0F => some 3
  | 0x10 => some 3
  | 0x11 => some 3
  | 0x12 => some 3
  | 0x13 => some 2
  | 0x14 => some (8 + dfield d 16 1 % 4)
  | 0x15 => some 3
  | 0x16 => some 0
  | 0x17 => some 0
  | 0x18 => some 0
  | 0x19 => some 5
  | _ => none

end Sys2Proof.Machine
end

