-- ==== Sys2Proof/Machine/RingOps.lean ====
section
/-! DEFINITION. The life of a descriptor: holds at the head of a ring, start, completion in ring order (R66-R73). -/

namespace Sys2Proof.Machine

def Slot.opcode (d : Slot) : Nat := dOpcode d.desc

/-- A slot that has neither started nor finished. -/
def Slot.waiting (d : Slot) : Bool := d.stage != .started && d.stage != .finished

/-- The descriptor holds later ones of its ring until it completes: FENCE_AFTER, or a FENCE (R61, R69). -/
def Slot.fences (d : Slot) : Bool := d.fetchFailSeq.isNone && (dFlag d.desc 1 || d.opcode == 0x02)

/-- The head of a submission ring: its first descriptor that has not started (R68). -/
def Ring.head (r : Ring) : Option Slot := r.slots.find? Slot.waiting

/-- The first waiting slot changed by `f`. -/
def onFirst (f : Slot → Slot) : List Slot → List Slot
  | [] => []
  | d :: t => if d.waiting then f d :: t else d :: onFirst f t

/-- The slot at a ring index changed by `f`. -/
def onIndex (i : Word) (f : Slot → Slot) : List Slot → List Slot
  | [] => []
  | d :: t => if d.index = i then f d :: t else d :: onIndex i f t

/-- A descriptor before the head that is still running holds it by FENCE_AFTER (R61, R68). -/
def Ring.fenced (r : Ring) : Bool := r.slots.any fun d => d.stage == .started && d.fences

/-- A descriptor before the head that is still running has its effect on the same function yet to come (R66). -/
def Ring.ordered (r : Ring) (ready : Nat) : Bool :=
  r.slots.any fun d => d.stage == .started && readyBitOf d.desc == some ready

/-! ### Completions (R66, R70, R71) -/

/-- A slot that has finished with a status. -/
def State.finishSlot (s : State) (status detail detail2 : Nat) (start : Nat) (d : Slot) : Slot :=
  { d with stage := .finished, status, detail, detail2, startTick := start, doneTick := s.now, doneCal := s.cal }

/-- The COMPLETION report of a finished slot (R71). -/
def completionReport (ring : Nat) (d : Slot) : Report :=
  { opcode := 0x40, tick := d.doneTick,
    payload := [fld 16 1 ring, fld 17 1 d.status, fld 18 1 (if d.fetchFailSeq.isSome then 0 else d.opcode),
      fld 20 4 (d.fetchFailSeq.getD (dSeq d.desc)).toNat, fld 24 4 d.detail, fld 28 4 d.detail2,
      fld 32 8 d.startTick, fld 40 8 d.doneCal] }

/-- COMPL_MODE = ERRORS leaves out what completed with OK, but for FENCE and FENCE_AFTER (R70, R396). -/
def Ring.completes (r : Ring) (d : Slot) : Bool :=
  r.complMode == 0 || d.status != 0 || d.fences || d.fetchFailSeq.isSome

/-- One completion, written, queued, or dropped and counted for a disabled report ring (R70). -/
def State.complete (ring : Nat) (d : Slot) (s : State) : State :=
  let r := s.ring ring
  if r.completes d then
    let c := 16 + r.complRing
    if (s.ring c).isEnabled then s.enqueue c (completionReport ring d) else s.dropRouted 0x40
  else s

/-- Completions of the finished descriptors at the front of a ring, in ring order (R66). -/
def State.flushLoop (ring : Nat) : Nat → State → State
  | 0, s => s
  | n + 1, s =>
    match (s.ring ring).slots with
    | [] => s
    | d :: t =>
      if d.stage = .finished then
        State.flushLoop ring n ((s.onRing ring fun r => { r with slots := t }).complete ring d)
      else s

def State.flush (ring : Nat) (s : State) : State := s.flushLoop ring (s.ring ring).slots.length

/-! ### The head of a ring (R68) -/

/-- What holds the head, or ends it at once: (stage, or a status with its DETAIL). -/
inductive Verdict where
  | stage (g : Stage)
  | ends (status detail : Nat)
  deriving DecidableEq, Repr

/-- The conditions of R68 in their order; last the order of R66: the head starts once the running descriptors of its ring
for the same function have completed (assumption log 156). -/
def State.judge (s : State) (ring : Nat) (d : Slot) : Verdict :=
  match readyBitOf d.desc with
  | none => .ends stBadOpcode d.opcode
  | some b =>
    match s.absentOffset d.desc with
    | some o => .ends stBadParam o
    | none =>
      let nb := dNotBefore d.desc
      if d.fetchTick + 2 ^ 32 < nb then .ends stBadParam 8
      else if s.now < nb then .stage .heldNotBefore
      else if s.isReady b = false then
        (if dFlag d.desc 0 then .ends stNotReady b else .stage .heldNotReady)
      else if (s.ring ring).fenced then .stage .heldFence
      else if (s.ring ring).ordered b then .stage .queued
      else .stage .startable

/-- The head judged; a head that ends at once makes way for the next. -/
def State.settleLoop (ring : Nat) : Nat → State → State
  | 0, s => s
  | n + 1, s =>
    match (s.ring ring).head with
    | none => s
    | some d =>
      if d.stage = .queued ∨ d.stage = .startable then
        match s.judge ring d with
        | .stage g => s.onRing ring fun r => { r with slots := onFirst (fun d => { d with stage := g }) r.slots }
        | .ends st de =>
          State.settleLoop ring n
            (s.onRing ring fun r => { r with slots := onFirst (s.finishSlot st de 0 0) r.slots })
      else s

/-- The head of a ring judged, and the completions that are due written. -/
def State.settle (ring : Nat) (s : State) : State :=
  (s.settleLoop ring (s.ring ring).slots.length).flush ring

/-- A hold at the head is judged again (NOT_BEFORE_REACHED and its like). -/
def State.rejudge (ring : Nat) (s : State) : State :=
  (s.onRing ring fun r => { r with slots := onFirst (fun d => { d with stage := .queued }) r.slots }).settle ring

/-- The head completes: it starts and finishes now (R67, R72). -/
def State.finishHead (ring status detail detail2 : Nat) (s : State) : State :=
  (s.onRing ring fun r => { r with slots := onFirst (s.finishSlot status detail detail2 s.now) r.slots }).settle ring

/-- The head completes without having started (R68). -/
def State.endHead (ring status detail : Nat) (s : State) : State :=
  (s.onRing ring fun r => { r with slots := onFirst (s.finishSlot status detail 0 0) r.slots }).settle ring

/-- The head starts and goes on running (R66). -/
def State.startHead (ring : Nat) (marks : List (Nat × Word)) (s : State) : State :=
  (s.onRing ring fun r =>
    { r with slots := onFirst (fun d => { d with stage := .started, startTick := s.now, marks }) r.slots }).settle ring

/-- A running slot finishes; any other is left alone. -/
def State.finishRunning (s : State) (status detail detail2 : Nat) (d : Slot) : Slot :=
  if d.stage = .started then s.finishSlot status detail detail2 d.startTick d else d

/-- A running descriptor completes (R67). -/
def State.finishAt (ring : Nat) (index : Word) (status detail detail2 : Nat) (s : State) : State :=
  (s.onRing ring fun r =>
    { r with slots := onIndex index (s.finishRunning status detail detail2) r.slots }).settle ring

/-- A ring takes descriptors. -/
def State.ringRuns (s : State) (ring : Nat) : Bool :=
  match (s.ring ring).mode with
  | .enabled => true
  | .error => true
  | _ => false

/-- The descriptor about to execute: the head of an enabled ring, judged now, if nothing holds it. -/
def State.startable (s : State) (ring : Nat) : Option Slot :=
  if s.ringRuns ring then
    match (s.ring ring).head with
    | some d => if d.stage = .startable then some d else none
    | none => none
  else none

/-- The command of an opcode's row: the descriptor at the head of the ring executes if it carries the opcode and
nothing holds it; a head that has lost its function waits again. -/
def State.runDesc (ring op : Nat) (f : Slot → State → State) (s : State) : State :=
  if ring < 16 then
    let s := if (s.startable ring).isSome then s.settle ring else s
    match s.startable ring with
    | some d => if d.opcode = op then f d s else s
    | none => s
  else s

/-- The checks of a descriptor: BAD_PARAM at the lowest offending offset, or it goes on (R72). -/
def State.checked (ring : Nat) (cs : List (Bool × Nat)) (k : State → State) (s : State) : State :=
  match firstBad cs with
  | some o => s.finishHead ring stBadParam o 0
  | none => k s

/-- The INDIRECT buffer of a descriptor: a failed read ends it with DMA_ERROR (R62). -/
def State.withBuffer (ring : Nat) (buf : HostRead) (k : List Byte → State → State) (s : State) : State :=
  match buf with
  | .data b => k b s
  | .error => (s.dmaError).finishHead ring stDmaError 0 0

end Sys2Proof.Machine
end

