-- ==== Sys2Proof/Machine/MapOps.lean ====
section
/-! DEFINITION. Layers, cells, tiles, frames and pools, rasterising and merging of coverage (05_map_pager.md). -/

namespace Sys2Proof.Machine

/-! ### Layers and cells (R118-R123) -/

/-- Cell size in mm by code (R119). -/
def cellMm : Nat → Nat
  | 0 => 25
  | 1 => 50
  | 2 => 100
  | 3 => 200
  | 4 => 400
  | 5 => 500
  | 6 => 1000
  | _ => 2000

/-- Bits per cell of a kind (R118). -/
def kindBits : Nat → Nat
  | 0 => 4
  | 1 => 1
  | 2 => 2
  | _ => 16

/-- Bytes of tile data of a kind (R118). -/
def tileBytes (kind : Nat) : Nat := 8192 * kindBits kind

/-- The pool of a kind's data frames (R131). -/
def kindPool : Nat → Nat
  | 0 => 2
  | 1 => 0
  | 2 => 1
  | _ => 3

/-- Layers of a kind enabled at most (R118). -/
def kindLimit : Nat → Nat
  | 0 => 8
  | 1 => 32
  | 2 => 32
  | _ => 16

/-- A cell code allowed for a kind (R119). -/
def cellAllowed (kind cell : Nat) : Bool := if kind = 3 then decide (2 ≤ cell) else decide (cell ≤ 4)

/-- The number of a tile in the table: layer, tx and ty, each offset to be natural. -/
def tileKey (layer : Nat) (tx ty : Int) : Nat :=
  (layer * 65536 + (tx + 32768).toNat) * 65536 + (ty + 32768).toNat

def keyLayer (k : Nat) : Nat := k / 4294967296
def keyX (k : Nat) : Int := ((k / 65536 % 65536 : Nat) : Int) - 32768
def keyY (k : Nat) : Int := ((k % 65536 : Nat) : Int) - 32768

/-- A tile coordinate in range (R120). -/
def tileInRange (v : Int) : Bool := decide (-32768 ≤ v) && decide (v ≤ 32767)

def State.tile (s : State) (key : Nat) : Tile := Tbl.get {} s.mpg.tiles key

def State.onTile (key : Nat) (f : Tile → Tile) (s : State) : State :=
  s.onMpg fun m => { m with tiles := Tbl.modify {} m.tiles key f }

def State.onLayer (l : Nat) (f : Layer → Layer) (s : State) : State :=
  s.onMpg fun m => { m with layers := Tbl.modify {} m.layers l f }

/-- An MPG source with its fault bit (R152, R153). -/
def State.mpgFault (bit src : Nat) (s : State) : State :=
  (s.onMpg fun m => { m with fault := setFlag m.fault s.cycle bit }).raise src

/-- The tag P + 3 mod 4 of a cell covered before the present epoch (R125, R144, R145). -/
def oldTag (p : Word) : Nat := (p.toNat + 3) % 4

/-- A cell refreshed for pass epoch `p` (R125). -/
def refreshCell (p : Word) (v : Nat) : Nat :=
  if 1 ≤ v % 4 ∧ v / 4 = p.toNat % 4 then v % 4 + 4 * oldTag p else v

/-- A tile made dirty at a tick. -/
def Tile.touch (tick : Nat) (t : Tile) : Tile :=
  { t with dirty := true, dirtyTick := if t.dirty then t.dirtyTick else tick }

/-- A COVERAGE tile refreshed before its first read or write in a pass epoch (R125). -/
def Layer.refresh (y : Layer) (tick : Nat) (t : Tile) : Tile :=
  if y.kind = 0 ∧ t.lastEpoch ≠ y.epoch then
    ({ t with cells := t.cells.map (fun e => (e.1, refreshCell y.epoch e.2)), lastEpoch := y.epoch } : Tile).touch tick
  else t

/-- What a cell holds, or none where it reads as unknown (R121). -/
def Layer.held (y : Layer) (t : Tile) (k : Nat) : Option Nat :=
  match t.place with
  | .resident => some (Tbl.get 0 (y.refresh 0 t).cells k)
  | .absent => if y.kind = 0 ∨ y.kind = 1 then some 0 else none
  | _ => none

/-- The value that decides: for COVERAGE 1 covered and 0 not (R123), otherwise the cell's (R118). -/
def Layer.value (y : Layer) (v : Nat) : Nat :=
  if y.kind = 0 then b2n (decide (1 ≤ v % 4) && (decide (v / 4 ≠ y.epoch.toNat % 4) || y.samePass)) else v

/-- The unknown policy of a layer (R121). -/
def Layer.unknown (y : Layer) : Nat :=
  if y.unknownMode then (match y.kind with | 0 => y.unknownValue % 2 | 1 => y.unknownValue % 2 | 2 => y.unknownValue % 4 | _ => y.unknownValue)
  else if y.kind = 3 then 0xFFFF else 0

/-- The tile of a cell and the cell's index in it (R120). -/
def cellTile (ce cn : Int) : Int × Int := (Int.fdiv ce 256, Int.fdiv cn 256)
def cellIndex (ce cn : Int) : Nat := (256 * Int.fmod cn 256 + Int.fmod ce 256).toNat

/-- What a cell of a layer reads as (R120, R121). -/
def State.readCell (s : State) (l : Nat) (ce cn : Int) : Nat :=
  let y := s.layer l
  let t := cellTile ce cn
  if tileInRange t.1 && tileInRange t.2 then
    match y.held (s.tile (tileKey l t.1 t.2)) (cellIndex ce cn) with
    | some v => y.value v
    | none => y.unknown
  else y.unknown

/-- The side of a layer's cells in 1/65,536 mm. -/
def Layer.side (y : Layer) : Int := 65536 * cellMm y.cell

/-- A cell lies in the tile coordinate range (R120). -/
def cellInRange (c : Int × Int) : Bool := tileInRange (cellTile c.1 c.2).1 && tileInRange (cellTile c.1 c.2).2

/-- Accesses to cells out of range are counted one by one (R120, R152). -/
def State.noteRange (cells : List (Int × Int)) (s : State) : State :=
  let n := (cells.filter fun c => !cellInRange c).length
  if n = 0 then s else (s.onMpg fun m => { m with oor := satAdd 0xFFFFFFFF m.oor n }).mpgFault 7 107

/-- The tiles in range that some cells lie in, each once. -/
def tilesOf (l : Nat) (cells : List (Int × Int)) : List Nat :=
  (((cells.map fun c => cellTile c.1 c.2).eraseDups).filter fun t => tileInRange t.1 && tileInRange t.2).map fun t =>
    tileKey l t.1 t.2

/-- The cells of a list that lie in a tile, by index. -/
def cellsIn (key : Nat) (cells : List (Int × Int)) : List Nat :=
  (cells.filter fun c => cellTile c.1 c.2 == (keyX key, keyY key)).map fun c => cellIndex c.1 c.2

/-- A tile is read or written at a tick (R140). -/
def Tile.used (tick : Nat) (t : Tile) : Tile := { t with useTick := tick }

/-- What GLE's reading of some cells of a layer does to MPG: tiles read are refreshed; cells of tiles not resident and cells
out of range are counted (R120, R121, R125, R152). -/
def State.noteReads (l : Nat) (cells : List (Int × Int)) (s : State) : State :=
  (tilesOf l cells).foldl (fun s key =>
    match (s.tile key).place with
    | .resident => s.onTile key fun x => ((s.layer l).refresh s.now x).used s.now
    | .away => ((s.onTile key fun x => { x with sought := true }).onMpg fun m =>
        { m with unknownRead := satAdd 0xFFFFFFFF m.unknownRead (cellsIn key cells).length }).raise 96
    | _ => s) (s.noteRange cells)

/-! ### Pools and frames (R131-R136) -/

/-- The `j`-th free unit at or above `u`, given the used units at or above it, rising. -/
def nthFree : List Nat → Nat → Nat
  | [], u => u
  | x :: t, u => if x ≤ u then nthFree t (u + 1) else u

/-- The `j`-th free unit of a pool: by grants in order, then by unit. -/
def pickUnit (c : Nat) (used : List Nat) : List Grant → Nat → Nat
  | [], _ => 0
  | g :: t, j =>
    let base := g.offset * poolUnitsPer2M c
    let n := g.size * poolUnitsPer2M c
    let mine := used.filter fun u => decide (base ≤ u) && decide (u < base + n)
    if j < n - mine.length then nthFree mine (base + j) else pickUnit c used t (j - (n - mine.length))

/-- A unit put into a rising list. -/
def insertUnit (u : Nat) : List Nat → List Nat
  | [] => [u]
  | x :: t => if u ≤ x then u :: x :: t else x :: insertUnit u t

/-- A unit of a pool that has one free; which one is a free value (assumption log 16). -/
def State.allocUnit (c : Nat) (s : State) : Nat × State :=
  let used := Tbl.get [] s.mpg.used c
  let gs := s.mpg.grants.filter fun g => g.pool == c
  let u := pickUnit c used gs (Config.freeUnit s.mpg.freeCount % max 1 (s.poolFree c))
  (u, s.onMpg fun m => { m with used := Tbl.set [] m.used c (insertUnit u used), freeCount := m.freeCount + 1 })

/-- A unit returns to its pool. -/
def State.freeUnit (c u : Nat) (s : State) : State :=
  s.onMpg fun m => { m with used := Tbl.modify [] m.used c fun l => l.filter fun x => x != u }

/-- A host address from an arena offset (R138). -/
def State.arenaAddr (s : State) (off : Nat) : Nat :=
  match s.mpg.grants.find? fun g => decide (g.offset * 2097152 ≤ off) && decide (off < (g.offset + g.size) * 2097152) with
  | some g => g.addr + off - g.offset * 2097152
  | none => 0

/-- The arena offset of a unit of a pool. -/
def unitOffset (c u : Nat) : Nat := u * (2097152 / poolUnitsPer2M c)

/-! ### Root and leaf tables (R137, R138) -/

/-- A word of the tables in host memory (R138). -/
def State.read64 (s : State) (off : Nat) : Nat := Tbl.get 0 s.mpg.tables off

/-- MPG writes one entry. -/
def State.write64 (off v : Nat) (s : State) : State :=
  (s.onMpg fun m => { m with tables := Tbl.set 0 m.tables off v }).hostWrite (.entry (s.arenaAddr off) v)

/-- MPG writes a new table zero-filled before linking it (R137). -/
def State.zeroTable (off : Nat) (s : State) : State :=
  (s.onMpg fun m => { m with tables := m.tables.filter fun e => decide (e.1 < off) || decide (off + 524288 ≤ e.1) }).hostWrite
    (.zeros (s.arenaAddr off) 524288)

/-- The arena offsets of a tile's entry in its root table and in a leaf table at `leaf` (R137, R138). -/
def rootSlot (root key : Nat) : Nat :=
  root + 8 * (toTwos 16 (keyY key) / 256 * 256 + toTwos 16 (keyX key) / 256)
def leafSlot (leaf key : Nat) : Nat :=
  leaf + 8 * (toTwos 16 (keyY key) % 256 * 256 + toTwos 16 (keyX key) % 256)

/-- The formats of a root and a leaf entry (R137). -/
def rootWord (leaf : Nat) : Nat := leaf + 1
def leafWord (frame header : Nat) : Nat := 1 + frame + header / 64 * 2 ^ 34

/-- The arena offset of a layer's root table. -/
def State.rootOffset (s : State) (l : Nat) : Nat := unitOffset 5 ((s.layer l).root.getD 0)

/-- The walk (R138): the frame and the header of a tile whose entry is valid. -/
def State.walk (s : State) (l : Nat) (tx ty : Int) : Option (Nat × Nat) :=
  let key := tileKey l tx ty
  let r := s.read64 (rootSlot (s.rootOffset l) key)
  if r % 2 = 0 then none
  else
    let e := s.read64 (leafSlot (r / 524288 % 32768 * 524288) key)
    if e % 2 = 0 then none else some (e / 8192 % 2097152 * 8192, e / 2 ^ 34 % 2 ^ 28 * 64)

/-- The number of the leaf table a tile's entry stands in (R137). -/
def leafNumber (key : Nat) : Nat :=
  let x := toTwos 16 (keyX key)
  let y := toTwos 16 (keyY key)
  keyLayer key * 65536 + (y / 256) * 256 + x / 256

def State.leaf (s : State) (key : Nat) : Option Nat := Tbl.get none s.mpg.leaves (leafNumber key)

/-- Why a tile can have no frame (R134): its layer's quota, or an empty pool. -/
inductive NoFrame where
  | quota
  | pool
  deriving DecidableEq, Repr

/-- Whether a tile can have a frame, a header slot and its leaf table (R134, R137). -/
def State.frameCheck (s : State) (key : Nat) : Option NoFrame :=
  let y := s.layer (keyLayer key)
  if y.quota ≤ y.use then some .quota
  else if s.poolFree (kindPool y.kind) = 0 ∨ s.poolFree 4 = 0 ∨ ((s.leaf key).isNone ∧ s.poolFree 5 = 0) then some .pool
  else none

/-- A frame, a header slot and, if missing, the leaf table for a tile. -/
def State.giveFrame (key : Nat) (s : State) : State :=
  let l := keyLayer key
  let f := s.allocUnit (kindPool (s.layer l).kind)
  let h := f.2.allocUnit 4
  let s := match h.2.leaf key with
    | some _ => h.2
    | none =>
      let t := h.2.allocUnit 5
      let off := unitOffset 5 t.1
      ((t.2.onMpg fun m => { m with leaves := Tbl.set none m.leaves (leafNumber key) (some t.1) }).zeroTable off).write64
        (rootSlot (t.2.rootOffset l) key) (rootWord off)
  (s.onTile key fun t => { t with frame := some f.1, header := some h.1, unbacked := false }).onLayer l fun y =>
    { y with use := y.use + 1 }

/-- The refusal of a frame is raised (R152). -/
def State.noteNoFrame (w : NoFrame) (s : State) : State :=
  match w with
  | .quota => s.mpgFault 0 97
  | .pool => s.mpgFault 1 98

/-! ### Tile contents in host memory (R120, R122) -/

/-- Tile data as one number: cell k in bits b·k to b·k + b - 1. -/
def tileNumber (b : Nat) (cells : Tbl Nat) : Nat := cells.foldl (fun n e => n + e.2 * 2 ^ (b * e.1)) 0

/-- Tile data as bytes. -/
def dataBytes (kind : Nat) (cells : Tbl Nat) : List Byte :=
  let n := tileNumber (kindBits kind) cells
  (List.range (tileBytes kind)).map fun i => BitVec.ofNat 8 (n / 2 ^ (8 * i))

/-- The header of a tile but for its CRC (R122). -/
def State.headerFields (s : State) (key : Nat) (t : Tile) : List Fld :=
  let y := s.layer (keyLayer key)
  let cov := decide (y.kind = 0)
  [sfld 0 2 (keyX key), sfld 2 2 (keyY key), fld 4 1 (keyLayer key), fld 5 1 (y.kind + 4 * y.cell), fld 6 1 (b2n t.merged),
   fld 7 1 (if cov then t.pairs.length else 0), fld 8 4 (if cov then t.lastEpoch.toNat else 0)] ++
  (List.range (if cov then t.pairs.length else 0)).flatMap fun i =>
    let p := t.pairs.getD i (0, 0)
    [fld (16 + 6 * i) 2 p.1, fld (18 + 6 * i) 4 p.2.toNat]

/-- The CRC of a tile over bytes 0-11 and 16-63 of its header and its data (R122). -/
def State.tileCrc (s : State) (key : Nat) (t : Tile) : Word :=
  let h := (List.range 64).map (fieldByte (s.headerFields key t))
  crc32 (h.take 12 ++ h.drop 16 ++ dataBytes (s.layer (keyLayer key)).kind t.cells)

/-- The header of a tile with its CRC (R122). -/
def State.headerOf (s : State) (key : Nat) (t : Tile) : List Fld := s.headerFields key t ++ [fld 12 4 (s.tileCrc key t).toNat]

/-- A tile's data, then its header leave for host memory (R122, R139, R148). -/
def State.writeTile (dataAddr headAddr key : Nat) (t : Tile) (s : State) : State :=
  (s.hostWrite (.data dataAddr (s.layer (keyLayer key)).kind t.cells)).hostWrite (.header headAddr (s.headerOf key t))

/-- The own-origin SEQ of a tile, if it holds the device's own pair. -/
def State.ownSeq (s : State) (t : Tile) : Option Word :=
  if s.mpg.domainId = 0 then none
  else (t.pairs.find? fun p => p.1 == s.mpg.domainId).map Prod.snd

/-- A tile is written back, with its TILE_WRITEBACK: data, header, and at the first its leaf entry (R139, R142). -/
def State.writeBack (key : Nat) (evicted wasUnbacked : Bool) (s : State) : State :=
  let t := s.tile key
  let y := s.layer (keyLayer key)
  match t.frame, t.header with
  | some f, some h =>
    let fo := unitOffset (kindPool y.kind) f
    let own := s.ownSeq t
    let ho := unitOffset 4 h
    let s := s.writeTile (s.arenaAddr fo) (s.arenaAddr ho) key t
    let s := if t.leafValid then s
      else s.write64 (leafSlot (unitOffset 5 ((s.leaf key).getD 0)) key) (leafWord fo ho)
    let s := (s.raise 105).report 0x4C 0 s.now
      [fld 16 1 (keyLayer key),
       fld 17 1 (b2n (!t.leafValid) + 2 * b2n evicted + 4 * b2n t.folded.isSome + 8 * b2n wasUnbacked + 16 * b2n own.isSome),
       sfld 18 2 (keyX key), sfld 20 2 (keyY key), fld 22 2 (t.folded.getD 0), fld 24 8 fo, fld 32 8 ho,
       fld 40 4 (own.getD 0).toNat, fld 44 4 (s.tileCrc key t).toNat, fld 48 8 s.cal]
    s.onTile key fun t => { t with dirty := false, leafValid := true, folded := none }
  | _, _ => s

/-- The oldest unbacked tile of a layer, or of any. -/
def State.oldestUnbacked (s : State) (l : Option Nat) : Option Nat :=
  let us := s.mpg.tiles.filter fun e => e.2.unbacked && (match l with | some n => keyLayer e.1 == n | none => true)
  match us with
  | [] => none
  | h :: t => some (t.foldl (fun (b : Nat × Tile) e => if e.2.order < b.2.order then e else b) h).1

/-- A tile, by its order, put into a list of the oldest first. -/
def insertAge (e : Nat × Nat) : List (Nat × Nat) → List (Nat × Nat)
  | [] => [e]
  | x :: t => if e.1 ≤ x.1 then e :: x :: t else x :: insertAge e t

/-- The unbacked tiles of every layer, oldest first (R136). -/
def State.unbackedKeys (s : State) : List Nat :=
  (((s.mpg.tiles.filter fun e => e.2.unbacked).map fun e => (e.2.order, e.1)).foldr insertAge []).map Prod.snd

/-- An unbacked tile gets a frame, if its layer can have one now, and is written back at once (R136). -/
def State.backTile (key : Nat) (s : State) : State :=
  match s.frameCheck key with
  | none => (s.giveFrame key).writeBack key false true
  | some _ => s

/-- Every layer's unbacked tiles are backed while their layers can have frames, oldest first (R136). -/
def State.backAll (s : State) : State := s.unbackedKeys.foldl (fun s key => s.backTile key) s

/-- The same for one layer, whose quota alone has changed. -/
def State.backLayer (l : Nat) (s : State) : State :=
  (s.unbackedKeys.filter fun k => keyLayer k == l).foldl (fun s key => s.backTile key) s

/-- OVER stays until USE < QUOTA (R134). -/
def State.clearOver (l : Nat) (s : State) : State := s.onLayer l fun y => { y with isOver := y.isOver && decide (y.quota ≤ y.use) }

/-- What waits to go into a tile falls away: the tile is replaced or discarded (R150). -/
def State.dropWaiting (key : Nat) (s : State) : State :=
  s.onMpg fun m =>
    { m with mergeQ := (m.mergeQ.map fun w => { w with keys := w.keys.filter fun k => k != key }).filter fun w => w.keys != [] }

/-- A tile is discarded: its frame and header slot return, its leaf table with its last tile (R137, R149). -/
def State.releaseTile (key : Nat) (s : State) : State :=
  let s := s.dropWaiting key
  let t := s.tile key
  let l := keyLayer key
  let s := match t.frame with
    | some f => (s.freeUnit (kindPool (s.layer l).kind) f).onLayer l fun y => { y with use := y.use - 1 }
    | none => s
  let s := match t.header with
    | some h => s.freeUnit 4 h
    | none => s
  let s := if t.leafValid then s.write64 (leafSlot (unitOffset 5 ((s.leaf key).getD 0)) key) 0 else s
  let s := s.onTile key fun _ => {}
  if s.mpg.tiles.any fun e => leafNumber e.1 == leafNumber key && e.2.frame.isSome then s
  else match s.leaf key with
    | some u => (((s.write64 (rootSlot (s.rootOffset l) key) 0).freeUnit 5 u).onMpg fun m =>
        { m with leaves := Tbl.set none m.leaves (leafNumber key) none })
    | none => s

/-- A tile counts among the dropped and failed ones (R121): beyond 256 the oldest is forgotten and reads as absent. A frame
it has stays the layer's, since only a release lowers USE (R134; assumption log 41). -/
def State.loseTile (key : Nat) (f : Tile → Tile) (s : State) : State :=
  let s := (s.onTile key fun t => { (f t) with place := .lost, order := s.mpg.orderCount }).onMpg fun m =>
    { m with orderCount := m.orderCount + 1 }
  let lost := s.mpg.tiles.filter fun e => e.2.place == .lost
  if 256 < lost.length then
    match lost with
    | [] => s
    | h :: t =>
      let k := (t.foldl (fun (b : Nat × Tile) e => if e.2.order < b.2.order then e else b) h).1
      s.onTile k fun t => { frame := t.frame, header := t.header, leafValid := t.leafValid }
  else s

/-! ### The caches (R140) -/

/-- The cache a layer's tiles are held in: coarse for PRESCRIPTION. -/
def State.isCoarse (s : State) (key : Nat) : Bool := (s.layer (keyLayer key)).kind == 3

/-- Bytes of the fine or the coarse cache (R3). -/
def State.cacheBytes (s : State) (coarse : Bool) : Nat :=
  1024 * (if coarse then Config.coarseCacheKib s.part else Config.fineCacheKib s.part)

/-- The resident tiles of a cache. -/
def State.cached (s : State) (coarse : Bool) : List (Nat × Tile) :=
  s.mpg.tiles.filter fun e => e.2.place == .resident && s.isCoarse e.1 == coarse

/-- A cache has no room for one more tile. -/
def State.cacheFull (s : State) (coarse : Bool) : Bool :=
  decide (s.cacheBytes coarse <
    (s.cached coarse).foldl (fun n e => n + tileBytes (s.layer (keyLayer e.1)).kind) (if coarse then 131072 else 32768))

/-- The least recently used of some tiles. -/
def leastUsed : List (Nat × Tile) → Option Nat
  | [] => none
  | h :: t => some (t.foldl (fun (b : Nat × Tile) e => if e.2.useTick < b.2.useTick then e else b) h).1

/-- The tile that goes when a cache needs space (R140): the least recently used clean one, else the least recently used dirty
one; an unbacked tile never does. -/
def State.victim (s : State) (coarse : Bool) : Option Nat :=
  let ts := (s.cached coarse).filter fun e => e.2.frame.isSome && !e.2.unbacked
  match leastUsed (ts.filter fun e => !e.2.dirty) with
  | some k => some k
  | none => leastUsed ts

/-- A tile leaves the cache. -/
def State.uncache (key : Nat) (s : State) : State :=
  s.onTile key fun t => { t with place := .away, cells := [], sought := false }

/-- Space is made for a tile that comes into the cache (R140; assumption log 142). -/
def State.makeSpace (key : Nat) (s : State) : State :=
  let c := s.isCoarse key
  if s.cacheFull c then
    match s.victim c with
    | some k => (if (s.tile k).dirty then s.writeBack k true false else s).uncache k
    | none => s
  else s

/-! ### New tiles (R134, R135, R139) -/

/-- A tile can be created now: with a frame, or among the 32 unbacked ones (R135). -/
def State.canCreate (s : State) (key : Nat) : Bool :=
  (s.tile key).frame.isSome || (s.frameCheck key).isNone || decide (s.unbackedCount < 32)

/-- The oldest unbacked tile is dropped (R135). -/
def State.dropOldest (s : State) : State :=
  match s.oldestUnbacked none with
  | some key => ((s.onMpg fun m => { m with tileDrop := count32 m.tileDrop }).mpgFault 2 100).loseTile key fun _ => {}
  | none => s

/-- A tile that the device itself needs gets a frame, or is held unbacked (R134, R135). -/
def State.backOrHold (key : Nat) (s : State) : State :=
  match s.frameCheck key with
  | none => s.giveFrame key
  | some w =>
    (((s.noteNoFrame w).onTile key fun t => { t with unbacked := true, order := s.mpg.orderCount }).onMpg fun m =>
      { m with orderCount := m.orderCount + 1 }).raise 99

/-- A new tile of a layer, in the cache, with nothing in it (R139); a forgotten one has its frame still. -/
def State.createTile (key : Nat) (s : State) : State :=
  let s := s.makeSpace key
  let epoch := (s.layer (keyLayer key)).epoch
  let s := s.onTile key fun t =>
    { place := .resident, lastEpoch := epoch, frame := t.frame, header := t.header, leafValid := t.leafValid, useTick := s.now }
  if (s.tile key).frame.isSome then s else s.backOrHold key

/-! ### Rasterising (R128) and pairs (R129, R145, R146) -/

/-- A cell of side `c` mm, at column `ce` and row `cn`, is covered by a segment: R128 in doubled coordinates. -/
def deltaCovers (d : Delta) (c : Nat) (ce cn : Int) : Bool :=
  let qx : Int := (2 * ce + 1) * c - 2 * d.startE
  let qy : Int := (2 * cn + 1) * c - 2 * d.startN
  let vx : Int := 2 * (d.endE - d.startE)
  let vy : Int := 2 * (d.endN - d.startN)
  let dot := qx * vx + qy * vy
  let crs := qx * vy - qy * vx
  let l2 := vx * vx + vy * vy
  let w : Int := 5 * d.width
  decide (0 < l2) && decide (0 ≤ dot) && (decide (dot < l2) || (d.fin && decide (dot = l2))) &&
    decide (4 * crs * crs ≤ w * w * l2)

/-- The cells of side `c` mm that a segment covers. -/
def deltaCells (d : Delta) (c : Nat) : List (Int × Int) :=
  let h : Int := (3 * d.width) / 2 + 1
  let lo (a b : Int) : Int := Int.fdiv (min a b - h) c
  let hi (a b : Int) : Int := Int.fdiv (max a b + h) c
  ((intRange (lo d.startN d.endN) (hi d.startN d.endN)).flatMap fun cn =>
    (intRange (lo d.startE d.endE) (hi d.startE d.endE)).map fun ce => (ce, cn)).filter fun q => deltaCovers d c q.1 q.2

/-- The device's own coverage of one cell under tag `g` (R124). -/
def ownCell (g v : Nat) : Nat := if v % 4 = 0 ∨ v / 4 ≠ g then min 3 (v % 4 + 1) + 4 * g else v

/-- A merged delta's coverage of one cell (R145). -/
def mergedCell (p : Word) (v : Nat) : Nat := min 3 (v % 4 + 1) + 4 * oldTag p

/-- Cells of a tile changed by `f`. -/
def Tile.paint (f : Nat → Nat) (ks : List Nat) (t : Tile) : Tile :=
  { t with cells := ks.foldl (fun c k => Tbl.modify 0 c k f) t.cells }

/-- The pair of an origin takes a sequence and moves to the end; a ninth origin folds the oldest (R129, R145, R146). -/
def Tile.pair (origin : Nat) (seq : Word) (t : Tile) : Tile :=
  let ps := (t.pairs.filter fun p => p.1 != origin) ++ [(origin, seq)]
  if 8 < ps.length then { t with pairs := ps.drop 1, merged := true, folded := (ps.head?).map Prod.fst } else { t with pairs := ps }

/-- A pair set in a tile, with ORIGIN_FOLD where it folds one (R146). -/
def State.setPair (key origin : Nat) (seq : Word) (s : State) : State :=
  let t := s.tile key
  let fold := decide (8 ≤ (t.pairs.filter fun p => p.1 != origin).length)
  let s := s.onTile key (Tile.pair origin seq)
  if fold then s.mpgFault 4 102 else s

/-- One tile takes the device's own segment (R124, R129). -/
def State.ownInto (d : Delta) (key : Nat) (s : State) : State :=
  let y := s.layer d.layer
  let ks := cellsIn key (deltaCells d (cellMm y.cell))
  let s := s.onTile key fun t => (((y.refresh s.now t).paint (ownCell d.epoch) ks).touch s.now).used s.now
  if s.mpg.domainId = 0 then s else s.setPair key s.mpg.domainId d.covSeq

/-- One tile takes a merged delta, unless its pair for the origin is already past it (R145). -/
def State.mergeInto (d : Delta) (key : Nat) (s : State) : State :=
  let y := s.layer d.layer
  let known := match (s.tile key).pairs.find? fun p => p.1 == d.origin with
    | some p => atOrBefore d.covSeq p.2
    | none => false
  if d.origin ≠ 0 ∧ known = true then s
  else
    let ks := cellsIn key (deltaCells d (cellMm y.cell))
    let s := s.onTile key fun t => (((y.refresh s.now t).paint (mergedCell y.epoch) ks).touch s.now).used s.now
    if d.origin = 0 then s else s.setPair key d.origin d.covSeq

/-- One tile takes a delta, own or merged. -/
def State.deltaInto (w : MergeWait) (key : Nat) (s : State) : State :=
  if w.own then s.ownInto w.delta key else s.mergeInto w.delta key

/-- A delta that came before waits to go into a tile. -/
def State.awaited (s : State) (key : Nat) : Bool := s.mpg.mergeQ.any fun w => w.keys.contains key

/-- A tile cannot take a delta now: it is not resident, or it cannot be created before an unbacked one has been dropped
(R135, R145). -/
def State.blocked (s : State) (key : Nat) : Bool :=
  (s.tile key).place == .away || ((s.tile key).place == .absent && !s.canCreate key)

/-- A delta must wait for a tile: the tile cannot take it, or an earlier delta waits for it (R150). -/
def State.mustWait (s : State) (key : Nat) : Bool := s.blocked key || s.awaited key

/-- A descriptor must wait for a tile: it is not resident, or a delta that came before waits to create it (R150). -/
def State.unsettled (s : State) (key : Nat) : Bool :=
  (s.tile key).place == .away || ((s.tile key).place == .absent && s.awaited key)

/-- A delta waits for a place among the unbacked tiles (R135). -/
def State.wantsRoom (s : State) : Bool :=
  s.mpg.mergeQ.any fun w => w.keys.any fun k => (s.tile k).place == .absent && !s.canCreate k

/-- A delta put into a tile that it need not wait for: an absent tile is created, a dropped or failed one takes nothing. -/
def State.putDelta (w : MergeWait) (k : Nat) (s : State) : State :=
  match (s.tile k).place with
  | .absent => (s.createTile k).deltaInto w k
  | .resident => s.deltaInto w k
  | _ => s

/-- The tiles of a delta one after another: those for which it waits, by `p`, and the state. -/
def State.putAll (p : State → Nat → Bool) (w : MergeWait) (keys : List Nat) (s : State) : List Nat × State :=
  keys.foldl (fun r k => if p r.2 k then (r.1 ++ [k], r.2) else (r.1, r.2.putDelta w k)) ([], s)

/-- A delta applied to the tiles it touches, or left waiting for some of them; cells out of range are counted (R120, R124,
R135, R141, R145, R150). -/
def State.applyDelta (d : Delta) (own : Bool) (s : State) : State :=
  let cells := deltaCells d (cellMm (s.layer d.layer).cell)
  let w : MergeWait := { delta := d, keys := [], own }
  let r := (s.noteRange cells).putAll State.mustWait w (tilesOf d.layer cells)
  if r.1 = [] then r.2
  else r.2.onMpg fun m => { m with mergeQ := m.mergeQ ++ [{ w with keys := r.1 }] }

/-- A delta would have to wait for a tile. -/
def State.deltaWaits (s : State) (d : Delta) : Bool :=
  (tilesOf d.layer (deltaCells d (cellMm (s.layer d.layer).cell))).any s.mustWait

/-- The deltas that wait for a resident tile go into it in their order (R150). -/
def State.drainTile (key : Nat) (s : State) : State :=
  ((s.mpg.mergeQ.filter fun w => w.keys.contains key).foldl (fun s w => s.putDelta w key) (s.dropWaiting key))

/-- Deltas in the merge queue (R145). -/
def State.mergeCount (s : State) : Nat := (s.mpg.mergeQ.filter fun w => !w.own).length

/-- A delta of a sibling from DLK (R145, R232): merged where the layer shares, dropped and counted where the queue is
full. -/
def State.mergeFromLink (d : Delta) (s : State) : State :=
  let y := s.layer d.layer
  if s.isReady 5 && y.enable && y.kind == 0 && y.share then
    if s.deltaWaits d && decide (4096 ≤ s.mergeCount) then
      (s.onMpg fun m => { m with mergeDrop := count32 m.mergeDrop }).mpgFault 5 103
    else s.applyDelta d false
  else s

/-! ### Strips (R127, R129, R398) -/

/-- mm from 1/65,536 mm, half up. -/
def mm (v : Int) : Int := divHalfUp v 65536

/-- The ENDPOINT field of a delta (R129) from an endpoint's number. -/
def epField (ep : Nat) : Nat := if localBase ≤ ep then ep - localBase + 0x80000000 else ep

/-- The payload of COVERAGE_DELTA (R129). -/
def deltaPayload (d : Delta) : List Fld :=
  [fld 16 2 d.origin, fld 18 1 d.layer, fld 19 1 (b2n d.start + 2 * b2n d.fin), fld 20 4 d.covSeq.toNat,
   sfld 24 4 d.startE, sfld 28 4 d.startN, sfld 32 4 d.endE, sfld 36 4 d.endN, fld 40 1 d.width, fld 41 1 d.epoch,
   fld 42 2 d.rate, fld 44 4 d.endpoint, fld 48 4 d.duration, fld 52 8 d.calNs]

/-- A device link port carries frames: link up and enabled. -/
def State.dportRuns (s : State) (q : Nat) : Bool := (s.dport q).linked && s.dlk.portEn.getLsbD q

/-- A delta passed to DLK (R129, R228, R232): queued for a COVERAGE frame, or counted as unsent with both ports down or under
DUP_ID. -/
def State.shareDelta (d : Delta) (s : State) : State :=
  if (s.dportRuns 0 || s.dportRuns 1) && !s.dlk.dupId then
    s.onDlk fun k => { k with outQ := k.outQ ++ [d], outTick := if k.outQ = [] then s.now else k.outTick }
  else
    (s.onDlk fun k => { k with covUnsent := count32 k.covUnsent, fault := setFlag k.fault s.cycle 2 }).raise 263

def State.strip (s : State) (ep : Nat) : Option Strip := Tbl.get none s.mpg.strips ep

def State.setStrip (ep : Nat) (p : Option Strip) (s : State) : State :=
  s.onMpg fun m => { m with strips := Tbl.set none m.strips ep p }

/-- The delta of a strip's present segment, closed at a tick and a place. -/
def State.segment (s : State) (ep : Nat) (p : Strip) (tick : Nat) (e n : Int) (fin : Bool) : Delta :=
  { origin := s.mpg.domainId, layer := p.layer, start := p.first, fin, covSeq := s.mpg.covSeq,
    startE := mm p.startE, startN := mm p.startN, endE := mm e, endN := mm n, width := (s.entry ep).width,
    epoch := p.epoch.toNat % 4, rate := p.rate, endpoint := epField ep,
    duration := (tick - p.startTick) / 2000, calNs := s.tbu.calField tick }

/-- A segment closes at a tick and a place (R129): sequence, raster, own pairs, report, share. -/
def State.closeSegment (ep : Nat) (p : Strip) (tick : Nat) (e n : Int) (fin : Bool) (s : State) : State :=
  if p.startTick = tick ∧ (p.first ∨ fin = false) then s
  else
    let d := s.segment ep p tick e n fin
    let s := (s.onMpg fun m => { m with covSeq := m.covSeq + 1 }).applyDelta d true
    let s := s.report 0x41 0 tick (deltaPayload d)
    if (s.layer p.layer).share && s.mpg.domainId != 0 then s.shareDelta d else s

/-- A strip whose present segment has just closed without END goes on from there. -/
def Strip.next (p : Strip) (tick : Nat) (e n : Int) : Strip :=
  if p.startTick = tick then p
  else { p with first := false, startTick := tick, startE := e, startN := n, centres := p.centres.filter fun c => tick < c.1 }

/-- A segment closes and the strip goes on (END = 0). -/
def State.cutStrip (ep : Nat) (p : Strip) (tick : Nat) (e n : Int) (s : State) : State :=
  (s.closeSegment ep p tick e n false).setStrip ep (some (p.next tick e n))

/-- A strip ends at a tick and a place (END = 1). -/
def State.endStrip (ep : Nat) (p : Strip) (tick : Nat) (e n : Int) (s : State) : State :=
  (if p.waiting then s else s.closeSegment ep p tick e n true).setStrip ep none

/-- The footprint centre of an endpoint under a pose. -/
def State.epCentre (s : State) (ep : Nat) (q : PoseState) : Int × Int :=
  q.centre (s.entry ep).xMm (s.entry ep).yMm

/-- Whether a centre lies more than the tolerance from the chord between a segment's start and its newest centre: from the
nearest point of the chord. -/
def State.offChord (s : State) (p : Strip) (e n : Int) (c : Nat × Int × Int) : Bool :=
  let vx := e - p.startE
  let vy := n - p.startN
  let qx := c.2.1 - p.startE
  let qy := c.2.2 - p.startN
  let tol : Int := 65536 * s.mpg.segTol
  let l2 := vx * vx + vy * vy
  let dot := qx * vx + qy * vy
  if dot ≤ 0 then decide (tol * tol < qx * qx + qy * qy)
  else if l2 ≤ dot then decide (tol * tol < (qx - vx) * (qx - vx) + (qy - vy) * (qy - vy))
  else
    let crs := qx * vy - qy * vx
    decide (tol * tol * l2 < crs * crs)

/-- The coverage layer an endpoint writes, if it writes any (R88, R127). -/
def State.coverageLayer (s : State) (ep : Nat) : Option Nat :=
  let en := s.entry ep
  let l := (s.product en.product).covLayer
  if en.noCoverage || en.feeder || en.width == 0 || l == 0xFF || !s.isReady 5 then none else some l

/-- The pass epoch of a layer that ground at a tick belongs to (R126): at an advance, the new one. -/
def Layer.epochAt (y : Layer) (tick : Nat) : Word :=
  y.epoch - BitVec.ofNat 32 (y.advances.filter fun a => decide (tick < a)).length

/-- A strip that waits for a pose with VALID set starts at a pose epoch, on the layer that its product now names (R398). -/
def State.startWaiting (ep : Nat) (p : Strip) (q : PoseState) (s : State) : State :=
  match s.coverageLayer ep with
  | some l =>
    let c := s.epCentre ep q
    s.setStrip ep (some { layer := l, startTick := q.tick, startE := c.1, startN := c.2, rate := p.rate,
                          epoch := (s.layer l).epochAt q.tick })
  | none => s

/-- A strip takes the centre of a pose epoch (R127, R398). -/
def State.stripEpoch (ep : Nat) (q : PoseState) (valid : Bool) (s : State) : State :=
  match s.strip ep with
  | none => s
  | some p =>
    let c := s.epCentre ep q
    if p.waiting then (if valid then s.startWaiting ep p q else s)
    else if valid = false then
      match p.centres with
      | last :: _ => (s.closeSegment ep p last.1 last.2.1 last.2.2 true).setStrip ep
          (some { layer := p.layer, waiting := true, rate := p.rate })
      | [] => (s.closeSegment ep p p.startTick p.startE p.startN true).setStrip ep
          (some { layer := p.layer, waiting := true, rate := p.rate })
    else if p.startTick < q.tick then
      if p.centres.any (s.offChord p c.1 c.2) then
        match p.centres with
        | last :: _ =>
          let s := s.cutStrip ep p last.1 last.2.1 last.2.2
          match s.strip ep with
          | some p => s.setStrip ep (some { p with centres := (q.tick, c.1, c.2) :: p.centres })
          | none => s
        | [] => s
      else s.setStrip ep (some { p with centres := (q.tick, c.1, c.2) :: p.centres })
    else s

/-- A strip's open segment closes at the pose epoch of a pass advance, and its next one belongs to the new pass epoch
(R126). -/
def State.passCut (ep : Nat) (q : PoseState) (epoch : Word) (s : State) : State :=
  match s.strip ep with
  | some p =>
    if p.waiting then s
    else
      let c := s.epCentre ep q
      let s := s.cutStrip ep p q.tick c.1 c.2
      match s.strip ep with
      | some p => s.setStrip ep (some { p with epoch })
      | none => s
  | none => s

/-- A strip that starts late takes a pose epoch that has passed, with the pass advance that took place there. -/
def State.replayEpoch (ep : Nat) (q : PoseState) (s : State) : State :=
  let s := s.stripEpoch ep q q.valid
  match s.strip ep with
  | some p =>
    let y := s.layer p.layer
    if y.advances.contains q.tick then s.passCut ep q (y.epochAt q.tick) else s
  | none => s

/-- The published poses, oldest first. -/
def State.epochs (s : State) : List PoseState := (s.pse.cur :: s.pse.hist).reverse

/-- PSE has a pose with VALID set at a tick (R398): the epochs around it both have VALID. -/
def State.validAt (s : State) (tick : Nat) : Bool :=
  let before := (s.epochs.filter fun q => decide (q.tick ≤ tick)).getLast?
  let after := s.epochs.find? fun q => decide (tick ≤ q.tick)
  (match before with | some q => q.valid | none => false) && (match after with | some q => q.valid | none => false)

/-- A strip starts at an effective on time, or at the first pose with VALID set after it (R15, R127, R398). -/
def State.openStrip (ep layer rate tick : Nat) (s : State) : State :=
  let c := s.epCentre ep (s.poseAt tick)
  let s := s.setStrip ep (some
    (if s.validAt tick then { layer, startTick := tick, startE := c.1, startN := c.2, rate, epoch := (s.layer layer).epochAt tick }
    else { layer, waiting := true, rate }))
  (s.epochs.filter fun q => decide (tick < q.tick)).foldl (fun s q => s.replayEpoch ep q) s

/-- Where a strip stands at a tick: the endpoint's centre under the interpolated pose. -/
def State.centreAt (s : State) (ep tick : Nat) : Int × Int := s.epCentre ep (s.poseAt tick)

/-- An effective off at or before a tick is still to come. -/
def State.endsBy (s : State) (ep tick : Nat) : Bool := s.gle.effQ.any fun v => v.ep == ep && !v.on && decide (v.tick ≤ tick)

/-- Every open segment of a layer closes at a pose epoch and a new one starts, but for strips that have ended by then
(R126). -/
def State.cutLayer (l : Nat) (q : PoseState) (epoch : Word) (s : State) : State :=
  (s.mpg.strips.map Prod.fst).foldl (fun s ep =>
    match s.strip ep with
    | some p => if p.layer = l ∧ s.endsBy ep q.tick = false then s.passCut ep q epoch else s
    | none => s) s

/-- The pass epoch of a layer advances at a pose epoch (R126). -/
def State.advancePass (q : PoseState) (valid : Bool) (l : Nat) (s : State) : State :=
  (((s.cutLayer l q ((s.layer l).epoch + 1)).onLayer l fun y =>
    { y with epoch := y.epoch + 1, advances := (q.tick :: y.advances).take 64,
             startHeading := if valid then some q.heading else none })).raise 104

/-- A heading reversal at a pose with VALID set (R126), judged on the unrounded headings. -/
def State.reversed (s : State) (q : PoseState) (y : Layer) : Bool :=
  y.enable && y.kind == 0 && y.autoPass &&
    (match y.startHeading with
      | some h => decide (s.mpg.reversalAngle * 65536 < (angleDiff q.heading h).natAbs)
      | none => false)

/-- A pose epoch's part in MPG: strips take its centre, VALID or its loss, and pass epochs advance (R126, R127). Off
effects that fall before the epoch end their strips at their own tick, so those strips take no centre from it. -/
def State.mapEpoch (q : PoseState) (valid : Bool) (s : State) : State :=
  let s := (s.mpg.strips.map Prod.fst).foldl (fun s ep => if s.endsBy ep q.tick then s else s.stripEpoch ep q valid) s
  let asked := s.mpg.passWaits.foldl (fun m w => m ||| w.mask) 0
  let waits := s.mpg.passWaits
  let s := (List.range 32).foldl (fun s l =>
    let y := s.layer l
    if asked.testBit l || (valid && s.reversed q y) then s.advancePass q valid l
    else if valid && y.enable && y.kind == 0 && y.startHeading.isNone then
      s.onLayer l fun y => { y with startHeading := some q.heading }
    else s) s
  waits.foldl (fun s w => s.finishAt w.ring w.index stOk 0 0) (s.onMpg fun m => { m with passWaits := [] })

end Sys2Proof.Machine
end

