-- ==== Sys2Proof/Machine/GleOps.lean ====
section
/-! DEFINITION. The decision of GLE, product demand, effective times and SECTION_STATE (01_architecture.md,
04_endpoints_lookahead.md). -/

namespace Sys2Proof.Machine

def State.onEntry (ep : Nat) (f : Entry → Entry) (s : State) : State :=
  s.onGle fun g => { g with entries := Tbl.modify {} g.entries ep f }

def State.onDyn (ep : Nat) (f : EpDyn → EpDyn) (s : State) : State :=
  s.onGle fun g => { g with dyn := Tbl.modify {} g.dyn ep f }

def State.onSection (n : Nat) (f : Section → Section) (s : State) : State :=
  s.onGle fun g => { g with sections := Tbl.modify {} g.sections n f }

/-- A GLE source with its fault bit (R115, R116). -/
def State.gleFault (bit src : Nat) (s : State) : State :=
  (s.onGle fun g => { g with fault := setFlag g.fault s.cycle bit }).raise src

/-- The safe action of R81 holds. -/
def State.hostSafe (s : State) : Bool := s.hre.hostState == .lostSafe || s.hre.hostState == .safeHold

/-- An entry in mode ONOFF or PWM that is no feeder is evaluated (R89, R105). -/
def Entry.evaluated (e : Entry) : Bool := (e.mode == .onoff || e.mode == .pwm) && !e.feeder

/-- An entry that is a member of its section (R105). -/
def Entry.isMember (e : Entry) : Bool := e.mode != .disabled && !e.feeder

/-- A PWM endpoint whose product has a PWM period (R89). -/
def State.isPwm (s : State) (ep : Nat) : Bool :=
  (s.entry ep).mode == .pwm && (s.product (s.entry ep).product).pwmPeriod != 0

/-- The members of a section, by endpoint number (R105). -/
def State.sectionMembers (s : State) (n : Nat) : List Nat :=
  (s.gle.entries.filter fun e => e.2.section_ == n && e.2.isMember).map Prod.fst

/-- The feeders of a section. -/
def State.feedersOf (s : State) (n : Nat) : List Nat :=
  (s.gle.entries.filter fun e => e.2.section_ == n && e.2.mode != .disabled && e.2.feeder).map Prod.fst

/-- Delay and transport in ticks. -/
def delayTicks (d : Nat) : Nat := d * 2000
def transportTicks (t : Nat) : Nat := t * 20000

/-! ### Path (R16, R221, R240) -/

/-- A bank has its supply and its ground. -/
def State.supplied (s : State) (b : Nat) : Bool := !(Tbl.get false s.lsb.bankCut b) && !s.lsb.pgndLost

/-- Protection lets the channel be on: armed, and after an OVERTEMP trip back at 150 °C (R247). -/
def Channel.inService (c : Channel) : Bool := c.prot == .armed && !c.hot

/-- A load channel can be on: armed, its bank supplied, and LSB ready or the keeper or SAFE driving it. -/
def State.chanLive (s : State) (n : Nat) : Bool :=
  let c := s.chan n
  c.inService && s.supplied (s.bankOf n) && (s.isReady 2 || c.keepTick.isSome || c.inSafe)

/-- A local endpoint's channel is in service for the escapement (R240). -/
def State.localPath (s : State) (n : Nat) : Bool :=
  let c := s.chan n
  s.chanLive n && c.holding == .escapement && c.keepTick.isNone && !c.inSafe

/-- A field port carries frames: link up and enabled; in a ring either port of the pair does (R204, R208). -/
def State.portRuns (s : State) (p : Nat) : Bool :=
  let up (q : Nat) : Bool := (s.port q).linked && s.flp.portEn.getLsbD q
  up p || (s.inRing p && up (p ^^^ 1))

/-- The node of a remote endpoint is reachable and not safe (R221). -/
def State.nodePath (s : State) (p n : Nat) : Bool :=
  let d := s.node p n
  s.portRuns p && d.present && !d.safe

/-- An endpoint has a path (R16). -/
def State.hasPath (s : State) (ep : Nat) : Bool :=
  if localBase ≤ ep then s.localPath (ep - localBase) else s.nodePath (ep / 65536) (ep / 256 % 256)

/-! ### Demand (R108) -/

/-- What one endpoint adds to its product's demand, in 1/65,536 of 10^-11 µunits/s. -/
def State.demandTerm (s : State) (ep : Nat) (d : EpDyn) : Int :=
  let en := s.entry ep
  if d.inDemand && !en.noDemand && !en.feeder && s.hasPath ep then
    (d.demandRate * (s.product en.product).rateUnit * en.width * 25 : Nat) * s.pse.cur.speedAtY en.yMm
  else 0

/-- The demand of a product before saturation. -/
def State.demandOf (s : State) (p : Nat) : Nat :=
  ((s.gle.dyn.foldl (fun (acc : Int) e => if (s.entry e.1).product = p then acc + s.demandTerm e.1 e.2 else acc) 0) /
    (6553600000000000 : Int)).toNat

/-- The demand of one product brought up to date; a demand that comes to saturate sets DEMAND_SAT. -/
def State.refreshOne (p : Nat) (s : State) : State :=
  let v := s.demandOf p
  let old := Tbl.get 0 s.gle.demand p
  let s' := s.onGle fun g => { g with demand := Tbl.set 0 g.demand p (min 0xFFFFFFFF v) }
  if 0xFFFFFFFF < v ∧ old ≠ 0xFFFFFFFF then s'.gleFault 4 68 else s'

/-- Every product's demand brought up to date (R108). -/
def State.refreshDemand (s : State) : State := (List.range 63).foldl (fun s i => s.refreshOne (i + 1)) s

/-! ### Effects to come (R15, R16, R398) -/

/-- A valve effect is scheduled (R16). -/
def State.addValve (v : Effect) (s : State) : State := s.onGle fun g => { g with valveQ := g.valveQ ++ [v] }

/-- An endpoint is effectively on, or will be by what is scheduled. -/
def State.willBeOn (s : State) (ep : Nat) (q : List Effect) : Bool :=
  (s.dyn ep).effOn || q.any fun w => w.ep == ep && w.on && !w.rateOnly

/-- An effect at the ground is scheduled (R15). An effective on at or before the effective off of an earlier close, while
the strip is open, cancels that off (R398). An effective off at or before the effective on of its own opening cancels that
on: the opening has reached nothing (assumption log 157). -/
def State.addEffect (v : Effect) (s : State) : State :=
  s.onGle fun g =>
    if v.rateOnly then { g with effQ := g.effQ ++ [v] }
    else if v.on then
      { g with effQ := (g.effQ.filter fun w => !(w.ep == v.ep && !w.on && decide (v.tick ≤ w.tick))) ++ [v] }
    else
      let q := g.effQ.filter fun w => !(w.ep == v.ep && w.on && decide (w.exec ≤ v.exec) && decide (v.tick ≤ w.tick))
      { g with effQ := if s.willBeOn v.ep q then q ++ [v] else q }

/-- An endpoint loses its path: it leaves demand now, and where ESC holds it on, its strip ends OFF_DELAY and TRANSPORT
later (R16, R240, R398). -/
def State.pathLost (ep : Nat) (s : State) : State :=
  let en := s.entry ep
  let t := s.now + delayTicks en.offDelay + transportTicks (s.product en.product).transport
  let s := (s.onDyn ep fun d => { d with inDemand := false }).onGle fun g => { g with valveQ := g.valveQ.filter fun v => v.ep != ep }
  let s := if (s.dyn ep).heldOn then s.addEffect { ep, tick := t, on := false, rate := 0, duty := 0, exec := s.now } else s
  s.refreshDemand

/-- A switch executes without a path: what it would have made of the ground falls away (R15, R21, R240). -/
def State.dropEffect (ep exec : Nat) (s : State) : State :=
  s.onGle fun g => { g with effQ := g.effQ.filter fun v => !(v.ep == ep && v.exec == exec) }

/-- An endpoint that ESC holds on finds its path again (R240, R398): it takes effect as if switched on now (assumption log
158). -/
def State.pathBack (ep : Nat) (s : State) : State :=
  let en := s.entry ep
  let d := s.dyn ep
  if d.heldOn then
    let t := s.now + delayTicks en.onDelay
    (s.addValve { ep, tick := t, on := true, rate := d.rate, duty := d.duty, exec := s.now }).addEffect
      { ep, tick := t + transportTicks (s.product en.product).transport, on := true, rate := d.rate, duty := d.duty, exec := s.now }
  else s

/-! ### The test (R104) -/

/-- The look-ahead time of a switch to on or off in ticks (R101). -/
def State.lookAhead (s : State) (ep : Nat) (on : Bool) : Nat :=
  let en := s.entry ep
  delayTicks (if on then en.onDelay else en.offDelay) + transportTicks (s.product en.product).transport

/-- The area of a footprint on cells of a layer whose value passes `f`, and on all cells, both doubled. -/
def State.areas (s : State) (l : Nat) (f : Nat → Bool) (g : Foot) : Nat × Nat :=
  let c := (s.layer l).side
  (cellsOf g.corners c 0).foldl (fun acc q =>
    let a := cellArea2 g.corners c q.1 q.2
    if a = 0 then acc else (if f (s.readCell l q.1 q.2) then acc.1 + a else acc.1, acc.2 + a)) (0, 0)

/-- A fraction minus a threshold in quarters, in 1/65,536 (R90, R103). -/
def fractionQ (a : Nat × Nat) (quarters : Nat) : Int := Int.fdiv ((a.1 : Int) * 65536) (max 1 a.2 : Nat) - 16384 * quarters

/-- The signed along-track overlap of a footprint with cells of a value (R103): how far it reaches into the nearest cell
ahead, and how far it still reaches into the last one when leaving. -/
def State.depths (s : State) (l v : Nat) (g : Foot) : Int × Int :=
  let c := (s.layer l).side
  let far : Int := -(2 * g.hl + 2 * c)
  ((cellsOf g.corners c (2 * c)).filter fun q => s.readCell l q.1 q.2 == v).foldl (fun acc q =>
    match g.reach c q.1 q.2 with
    | some r => (if -g.hl < r.2 then max acc.1 (g.hl - r.1) else acc.1, if r.1 < g.hl then max acc.2 (r.2 + g.hl) else acc.2)
    | none => acc) (far, far)

/-- A footprint overlaps a cell of a value. -/
def State.overlaps (s : State) (l v : Nat) (g : Foot) : Bool := decide (0 < (s.areas l (fun w => w == v) g).1)

/-- A BOUNDARY cell value permits application under a policy code (R91). -/
def permits (code v : Nat) : Bool :=
  match code with
  | 1 => v == 1
  | 2 => v == 1 || v == 3
  | 3 => v == 3
  | 4 => v != 2
  | _ => true

/-- The rate at a footprint's centre (R104). -/
def State.rateAt (s : State) (p : Product) (g : Foot) : Nat :=
  if p.rxLayer = 0xFF then p.rateDefault
  else
    let c := (s.layer p.rxLayer).side
    let v := s.readCell p.rxLayer (Int.fdiv g.e c) (Int.fdiv g.n c)
    if v = 0xFFFF then p.rateDefault else v

/-- GLE may decide on the maps: enabled, R20 holds, and neither the product, the section nor the safe action closes. -/
def State.gateOpen (s : State) (ep : Nat) : Bool :=
  let en := s.entry ep
  s.gle.enable && s.gle.poseOk && s.isReady 5 && (s.product en.product).enable && (s.section_ en.section_).state != 0 && !s.hostSafe

/-- The test of R104 for a switch that starts at a tick, with the tests that fail by their place: 1 product, section,
host-safe and R20; 2 exclusion; 3 MIN_SPEED; 4 endpoint speed; 5 not MANUAL_ON (no failure: it only skips what follows);
6 boundary fraction; 7 target ONLY; 8 target AVOID; 9 coverage; 10 zero rate. Quantities 22, 27 and 28 are those of 2, 7
and 8 for a footprint that leaves. -/
def State.testAt (s : State) (ep : Nat) (q : PoseState) (start look : Nat) : TestRes :=
  let en := s.entry ep
  let p := s.product en.product
  let g := q.foot en (start + look)
  let manual := (s.section_ en.section_).state == 2
  let wide := en.width != 0
  let bnd := wide && en.boundary != 0 && p.bndLayer != 0xFF
  let cov := wide && p.covLayer != 0xFF
  let tgt := wide && p.targetMode != 0
  let dB := if bnd then s.depths p.bndLayer 2 g else (-1, -1)
  let dT := if tgt then s.depths p.tgtLayer 1 g else (-1, -1)
  let hitT := tgt && s.overlaps p.tgtLayer 1 g
  let fB := if bnd then fractionQ (s.areas p.bndLayer (fun v => !permits en.boundary v) g) (en.overlap + 1) else -1
  let fC := if cov then fractionQ (s.areas p.covLayer (fun v => v == 1) g) (en.overlap + 1) else -1
  let rate := s.rateAt p g
  let hard := (if s.gateOpen ep then [] else [1]) ++ (if bnd && s.overlaps p.bndLayer 2 g then [2] else []) ++
    (if q.speed < 65536 * (p.minSpeed : Int) then [3] else []) ++ (if g.ve ≤ 0 then [4] else [])
  let soft := (if 0 ≤ fB then [6] else []) ++ (if tgt && p.targetMode == 1 && !hitT then [7] else []) ++
    (if tgt && p.targetMode == 2 && hitT then [8] else []) ++ (if 0 ≤ fC then [9] else []) ++
    (if rate = 0 ∧ p.zeroRateOff = true then [10] else [])
  let fails := hard ++ (if manual then [] else 5 :: soft)
  { on := hard.isEmpty && (manual || soft.isEmpty), rate, fails,
    quantities := [(2, dB.1), (22, dB.2), (3, 65536 * (p.minSpeed : Int) - q.speed), (4, -g.ve), (6, fB), (7, -dT.1), (27, -dT.2),
      (8, dT.1), (28, dT.2), (9, fC)] }

/-- The cells the test of R104 reads are read: what that does to MPG (R121, R125, R152). -/
def State.noteTest (ep : Nat) (q : PoseState) (tick : Nat) (s : State) : State :=
  let en := s.entry ep
  let p := s.product en.product
  let g := q.foot en tick
  let under (l : Nat) : List (Int × Int) :=
    let c := (s.layer l).side
    (cellsOf g.corners c 0).filter fun q => cellArea2 g.corners c q.1 q.2 != 0
  let note (l : Nat) (use : Bool) (s : State) : State :=
    if use && l != 0xFF then s.noteReads l (under l) else s
  if s.gateOpen ep then
    let s := note p.bndLayer (en.width != 0 && en.boundary != 0) s
    let s := note p.tgtLayer (en.width != 0 && p.targetMode != 0) s
    let s := note p.covLayer (en.width != 0) s
    if p.rxLayer = 0xFF then s
    else s.noteReads p.rxLayer [(Int.fdiv g.e (s.layer p.rxLayer).side, Int.fdiv g.n (s.layer p.rxLayer).side)]
  else s

/-- The deciding test between two samples (R103): the first in order whose result differs; 0 where none does. -/
def decidingTest (a b : TestRes) : Nat :=
  ((List.range 11).find? fun n => a.fails.contains n != b.fails.contains n).getD 0

/-- A tick rounded to the nearest slot, a tie to the later (R103). -/
def roundSlot (t : Nat) : Nat := (t + 1000) / 2000 * 2000

/-- A tick rounded up to a whole slot (R102). -/
def ceilSlot (t : Nat) : Nat := (t + 1999) / 2000 * 2000

/-- A quantity of a test's result. -/
def TestRes.quantity (r : TestRes) (n : Nat) : Int :=
  match r.quantities.find? fun e => e.1 == n with
  | some e => e.2
  | none => 0

/-- Tests that change in steps (R103). -/
def stepwise (n : Nat) : Bool := n == 0 || n == 1 || n == 5 || n == 10

/-- Which quantity a deciding test is interpolated by: a footprint entering, or leaving (R103). -/
def quantityOf (n : Nat) (opens : Bool) : Nat :=
  match n with
  | 2 => if opens then 22 else 2
  | 7 => if opens then 7 else 27
  | 8 => if opens then 28 else 8
  | _ => n

/-- The switch time in (lo, hi] by linear interpolation (R103), to the nearest slot. -/
def switchTime (lo hi : Nat) (a b : TestRes) : Nat :=
  let n := decidingTest a b
  if stepwise n then roundSlot hi
  else
    let k := quantityOf n b.on
    let q0 := a.quantity k
    let q1 := b.quantity k
    if q0 = q1 ∨ (0 ≤ q0) = (0 ≤ q1) then roundSlot hi
    else
      let t := (lo : Int) + divTrunc (((hi : Int) - lo) * q0) (q0 - q1)
      roundSlot (max (lo + 1) (min hi t.toNat))

/-! ### Duty (R106) -/

/-- Whether a duty was limited (R106). -/
inductive DutyLimit where
  | none
  | sat
  | floor
  deriving DecidableEq, Repr

/-- The duty of a PWM endpoint under a pose and a rate (R106). -/
def dutyOf (p : Product) (v ve : Int) (rate : Nat) : Nat × DutyLimit :=
  let nom := max 1 p.rateNom
  let d : Int :=
    if v = 0 then divHalfUp (p.dutyBase * rate : Nat) nom
    else if 0 < v then divHalfUp ((p.dutyBase * rate : Nat) * ve) (v.toNat * nom)
    else divHalfUp ((p.dutyBase * rate : Nat) * -ve) ((-v).toNat * nom)
  if (p.dutyMax : Int) < d then (p.dutyMax, .sat)
  else if d < p.dutyMin then (min p.dutyMin p.dutyMax, .floor)
  else (d.toNat, .none)

/-- The duty an ON of an endpoint carries, with a rate. -/
def State.dutyFor (s : State) (ep rate : Nat) : Option (Nat × DutyLimit) :=
  if s.isPwm ep then
    some (dutyOf (s.product (s.entry ep).product) s.pse.cur.speed (s.pse.cur.speedAtY (s.entry ep).yMm) rate)
  else none

/-- A limited duty is counted (R106, R115). -/
def State.noteDuty (ep : Nat) (l : DutyLimit) (s : State) : State :=
  match l with
  | .none => s
  | _ => ((s.onGle fun g => { g with dutyLimitCount := count32 g.dutyLimitCount }).gleFault 3 67).onSection (s.entry ep).section_
      fun c => { c with satCount := satAdd 0xFFFF c.satCount 1 }

/-- An event placed late is counted, with its lateness in ticks (R103, R115, R116). -/
def State.noteLate (ep late : Nat) (s : State) : State :=
  ((s.onGle fun g =>
    { g with lateCount := count32 g.lateCount, lateMax := min 0xFFFFFFFF (max g.lateMax (late / usTicks)) }).gleFault 1 65).onSection
      (s.entry ep).section_ fun c => { c with lateCount := satAdd 0xFFFF c.lateCount 1 }

/-! ### SECTION_STATE (R114) -/

/-- Members effectively on: an endpoint counts for the section in which it came on until it goes off (R95, R114). -/
def State.onCount (s : State) (n : Nat) : Nat := (s.gle.dyn.filter fun e => e.2.effOn && e.2.effSec == n).length

/-- A section comes effectively on or goes off at a tick. `seq` is COV_SEQ. -/
def State.sectionReport (n tick : Nat) (on : Bool) (seq : Word) (s : State) : State :=
  let c := s.section_ n
  let ms := s.sectionMembers n
  let s := s.report 0x42 0 tick
    [fld 16 2 n, fld 18 1 (match ms with | m :: _ => (s.entry m).product | [] => 0),
     fld 19 1 (b2n on + 2 * c.state + 8 * b2n c.latch), fld 20 2 (s.onCount n), fld 22 2 ms.length,
     fld 24 8 (s.tbu.calField tick), fld 32 4 seq.toNat, fld 36 2 c.lateCount, fld 38 2 c.satCount]
  (s.onSection n fun c => { c with effOn := on, lateCount := 0, satCount := 0 }).raise 71

/-- The section of an endpoint after a change of what is effective: a report where it comes on or goes off. -/
def State.sectionCheck (n tick : Nat) (seq : Word) (s : State) : State :=
  let on := decide (0 < s.onCount n)
  if on = (s.section_ n).effOn then s else s.sectionReport n tick on seq

/-- A strip that is open goes on at a new rate, in a new segment (R127). -/
def State.newRate (ep tick rate : Nat) (p : Strip) (s : State) : State :=
  if p.rate = rate then s
  else if p.waiting then s.setStrip ep (some { p with rate })
  else
    let c := s.centreAt ep tick
    let s := s.cutStrip ep p tick c.1 c.2
    match s.strip ep with
    | some p => s.setStrip ep (some { p with rate })
    | none => s

/-- A new rate decision reaches the ground where the endpoint is still effectively on (R127; assumption log 57). -/
def State.effectiveRate (v : Effect) (s : State) : State :=
  match s.strip v.ep with
  | some p => if (s.dyn v.ep).effOn then s.newRate v.ep v.tick v.rate p else s
  | none => s

/-- An effective on (R15, R114, R127): a strip starts, or one that is open goes on, in a new segment where the rate is
new. -/
def State.effectiveOn (v : Effect) (s : State) : State :=
  let s := s.onDyn v.ep fun d => if d.effOn then d else { d with effOn := true, effSec := (s.entry v.ep).section_ }
  let s := match s.strip v.ep with
    | some p => s.newRate v.ep v.tick v.rate p
    | none => match s.coverageLayer v.ep with
      | some l => s.openStrip v.ep l v.rate v.tick
      | none => s
  s.sectionCheck (s.dyn v.ep).effSec v.tick 0

/-- An effective off (R15, R114, R127). -/
def State.effectiveOff (v : Effect) (s : State) : State :=
  let s := s.onDyn v.ep fun d => { d with effOn := false }
  let q := s.mpg.covSeq
  let s := match s.strip v.ep with
    | some p =>
      let c := s.centreAt v.ep v.tick
      s.endStrip v.ep p v.tick c.1 c.2
    | none => s
  s.sectionCheck (s.dyn v.ep).effSec v.tick (if s.mpg.covSeq = q then 0 else q)

/-- The first effect of an endpoint due at a tick, and the others. -/
def takeEffect (ep tick : Nat) : List Effect → Option (Effect × List Effect)
  | [] => none
  | v :: t =>
    match takeEffect ep tick t with
    | some (w, rest) =>
      if v.ep = ep ∧ v.tick ≤ w.tick then some (v, t) else some (w, v :: rest)
    | none => if v.ep = ep ∧ v.tick ≤ tick then some (v, t) else none

end Sys2Proof.Machine
end

