-- ==== Sys2Proof/Machine/LsbOps.lean ====
section
/-! DEFINITION. Load channels: what the holder commands, the output, inrush and hold, trips, bank events, the keeper
(09_load_switches.md). -/

namespace Sys2Proof.Machine

def State.onChan (n : Nat) (f : Channel → Channel) (s : State) : State :=
  s.onLsb fun l => { l with chans := Tbl.modify {} l.chans n f }

/-- An LSB source with its fault bit (R257, R258). -/
def State.lsbFault (bit src : Nat) (s : State) : State :=
  (s.onLsb fun l => { l with fault := setFlag l.fault s.cycle bit }).raise src

/-- A channel exists on the member (R238). -/
def State.chanExists (s : State) (n : Nat) : Bool := decide (n < Config.loadChannels s.part)

/-- Every channel of the member. -/
def State.allChans (s : State) : List Nat := List.range (Config.loadChannels s.part)

/-! ### The targets of contexts (R288, R289) -/

def State.onCtx (c : Nat) (f : Ctx → Ctx) (s : State) : State :=
  s.onRge fun r => { r with ctxs := Tbl.modify {} r.ctxs c f }

/-- A bit of CTX_FAULTS sets (R308, R309). -/
def State.ctxFault (c bit : Nat) (s : State) : State :=
  (s.onCtx c fun x => { x with faults := setFlag x.faults s.cycle bit }).raise (416 + c / 4)

/-- The node of a remote target. -/
def State.targetNode (s : State) (addr : Nat) : Node := s.node (addr / 65536) (addr / 256 % 256)

/-- A remote output has a path: its address exists, its port carries frames, its node is PRESENT and not SAFE (R6, R289). -/
def State.targetReached (s : State) (addr : Nat) : Bool :=
  let d := s.targetNode addr
  s.remoteExists addr && s.portRuns (addr / 65536) && d.present && !d.safe

/-- The target has no path (R289). -/
def State.targetLost (s : State) (c : Nat) : Bool :=
  let x := s.ctx c
  if x.remote then !s.targetReached x.tgtAddr
  else match x.bound with
    | some n => !(s.chan n).inService || !s.bankOn (s.bankOf n)
    | none => false

/-- TGT_LOST follows the target's path; losing it sets the fault bit (R289, R309). -/
def State.noteTarget (c : Nat) (s : State) : State :=
  let lost := s.targetLost c
  if lost = (s.ctx c).tgtLost ∨ s.powered 6 = false then s
  else
    let s := s.onCtx c fun x => { x with tgtLost := lost }
    if lost then s.ctxFault c 2 else s

/-- TGT_LOST of every context. -/
def State.noteTargets (s : State) : State := s.rge.ctxs.foldl (fun s e => s.noteTarget e.1) s

/-- TGT_LOST of the context that a channel is bound to. -/
def State.noteChan (n : Nat) (s : State) : State :=
  if (s.chan n).holding = .regulator then s.noteTarget (s.chan n).context else s

/-! ### Output (R239, R240, R244-R246) -/

/-- A channel is the keeper's, or in SAFE after a reset (R255). -/
def Channel.isKept (c : Channel) : Bool := c.keepTick.isSome || c.inSafe

/-- HOLD_EN and PULLIN_MS that act: in the keeper's hold and in SAFE those from before the reset (R255). -/
def Channel.holdOn (c : Channel) : Bool := (c.keptHold.map Prod.fst).getD c.holdEn
def Channel.pullinTime (c : Channel) : Nat := (c.keptHold.map Prod.snd).getD c.pullinMs

/-- Duty of a period in 10 µs units, half up (R107). -/
def dutyUnits (duty period : Nat) : Nat := (duty * period + 500) / 1000

/-- On time of a PWM period in ticks: duty in 0.1 %, period in µs. -/
def pwmOnTicks (duty period : Nat) : Nat := duty * period / 5

/-- The level a command asks for at a tick. -/
def Channel.level (c : Channel) (tick : Nat) : Bool :=
  match c.cmd with
  | .off => false
  | .on => true
  | .pwm d p => decide (tick < c.pwmTick + pwmOnTicks d p)
  | .current ma _ => decide (0 < ma)

/-- The command is other than off (R249, R92). -/
def Channel.commanded (c : Channel) : Bool :=
  match c.cmd with
  | .off => false
  | .pwm d _ => decide (0 < d)
  | .current ma _ => decide (0 < ma)
  | .on => true

/-- The escapement's events drive the output: its channel, and nothing kept goes on (R239, R255, R256). -/
def Channel.followsEsc (c : Channel) : Bool := c.holding == .escapement && !c.isKept && !c.carried

/-- What a channel's holder, the keeper or SAFE asks of the output now (R239, R255). -/
def State.wantsOn (s : State) (n : Nat) : Bool :=
  let c := s.chan n
  let d := s.dyn (localBase + n)
  if c.followsEsc then (if d.pwmRun then d.pwmOpen else d.heldOn)
  else if c.inSafe then (s.chNv n).safeOn
  else c.level s.now

/-- The holder's present command is on (R249): a standing PWM counts as on. -/
def State.holderOn (s : State) (n : Nat) : Bool :=
  let c := s.chan n
  if c.followsEsc then (s.dyn (localBase + n)).heldOn
  else if c.inSafe then (s.chNv n).safeOn
  else c.commanded

/-- The on time of the channel's PWM openings, if it runs a PWM (R107, R242). -/
def State.openingTicks (s : State) (n : Nat) : Option Nat :=
  let c := s.chan n
  let d := s.dyn (localBase + n)
  if c.followsEsc then
    if d.pwmRun then some (dutyUnits d.pwmDuty (s.product (s.entry (localBase + n)).product).pwmPeriod * 2000) else none
  else if c.inSafe then none
  else match c.cmd with
    | .pwm d p => some (pwmOnTicks d p)
    | _ => none

/-- The channel regulates its current: hold mode does not apply (R246). -/
def Channel.regulates (c : Channel) : Bool :=
  !c.followsEsc && !c.inSafe && (match c.cmd with
    | .current _ _ => true
    | _ => false)

/-- The opening starts the pull-in: with HOLD_EN an ON, or a PWM opening of 10 ms or more (R245). -/
def State.pulls (s : State) (n : Nat) : Bool :=
  let c := s.chan n
  c.holdOn && !c.regulates && (match s.openingTicks n with
    | some t => decide (10 * msTicks ≤ t)
    | none => true)

/-- The output goes on (R244, R245). `fresh`: by a command, a return from a supply event or a retry. -/
def State.turnOn (n : Nat) (fresh : Bool) (s : State) : State :=
  let inrush := (s.chNv n).inrushMs
  let pullin := s.pulls n
  let t := s.now
  s.onChan n fun c =>
    let window := fresh || decide (c.offTick + 10 * msTicks ≤ t)
    { c with out := true, onTick := if window then t else c.onTick,
             inrush := if window then inrush != 0 else c.inrush, inrushTick := if window then t else c.inrushTick,
             pullin, pullinTick := t, hold := false, openOff := false, shortBat := false }

/-- The output goes off; an indication of the on state ends (R252), and so does a coil search (R311). The inrush window runs
on device ticks alone (R244). -/
def State.turnOff (n : Nat) (s : State) : State :=
  let t := s.now
  s.onChan n fun c => { c with out := false, offTick := t, pullin := false, hold := false, sat := false, openOn := false, coil := none }

/-- The output follows what is asked of it, as far as protection and the bank allow (R240); under a reversed supply it
stays on (R254). -/
def State.follow (n : Nat) (fresh : Bool) (s : State) : State :=
  let want := s.chanLive n && s.wantsOn n
  if Tbl.get false s.lsb.reversed (s.bankOf n) then s
  else if want && !(s.chan n).out then s.turnOn n fresh
  else if !want && (s.chan n).out then s.turnOff n
  else s

/-- A new command of the holder (R242). On an output that is on and stays on, the opening begins with it: its pull-in
starts, or hold mode ends (R245, R246). -/
def State.command (n : Nat) (cmd : ChCmd) (s : State) : State :=
  let was := (s.chan n).out
  let t := s.now
  let s := (s.onChan n fun c =>
    { c with cmd, pwmTick := t, setTick := t, nextDuty := none, sat := false, carried := false }).follow n true
  let pullin := s.pulls n
  if was && (s.chan n).out && s.chanLive n then s.onChan n fun c => { c with pullin, pullinTick := t, hold := false } else s

/-- ESC holds an endpoint on and its channel is the escapement's. -/
def State.escOn (s : State) (n : Nat) : Bool :=
  (s.chan n).holding == .escapement && (s.dyn (localBase + n)).heldOn

/-- A channel has lost its path: the escapement's endpoint on it leaves demand and coverage (R16, R240, R398). -/
def State.chanLost (n : Nat) (s : State) : State :=
  if (s.chan n).holding = .escapement then s.pathLost (localBase + n) else s.noteChan n

/-- A channel returns to service: it takes the state its holder commands, and its endpoint takes effect (R240, R398). -/
def State.chanBack (n : Nat) (s : State) : State :=
  let s := (s.follow n true).noteChan n
  if s.escOn n && s.chanLive n then s.pathBack (localBase + n) else s

/-! ### Protection (R247-R249) -/

/-- A channel latches out (R247, R249). -/
def State.latchOut (n : Nat) (s : State) : State :=
  (s.onChan n fun c => { c with prot := .latched, faults := setFlag c.faults s.cycle 7 }).raise 328

/-- A trip of a kind given by its bit in LSB_CH_FAULTS (R247): off, counted, raised, recorded; then out until CLEAR, or
cooling under the retry rule (R249). -/
def State.trip (n bit : Nat) (s : State) : State :=
  let nv := s.chNv n
  let used := (s.chan n).retriesUsed
  let s := s.onChan n fun c =>
    { c with faults := setFlag c.faults s.cycle bit, trips := count32 c.trips, prot := .tripped, tripTick := some s.now }
  let s := ((s.turnOff n).raise (288 + n)).record 0x0701 n [(0, BitVec.ofNat 32 bit)]
  let s := if nv.curveMode && decide (used < nv.retries) then s else s.latchOut n
  s.chanLost n

/-- CLEAR (R242, R255): re-armed with the full retry count; while a keeper trip stands without a re-claim it is
remembered. -/
def State.clearChan (n : Nat) (s : State) : State :=
  let c := s.chan n
  if c.isKept && c.keepTripped then s.onChan n fun c => { c with clearSeen := true }
  else
    let was := c.prot != .armed
    let s := s.onChan n fun c => { c with prot := .armed, retriesUsed := 0, clearSeen := false, keepTripped := false }
    if was then s.chanBack n else s

/-! ### The wire model (R248) -/

/-- i_ref in mA and exp(-0.001/tau) in 2^-40 by WIRE code (R248). -/
def wireRef : Nat → Nat
  | 0 => 8000
  | 1 => 10000
  | 2 => 13000
  | 3 => 16000
  | 4 => 20000
  | 5 => 28000
  | 6 => 38000
  | _ => 48000

def wireDecay : Nat → Nat
  | 0 => 1099420005625
  | 1 => 1099438329444
  | 2 => 1099456653569
  | 3 => 1099467648190
  | 4 => 1099480213607
  | 5 => 1099489637763
  | 6 => 1099495920579
  | _ => 1099500054030

/-- The steady rise for a current, in 2^-20 K (R248). -/
def thetaSteady (wire milliamp : Nat) : Nat := 60 * 1048576 * milliamp * milliamp / (wireRef wire * wireRef wire)

/-- One millisecond of the wire model (R248). -/
def thetaNext (wire theta milliamp : Nat) : Nat :=
  let ss : Int := thetaSteady wire milliamp
  (ss + divHalfUp (((theta : Int) - ss) * wireDecay wire) 1099511627776).toNat

/-- The ambient temperature of the wire model (R248). -/
def State.ambient (s : State) : Int := if s.nv.ambHost && !s.lsb.hostCStale then s.lsb.hostC else s.lsb.moduleC

/-- T_ins - Ta in 2^-20 K. -/
def State.thetaRoom (s : State) (n : Nat) : Int := ((if (s.chNv n).insul125 then 125 else 100) - s.ambient) * 1048576

/-- A HARD_SHORT or LIMIT trip in CURVE mode raises the rise to T_ins - Ta if it is lower (R248). -/
def State.heat (n : Nat) (s : State) : State :=
  if (s.chNv n).curveMode then s.onChan n fun c => { c with theta := max c.theta (s.thetaRoom n).toNat } else s

/-- mA of one LSB of the current sense (R238). -/
def State.senseLsb (s : State) (n : Nat) : Nat := if s.classH n then 20 else 8

/-- The 12-bit sense code of a current (R238, R251); a reverse current reads 0. -/
def State.senseCode (s : State) (n milliamp : Nat) : Nat := min 4095 (milliamp / s.senseLsb n)

/-- A bank overload cuts a channel that is over its own limit: in LATCH blanking above LATCH_MA, in current limit, or
with a rise above half its room (R250). -/
def State.overLimit (s : State) (n milliamp : Nat) : Bool :=
  let c := s.chan n
  let limit := if s.classH n then 60000 else 20000
  c.out && ((!(s.chNv n).curveMode && !c.inrush && decide (s.latchMa n < milliamp)) || decide (limit ≤ milliamp) ||
    decide (s.thetaRoom n < 2 * (c.theta : Int)))

/-! ### Supplies (R253) -/

/-- The channels of a bank. -/
def State.bankChans (s : State) (b : Nat) : List Nat :=
  (List.range (Config.loadChannels s.part)).filter fun n => s.bankOf n == b

/-- A supply's channels: one bank's, or with PGND all. -/
def State.supplyChans (s : State) : Supply → List Nat
  | .bankA => s.bankChans 0
  | .bankB => s.bankChans 1
  | .pgnd => List.range (Config.loadChannels s.part)

/-- SUPPLY record source, fault bit and interrupt source by supply (R257, R258, R346). -/
def supplyCode : Supply → Nat
  | .bankA => 0
  | .bankB => 1
  | .pgnd => 2

/-- Whether a supply is cut now. -/
def Lsb.isCut (l : Lsb) : Supply → Bool
  | .bankA => Tbl.get false l.bankCut 0
  | .bankB => Tbl.get false l.bankCut 1
  | .pgnd => l.pgndLost

def Lsb.setCut (l : Lsb) (p : Supply) (v : Bool) : Lsb :=
  match p with
  | .bankA => { l with bankCut := Tbl.set false l.bankCut 0 v }
  | .bankB => { l with bankCut := Tbl.set false l.bankCut 1 v }
  | .pgnd => { l with pgndLost := v }

/-- A new reading of a bank's supply, 10 mV. -/
def Lsb.setVbat (l : Lsb) (p : Supply) (v : Int) : Lsb :=
  match p with
  | .bankA => { l with vbat := Tbl.set 0 l.vbat 0 v }
  | .bankB => { l with vbat := Tbl.set 0 l.vbat 1 v }
  | .pgnd => l

/-- What a bank's supply of `v`, in 10 mV, has cut it off for, and what it has returned from (R253). -/
def Lsb.noteLevel (l : Lsb) (p : Supply) (v : Int) : Lsb :=
  let note (b : Nat) : Lsb :=
    let high := (Tbl.get false l.overCut b && decide (3600 ≤ v)) || decide (3900 < v)
    let low := (Tbl.get false l.underCut b && decide (v ≤ 650)) || decide (v < 600)
    { l with overCut := Tbl.set false l.overCut b high, underCut := Tbl.set false l.underCut b low }
  match p with
  | .bankA => note 0
  | .bankB => note 1
  | .pgnd => l

/-- No cut of a supply stands by its level (R253). -/
def Lsb.levelOk (l : Lsb) : Supply → Bool
  | .bankA => !Tbl.get false l.overCut 0 && !Tbl.get false l.underCut 0
  | .bankB => !Tbl.get false l.overCut 1 && !Tbl.get false l.underCut 1
  | .pgnd => true

/-- A supply is cut off: the outputs go off, endpoints on them lose their path (R253, R398). -/
def State.supplyCut (p : Supply) (s : State) : State :=
  let on := (s.supplyChans p).filter fun n => s.chanLive n
  let s := s.onLsb fun l => l.setCut p true
  let s := on.foldl (fun s n => (s.follow n true).chanLost n) s
  ((s.onLsb fun l => { l with fault := setFlag l.fault s.cycle (supplyCode p) }).raise (320 + supplyCode p)).record 0x0703 (supplyCode p)
    [(0, 1#32)]

/-- A reversed supply ends: the outputs that it drove go off (R254). -/
def State.endReverse (b : Nat) (s : State) : State :=
  if Tbl.get false s.lsb.reversed b then
    (s.bankChans b).foldl (fun s n => s.turnOff n) (s.onLsb fun l => { l with reversed := Tbl.set false l.reversed b false })
  else s

/-- The bank of a supply, if it is one bank's. -/
def supplyBank : Supply → Option Nat
  | .bankA => some 0
  | .bankB => some 1
  | .pgnd => none

/-- A supply returns: each channel takes the state its holder commands (R240, R253), and the bank's keeper has its supply
again. -/
def State.supplyReturn (p : Supply) (s : State) : State :=
  let s := match supplyBank p with
    | some b => (s.endReverse b).onLsb fun l => { l with keeperDead := Tbl.set false l.keeperDead b false }
    | none => s
  let s := s.onLsb fun l => l.setCut p false
  let s := (s.supplyChans p).foldl (fun s n => s.chanBack n) s
  (s.raise (320 + supplyCode p)).record 0x0703 (supplyCode p) [(0, 2#32)]

/-! ### The keeper (R255, R256) -/

/-- The duty of a channel's current loop (R246): 100 % where it cannot reach its setpoint, else the spec does not say. -/
def State.loopDuty (s : State) (n : Nat) : Nat :=
  if (s.chan n).sat then 1000 else min 1000 (Config.freeLoopDuty s.lsb.freeCount)

/-- What the keeper holds of a channel (R255): off, on, or its last PWM duty open loop, a current loop's too. An output
that stands off is held off, but PWM goes on. -/
def State.keptCmd (s : State) (n : Nat) : ChCmd :=
  let c := s.chan n
  let d := s.dyn (localBase + n)
  if c.keepTick.isSome then c.cmd
  else if !c.inService || !s.supplied (s.bankOf n) then .off
  else if c.inSafe then (if c.out then .on else .off)
  else if c.followsEsc then
    (if !d.heldOn then .off
      else if d.pwmRun then .pwm d.duty (10 * (s.product (s.entry (localBase + n)).product).pwmPeriod)
      else .on)
  else match c.cmd with
    | .current ma hz => if ma = 0 then .off else .pwm (s.loopDuty n) (1000000 / max 1 hz)
    | cmd => cmd

/-- The opening that the keeper's PWM counts on from: of an endpoint's channel, that of its pulse or of its last one (R107). -/
def State.keptTick (s : State) (n : Nat) : Nat :=
  let c := s.chan n
  let d := s.dyn (localBase + n)
  if c.holding = .escapement ∧ d.pwmRun = true then
    (if d.pwmOpen then d.pwmOpenTick
      else d.pwmOpenTick - pwmOnTicks d.pwmDuty (10 * (s.product (s.entry (localBase + n)).product).pwmPeriod))
  else c.pwmTick

/-- A channel passes to the keeper or to SAFE at a reset of the digital die, or of PWR (R255). The keeper holds an output
in pull-in fully on. -/
def State.keepOrSafe (n : Nat) (s : State) : State :=
  let nv := s.chNv n
  let cmd := s.keptCmd n
  let pwmTick := s.keptTick n
  let t := s.tbu.wall
  let safe := decide (nv.keep10ms = 0) || Tbl.get false s.lsb.keeperDead (s.bankOf n)
  let s := s.onLsb fun l => { l with freeCount := if (s.chan n).regulates then l.freeCount + 1 else l.freeCount }
  let s := s.onChan n fun c =>
    { c with holding := if c.holding == .regulator then .regulator else .direct, cmd := if safe then .off else cmd, pwmTick
             keepTick := if safe then none else some t, inSafe := safe, nextDuty := none, clearSeen := false, carried := false
             keptHold := some (c.holdOn, c.pullinTime), pullin := false, sat := false }
  s.follow n true

/-- A keeper's hold ends without a re-claim: SAFE (R255, R256). -/
def State.keeperEnds (n : Nat) (s : State) : State :=
  ((s.onChan n fun c => { c with keepTick := none, inSafe := true, cmd := .off }).lsbFault 5 325).follow n true

/-- A re-claim (R255, R256): the hold ends without a glitch, the wire model restarts at the steady rise for the present
current, and a remembered CLEAR acts. -/
def State.reclaim (n : Nat) (s : State) : State :=
  let c := s.chan n
  if c.isKept then
    let i := c.sense * s.senseLsb n
    let on := (s.chNv n).safeOn
    s.onChan n fun c =>
      { c with keepTick := none, inSafe := false, clearSeen := false, theta := thetaSteady (s.chNv n).wire i, wireTick := s.now,
               keepTripped := c.keepTripped && !c.clearSeen, keptHold := none,
               cmd := if c.keepTick.isSome then c.cmd else if on then .on else .off,
               prot := if c.clearSeen then .armed else c.prot,
               retriesUsed := if c.clearSeen then 0 else c.retriesUsed }
  else s

/-! ### Regulator outputs (R288) -/

/-- A context's output as a channel command: duty in 0.1 %, or mA (R288). -/
def boundCmd (current : Bool) (arg : Nat) (y : Int) : ChCmd :=
  let v := max 0 y
  if current then .current (divHalfUp (v * 10000) 8388608).toNat arg
  else .pwm (divHalfUp (v * 1000) 8388608).toNat arg

/-- SAFE_OUT of a context (R307). -/
def State.safeOut (s : State) (c : Nat) : Int := Tbl.get 0 s.nv.safeOut c

/-- A context's output reaches its channel (R288): a duty applies from the next PWM opening, a current at once. -/
def State.driveBound (n : Nat) (y : Int) (s : State) : State :=
  let c := s.chan n
  if c.holding = .regulator ∧ c.isKept = false then
    match boundCmd c.bindCurrent c.bindArg y with
    | .pwm d p =>
      (match c.cmd with
        | .pwm _ _ => s.onChan n fun c => { c with nextDuty := some d }
        | _ => s.command n (.pwm d p))
    | cmd => (s.onChan n fun c => { c with cmd, setTick := if c.cmd = cmd then c.setTick else s.now }).follow n true
  else s

/-- A channel is refused to a claimant (R239). -/
def State.claimDenied (s : State) : State := s.lsbFault 6 326

end Sys2Proof.Machine
end

