-- ==== Sys2Proof/Machine/EscOps.lean ====
section
/-! DEFINITION. The escapement's insertion rules, feeders, probes and entries that wait (04_endpoints_lookahead.md). -/

namespace Sys2Proof.Machine

/-- An ESC source with its fault bit (R115, R117). -/
def State.escFault (bit src : Nat) (s : State) : State :=
  (s.onEsc fun e => { e with fault := setFlag e.fault s.cycle bit }).raise src

/-- A local endpoint. -/
def isLocalEp (ep : Nat) : Bool := decide (localBase ≤ ep)

/-- L_e of R102 in ticks: one slot, and for a remote endpoint the dispatch lead before it. -/
def State.leadOf (s : State) (ep : Nat) : Nat := if isLocalEp ep then 2000 else s.esc.leadUs * usTicks + 2000

/-- The earliest tick at which the escapement can execute an event (R81). -/
def State.earliest (s : State) (ep : Nat) : Nat :=
  if isLocalEp ep then (s.now / 2000 + 1) * 2000 else ceilSlot (s.now + s.esc.leadUs * usTicks)

/-- The scheduled state: after the last pending event, else the executed one (R101). -/
def EpDyn.scheduledOn (d : EpDyn) : Bool :=
  match d.onEv, d.offEv with
  | some a, some b => decide (b.tick < a.tick)
  | some _, none => true
  | none, some _ => false
  | none, none => d.heldOn

/-- No event is pending. -/
def EpDyn.idle (d : EpDyn) : Bool := d.onEv.isNone && d.offEv.isNone

/-- An event of an endpoint with its timing now (R99, R105). -/
def State.event (s : State) (ep tick : Nat) (on : Bool) (c : Creator) : PEvent :=
  let en := s.entry ep
  { tick, on, delay := if on then en.onDelay else en.offDelay, transport := (s.product en.product).transport, creator := c,
    leadUs := s.esc.leadUs }

/-! ### R110 -/

/-- What becomes of an event that is to be inserted (R109, R110). -/
inductive Ins where
  | stored
  | ignored
  | cancelled
  | full
  | far
  deriving DecidableEq, Repr

/-- The pending event of a kind. -/
def EpDyn.ofKind (d : EpDyn) (on : Bool) : Option PEvent := if on then d.onEv else d.offEv

/-- An event put in its place. -/
def EpDyn.put (d : EpDyn) (e : PEvent) : EpDyn := if e.on then { d with onEv := some e } else { d with offEv := some e }

/-- An endpoint without its pending event of a kind. -/
def EpDyn.without (d : EpDyn) (on : Bool) : EpDyn := if on then { d with onEv := none } else { d with offEv := none }

/-- An undispatched event of a kind is pending: another of the kind re-times it (R110). -/
def EpDyn.moves (d : EpDyn) (on : Bool) : Bool :=
  match d.ofKind on with
  | some a => !a.dispatched
  | none => false

/-- An event on its way to the wheel or the overflow list of `free` places (R109). -/
def EpDyn.store (d : EpDyn) (now : Nat) (free : Bool) (e : PEvent) (t : Nat) : Ins × EpDyn :=
  if now + 524288000 < t then
    if free then (.stored, d.put { e with tick := t, far := true }) else (.far, d)
  else (.stored, d.put { e with tick := t, far := false })

/-- An event that reverses the executed state waits for MIN_DWELL after the previous opposite event (R110). -/
def EpDyn.dwelt (d : EpDyn) (dwell : Nat) (e : PEvent) : Nat :=
  if e.on = d.heldOn then e.tick
  else match (if e.on then d.lastOff else d.lastOn) with
    | some k => max e.tick (k + dwell)
    | none => e.tick

/-- A pending event that the one before it has come too near waits for MIN_DWELL as well. -/
def EpDyn.follow (d : EpDyn) (on : Bool) (tick : Nat) : EpDyn :=
  match d.ofKind on with
  | some b => if b.dispatched then d else d.put { b with tick := max b.tick tick }
  | none => d

/-- A pending event that stands before `b` moves to `e` (R110): beyond `b`, both are cancelled; else it keeps its place. -/
def EpDyn.shiftFirst (d : EpDyn) (now dwell : Nat) (free : Bool) (b e : PEvent) : Ins × EpDyn :=
  let t := d.dwelt dwell e
  if b.tick ≤ t then
    if b.dispatched then (d.without e.on).store now free e (max t (b.tick + max dwell 2000))
    else (.cancelled, (d.without e.on).without (!e.on))
  else (d.follow (!e.on) (t + dwell)).store now free e t

/-- The rows of R110 that place an event; `a` is the pending event of its kind that it replaces. -/
def EpDyn.place (d : EpDyn) (now dwell : Nat) (free : Bool) (a : Option PEvent) (e : PEvent) : Ins × EpDyn :=
  let d' := d.without e.on
  match d.ofKind (!e.on) with
  | some b =>
    if (match a with | some x => decide (x.tick < b.tick) | none => false) then d.shiftFirst now dwell free b e
    else if e.tick ≤ b.tick then
      if b.dispatched then d'.store now free e (b.tick + max dwell 2000)
      else if !e.on && d.heldOn then (d'.without true).store now free e e.tick
      else (.cancelled, d'.without (!e.on))
    else d'.store now free e (max e.tick (b.tick + dwell))
  | none => d'.store now free e (d.dwelt dwell e)

/-- The insertion of an event (R110). A re-timing is the move of a pending event; any other event of a kind that would
follow both pending ones is a third. -/
def EpDyn.insert (d : EpDyn) (now dwell : Nat) (free retime : Bool) (e : PEvent) : Ins × EpDyn :=
  match d.ofKind e.on with
  | none => d.place now dwell free none e
  | some a =>
    let beyond := match d.ofKind (!e.on) with
      | some b => decide (a.tick < b.tick) && decide (b.tick < e.tick)
      | none => false
    if beyond && !retime then (.full, d)
    else if a.dispatched then (.ignored, d)
    else
      match d.place now dwell (free || a.far) (some a) { e with delay := a.delay, transport := a.transport, leadUs := a.leadUs } with
      | (.far, _) => (.far, d)
      | r => r

/-- MIN_DWELL of an endpoint's product, in ticks. -/
def State.dwellOf (s : State) (ep : Nat) : Nat := (s.product (s.entry ep).product).minDwell * msTicks

/-- What an insertion counts (R109, R110). -/
def State.countIns (r : Ins) (s : State) : State :=
  match r with
  | .cancelled => s.onEsc fun c => { c with cancelCount := count32 c.cancelCount }
  | .full => (s.onGle fun g => { g with pendingFullCount := count32 g.pendingFullCount }).gleFault 2 66
  | .far => s.escFault 0 72
  | _ => s

/-- An event inserted, with what R109 and R110 count. -/
def State.insertRaw (ep : Nat) (retime : Bool) (e : PEvent) (s : State) : Ins × State :=
  let e := { e with tick := max (roundSlot e.tick) (s.earliest ep) }
  let r := (s.dyn ep).insert s.now (s.dwellOf ep) (decide (s.escOverflow < 16384)) retime e
  (r.1, (s.onDyn ep fun _ => r.2).countIns r.1)

/-! ### Feeders (R105) -/

/-- A member of the section other than `ep` is scheduled on. -/
def State.othersOn (s : State) (ep : Nat) : Bool :=
  (s.sectionMembers (s.entry ep).section_).any fun m => m != ep && (s.dyn m).scheduledOn

/-- The feeders of an endpoint's section, but for those that R95 holds off. -/
def State.freeFeeders (s : State) (ep : Nat) : List Nat :=
  (s.feedersOf (s.entry ep).section_).filter fun f => (s.dyn f).staged.isNone

/-- A feeder that a member's ON must open: off, opening, or with a dispatched OFF. -/
def EpDyn.opens (d : EpDyn) : Bool :=
  match d.offEv with
  | some o => o.dispatched
  | none => d.onEv.isSome || !d.heldOn

/-- A feeder's undispatched ON follows an event of member `m`. -/
def EpDyn.follows (d : EpDyn) (m : Nat) : Bool :=
  match d.onEv with
  | some e => !e.dispatched && e.member == some m
  | none => false

/-- The tick at which a feeder opens for a member's ON at a tick, unbounded. -/
def State.feederOn (s : State) (ep f tick : Nat) : Int :=
  (tick : Int) + delayTicks (s.entry ep).onDelay - delayTicks (s.entry f).onDelay

/-- The tick at which a feeder closes after a member's OFF at a tick. -/
def State.feederOff (s : State) (ep f tick : Nat) : Nat :=
  max tick ((tick : Int) + delayTicks (s.entry ep).offDelay - delayTicks (s.entry f).offDelay).toNat

/-- How much later the first member's ON must come for its feeders. -/
def State.feederShift (s : State) (ep tick : Nat) (fs : List Nat) : Nat :=
  fs.foldl (fun m f => max m ((s.now + s.leadOf f : Nat) - s.feederOn ep f tick).toNat) 0

/-- A member's undispatched ON moves later, to a whole slot (R105, R109). -/
def State.shiftOn (m delta : Nat) (s : State) : State :=
  match (s.dyn m).onEv with
  | some e => if e.dispatched then s
      else (s.onDyn m fun d => { d with onEv := some { e with tick := roundSlot (e.tick + delta) } }).noteLate m delta
  | none => s

/-- Every other member's ON moves later by the same amount, and the shift counts as lateness. -/
def State.shiftMembers (ep delta : Nat) (s : State) : State :=
  if delta = 0 then s
  else ((s.sectionMembers (s.entry ep).section_).filter fun m => m != ep).foldl (fun s m => s.shiftOn m delta) (s.noteLate ep delta)

/-- A pending undispatched OFF of a feeder falls away. -/
def State.cancelOff (f : Nat) (s : State) : State :=
  s.onDyn f fun d => if d.moves false then { d with offEv := none } else d

/-- A feeder's event that follows a member's: one that finds no place fails the whole (R105, R109). -/
def State.feed (f : Nat) (e : PEvent) (r : Ins × State) : Ins × State :=
  let q := r.2.insertRaw f ((r.2.dyn f).moves e.on) e
  match q.1 with
  | .full => (.full, q.2)
  | .far => (.far, q.2)
  | _ => (r.1, q.2)

/-- A feeder opens for member `ep`'s ON at a tick. -/
def State.openFeeder (ep tick f : Nat) (r : Ins × State) : Ins × State :=
  let s := r.2
  State.feed f { s.event f (max (s.now + s.leadOf f) (s.feederOn ep f tick).toNat) true .feeder with member := some ep } r

/-- The tick at which the last of a section's closing members has its feeder close (R105; assumption log 159). -/
def State.closeTick (s : State) (ep f : Nat) : Option Nat :=
  (s.sectionMembers (s.entry ep).section_).foldl (fun acc m =>
    match (s.dyn m).offEv with
    | some o => if (s.dyn m).scheduledOn then acc else some (max (acc.getD 0) (s.feederOff m f o.tick))
    | none => acc) none

/-- A feeder closes once no member is scheduled on: after the last member's OFF; where no member has one, its ON has been
cancelled, and a feeder not yet open need not open. -/
def State.closeFeeder (ep f : Nat) (r : Ins × State) : Ins × State :=
  let s := r.2
  let d := s.dyn f
  match s.closeTick ep f with
  | some t => if d.scheduledOn || d.moves false then State.feed f { s.event f t false .feeder with member := some ep } r else r
  | none =>
    if d.moves true && !d.heldOn then (r.1, (s.onDyn f fun d => { d with onEv := none }).cancelOff f)
    else if d.scheduledOn then State.feed f { s.event f (s.earliest f) false .feeder with member := some ep } r
    else r

/-- The feeders of a section whose last member has gone off. -/
def State.closeFeeders (ep : Nat) (r : Ins × State) : Ins × State :=
  (r.2.freeFeeders ep).foldl (fun r f => State.closeFeeder ep f r) r

/-- The feeders of a section whose member's ON at a tick finds no other member scheduled on: an undispatched OFF falls
away, and those that need it open. -/
def State.openFeeders (ep tick : Nat) (r : Ins × State) : Ins × State :=
  let fs := r.2.freeFeeders ep
  let need := fs.filter fun f => (r.2.dyn f).opens
  need.foldl (fun r f => State.openFeeder ep tick f r) (r.1, fs.foldl (fun s f => s.cancelOff f) r.2)

/-- A member's pair of events has been cancelled (R110): it keeps its state, and the feeders theirs. -/
def State.afterCancel (ep tick : Nat) (s : State) : State :=
  if s.othersOn ep then s
  else if (s.dyn ep).scheduledOn then (State.openFeeders ep tick (.cancelled, s)).2
  else (State.closeFeeders ep (.cancelled, s)).2

/-- The answer to a member's event whose feeders could not all follow (R105, R109): neither is stored, as for a probe event;
a forced OFF stands. -/
def State.orRefuse (e : PEvent) (before : State) (r : Ins × State) : Ins × State :=
  if e.creator = .forced then (.stored, r.2)
  else match r.1 with
    | .full => (.full, before.countIns .full)
    | .far => (.far, before.countIns .far)
    | _ => r

/-- The first member's ON with its feeders (R105): a re-timed ON moves the feeders that follow it. -/
def State.openWith (ep : Nat) (retime : Bool) (e : PEvent) (s : State) : Ins × State :=
  let moves := (s.dyn ep).moves true
  let need := (s.freeFeeders ep).filter fun f => if moves then (s.dyn f).follows ep else (s.dyn f).opens
  match (s.insertRaw ep retime e).1 with
  | .stored =>
    let delta := s.feederShift ep e.tick need
    let q := (s.shiftMembers ep delta).insertRaw ep retime { e with tick := e.tick + delta }
    let t := match (q.2.dyn ep).onEv with
      | some x => x.tick
      | none => e.tick
    State.orRefuse e s
      (if moves then need.foldl (fun r f => State.openFeeder ep t f r) q else State.openFeeders ep t q)
  | .cancelled => (.cancelled, (s.insertRaw ep retime e).2.afterCancel ep e.tick)
  | _ => s.insertRaw ep retime e

/-- A member's OFF with its feeders (R105). -/
def State.closeWith (ep : Nat) (retime : Bool) (e : PEvent) (s : State) : Ins × State :=
  let was := (s.dyn ep).scheduledOn || (s.dyn ep).offEv.isSome
  let r := s.insertRaw ep retime e
  match r.1 with
  | .stored =>
    if was && !(r.2.dyn ep).scheduledOn && !r.2.othersOn ep then State.orRefuse e s (State.closeFeeders ep r) else r
  | .cancelled => (.cancelled, r.2.afterCancel ep e.tick)
  | _ => r

/-- An event of any endpoint inserted, its feeders following (R105, R110). -/
def State.insert (ep : Nat) (retime : Bool) (e : PEvent) (s : State) : Ins × State :=
  let d := s.dyn ep
  if (s.entry ep).feeder then s.insertRaw ep retime e
  else if e.on then
    if s.othersOn ep || (d.scheduledOn && d.onEv.isNone) then s.insertRaw ep retime e else s.openWith ep retime e
  else s.closeWith ep retime e

/-- An OFF at the earliest executable tick for an endpoint that is on or about to be (R21, R81, R95). One that finds both
kinds pending, the ON dispatched, is owed until one of them has executed. -/
def State.shut (ep : Nat) (s : State) : State :=
  let s := s.onDyn ep fun d =>
    match d.onEv, d.offEv with
    | some a, some b => if !a.dispatched && decide (b.tick < a.tick) then { d with onEv := none } else d
    | _, _ => d
  let d := s.dyn ep
  let s := if d.heldOn || d.onEv.isSome then (s.insert ep (d.moves false) (s.event ep (s.earliest ep) false .forced)).2 else s
  s.onDyn ep fun d => { d with owesOff := d.scheduledOn }

/-! ### Probes (R102) -/

/-- Floor and ceiling of a division. -/
def ceilDiv (a b : Nat) : Nat := (a + (b - 1)) / b

/-- c_e: the finest cell of the fine layers a product names, 1,000 mm if none (R102). -/
def State.finestCell (s : State) (p : Product) : Nat :=
  match ([p.covLayer, p.bndLayer, p.tgtLayer].filter fun l => l != 0xFF).map fun l => cellMm (s.layer l).cell with
  | [] => 1000
  | h :: t => t.foldl min h

/-- `k` sample spacings of 1 / r_e in ticks, rounded up (R102). -/
def State.spacing (s : State) (ep k : Nat) : Nat :=
  let en := s.entry ep
  let c := s.finestCell (s.product en.product)
  let ve := (s.pse.cur.speedAtY en.yMm).natAbs
  let slow := ceilDiv (k * secTicks) (max 1 s.gle.rateMin)
  if ve = 0 then slow else min slow (ceilDiv (k * secTicks * c * 65536) ve)

/-- One sample per second in the units in which r_e is added up: a multiple of every cell size, times 65,536. -/
def rateUnit : Nat := 2000 * 65536

/-- r_e (R102) in 1/`rateUnit` samples per second, exactly. -/
def State.probeRate (s : State) (ep : Nat) : Nat :=
  let en := s.entry ep
  max (s.gle.rateMin * rateUnit) ((s.pse.cur.speedAtY en.yMm).natAbs * (2000 / s.finestCell (s.product en.product)))

/-- GLE_LOAD and OVERLOAD (R113). -/
def State.refreshLoad (s : State) : State :=
  let n := s.gle.dyn.foldl (fun m e => if e.2.probe.isSome then m + s.probeRate e.1 else m) 0
  let heavy := decide (160000000 * rateUnit < n)
  let was := s.gle.overload
  let s := s.onGle fun g => { g with load := min 0xFFFFFFFF (n / rateUnit), overload := heavy }
  if heavy && !was then (s.gleFault 0 64).record 0x0301 0 [] else s

/-- L_e + PROBE_STEPS / r_e in ticks: how far ahead of its sample an evaluation falls due (R102). -/
def State.probeAhead (s : State) (ep : Nat) : Nat := s.leadOf ep + s.spacing ep s.gle.probeSteps

/-- An endpoint starts to be probed: the first slot at or after now + L_e + PROBE_STEPS / r_e (R102). -/
def State.startProbe (ep : Nat) (s : State) : State :=
  let t := ceilSlot (s.now + s.probeAhead ep)
  s.onDyn ep fun d => { d with probe := some { next := t, due := t - s.probeAhead ep } }

/-- Every evaluated endpoint starts afresh (R102): ENABLE sets, or R20 comes to hold. -/
def State.startProbes (s : State) : State :=
  (((s.gle.entries.filter fun e => e.2.evaluated).map Prod.fst).foldl (fun s ep => s.startProbe ep) s).refreshLoad

/-- Every evaluated endpoint closes with its normal off timing (R21): the number that were on or opening, and the state. -/
def State.closeAll (s : State) : Nat × State :=
  let eps := (s.gle.entries.filter fun e => e.2.evaluated).map Prod.fst
  let n := (eps.filter fun ep => (s.dyn ep).heldOn || (s.dyn ep).onEv.isSome).length
  (n, eps.foldl (fun s ep =>
    (s.shut ep).onDyn ep fun d => { d with probe := d.probe.map fun p => { p with last := none, held := none } }) s)

/-! ### Entries that wait (R95) -/

/-- The entry with its delays from another. -/
def Entry.withDelays (e : Entry) (on off : Nat) : Entry := { e with onDelay := on, offDelay := off }

/-- An entry that is active: not DISABLED (R92). -/
def Entry.active (e : Entry) : Bool := e.mode != .disabled

/-- An entry comes into force: the channel's holding, the probe, a strip's segment (R92, R95, R102, R127); an
entry that writes no coverage ends the strip. A FEEDER of a
section that is on opens (R88; assumption log 160). -/
def State.applyEntry (ep : Nat) (en : Entry) (s : State) : State :=
  let old := s.entry ep
  let s := match s.strip ep with
    | some p =>
      if p.waiting then s
      else
        let q := s.pse.cur
        let c := s.epCentre ep q
        if p.startTick < q.tick then s.cutStrip ep p q.tick c.1 c.2 else s
    | none => s
  let s := (s.onEntry ep fun _ => en).onDyn ep fun d => { d with staged := none, stagedDelays := none }
  let s := if (s.strip ep).isSome && (s.coverageLayer ep).isNone && s.isReady 5 && (en.noCoverage || en.feeder || en.width == 0) then
      s.setStrip ep none
    else s
  let s := if isLocalEp ep then
      let n := ep - localBase
      if en.mode = .disabled then
        if (s.chan n).holding = .escapement then (s.onChan n fun c => { c with holding := .direct, cmd := .off }).follow n true else s
      else if (s.chan n).holding = .escapement then s
      else
        let kept := (s.chan n).isKept
        let s := s.reclaim n
        let on := kept && (s.chan n).commanded
        (s.onDyn ep fun d => { d with heldOn := on }).onChan n fun c => { c with holding := .escapement, carried := kept }
    else s
  let s := if en.evaluated && s.gle.enable then
      (if (s.dyn ep).probe.isSome then
        s.onDyn ep fun d => { d with probe := d.probe.map fun p => { p with last := none, held := none } }
      else s.startProbe ep)
    else s.onDyn ep fun d => { d with probe := none }
  let latch := (s.section_ en.section_).latch
  let s := if en.mode == .latched && (s.dyn ep).scheduledOn != latch && (!latch || !s.hostSafe) && !en.feeder then
      (s.insert ep true (s.event ep (s.earliest ep) latch .latch)).2
    else s
  let s := if en.feeder && en.active && !s.hostSafe && !(s.dyn ep).scheduledOn && s.othersOn ep then
      (s.insertRaw ep false (s.event ep (s.now + s.leadOf ep) true .feeder)).2
    else s
  if old.evaluated == en.evaluated then s.refreshDemand else s.refreshLoad.refreshDemand

/-- Delays alone come into force (R95). -/
def State.applyDelays (ep : Nat) (s : State) : State :=
  match (s.dyn ep).stagedDelays with
  | some (on, off) => s.applyEntry ep ((s.entry ep).withDelays on off)
  | none => s

/-- What waits comes into force where it may: an entry after its OFF's tick, delays in an idle state (R95). -/
def State.applyStaged (ep : Nat) (s : State) : State :=
  let d := s.dyn ep
  match d.staged with
  | some en => if d.idle && !d.heldOn && (decide (d.stagedAfter < s.now) || d.probe.isNone) then s.applyEntry ep en else s
  | none => if d.idle then s.applyDelays ep else s

/-- The pending events that are not dispatched fall away; feeders follow where no member stays on (R95, R105). -/
def State.cancelUndispatched (ep : Nat) (s : State) : State :=
  let was := (s.dyn ep).scheduledOn
  let keep (e : Option PEvent) : Option PEvent := e.filter fun x => x.dispatched
  let s := s.onDyn ep fun d => { d with onEv := keep d.onEv, offEv := keep d.offEv }
  if was && !(s.dyn ep).scheduledOn && !(s.entry ep).feeder && !s.othersOn ep then (State.closeFeeders ep (.cancelled, s)).2 else s

/-- A new entry for an endpoint that is on or has a pending event: it closes under its old entry first (R95). -/
def State.replaceEntry (ep : Nat) (en : Entry) (s : State) : State :=
  let s := s.cancelUndispatched ep
  let d := s.dyn ep
  if d.idle && !d.heldOn then s.applyEntry ep en
  else
    let s := s.shut ep
    let t := match (s.dyn ep).offEv with
      | some o => o.tick
      | none => s.now
    s.onDyn ep fun d =>
      { d with staged := some en, stagedAfter := t, stagedDelays := none, probe := d.probe.map fun p => { p with last := none, held := none } }

/-- The latest entry loaded for an endpoint: one that waits, or the entry in force (R95). -/
def State.latestEntry (s : State) (ep : Nat) : Entry :=
  match (s.dyn ep).staged, (s.dyn ep).stagedDelays with
  | some e, _ => e
  | none, some (a, b) => (s.entry ep).withDelays a b
  | none, none => s.entry ep

/-- A loaded entry (R95). -/
def State.loadEntry (ep : Nat) (en : Entry) (s : State) : State :=
  let d := s.dyn ep
  let inForce := s.entry ep
  let latest := s.latestEntry ep
  if en = latest then s
  else if en = inForce then
    s.onDyn ep fun d =>
      { d with staged := none, stagedDelays := none, probe := d.probe.map fun p => { p with last := none, held := none } }
  else if en = inForce.withDelays en.onDelay en.offDelay then
    let s := s.onDyn ep fun d => { d with staged := none, stagedDelays := some (en.onDelay, en.offDelay) }
    if (s.dyn ep).probe.isSome then s else s.applyStaged ep
  else if d.idle && !d.heldOn then s.applyEntry ep en
  else s.replaceEntry ep en

/-! ### Re-timing and events of the probe (R103) -/

/-- The tick a pending event of the probe moves to under the present pose (R103). -/
def State.retimed (s : State) (ep : Nat) (e : PEvent) : Nat :=
  let look := delayTicks e.delay + transportTicks e.transport
  let a := s.testAt ep s.pse.cur e.lo look
  let b := s.testAt ep s.pse.cur e.hi look
  if a.on ≠ b.on then (if b.on = e.on then switchTime e.lo e.hi a b else roundSlot e.hi)
  else if b.on = e.on then (e.lo / 2000 + 1) * 2000
  else roundSlot e.hi

/-- One pending event re-timed: undispatched and placed between two samples. -/
def State.retimeOne (ep : Nat) (ev : Option PEvent) (s : State) : State :=
  match ev with
  | some e =>
    if e.dispatched || e.hi == 0 then s
    else
      let t := s.retimed ep e
      if t = e.tick then s
      else
        let l := s.now + s.leadOf ep
        let r := s.insert ep true { e with tick := max t l }
        if t < l ∧ r.1 = .stored then r.2.noteLate ep (l - t) else r.2
  | none => s

/-- An endpoint's undispatched events re-timed with the newest pose (R102, R161): where the first of two moves later, the one
that follows it moves before it. -/
def State.retimeAll (ep : Nat) (s : State) : State :=
  let d := s.dyn ep
  let one (on : Bool) (s : State) : State := s.retimeOne ep ((s.dyn ep).ofKind on)
  match d.onEv, d.offEv with
  | some a, some b =>
    let firstOn := decide (a.tick ≤ b.tick)
    let f := if firstOn then a else b
    if f.tick < s.retimed ep f then one firstOn (one (!firstOn) s) else one (!firstOn) (one firstOn s)
  | some _, none => one true s
  | none, some _ => one false s
  | none, none => s

/-- The probe holds an event that cannot be stored, or none. -/
def State.hold (ep : Nat) (e : Option PEvent) (s : State) : State :=
  s.onDyn ep fun d => { d with probe := d.probe.map fun p => { p with held := e } }

/-- The probe's event asked for at a tick: placed no earlier than now + L_e, late if it had to wait (R103); held by the
probe where it cannot be stored (R109, R110). -/
def State.probeEvent (ep : Nat) (e : PEvent) (s : State) : State :=
  let l := s.now + s.leadOf ep
  let r := s.insert ep false { e with tick := max e.tick l }
  match r.1 with
  | .full => r.2.hold ep (some e)
  | .far => r.2.hold ep (some e)
  | .stored => if e.tick < l then (r.2.hold ep none).noteLate ep (l - e.tick) else r.2.hold ep none
  | _ => r.2.hold ep none

/-- An event that the probe holds is inserted again once it can be stored (R109, R110). -/
def State.retryHeld (ep : Nat) (s : State) : State :=
  match (s.dyn ep).probe with
  | some p => match p.held with
    | some e =>
      let l := s.now + s.leadOf ep
      match (s.insert ep false { e with tick := max e.tick l }).1 with
      | .full => s
      | .far => s
      | _ => s.probeEvent ep e
    | none => s
  | none => s

end Sys2Proof.Machine
end

