-- ==== Sys2Proof/Machine/LcaOps.lean ====
section
/-! DEFINITION. Delays under calibration: CAL_RESULT, stored learned delays, staging, application and discard
(12_live_calibration.md). A delay is named by its endpoint and its kind, 0 on and 1 off. -/

namespace Sys2Proof.Machine

/-- An LCA source with its fault bit (R324, R325). -/
def State.lcaFault (bit src : Nat) (s : State) : State :=
  (s.onLca fun l => { l with fault := setFlag l.fault s.cycle bit }).raise src

def State.onDelay (ep kind : Nat) (f : DelayCal → DelayCal) (s : State) : State :=
  s.onLca fun l => { l with delays := Tbl.modify {} l.delays (2 * ep + kind) f }

/-- CAL_RESULT (R323): KIND and OUTCOME, the SOURCE of the latest sample, TARGET, and the values. -/
def State.calResult (kind outcome source target before after : Nat) (est : Int) (samples rejected base rho : Nat) (s : State) :
    State :=
  s.report 0x49 0 s.now
    [fld 16 1 kind, fld 17 1 outcome, fld 18 1 source, fld 20 4 target, fld 24 4 before, fld 28 4 after, sfld 32 4 est,
     fld 36 2 (min 0xFFFF samples), fld 38 2 (min 0xFFFF rejected), fld 40 4 base, fld 44 4 rho, fld 48 8 s.cal]

/-- CAL_RESULT of a delay; LCA is in CTL, and says nothing while CTL is off. -/
def State.delayResult (ep kind outcome after : Nat) (s : State) : State :=
  let c := s.delayCal (2 * ep + kind)
  if s.powered 6 then
    s.calResult (kind + 1) outcome (if outcome = 4 then 0 else c.source) (epField ep) (s.delayOf ep kind) after
      (s.delayEst ep kind) c.n c.rejected (s.delayBase ep kind) 0
  else s

/-! ### Stored learned delays (R316, R317, R343) -/

def LearnEntry.learned (e : LearnEntry) (kind : Nat) : Nat := if kind = 0 then e.onLearned else e.offLearned
def LearnEntry.baseOf (e : LearnEntry) (kind : Nat) : Nat := if kind = 0 then e.onBase else e.offBase

/-- An entry with a learned value and its base for one kind. -/
def LearnEntry.setKind (e : LearnEntry) (kind v base : Nat) : LearnEntry :=
  if kind = 0 then { e with onLearned := v, onBase := base } else { e with offLearned := v, offBase := base }

/-- An endpoint's stored entry. -/
def Nv.learnedOf (n : Nv) (ep : Nat) : Option LearnEntry := n.learn.find? fun e => e.ep == ep

/-- The stored learned value of a delay with its base, if one is stored. -/
def Nv.learnedDelay (n : Nv) (ep kind : Nat) : Option (Nat × Nat) :=
  match n.learnedOf ep with
  | some e => if e.learned kind = 0xFFFF then none else some (e.learned kind, e.baseOf kind)
  | none => none

/-- An entry with nothing left in it is not valid any more. -/
def LearnEntry.isEmpty (e : LearnEntry) : Bool := e.onLearned == 0xFFFF && e.offLearned == 0xFFFF

/-- The stored value of one delay discarded (R317). -/
def State.dropLearned (ep kind : Nat) (s : State) : State :=
  s.onNv fun n =>
    { n with learn := (n.learn.map fun e => if e.ep = ep then e.setKind kind 0xFFFF 0xFFFF else e).filter fun e => !e.isEmpty }

/-- The entries without the one of oldest LAST_CHANGE (R343). -/
def evictOldest (es : List LearnEntry) : List LearnEntry :=
  match es with
  | [] => []
  | h :: t => es.erase (t.foldl (fun b e => if e.lastChange < b.lastChange then e else b) h)

/-- A learned value stored with its base (R316, R343). -/
def State.storeLearned (ep kind v base : Nat) (s : State) : State :=
  let t := s.tbu.optime % 2 ^ 32
  match s.nv.learnedOf ep with
  | some _ => s.onNv fun n =>
      { n with learn := n.learn.map fun e => if e.ep = ep then { (e.setKind kind v base) with lastChange := t } else e }
  | none =>
    let e : LearnEntry := { ({ ep } : LearnEntry).setKind kind v base with lastChange := t }
    if s.nv.learn.length < 65536 then s.onNv fun n => { n with learn := n.learn ++ [e] }
    else
      ((s.onNv fun n => { n with learn := evictOldest n.learn ++ [e] }).onEvr fun v =>
        { v with learnEvict := satAdd 0x7FFF v.learnEvict 1, fault := setFlag v.fault s.cycle 2 }).raise 491

/-! ### Discard (R317, R321) -/

/-- A delay's estimate and staged value fall away; DISCARD is raised. -/
def State.discardCal (ep kind : Nat) (base : Option Nat) (s : State) : State :=
  let s := s.delayResult ep kind 4 (s.delayOf ep kind)
  (s.onDelay ep kind fun _ => { base }).lcaFault 1 451

/-- What ENDPOINT_LOAD does to the calibration of one delay it loads (R317): `changes` against the latest entry. -/
def State.loadCal (ep kind loaded : Nat) (keep changes : Bool) (s : State) : State :=
  if keep then
    let s := match s.nv.learnedDelay ep kind with
      | some (_, b) => if b = loaded then s else ((s.dropLearned ep kind).delayResult ep kind 4 (s.delayOf ep kind)).lcaFault 1 451
      | none => s
    s.onDelay ep kind fun c => { c with base := some loaded }
  else if changes then (s.dropLearned ep kind).discardCal ep kind (some loaded)
  else s

/-- The delay that a load puts into an entry: with KEEP_LEARNED a stored value whose base is the loaded one (R317). -/
def State.keptDelay (s : State) (ep kind loaded : Nat) (keep : Bool) : Nat :=
  if keep then
    match s.nv.learnedDelay ep kind with
    | some (v, b) => if b = loaded then v else loaded
    | none => loaded
  else loaded

/-! ### Application (R315, R316) -/

/-- The ticks of the delays applied within the last second. -/
def State.appliedLately (s : State) : List Nat := s.lca.applyTicks.filter fun t => decide (s.now < t + secTicks)

/-- A staged delay that waits for APPLY_RATE and was staged before another. -/
def State.heldBefore (s : State) (order : Nat) : Bool := s.lca.delays.any fun e => e.2.held && decide (e.2.stagedOrder < order)

/-- The entry of an endpoint with one delay changed. -/
def Entry.setDelay (e : Entry) (kind v : Nat) : Entry := if kind = 0 then { e with onDelay := v } else { e with offDelay := v }

/-- A staged delay becomes the delay in force, is stored and recorded (R316). -/
def State.applyLearned (ep kind v : Nat) (s : State) : State :=
  let c := s.delayCal (2 * ep + kind)
  let old := s.delayOf ep kind
  let base := s.delayBase ep kind
  let est := s.delayEst ep kind
  let s := (s.onEntry ep fun e => e.setDelay kind v).onDyn ep fun d =>
    { d with stagedDelays := d.stagedDelays.map fun p => if kind = 0 then (v, p.2) else (p.1, v) }
  let s := (s.onDelay ep kind fun c => { c with staged := none, held := false, base := some base, est := some est }).onLca fun l =>
    { l with applied := count32 l.applied, applyTicks := s.now :: s.appliedLately }
  let s := (s.storeLearned ep kind v base).record 0x0A01 0
    [(0, w32 (epField ep)), (1, w32 (kind + 1)), (2, w32 old), (3, w32 v), (4, w32 base), (5, w32 c.source)]
  let s := if s.powered 6 then
      s.calResult (kind + 1) 2 c.source (epField ep) old v est c.n c.rejected base 0
    else s
  s.raise 449

/-- A staged delay at an evaluation in an idle state: applied, or held by APPLY_RATE (R315). -/
def State.tryLearned (ep kind : Nat) (s : State) : State :=
  let c := s.delayCal (2 * ep + kind)
  match c.staged with
  | some v =>
    if s.appliedLately.length < s.lca.applyRate ∧ s.heldBefore c.stagedOrder = false then s.applyLearned ep kind v
    else if c.held then s
    else (s.onDelay ep kind fun c => { c with held := true }).raise 454
  | none => s

/-- Staged delays of an endpoint in an idle state. -/
def State.applyCal (ep : Nat) (s : State) : State := (s.tryLearned ep 0).tryLearned ep 1

/-- What waits for an idle state of an endpoint comes into force (R95, R315). -/
def State.applyWaiting (ep : Nat) (s : State) : State :=
  let s := s.applyStaged ep
  if (s.dyn ep).idle && (s.dyn ep).staged.isNone then s.applyCal ep else s

end Sys2Proof.Machine
end

