-- ==== Sys2Proof/Machine/LinkOps.lean ====
section
/-! DEFINITION. Ports and nodes of the links: their records, faults and paths (08_links.md). -/

namespace Sys2Proof.Machine

def State.onPort (p : Nat) (f : Port → Port) (s : State) : State :=
  s.onFlp fun l => { l with ports := Tbl.modify {} l.ports p f }

def State.onDport (q : Nat) (f : Port → Port) (s : State) : State :=
  s.onDlk fun l => { l with ports := Tbl.modify {} l.ports q f }

def State.onNode (p n : Nat) (f : Node → Node) (s : State) : State :=
  s.onFlp fun l => { l with nodes := Tbl.modify {} l.nodes (256 * p + n) f }

/-- A fault bit of FLP with its source (R235, R236). -/
def State.flpFault (bit src : Nat) (s : State) : State :=
  (s.onFlp fun l => { l with fault := setFlag l.fault s.cycle bit }).raise src

/-- A fault bit of DLK with its source (R235, R237). -/
def State.dlkFault (bit src : Nat) (s : State) : State :=
  (s.onDlk fun l => { l with fault := setFlag l.fault s.cycle bit }).raise src

/-- TAG of a tick: its slot modulo 2^24 (R215). -/
def tagOf (tick : Nat) : Nat := tick / 2000 % 16777216

/-- A record joins those that wait for a node's next frame (R216). -/
def State.queueRec (p n : Nat) (r : CmdRec) (s : State) : State :=
  s.onNode p n fun d => { d with waiting := d.waiting ++ [r], waitTick := if d.waiting.isEmpty then s.now else d.waitTick }

/-! ### Frames out -/

/-- A frame of Adehaet (R208, R209): in ring mode on both ports of the pair. -/
def State.sendAde (p type node seq : Nat) (body : List Fld) (records : List (List Fld)) (s : State) : State :=
  let f (q : Nat) : Frame := { link := 0, port := q, type, node, seq := seq % 65536, session := (s.port p).session, body, records }
  let up (q : Nat) : Bool := (s.port q).linked && s.flp.portEn.getLsbD q
  let s := if up p then s.sendFrame (f p) else s
  if s.inRing p && up (p ^^^ 1) then s.sendFrame (f (p ^^^ 1)) else s

/-- The SEQ of this device's next frame of a Tebecia type (R226). -/
def Dlk.seqOf (d : Dlk) (type : Nat) : Word := Tbl.get 0 d.sendSeq type

/-- A Tebecia frame of this device on both ports (R226). -/
def State.sendTeb (type : Nat) (body : List Fld) (records : List (List Fld)) (s : State) : State :=
  if s.dportRuns 0 || s.dportRuns 1 then
    let f (q : Nat) : Frame :=
      { link := 1, port := q, type, node := s.mpg.domainId, seq := (s.dlk.seqOf type).toNat, ttl := 64, instanceId := s.dlk.instanceId,
        body, records }
    let s' := s.onDlk fun d => { d with sendSeq := Tbl.set 0 d.sendSeq type (s.dlk.seqOf type + 1) }
    let s' := if s.dportRuns 0 then s'.sendFrame (f 0) else s'
    if s.dportRuns 1 then s'.sendFrame (f 1) else s'
  else s

/-- LINK_STATUS (R234). -/
def State.linkStatus (link port event pstate subject members value : Nat) (s : State) : State :=
  s.report 0x4D 0 s.now
    [fld 16 1 link, fld 17 1 port, fld 18 1 event, fld 19 1 pstate, fld 20 2 subject, fld 22 2 members, fld 24 4 value,
     fld 28 2 s.dlk.masterId, fld 32 8 s.cal]

/-- LINK_STATUS of a field port. -/
def State.fieldStatus (p event subject value : Nat) (s : State) : State :=
  s.linkStatus 0 p event (s.port p).state.code subject (s.nodesPresent p) value

/-- LINK_STATUS of a device link port. -/
def State.dlkStatus (q event subject value : Nat) (s : State) : State :=
  s.linkStatus 1 q event (s.dport q).state.code subject s.members value

end Sys2Proof.Machine
end

