-- ==== Sys2Proof/Machine/GnbOps.lean ====
section
/-! DEFINITION. APPLY_ARMED and the condition that allows burst tracking (R197). -/

namespace Sys2Proof.Machine

/-- Application may happen: a section in AUTO or MANUAL_ON with an evaluated member of an enabled product, or an endpoint
effectively on (R197). -/
def State.applyArmed (s : State) : Bool :=
  (s.gle.entries.any fun e => e.2.evaluated && (s.section_ e.2.section_).state != 0 && (s.product e.2.product).enable) ||
    s.gle.dyn.any fun e => e.2.effOn

/-- Burst tracking is allowed (R197). -/
def State.burstAllowed (s : State) : Bool :=
  s.gnb.burstEn && s.gnb.everFixed && (!s.gnb.armed || decide (s.pse.cur.speed.natAbs < 65536 * s.gnb.burstSpeed))

/-- APPLY_ARMED and the time since which burst tracking has been allowed, brought up to date (R197, R198). -/
def State.armCheck (s : State) : State :=
  if s.isReady 6 then
    let s := s.onGnb fun g => { g with armed := s.applyArmed }
    if s.burstAllowed then s.onGnb fun g => { g with allowedSince := some (g.allowedSince.getD s.now) }
    else s.onGnb fun g => { g with allowedSince := none }
  else s

end Sys2Proof.Machine
end

