-- ==== Sys2Proof/Machine/Map.lean ====
section
/-! DEFINITION. The commands of MPG (05_map_pager.md). -/

namespace Sys2Proof.Machine

/-! ### Arena and quotas (R131-R133) -/

/-- The arena's size in 2 MiB units. -/
def State.arenaSize (s : State) : Nat := (s.mpg.grants.map fun g => g.size).foldl (· + ·) 0

/-- The checks of ARENA_GRANT (R131, R132). -/
def State.arenaGrantChecks (s : State) (d : DescBits) : List (Bool × Nat) :=
  [flagCheck d 0x02, (dfield d 16 8 % 2097152 == 0, 16), (inRange 1 8192 (dfield d 24 4), 24),
    (decide (s.arenaSize + dfield d 24 4 ≤ 8192) && decide (s.mpg.grants.length < 64), 24), (decide (dfield d 28 1 ≤ 5), 28)] ++
  zeroBytes d 29 35

/-- ARENA_GRANT (R131, R132): the grant goes to the end of the arena; layers that lacked frames may have them (R136). -/
def execArenaGrant (dt ring : Nat) (s : State) : Answer :=
  .next ((s.elapse dt).runDesc ring 0x06 fun d s =>
    s.checked ring (s.arenaGrantChecks d.desc) fun s =>
      let g : Grant := { addr := dfield d.desc 16 8, size := dfield d.desc 24 4, pool := dfield d.desc 28 1, offset := s.arenaSize }
      let i := s.mpg.grants.length
      ((s.onMpg fun m => { m with grants := m.grants ++ [g] }).backAll).finishHead ring stOk i g.offset)

/-- ARENA_QUOTA (R133, R134). -/
def execArenaQuota (dt ring : Nat) (s : State) : Answer :=
  .next ((s.elapse dt).runDesc ring 0x07 fun d s =>
    s.checked ring ([flagCheck d.desc 0x02, (decide (dfield d.desc 16 1 ≤ 31), 16)] ++ zeroBytes d.desc 17 3 ++ zeroBytes d.desc 24 40)
      fun s =>
        let l := dfield d.desc 16 1
        let q := dfield d.desc 20 4
        let y := s.layer l
        let s := s.onLayer l fun y => { y with quota := q, isOver := y.isOver || decide (q < y.use) }
        let s := if decide (q < y.use) && !y.isOver then s.mpgFault 0 97 else s
        let s := (s.clearOver l).backLayer l
        s.finishHead ring stOk (s.layer l).use 0)

/-! ### TILE_IMPORT (R143-R145) -/

/-- The cells other than 0 of tile data. -/
def parseCells (kind : Nat) (data : List Byte) : Tbl Nat :=
  let n := wordAt data 0 data.length
  (List.range 65536).filterMap fun k =>
    let v := n / 2 ^ (kindBits kind * k) % 2 ^ kindBits kind
    if v = 0 then none else some (k, v)

/-- The origin pairs of a header (R122). -/
def parsePairs (h : List Byte) : List (Nat × Word) :=
  (List.range (wordAt h 7 1)).map fun i => (wordAt h (16 + 6 * i) 2, BitVec.ofNat 32 (wordAt h (18 + 6 * i) 4))

/-- A tile read from host memory, by header and cells. -/
structure Imported where
  key : Nat
  lastEpoch : Word
  merged : Bool
  pairs : List (Nat × Word)
  cells : Tbl Nat
  deriving DecidableEq, Repr

def parseTile (kind : Nat) (b : List Byte) : Imported :=
  { key := tileKey (wordAt b 4 1) (swordAt b 0 2) (swordAt b 2 2), lastEpoch := BitVec.ofNat 32 (wordAt b 8 4),
    merged := wordAt b 6 1 == 1, pairs := parsePairs b, cells := parseCells kind (b.drop 64) }

/-- The checks of one whole tile of an import whose bytes stand at `base` of the buffer (R122, R143): another layer, kind or
cell size points at the byte that names the layer (R397). -/
def tileChecks (l : Nat) (y : Layer) (b : List Byte) (base : Nat) : List (Bool × Nat) :=
  let n := wordAt b 7 1
  [(wordAt b 4 1 == l && wordAt b 5 1 % 32 == y.kind + 4 * y.cell, base + 4), (decide (wordAt b 5 1 < 32), base + 5), (decide (wordAt b 6 1 ≤ 1), base + 6),
    (decide (n ≤ 8) && (y.kind == 0 || n == 0), base + 7),
    (wordAt b 12 4 == (crc32 (b.take 12 ++ b.drop 16)).toNat, base + 12)] ++
  ((List.range 8).map fun i => (decide (wordAt b (16 + 6 * i) 2 < 16384), base + 17 + 6 * i)) ++
  (if n ≤ 8 then zeroBuf b (16 + 6 * n) (48 - 6 * n) (base + 16 + 6 * n) else [])

/-- A delta record: bytes 16-63 of a COVERAGE_DELTA (R129). -/
def parseDelta (b : List Byte) : Delta :=
  { origin := wordAt b 0 2 % 16384, layer := wordAt b 2 1, start := (wordAt b 3 1).testBit 0, fin := (wordAt b 3 1).testBit 1,
    covSeq := BitVec.ofNat 32 (wordAt b 4 4), startE := swordAt b 8 4, startN := swordAt b 12 4, endE := swordAt b 16 4,
    endN := swordAt b 20 4, width := wordAt b 24 1, epoch := wordAt b 25 1 % 4, rate := wordAt b 26 2,
    endpoint := wordAt b 28 4, duration := wordAt b 32 4, calNs := wordAt b 36 8 }

/-- The checks of one delta record (R129, R143, R397). -/
def State.deltaChecks (s : State) (b : List Byte) (base : Nat) : List (Bool × Nat) :=
  let l := wordAt b 2 1
  [(decide (wordAt b 0 2 < 16384), base + 1), (decide (l < 32) && (s.layer l).enable && (s.layer l).kind == 0, base + 2),
    (decide (wordAt b 3 1 < 4), base + 3), (decide (wordAt b 25 1 < 4), base + 25),
    (wordAt b 28 4 / 262144 % 8192 == 0, base + 30)] ++ zeroBuf b 44 4 (base + 44)

/-- A tile's contents replaced by an import (R144). -/
def Tile.replace (y : Layer) (tick : Nat) (i : Imported) (t : Tile) : Tile :=
  let cells := if y.kind = 0 then i.cells.map fun e => (e.1, if 1 ≤ e.2 % 4 then e.2 % 4 + 4 * oldTag y.epoch else e.2) else i.cells
  Tile.touch tick { t with place := .resident, cells, lastEpoch := if y.kind = 0 then y.epoch else 0, merged := i.merged,
                           pairs := i.pairs, failTick := none, folded := none, useTick := tick }

/-- One cell of a MERGE: an imported count above the local one (R144). -/
def mergeCell (p : Word) (v loc : Nat) : Nat := if loc % 4 < v % 4 then v % 4 + 4 * oldTag p else loc

/-- An imported whole tile merged into a COVERAGE tile (R144). -/
def State.mergeTile (y : Layer) (i : Imported) (s : State) : State :=
  let s := s.onTile i.key fun t =>
    let t := y.refresh s.now { t with place := .resident, failTick := none }
    Tile.touch s.now
      { t with cells := i.cells.foldl (fun c e => Tbl.modify 0 c e.1 (mergeCell y.epoch e.2)) t.cells, merged := t.merged || i.merged }
  i.pairs.foldl (fun s p =>
    match (s.tile i.key).pairs.find? fun q => q.1 == p.1 with
    | some q => if precedes q.2 p.2 then s.setPair i.key p.1 p.2 else s
    | none => s.setPair i.key p.1 p.2) s

/-- One tile of an import applied; none where it needs a frame that R134 refuses. What waits for the tile goes into it
before a merge, and falls away where the tile is replaced (R150). -/
def State.importTile (merge : Bool) (i : Imported) (s : State) : Option State :=
  let y := s.layer (keyLayer i.key)
  let s := if merge then s.drainTile i.key else s.dropWaiting i.key
  let t := s.tile i.key
  let r := if t.place = .resident then s else s.makeSpace i.key
  let fill (s : State) : State := if merge then s.mergeTile y i else s.onTile i.key (Tile.replace y s.now i)
  if t.frame.isSome ∨ t.unbacked = true then some (fill r)
  else match s.frameCheck i.key with
    | some _ => none
    | none =>
      let s := if t.place = .lost then r.onTile i.key fun _ => {} else r
      some (fill ((s.onTile i.key fun t => { t with place := .resident, lastEpoch := y.epoch }).giveFrame i.key))

/-- The tiles of an import in buffer order, until one is refused a frame: the count applied and the state. -/
def State.importTiles (merge : Bool) : List Imported → Nat → State → Bool × Nat × State
  | [], n, s => (true, n, s)
  | i :: t, n, s =>
    match s.importTile merge i with
    | some s' => State.importTiles merge t (n + 1) s'
    | none => (false, n, match s.frameCheck i.key with
      | some w => s.noteNoFrame w
      | none => s)

/-- TILE_IMPORT with DELTAS, validated; it waits while the merge queue cannot take what must wait (R145). -/
def State.importDeltas (ring n : Nat) (b : List Byte) (s : State) : State :=
  match firstBad ((slices b 48 n).flatMap fun e => s.deltaChecks e.2 e.1) with
  | some o => s.finishHead ring stBadParam o 0
  | none =>
    let ds := (slices b 48 n).map fun e => parseDelta e.2
    let w := (ds.filter s.deltaWaits).length
    if 4096 < s.mergeCount + w ∧ w ≠ 0 then s
    else (ds.foldl (fun s d => s.applyDelta d false) s).finishHead ring stOk 0 0

/-- TILE_IMPORT of whole tiles (R143, R144, R397). A MERGE into a tile that is not resident waits for its fetch. -/
def State.importWhole (ring n : Nat) (merge : Bool) (b : List Byte) (s : State) : State :=
  let l := wordAt b 4 1
  let y := s.layer l
  let sz := 64 + tileBytes y.kind
  if decide (31 < l) || !y.enable then s.finishHead ring stBadParam 4 0
  else if merge && y.kind != 0 then s.finishHead ring stBadParam 1 0
  else if b.length ≠ n * sz then s.finishHead ring stBadParam 2 0
  else match firstBad ((slices b sz n).flatMap fun e => tileChecks l y e.2 e.1) with
    | some o => s.finishHead ring stBadParam o 0
    | none =>
      let ts := (slices b sz n).map fun e => parseTile y.kind e.2
      if merge && ts.any (fun i => s.unsettled i.key) then s
      else
        let r := s.importTiles merge ts 0
        if r.1 then r.2.2.finishHead ring stOk 0 0 else r.2.2.finishHead ring stOverQuota l r.2.1

/-- The checks of TILE_IMPORT's descriptor (R62, R143). -/
def tileImportChecks (d : DescBits) : List (Bool × Nat) :=
  [flagCheck d 0x3A, (dFlag d 3, 1), (!(dFlag d 4 && dFlag d 5), 1), (decide (1 ≤ dLength d), 2),
    (!dFlag d 5 || lengthFits d (48 * dLength d), 2)] ++ indirectChecks d

def execTileImport (dt ring : Nat) (buf : HostRead) (s : State) : Answer :=
  .next ((s.elapse dt).runDesc ring 0x08 fun d s =>
    s.checked ring (tileImportChecks d.desc) fun s =>
      s.withBuffer ring buf fun b s =>
        let b := b.take (dfield d.desc 24 4)
        if dFlag d.desc 5 then s.importDeltas ring (dLength d.desc) b
        else s.importWhole ring (dLength d.desc) (dFlag d.desc 4) b)

/-! ### TILE_EXPORT and TILE_RELEASE (R147-R149) -/

/-- The tiles of a rectangle row by row from its south-west corner (R148). -/
def rectKeys (d : DescBits) : List Nat :=
  let l := dfield d 16 1
  (List.range (dfield d 18 1)).flatMap fun (j : Nat) => (List.range (dfield d 17 1)).map fun (i : Nat) =>
    tileKey l (dsfield d 20 2 + i) (dsfield d 22 2 + j)

/-- The checks of the rectangle (R147, R397). -/
def rectChecks (d : DescBits) : List (Bool × Nat) :=
  [(inRange 1 16 (dfield d 17 1), 17), (inRange 1 16 (dfield d 18 1), 18), (dfield d 19 1 == 0, 19),
    (decide (dsfield d 20 2 + dfield d 17 1 ≤ 32768), 20), (decide (dsfield d 22 2 + dfield d 18 1 ≤ 32768), 22)]

/-- A descriptor's layer is enabled (R397). -/
def State.layerOn (s : State) (d : DescBits) : Bool × Nat :=
  (decide (dfield d 16 1 ≤ 31) && (s.layer (dfield d 16 1)).enable, 16)

def State.tileExportChecks (s : State) (d : DescBits) : List (Bool × Nat) :=
  [flagCheck d 0x12, s.layerOn d] ++ rectChecks d ++
  [(dfield d 24 8 % 8 == 0, 24),
    (decide (dfield d 17 1 * dfield d 18 1 * (64 + tileBytes (s.layer (dfield d 16 1)).kind) ≤ dfield d 32 4), 32)] ++
  zeroBytes d 36 28

/-- A tile as a descriptor finds it: what came before is in it, and it is refreshed as it would be read (R125, R150). -/
def State.settleTile (key : Nat) (s : State) : State :=
  let s := s.drainTile key
  s.onTile key fun t => ((s.layer (keyLayer key)).refresh s.now t).used s.now

/-- Tiles written to DEST one after another, each a header and its data (R148). -/
def State.exportTiles (addr size : Nat) : List Nat → State → State
  | [], s => s
  | k :: t, s =>
    let s := s.settleTile k
    State.exportTiles (addr + size) size t (s.writeTile (addr + 64) addr k (s.tile k))

/-- TILE_EXPORT (R148): it waits for tiles that are not resident, and for those that a delta will create. -/
def execTileExport (dt ring : Nat) (destOk : Bool) (s : State) : Answer :=
  .next ((s.elapse dt).runDesc ring 0x09 fun d s =>
    s.checked ring (s.tileExportChecks d.desc) fun s =>
      let ks := rectKeys d.desc
      if ks.any s.unsettled then s
      else if destOk = false then s.dmaError.finishHead ring stDmaError 0 0
      else
        let l := dfield d.desc 16 1
        let ks := ks.filter fun k => (s.tile k).place == .resident
        let s := s.exportTiles (dfield d.desc 24 8) (64 + tileBytes (s.layer l).kind) ks
        let s := if dFlag d.desc 4 then ((ks.foldl (fun s k => s.releaseTile k) s).clearOver l).backAll else s
        s.finishHead ring stOk ks.length s.mpg.covSeq.toNat)

/-- The tiles a TILE_RELEASE names: with ALL the whole layer's (R147). -/
def State.releaseKeys (s : State) (d : DescBits) : List Nat :=
  let ks := if dFlag d 4 then (s.mpg.tiles.map Prod.fst).filter fun k => keyLayer k == dfield d 16 1 else rectKeys d
  ks.filter fun k => (s.tile k).place != .absent || (s.tile k).frame.isSome

def State.tileReleaseChecks (s : State) (d : DescBits) : List (Bool × Nat) :=
  [flagCheck d 0x12, s.layerOn d] ++ (if dFlag d 4 then [] else rectChecks d) ++ zeroBytes d 24 40

/-- TILE_RELEASE (R149). -/
def execTileRelease (dt ring : Nat) (s : State) : Answer :=
  .next ((s.elapse dt).runDesc ring 0x0A fun d s =>
    s.checked ring (s.tileReleaseChecks d.desc) fun s =>
      let ks := s.releaseKeys d.desc
      ((((ks.foldl (fun s k => s.releaseTile k) s).clearOver (dfield d.desc 16 1)).backAll).finishHead ring stOk ks.length 0))

/-! ### TARGET_MARK (R151) -/

/-- A mark (R151). -/
structure Mark where
  e : Int
  n : Int
  half : Nat
  clear : Bool
  deriving DecidableEq, Repr

def parseMark (b : List Byte) : Mark :=
  { e := swordAt b 0 4, n := swordAt b 4 4, half := wordAt b 8 2, clear := wordAt b 10 1 == 1 }

def markChecks (b : List Byte) (base : Nat) : List (Bool × Nat) :=
  [(decide (wordAt b 10 1 ≤ 1), base + 10), (wordAt b 11 1 == 0, base + 11)]

/-- The cells of side `c` mm a mark affects: its own, and those whose centre lies in the square. -/
def Mark.cells (m : Mark) (c : Nat) : List (Int × Int) :=
  let h : Int := m.half
  let inSquare (q : Int × Int) : Bool :=
    decide (((2 * q.1 + 1) * c - 2 * m.e).natAbs ≤ 2 * m.half) && decide (((2 * q.2 + 1) * c - 2 * m.n).natAbs ≤ 2 * m.half)
  let own := (Int.fdiv m.e c, Int.fdiv m.n c)
  ((intRange (Int.fdiv (m.n - h) c) (Int.fdiv (m.n + h) c)).flatMap fun cn =>
    (intRange (Int.fdiv (m.e - h) c) (Int.fdiv (m.e + h) c)).map fun ce => (ce, cn)).filter fun q => q == own || inSquare q

/-- A tile that TARGET_MARK needs: an absent one is created, and where a 33rd would be unbacked the oldest is dropped first
(R135, R151). -/
def State.needTile (key : Nat) (s : State) : State :=
  if (s.tile key).place = .absent then (if s.canCreate key then s else s.dropOldest).createTile key else s

/-- One mark applied: absent tiles are created, dropped and failed ones take nothing, cells out of range are counted. -/
def State.applyMark (l : Nat) (m : Mark) (s : State) : State :=
  let cells := m.cells (cellMm (s.layer l).cell)
  (tilesOf l cells).foldl (fun s k =>
    let s := s.needTile k
    if (s.tile k).place = .resident then
      s.onTile k fun t => ((t.paint (fun _ => if m.clear then 0 else 1) (cellsIn k cells)).touch s.now).used s.now
    else s) (s.noteRange cells)

/-- The marks of a TARGET_MARK, once its layer has been checked; it waits for tiles that are not resident. -/
def State.markAll (ring l : Nat) (ms : List Mark) (s : State) : State :=
  if ms.any (fun m => (tilesOf l (m.cells (cellMm (s.layer l).cell))).any fun k => (s.tile k).place == .away) then s
  else (ms.foldl (fun s m => s.applyMark l m) s).finishHead ring stOk 0 0

/-- The layer of a TARGET_MARK is an enabled TARGET layer (R397). -/
def State.targetLayer (s : State) (l : Nat) : Bool := decide (l ≤ 31) && (s.layer l).enable && (s.layer l).kind == 1

def execTargetMark (dt ring : Nat) (buf : HostRead) (s : State) : Answer :=
  .next ((s.elapse dt).runDesc ring 0x0B fun d s =>
    let n := dLength d.desc
    if dFlag d.desc 3 then
      s.checked ring ([flagCheck d.desc 0x0A, (decide (1 ≤ n) && lengthFits d.desc (8 + 12 * n + 4 * (n % 2)), 2)] ++ indirectChecks d.desc)
        fun s => s.withBuffer ring buf fun b s =>
          let ms := slices (b.drop 8) 12 n
          s.checked ring ((s.targetLayer (wordAt b 0 1), 0) :: (zeroBuf b 1 7 1 ++ (ms.flatMap fun e => markChecks e.2 (8 + e.1)) ++
              (if n % 2 = 1 then zeroBuf b (8 + 12 * n) 4 (8 + 12 * n) else []))) fun s =>
            s.markAll ring (wordAt b 0 1) (ms.map fun e => parseMark e.2)
    else
      let b := dBytes d.desc 16 48
      let ms := slices (b.drop 4) 12 (min 3 n)
      s.checked ring ([flagCheck d.desc 0x02, (inRange 1 3 n, 2), (s.targetLayer (wordAt b 0 1), 16)] ++ zeroBytes d.desc 17 3 ++
          (ms.flatMap fun e => markChecks e.2 (20 + e.1)) ++ zeroBytes d.desc 56 8) fun s =>
        s.markAll ring (wordAt b 0 1) (ms.map fun e => parseMark e.2))

/-- PASS_ADVANCE (R126) waits for the next pose epoch. -/
def execPassAdvance (dt ring : Nat) (s : State) : Answer :=
  .next ((s.elapse dt).runDesc ring 0x19 fun d s =>
    let mask := dfield d.desc 16 4
    s.checked ring ([flagCheck d.desc 0x02] ++
        ((List.range 32).map fun l => (!mask.testBit l || ((s.layer l).enable && (s.layer l).kind == 0), 16 + l / 8)) ++
        zeroBytes d.desc 20 44) fun s =>
      (s.onMpg fun m => { m with passWaits := m.passWaits ++ [{ ring, index := d.index, mask }] }).startHead ring [])

/-! ### Fetch, write-back, queues (R135, R140-R145) -/

/-- A table from pairs in any order. -/
def tblOf (ps : List (Nat × Nat)) : Tbl Nat := ps.foldl (fun t p => Tbl.set 0 t p.1 p.2) []

/-- A fetched tile that does not match (R141): what failed, 0 CRC, 1 LAYER, 2 FORMAT. -/
def State.badTile (key what : Nat) (s : State) : State :=
  ((s.mpgFault 3 101).faultReport 0x0301 (keyLayer key) 101 (toTwos 16 (keyX key) + 65536 * toTwos 16 (keyY key)) what).loseTile key
    fun t => { t with failTick := none }

/-- A head that can start names a tile: TILE_EXPORT by its rectangle, TILE_IMPORT and TARGET_MARK perhaps by their buffers
(R144, R148, R151). -/
def State.headWants (s : State) (key : Nat) : Bool :=
  s.hre.rings.any fun e => match s.startable e.1 with
    | some d => (d.opcode == 0x09 && (rectKeys d.desc).contains key) || d.opcode == 0x08 || d.opcode == 0x0B
    | none => false

/-- The layers an endpoint's footprint is read through (R88, R140). -/
def Product.layers (p : Product) : List Nat := [p.covLayer, p.bndLayer, p.tgtLayer, p.rxLayer]

/-- A footprint touches a tile, by its bounding box. -/
def State.footTouches (s : State) (key : Nat) (g : Foot) : Bool :=
  let side := 256 * (s.layer (keyLayer key)).side
  let xs := g.corners.map Prod.fst
  let ys := g.corners.map Prod.snd
  decide (Int.fdiv (minOf xs) side ≤ keyX key) && decide (keyX key ≤ Int.fdiv (maxOf xs) side) &&
    decide (Int.fdiv (minOf ys) side ≤ keyY key) && decide (keyY key ≤ Int.fdiv (maxOf ys) side)

/-- An endpoint's footprint touches a tile within AHEAD_MS of predicted path, looked at every 5 ms (R140). -/
def State.pathTouches (s : State) (key ep : Nat) : Bool :=
  (List.range (s.mpg.aheadMs / 5 + 1)).any fun i =>
    s.footTouches key (s.pse.cur.foot (s.entry ep) (s.now + i * 5 * msTicks))

/-- A tile will be touched within AHEAD_MS: by the footprint of a probed endpoint through its product's layers, or by an open
strip (R140). -/
def State.ahead (s : State) (key : Nat) : Bool :=
  (s.gle.dyn.any fun e => e.2.probe.isSome &&
    (s.product (s.entry e.1).product).layers.contains (keyLayer key) && s.pathTouches key e.1) ||
  (s.mpg.strips.any fun e => match e.2 with
    | some p => p.layer == keyLayer key && s.pathTouches key e.1
    | none => false)

/-- MPG fetches a tile that is in the table and not resident: one that was read, that a delta or a descriptor waits for, or
that the predicted path comes to (R121, R140, R144, R145, R148). -/
def State.fetches (s : State) (key : Nat) : Bool :=
  s.isReady 5 && (s.tile key).place == .away &&
    ((s.tile key).sought || s.awaited key || s.headWants key || s.ahead key)

/-- A fetch brings a tile, or an error (R140, R141); any host memory access that fails raises DMA_ERROR (R85). -/
def State.fetched (key : Nat) (r : TileRead) (s : State) : State :=
  let y := s.layer (keyLayer key)
  match r with
  | .error => (((s.onTile key fun t => { t with failTick := some s.now }).mpgFault 6 106).dmaError)
  | .tile layer format crcOk lastEpoch merged pairs cells =>
    if crcOk = false then s.badTile key 0
    else if layer ≠ keyLayer key then s.badTile key 1
    else if format ≠ y.kind + 4 * y.cell then s.badTile key 2
    else (s.makeSpace key).onTile key fun t =>
      { t with sought := false, useTick := s.now, place := .resident, failTick := none, lastEpoch := BitVec.ofNat 32 lastEpoch, merged, pairs := pairs.take 8,
               cells := tblOf (cells.map fun c => (c.1 % 65536, c.2 % 2 ^ kindBits y.kind)), dirty := false }

def execTileFetchDone (dt layer : Nat) (tx ty : Int) (read : TileRead) (s : State) : Answer :=
  let key := tileKey layer tx ty
  let s := s.elapse dt
  .next (s.when (s.fetches key && (s.tile key).failTick.isNone) (State.fetched key read))

/-- 100 ms after a failed fetch MPG tries again (R141). -/
def execFetchRetry (dt layer : Nat) (tx ty : Int) (read : TileRead) (s : State) : Answer :=
  let key := tileKey layer tx ty
  let s := s.elapse dt
  .next (match (s.tile key).failTick with
    | some k => s.when (s.fetches key && decide (k + 100 * msTicks ≤ s.now)) (State.fetched key read)
    | none => s)

/-- WB_INTERVAL in ticks. -/
def State.wbTicks (s : State) : Nat := s.mpg.wbInterval * 100 * msTicks

/-- A tile is written back because it is due or evicted; a failed write leaves it dirty until the next interval, and a
clean or written tile that is evicted leaves the cache (R140, R142). -/
def State.writeBackDue (key : Nat) (evict destOk : Bool) (s : State) : State :=
  if (s.tile key).dirty then
    if destOk then
      let s := s.writeBack key evict false
      if evict then s.uncache key else s
    else ((s.onTile key fun t => { t with dirtyTick := s.now }).mpgFault 6 106).dmaError
  else if evict then s.uncache key
  else s

/-- A tile is evicted while its cache has no room for one more, and it is the one that goes (R140). -/
def State.evicts (s : State) (key : Nat) : Bool :=
  s.cacheFull (s.isCoarse key) && s.victim (s.isCoarse key) == some key

def execWritebackDue (dt layer : Nat) (tx ty : Int) (evict destOk : Bool) (s : State) : Answer :=
  let key := tileKey layer tx ty
  let s := s.elapse dt
  let t := s.tile key
  .next (s.when (s.isReady 5 && t.place == .resident && t.frame.isSome && !t.unbacked &&
      (if evict then s.evicts key else (t.dirty && decide (t.dirtyTick + s.wbTicks ≤ s.now)))) (State.writeBackDue key evict destOk))

/-- A 33rd unbacked tile is needed: the oldest is dropped (R135). Deltas are emitted in the command that rasterises them, so
every segment in it has been emitted. -/
def execUnbackedDrop (dt : Nat) (s : State) : Answer :=
  let s := s.elapse dt
  .next (s.when (s.isReady 5 && s.wantsRoom) State.dropOldest)

/-- The first waiting delta with a tile that can take it now, and what comes before and after it: an earlier delta for the same
tile would come first. -/
def State.drainable (s : State) : List MergeWait → Option (List MergeWait × MergeWait × List MergeWait)
  | [] => none
  | w :: t =>
    if w.keys.any fun k => !s.blocked k then some ([], w, t)
    else match s.drainable t with
      | some (a, x, b) => some (w :: a, x, b)
      | none => none

/-- A queued delta goes into the tiles that can take it now (R145). -/
def State.drainOne (s : State) : State :=
  match s.drainable s.mpg.mergeQ with
  | none => s
  | some (a, w, b) =>
    let r := (s.onMpg fun m => { m with mergeQ := a ++ b }).putAll State.blocked w w.keys
    if r.1 = [] then r.2
    else r.2.onMpg fun m => { m with mergeQ := a ++ { w with keys := r.1 } :: b }

def execMergeQueueDrain (dt : Nat) (s : State) : Answer :=
  .next ((s.elapse dt).when (s.isReady 5) State.drainOne)

/-! ### Layer configuration (R137, R153) -/

/-- A layer can be enabled with a kind and cell code: the kind's limit and the code allowed. -/
def State.canEnable (s : State) (kind cell : Nat) : Bool :=
  cellAllowed kind cell && decide ((s.mpg.layers.filter fun e => e.2.enable && e.2.kind == kind).length < kindLimit kind)

/-- Some product names a layer (R397). -/
def State.layerNamed (s : State) (l : Nat) : Bool :=
  s.gle.products.any fun e => e.2.covLayer == l || e.2.bndLayer == l || e.2.tgtLayer == l || e.2.rxLayer == l

/-- A strip is open on a layer; one that waits for a pose with VALID set has not started (R398). -/
def State.layerOpen (s : State) (l : Nat) : Bool :=
  s.mpg.strips.any fun e => match e.2 with | some p => p.layer == l && !p.waiting | none => false

/-- Clearing ENABLE is possible (R153). -/
def State.canDisable (s : State) (l : Nat) : Bool :=
  (s.layer l).use == 0 && (s.oldestUnbacked (some l)).isNone && !s.layerOpen l && !s.layerNamed l

/-- A layer is enabled: its root table, written zero-filled, pass epoch 0 (R123, R137). -/
def State.enableLayer (l : Nat) (s : State) : State :=
  let r := s.allocUnit 5
  (r.2.zeroTable (unitOffset 5 r.1)).onLayer l fun y =>
    { y with enable := true, epoch := 0, startHeading := none, root := some r.1, advances := [] }

/-- A layer is disabled: its root table returns, and no tile of it is remembered. -/
def State.disableLayer (l : Nat) (s : State) : State :=
  let s := match (s.layer l).root with
    | some u => s.freeUnit 5 u
    | none => s
  ((s.onLayer l fun y => { y with enable := false, root := none }).onMpg fun m =>
    { m with tiles := m.tiles.filter (fun e => keyLayer e.1 != l),
             mergeQ := m.mergeQ.filter fun w => w.delta.layer != l }).backAll

/-- A write of MPG_LAYER_CFG (R153). -/
def State.layerCfg (l : Nat) (v : Word) (s : State) : State :=
  let y := s.layer l
  let s := s.onLayer l fun y =>
    { y with share := bit v 6, samePass := bit v 7, autoPass := bit v 8, unknownMode := bit v 9, unknownValue := bits v 16 16 }
  if y.enable then
    let s := if bits v 0 2 = y.kind ∧ bits v 2 3 = y.cell then s else s.mpgFault 8 108
    if bit v 5 then s
    else if s.canDisable l then s.disableLayer l else s.mpgFault 8 108
  else
    let s := s.onLayer l fun y => { y with kind := bits v 0 2, cell := bits v 2 3 }
    if bit v 5 then
      if s.canEnable (bits v 0 2) (bits v 2 3) then
        (if s.poolFree 5 = 0 then (s.mpgFault 8 108).mpgFault 1 98 else s.enableLayer l)
      else s.mpgFault 8 108
    else s

def execLayerCfgWrite (dt layer : Nat) (value : Word) (s : State) : Answer :=
  .next ((s.elapse dt).when (s.hostUp && s.powered 3 && decide (layer < 32)) (State.layerCfg layer value))

/-- A segment reaches SEG_MAX_MS (R127): it closes there once the pose epochs around that instant exist. -/
def execSegmentMaxExpiry (dt ep : Nat) (s : State) : Answer :=
  let s := s.elapse dt
  .next (match s.strip ep with
    | some p =>
      let t := p.startTick + s.mpg.segMax * msTicks
      s.when (s.isReady 5 && !p.waiting && decide (t ≤ s.pse.cur.tick)) fun s =>
        let c := s.centreAt ep t
        s.cutStrip ep p t c.1 c.2
    | none => s)

end Sys2Proof.Machine
end

