-- ==== Sys2Proof/Machine/Endpoints.lean ====
section
/-! DEFINITION. ENDPOINT_LOAD, SECTION_SET, PRODUCT_SET and GLE_CTRL (04_endpoints_lookahead.md). -/

namespace Sys2Proof.Machine

/-! ### ENDPOINT_LOAD (R87-R95) -/

/-- Mode from its code (R89). -/
def epMode : Nat → EpMode
  | 0 => .onoff
  | 1 => .pwm
  | 2 => .disabled
  | _ => .latched

/-- An entry from its 16 bytes (R87, R88). -/
def parseEntry (b : List Byte) : Entry :=
  let sec := wordAt b 10 2
  let prod := wordAt b 12 1
  let pol := wordAt b 14 1
  { xMm := swordAt b 0 2, yMm := swordAt b 2 2, width := wordAt b 4 1, length := wordAt b 5 1, onDelay := wordAt b 6 2,
    offDelay := wordAt b 8 2, section_ := sec % 4096, noCoverage := sec.testBit 12, noDemand := sec.testBit 13,
    feeder := sec.testBit 14, product := prod % 64, mode := epMode (prod / 64), phaseGroup := wordAt b 13 1,
    overlap := pol % 16, boundary := pol / 16 }

/-- The checks of an entry whose bytes stand at `base` (R87-R91). -/
def entryChecks (b : List Byte) (base : Nat) : List (Bool × Nat) :=
  let prod := wordAt b 12 1
  let pol := wordAt b 14 1
  [(!(wordAt b 11 1).testBit 7, base + 11), (decide (2 ≤ prod / 64) || prod % 64 != 0, base + 12),
    (decide (pol % 16 ≤ 3) && decide (pol / 16 ≤ 4), base + 14), (wordAt b 15 1 == 0, base + 15)]

/-- A local endpoint may not become active: its channel is bound, or under DIRECT_SWITCH and commanded on (R92, R239). -/
def State.escDenied (s : State) (ep : Nat) (en : Entry) : Bool :=
  isLocalEp ep && en.active && (
    let c := s.chan (ep - localBase)
    match c.holding with
    | .regulator => true
    | .direct => c.commanded && c.keepTick.isNone && !c.inSafe
    | _ => false)

/-- One loaded entry with KEEP_LEARNED or without (R95, R317). -/
def State.loadOne (keep : Bool) (ep : Nat) (en : Entry) (s : State) : State :=
  let latest := s.latestEntry ep
  let en' := en.withDelays (s.keptDelay ep 0 en.onDelay keep) (s.keptDelay ep 1 en.offDelay keep)
  let s := s.loadCal ep 0 en.onDelay keep (en.onDelay != latest.onDelay)
  let s := s.loadCal ep 1 en.offDelay keep (en.offDelay != latest.offDelay)
  s.loadEntry ep en'

/-- Entries that have passed their checks: refused where one claims a held channel, or all applied in order (R92, R95). -/
def State.loadAll (ring : Nat) (keep : Bool) (es : List (Nat × Entry)) (s : State) : State :=
  match es.find? fun e => s.escDenied e.1 e.2 with
  | some e => s.claimDenied.finishHead ring stClaimDenied (e.1 - localBase) 0
  | none => (es.foldl (fun s e => s.loadOne keep e.1 e.2) s).armCheck.finishHead ring stOk 0 0

/-- The endpoint of entry `i` of an INDIRECT load (R94). -/
def State.bufferEp (s : State) (isLocal : Bool) (i : Nat) : Nat :=
  if isLocal then localBase + i
  else 65536 * s.blockPort (i / 256) + 256 * s.blockNode (i / 256) + i % 256

/-- The checks of an INDIRECT load's descriptor (R62, R94). -/
def State.loadIndirectChecks (s : State) (d : DescBits) : List (Bool × Nat) :=
  let n := dLength d
  let isLocal := dFlag d 4
  [flagCheck d 0x3A,
    (inRange 1 (if isLocal then Config.loadChannels s.part else Config.remoteEndpoints s.part / 256) n &&
      lengthFits d ((if isLocal then 16 else 4096) * n), 2)] ++ indirectChecks d

/-- The checks of a direct load (R93). -/
def loadDirectChecks (d : DescBits) : List (Bool × Nat) :=
  let n := dLength d
  [flagCheck d 0x32, (inRange 1 2 n, 2), (dfield d 18 1 / 4 == 0, 18), (dfield d 19 1 == 0, 19)] ++ zeroBytes d 20 4 ++
    entryChecks (dBytes d 24 16) 24 ++ (if n = 2 then entryChecks (dBytes d 40 16) 40 else []) ++ zeroBytes d 56 8

def execEndpointLoad (dt ring : Nat) (buf : HostRead) (s : State) : Answer :=
  .next ((s.elapse dt).runDesc ring 0x03 fun d s =>
    let isLocal := dFlag d.desc 4
    let keep := dFlag d.desc 5
    let n := dLength d.desc
    if dFlag d.desc 3 then
      s.checked ring (s.loadIndirectChecks d.desc) fun s =>
        s.withBuffer ring buf fun b s =>
          let es := slices b 16 (if isLocal then n else 256 * n)
          s.checked ring (es.flatMap fun e => (s.epExists (s.bufferEp isLocal (e.1 / 16)), e.1) :: entryChecks e.2 e.1) fun s =>
            s.loadAll ring keep (es.map fun e => (s.bufferEp isLocal (e.1 / 16), parseEntry e.2))
    else
      s.checked ring (loadDirectChecks d.desc) fun s =>
        let a := dfield d.desc 16 4
        s.loadAll ring keep ((List.range n).map fun i => (epOf (a + i) isLocal, parseEntry (dBytes d.desc (24 + 16 * i) 16))))

/-! ### SECTION_SET (R96, R97) -/

/-- A section entry. -/
structure SecEntry where
  section_ : Nat
  state : Nat
  latch : Bool
  deriving DecidableEq, Repr

def parseSection (b : List Byte) : SecEntry :=
  { section_ := wordAt b 0 2 % 4096, state := wordAt b 2 1, latch := (wordAt b 3 1).testBit 0 }

def sectionChecks (b : List Byte) (base : Nat) : List (Bool × Nat) :=
  [(decide (wordAt b 0 2 < 4096), base + 1), (decide (wordAt b 2 1 ≤ 2), base + 2), (decide (wordAt b 3 1 ≤ 1), base + 3)]

/-- The latch event of one LATCHED endpoint; false where the overflow list refuses it (R96, R109). A LATCH bit that repeats
the scheduled state creates none, no endpoint opens under the safe action (R81), and one whose entry waits for its OFF is
held off: the new entry takes the LATCH bit up as it applies (R95). -/
def State.latchOne (ep tick : Nat) (on : Bool) (r : Bool × State) : Bool × State :=
  let s := r.2
  let d := s.dyn ep
  let same := (if on then d.onEv else d.offEv).isNone && d.scheduledOn == on
  if same || (on && s.hostSafe) || d.staged.isSome then r
  else
    let q := s.insert ep true (s.event ep (max tick (s.earliest ep)) on .latch)
    (r.1 && (match q.1 with | .far => false | _ => true), q.2)

/-- The latch events of one section entry. -/
def State.latchSection (tick : Nat) (e : SecEntry) (r : Bool × State) : Bool × State :=
  ((r.2.sectionMembers e.section_).filter fun ep => (r.2.entry ep).mode == .latched).foldl
    (fun r ep => State.latchOne ep tick e.latch r) r

/-- Section entries that have passed their checks (R96): all take effect, or none where a latch event finds no place. -/
def State.setSections (ring tick : Nat) (es : List SecEntry) (s : State) : State :=
  let r := es.foldl (fun r e => State.latchSection tick e r) (true, s)
  if r.1 then
    (es.foldl (fun s e => s.onSection e.section_ fun c => { c with state := e.state, latch := e.latch }) r.2).armCheck.finishHead ring stOk 0 0
  else (s.escFault 0 72).finishHead ring stAborted 1 0

def execSectionSet (dt ring : Nat) (buf : HostRead) (s : State) : Answer :=
  .next ((s.elapse dt).runDesc ring 0x04 fun d s =>
    let n := dLength d.desc
    let far (t : Nat) : Bool := decide (t ≤ s.now + 2 ^ 32)
    if dFlag d.desc 3 then
      s.checked ring ([flagCheck d.desc 0x0A, (inRange 1 4096 n && lengthFits d.desc (8 + 4 * n + 4 * (n % 2)), 2)] ++
          indirectChecks d.desc) fun s =>
        s.withBuffer ring buf fun b s =>
          let es := slices (b.drop 8) 4 n
          s.checked ring ((far (wordAt b 0 8), 0) :: ((es.flatMap fun e => sectionChecks e.2 (8 + e.1)) ++
              (if n % 2 = 1 then zeroBuf b (8 + 4 * n) 4 (8 + 4 * n) else []))) fun s =>
            s.setSections ring (wordAt b 0 8) (es.map fun e => parseSection e.2)
    else
      let es := slices (dBytes d.desc 24 40) 4 (min 10 n)
      s.checked ring ([flagCheck d.desc 0x02, (inRange 1 10 n, 2), (far (dfield d.desc 16 8), 16)] ++
          es.flatMap fun e => sectionChecks e.2 (24 + e.1)) fun s =>
        s.setSections ring (dfield d.desc 16 8) (es.map fun e => parseSection e.2))

/-! ### PRODUCT_SET (R98, R99) -/

/-- A layer named by a product: none, or an enabled layer of the kind (R98, R397). -/
def State.productLayer (s : State) (l kind : Nat) : Bool :=
  l == 0xFF || (decide (l ≤ 31) && (s.layer l).enable && (s.layer l).kind == kind)

def State.productChecks (s : State) (d : DescBits) : List (Bool × Nat) :=
  let mode := dfield d 17 1 / 4 % 4
  [flagCheck d 0x02, (inRange 1 63 (dfield d 16 1), 16),
    (decide (dfield d 17 1 < 16) && mode != 3 && (mode == 0 || dfield d 20 1 != 0xFF), 17),
    (s.productLayer (dfield d 18 1) 0, 18), (s.productLayer (dfield d 19 1) 2, 19), (s.productLayer (dfield d 20 1) 1, 20),
    (s.productLayer (dfield d 21 1) 3, 21), (decide (dfield d 32 2 ≤ 1000), 32), (decide (dfield d 34 2 ≤ dfield d 36 2), 36),
    (dfield d 38 2 == 0 || decide (10 ≤ dfield d 38 2), 38)] ++ zeroBytes d 44 20

def parseProduct (d : DescBits) : Product :=
  let fl := dfield d 17 1
  { enable := fl.testBit 0, zeroRateOff := fl.testBit 1, targetMode := fl / 4 % 4, covLayer := dfield d 18 1,
    bndLayer := dfield d 19 1, tgtLayer := dfield d 20 1, rxLayer := dfield d 21 1, transport := dfield d 22 2,
    rateDefault := dfield d 24 2, rateNom := max 1 (dfield d 26 2), rateUnit := dfield d 28 4, dutyBase := dfield d 32 2,
    dutyMin := dfield d 34 2, dutyMax := dfield d 36 2, pwmPeriod := dfield d 38 2, phaseGroups := dfield d 40 1,
    minDwell := dfield d 41 1, minSpeed := dfield d 42 2 }

/-- What no probe closes when a product's ENABLE clears (R99): its LATCHED endpoints, and its feeders that members of other
products keep open. -/
def State.closeProduct (p : Nat) (s : State) : State :=
  let of (f : Entry → Bool) : List Nat := (s.gle.entries.filter fun e => e.2.product == p && f e.2).map Prod.fst
  let s := (of fun e => e.mode == .latched && !e.feeder).foldl (fun s ep => if (s.dyn ep).scheduledOn then s.shut ep else s) s
  (of fun e => e.active && e.feeder).foldl (fun s f =>
    if (s.dyn f).scheduledOn &&
        (s.sectionMembers (s.entry f).section_).any (fun m => (s.entry m).product != p && (s.dyn m).scheduledOn) then s.shut f
    else s) s

/-- A local output whose product has lost its PWM_PERIOD goes on as an ONOFF one (R89, R107). -/
def State.endPulses (p : Nat) (s : State) : State :=
  if (s.product p).pwmPeriod = 0 then
    s.allChans.foldl (fun s n =>
      if (s.dyn (localBase + n)).pwmRun && (s.entry (localBase + n)).product == p then
        (s.onDyn (localBase + n) fun d => { d with pwmRun := false, pwmOpen := false }).follow n false
      else s) s
  else s

def execProductSet (dt ring : Nat) (s : State) : Answer :=
  .next ((s.elapse dt).runDesc ring 0x05 fun d s =>
    s.checked ring (s.productChecks d.desc) fun s =>
      let p := dfield d.desc 16 1
      let new := parseProduct d.desc
      let was := (s.product p).enable
      let s := s.onGle fun g => { g with products := Tbl.set {} g.products p new }
      let s := (if was && !new.enable then s.closeProduct p else s).endPulses p
      ((s.refreshLoad).refreshDemand).armCheck.finishHead ring stOk 0 0)

/-! ### GLE_CTRL (R102, R116) -/

/-- A write of GLE_CTRL: ENABLE starts the probes; while it is 0 the evaluated endpoints are held off. -/
def State.gleCtrl (v : Word) (s : State) : State :=
  let on := bit v 0
  if on = s.gle.enable then s
  else if on then (s.onGle fun g => { g with enable := true, running := true }).startProbes
  else
    let s := s.closeAll.2
    let s := s.onGle fun g => { g with enable := false, running := false }
    ((s.gle.dyn.map Prod.fst).foldl (fun s ep => s.onDyn ep fun d => { d with probe := none }) s).refreshLoad

def execGleEnableWrite (dt : Nat) (value : Word) (s : State) : Answer :=
  .next ((s.elapse dt).when (s.hostTo 2) (State.gleCtrl value))

end Sys2Proof.Machine
end

