-- ==== Sys2Proof/Machine/Escapement.lean ====
section
/-! DEFINITION. The evaluation of a probe, and the escapement's events on their way to a valve, to demand and to the
ground (01_architecture.md, 04_endpoints_lookahead.md). -/

namespace Sys2Proof.Machine

/-! ### PROBE_EVALUATION (R102-R106) -/

/-- The sample is done: the probe moves to the next one, whose evaluation is due by the r_e and the L_e of now (R102;
assumption log 146). -/
def State.advanceProbe (ep sk : Nat) (r : TestRes) (s : State) : State :=
  let next := ceilSlot (sk + max 1 (s.spacing ep 1))
  s.onDyn ep fun d => { d with probe := d.probe.map fun p => { p with last := some (sk, r), next, due := next - s.probeAhead ep } }

/-- The event of a switch decided at a sample (R102, R103). -/
def State.switchEvent (s : State) (ep sk : Nat) (last : Option (Nat × TestRes)) (r : TestRes) : PEvent :=
  let e := s.event ep sk r.on .probe
  let e := { e with rate := if r.on then r.rate else 0, duty := if r.on then (s.dutyFor ep r.rate).map Prod.fst else none }
  match last with
  | some (s0, r0) =>
    { e with tick := switchTime s0 sk r0 r, lo := s0, hi := sk }
  | none => e

/-- The duty in force or pending, where a decision leaves the endpoint on (R106). -/
def EpDyn.dutyNow (d : EpDyn) : Nat :=
  match d.onEv with
  | some e => e.duty.getD d.duty
  | none => d.duty

/-- What a sample's test leads to: the event it asks for, if any, and whether its duty is limited. -/
def State.decision (s : State) (ep sk : Nat) (last : Option (Nat × TestRes)) (r : TestRes) : Option (PEvent × DutyLimit) :=
  let d := s.dyn ep
  let lim : DutyLimit := if r.on then ((s.dutyFor ep r.rate).map Prod.snd).getD .none else .none
  let differs : Bool := match last with
    | some (_, r0) => r0.on != r.on
    | none => true
  if differs && r.on != d.scheduledOn then some (s.switchEvent ep sk last r, lim)
  else if r.on && d.scheduledOn then
    match s.dutyFor ep r.rate with
    | some (duty, _) =>
      if duty = d.dutyNow then none
      else
        let e := match d.onEv with
          | some e => { s.event ep e.tick true .probe with lo := e.lo, hi := e.hi }
          | none => s.event ep sk true .probe
        some ({ e with rate := r.rate, duty := some duty }, lim)
    | none => none
  else none

/-- A decision that leaves an endpoint on, without an event, at a new rate (R127): it is in force on the ground that the test
examined. -/
def State.rateDecision (ep ground : Nat) (r : TestRes) (s : State) : State :=
  let d := s.dyn ep
  if r.on && d.scheduledOn && d.decided != r.rate then
    (s.onDyn ep fun d => { d with decided := r.rate }).addEffect
      { ep, tick := ground, on := true, rate := r.rate, duty := d.dutyNow, exec := s.now, rateOnly := true }
  else s

/-- The sample's test, its event and the next sample. -/
def State.evalSample (ep sk : Nat) (last : Option (Nat × TestRes)) (s : State) : State :=
  let look := s.lookAhead ep (!(s.dyn ep).scheduledOn)
  let q := s.pse.cur
  let s := s.noteTest ep q (sk + look)
  let r := s.testAt ep q sk look
  match s.decision ep sk last r with
  | none => (s.rateDecision ep (sk + look) r).advanceProbe ep sk r
  | some (e, lim) =>
    let s := ((s.probeEvent ep e).noteDuty ep lim).onDyn ep fun d => { d with decided := if r.on then r.rate else d.decided }
    match (s.dyn ep).probe with
    | some p => if p.held.isSome then s else s.advanceProbe ep sk r
    | none => s

/-- One evaluation of an endpoint (R95, R102): what waits for an idle state comes into force, pending events are re-timed
with the newest pose, and the sample is tested unless the probe still holds an event. -/
def State.evaluate (ep : Nat) (s : State) : State :=
  let s := s.applyWaiting ep
  match (s.dyn ep).probe with
  | none => s
  | some p =>
    if (s.dyn ep).staged.isSome then
      let next := ceilSlot (p.next + max 1 (s.spacing ep 1))
      s.onDyn ep fun d =>
        { d with probe := some { p with last := none, held := none, next, due := next - s.probeAhead ep } }
    else
      let s := (s.retimeAll ep).retryHeld ep
      match (s.dyn ep).probe with
      | none => s
      | some p => if p.held.isSome then s else s.evalSample ep p.next p.last

/-- The evaluation of the next sample is due (R102). -/
def State.probeDue (s : State) (ep : Nat) : Bool :=
  match (s.dyn ep).probe with
  | some p => s.gle.enable && s.isReady 4 && decide (p.due ≤ s.now)
  | none => false

/-- The deadline of an endpoint's next evaluation (R102). -/
def State.deadline (s : State) (ep : Nat) : Int :=
  match (s.dyn ep).probe with
  | some p => (p.next : Int) - s.leadOf ep
  | none => 0

/-- GLE may serve the evaluation now (R113): no more than 160,000,000 in a second, and under overload none that is due has
an earlier deadline. -/
def State.served (s : State) (ep : Nat) : Bool :=
  (s.gle.evalSec != s.now / secTicks || decide (s.gle.evalCount < 160000000)) &&
    (!s.gle.overload || s.gle.dyn.all fun e => !s.probeDue e.1 || decide (s.deadline ep ≤ s.deadline e.1))

/-- One more evaluation in the present second. -/
def State.countEval (s : State) : State :=
  let sec := s.now / secTicks
  s.onGle fun g => { g with evalSec := sec, evalCount := if g.evalSec = sec then g.evalCount + 1 else 1 }

def execProbeEvaluation (dt ep : Nat) (s : State) : Answer :=
  let s := s.elapse dt
  .next (s.when (s.probeDue ep && s.served ep) fun s => (s.countEval.evaluate ep).refreshLoad)

/-! ### The wheel (R109) -/

/-- A far event that lies within 2.6 s moves to the wheel. -/
def PEvent.migrate (now : Nat) (e : PEvent) : PEvent :=
  if e.far && decide (e.tick ≤ now + 520000000) then { e with far := false } else e

def execOverflowMigrate (dt ep : Nat) (s : State) : Answer :=
  let s := s.elapse dt
  .next (s.when ((s.dyn ep).events.any fun e => e.far && decide (e.tick ≤ s.now + 520000000)) fun s =>
    s.onDyn ep fun d => { d with onEv := d.onEv.map (PEvent.migrate s.now), offEv := d.offEv.map (PEvent.migrate s.now) })

/-! ### Dispatch of remote events (R111) -/

/-- The earlier of an endpoint's events for which `f` holds. -/
def EpDyn.first (d : EpDyn) (f : PEvent → Bool) : Option PEvent :=
  match d.onEv.filter f, d.offEv.filter f with
  | some a, some b => some (if a.tick < b.tick then a else b)
  | some a, none => some a
  | none, b => b

/-- An event changed in its place. -/
def EpDyn.onEvent (d : EpDyn) (on : Bool) (f : PEvent → PEvent) : EpDyn :=
  if on then { d with onEv := d.onEv.map f } else { d with offEv := d.offEv.map f }

/-- A node takes no events: not PRESENT, safe, or a number that two nodes carry (R207, R221). -/
def State.nodeDrops (s : State) (p n : Nat) : Bool :=
  let d := s.node p n
  !d.present || d.safe || d.dup

/-- A dropped event counts for its port (R111). -/
def State.countDrop (p : Nat) (s : State) : State := s.onEsc fun e => { e with drop := Tbl.modify 0 e.drop p count32 }

/-- An event whose port is down (R111, R115). -/
def State.portDrop (p : Nat) (s : State) : State := (s.countDrop p).escFault 1 73

/-- The switch an event makes at the ground once it is known to have taken effect (R15). -/
def PEvent.groundEffect (e : PEvent) (ep : Nat) : Effect :=
  { ep, tick := e.tick + delayTicks e.delay + transportTicks e.transport, on := e.on, rate := e.rate, duty := e.duty.getD 1000,
    exec := e.tick }

/-- The same switch at the valve (R16). -/
def PEvent.valveEffect (e : PEvent) (ep : Nat) : Effect :=
  { ep, tick := e.tick + delayTicks e.delay, on := e.on, rate := e.rate, duty := e.duty.getD 1000, delay := e.delay, exec := e.tick }

/-- The phase of a group in 10 µs units (R107). -/
def phaseOf (p : Product) (group : Nat) : Nat := group % (p.phaseGroups + 1) * p.pwmPeriod / (p.phaseGroups + 1)

/-- The records of an event (R215, R216). -/
def State.commandRecs (s : State) (ep : Nat) (e : PEvent) : List CmdRec :=
  let en := s.entry ep
  let effect := if en.feeder then none else some (e.groundEffect ep)
  let base : CmdRec := { endpoint := ep % 256, kind := 2, tag := tagOf e.tick, value := 0, tick := e.tick, ep := some ep, effect }
  if e.on = false then [base]
  else match e.duty with
    | some d =>
      let p := s.product en.product
      [{ base with kind := 3, value := d },
        { endpoint := ep % 256, kind := 4, tag := p.pwmPeriod, value := phaseOf p en.phaseGroup, tick := e.tick }]
    | none => [{ base with kind := 1 }]

/-- The state before an event, as its earlier pending event leaves it. -/
def EpDyn.stateBefore (d : EpDyn) (e : PEvent) : Bool :=
  match (if e.on then d.offEv else d.onEv) with
  | some b => if b.tick < e.tick then b.on else d.heldOn
  | none => d.heldOn

/-- An event handed to FLP, or dropped (R111). -/
def State.dispatch (ep : Nat) (e : PEvent) (s : State) : State :=
  let p := ep / 65536
  let n := ep / 256 % 256
  let drops := s.portRuns p == false || s.nodeDrops p n
  let changes := (s.dyn ep).stateBefore e != e.on
  let s := s.onDyn ep fun d => d.onEvent e.on fun x => { x with dispatched := true, dropped := drops }
  if s.portRuns p = false then s.portDrop p
  else if s.nodeDrops p n then s.countDrop p
  else
    let s := if changes then
        s.onDyn ep fun d => if e.on then { d with tagOn := some (tagOf e.tick) } else { d with tagOff := some (tagOf e.tick) }
      else s
    (s.commandRecs ep e).foldl (fun s r => s.queueRec p n r) s

def execEscDispatch (dt ep : Nat) (s : State) : Answer :=
  let s := s.elapse dt
  .next (match (s.dyn ep).first (fun e => !e.dispatched) with
    | some e => s.when (!isLocalEp ep && decide (e.tick ≤ s.now + e.leadUs * usTicks)) (State.dispatch ep e)
    | none => s)

/-! ### Execution (R107, R111) -/

/-- The local output of an executed event (R107): an opening starts a pulse, a new duty waits for the next opening. -/
def State.driveLocal (ep : Nat) (e : PEvent) (was : Bool) (s : State) : State :=
  let n := ep - localBase
  let s := s.onDyn ep fun d =>
    if e.on = false then { d with pwmRun := false, pwmOpen := false }
    else match e.duty with
      | some v =>
        if was && d.pwmRun then d
        else { d with pwmRun := true, pwmOpen := true, pwmOpenTick := e.tick, pwmDuty := v }
      | none => { d with pwmRun := false, pwmOpen := false }
  let c := s.chan n
  let s := (s.onChan n fun c => { c with carried := false }).follow n true
  if e.on && !was && (s.chan n).out && !c.out && decide (c.offTick + 10 * msTicks ≤ s.now) then
    s.onChan n fun c => { c with coil := some s.now }
  else s

/-- An event of an endpoint executes at its tick (R111): it sets the state that ESC holds, drives a local channel, and is on
its way to its valve effect; for a local channel with a path also to the ground (R15, R16). Without a path it has no effect
(R21, R240). -/
def State.execute (ep : Nat) (e : PEvent) (s : State) : State :=
  let en := s.entry ep
  let was := (s.dyn ep).heldOn
  let s := s.onDyn ep fun d =>
    let d := d.without e.on
    if e.on then { d with heldOn := true, duty := e.duty.getD 1000, rate := e.rate, lastOn := some e.tick }
    else { d with heldOn := false, lastOff := some e.tick }
  let s := if isLocalEp ep then s.driveLocal ep e was else s
  let s := if s.hasPath ep && !en.feeder && !e.dropped then
      let s := s.addValve (e.valveEffect ep)
      if isLocalEp ep then s.addEffect (e.groundEffect ep) else s
    else s.dropEffect ep e.tick
  let s := if (s.dyn ep).owesOff then s.shut ep else s
  if (s.dyn ep).probe.isNone then s.applyWaiting ep else s

/-- A local event executes at its tick; a remote one, dispatched before, sets the held state at its tick (R111). -/
def execEscSlotExecute (dt ep : Nat) (s : State) : Answer :=
  let s := s.elapse dt
  .next (match (s.dyn ep).first (fun e => decide (e.tick ≤ s.now) && (isLocalEp ep || e.dispatched)) with
    | some e => s.execute ep e
    | none => s)

/-! ### The PWM grid of local endpoints (R107) -/

/-- Whether the first opening (or closing) at or after tick `a` of a grid falls at or before tick `b`. -/
def gridPasses (period offset a b : Nat) : Bool :=
  let k := if a ≤ offset then 0 else (a - offset + (period - 1)) / period
  decide (offset + k * period ≤ b)

/-- The latest instant of a grid at or before a tick. -/
def gridLast (period offset tick : Nat) : Nat := offset + (tick - offset) / max 1 period * period

/-- The output of a local PWM endpoint at its grid instants: it closes at the first close instant at or after t + duty x P,
t being its opening, and opens at the grid's openings (R107). -/
def State.gridEdge (n : Nat) (s : State) : State :=
  let ep := localBase + n
  let d := s.dyn ep
  let p := s.product (s.entry ep).product
  let per := p.pwmPeriod * 2000
  let off := phaseOf p (s.entry ep).phaseGroup * 2000
  let open_ := gridLast per off s.now
  if d.pwmOpen then
    let on := dutyUnits d.pwmDuty p.pwmPeriod * 2000
    if d.pwmDuty = 1000 then
      if gridPasses per off (d.pwmOpenTick + 1) s.now then s.onDyn ep fun d => { d with pwmOpenTick := open_, pwmDuty := d.duty }
      else s
    else if gridPasses per (off + on) (d.pwmOpenTick + on) s.now then
      (s.onDyn ep fun d => { d with pwmOpen := false, pwmOpenTick := gridLast per (off + on) s.now }).follow n false
    else s
  else if gridPasses per off (d.pwmOpenTick + 1) s.now then
    (s.onDyn ep fun x => { x with pwmOpen := x.duty != 0, pwmOpenTick := open_, pwmDuty := x.duty }).follow n false
  else s

def execPwmGridEdge (dt channel : Nat) (s : State) : Answer :=
  let s := s.elapse dt
  let ep := localBase + channel
  .next (s.when ((s.dyn ep).pwmRun && (s.product (s.entry ep).product).pwmPeriod != 0) (State.gridEdge channel))

/-! ### Effects -/

/-- An endpoint's valve effect (R16, R108): its width and rate join demand or leave it. -/
def State.valve (v : Effect) (s : State) : State :=
  let p := (s.entry v.ep).product
  let s := s.onDyn v.ep fun d =>
    if v.on then { d with inDemand := true, demandRate := v.rate, demandDuty := v.duty } else { d with inDemand := false }
  (s.onLca fun l =>
    { l with effHist := (p, v.tick, v.on, v.ep, v.delay) :: l.effHist.filter fun h => decide (s.now < h.2.1 + 11 * secTicks) }).refreshDemand

def execValveEffect (dt ep : Nat) (s : State) : Answer :=
  let s := s.elapse dt
  .next (match takeEffect ep s.now s.gle.valveQ with
    | some (v, rest) => (s.onGle fun g => { g with valveQ := rest }).valve v
    | none => s)

/-- A switch, or a new rate, reaches its effective time (R15, R127): the poses up to it are known once a pose epoch at or after it exists. -/
def execEffectiveSwitch (dt ep : Nat) (s : State) : Answer :=
  let s := s.elapse dt
  .next (match takeEffect ep (min s.now s.pse.cur.tick) s.gle.effQ with
    | some (v, rest) =>
      let s := s.onGle fun g => { g with effQ := rest }
      (if v.rateOnly then s.effectiveRate v else if v.on then s.effectiveOn v else s.effectiveOff v).armCheck
    | none => s)

end Sys2Proof.Machine
end

