-- ==== Sys2Proof/Machine/LoadSwitch.lean ====
section
/-! DEFINITION. The commands of LSB (09_load_switches.md). -/

namespace Sys2Proof.Machine

/-! ### DIRECT_SWITCH (R241-R243) -/

def parseSwitch (b : List Byte) : SwEntry :=
  { channel := wordAt b 0 1, op := wordAt b 1 1, value := wordAt b 2 2, value2 := wordAt b 4 2, context := wordAt b 6 1 }

/-- VALUE of an operation in range (R242). -/
def switchValue (op v : Nat) : Bool :=
  match op with
  | 2 => decide (v ≤ 1000)
  | 3 => decide (v ≤ 10000)
  | 4 => decide (v ≤ 1)
  | _ => v == 0

/-- VALUE2 of an operation in range (R242). -/
def switchValue2 (op v w : Nat) : Bool :=
  match op with
  | 2 => decide (50 ≤ w)
  | 3 => inRange 100 20000 w
  | 4 => if v = 0 then decide (50 ≤ w) else inRange 100 20000 w
  | _ => w == 0

/-- The checks of one operation whose bytes stand at `base` (R241, R242). -/
def State.switchChecks (s : State) (b : List Byte) (base : Nat) : List (Bool × Nat) :=
  let e := parseSwitch b
  [(s.chanExists e.channel, base), (decide (e.op ≤ 6) && (e.op != 3 || s.classH e.channel), base + 1),
    (switchValue e.op e.value && (e.op != 4 || e.value != 1 || s.classH e.channel), base + 2),
    (switchValue2 e.op e.value e.value2, base + 4),
    (if e.op = 4 then decide (1 ≤ e.context) && s.ctxExists e.context else e.context == 0, base + 6), (wordAt b 7 1 == 0, base + 7)]

/-- Checks that no channel is named twice: reported at the later CHANNEL byte. -/
def channelsOnce (base : Nat) : List (Nat × List Byte) → List Nat → List (Bool × Nat)
  | [], _ => []
  | e :: t, seen => (!seen.contains (wordAt e.2 0 1), base + e.1) :: channelsOnce base t (wordAt e.2 0 1 :: seen)

/-- A checked DIRECT_SWITCH waits for its tick (R243). -/
def State.switchWait (ring at_ : Nat) (index : Word) (es : List SwEntry) (s : State) : State :=
  let tick := if at_ ≤ s.now then (s.now / 2000 + 1) * 2000 else at_
  (s.onLsb fun l => { l with waits := l.waits ++ [{ ring, index, tick, entries := es }] }).startHead ring []

/-- The checks of an INDIRECT DIRECT_SWITCH's descriptor (R62, R241). -/
def State.switchIndirectChecks (s : State) (d : DescBits) : List (Bool × Nat) :=
  [flagCheck d 0x0A, (inRange 1 (Config.loadChannels s.part) (dLength d) && lengthFits d (8 + 8 * dLength d), 2)] ++
    indirectChecks d

/-- An INDIRECT DIRECT_SWITCH at the head of a ring whose buffer names an absent channel or context (R68): the offset. -/
def State.headAbsent (s : State) (ring : Nat) (buf : HostRead) : Option Nat :=
  match (s.ring ring).head, buf with
  | some d, .data b =>
    if s.ringRuns ring && d.opcode == 0x13 && dFlag d.desc 3 && (firstBad (s.switchIndirectChecks d.desc)).isNone then
      s.switchesAbsent 8 (slices (b.drop 8) 8 (dLength d.desc))
    else none
  | _, _ => none

/-- A DIRECT_SWITCH whose buffer names what the member lacks ends at the head, whatever holds it (R68); any other starts. -/
def execDirectSwitch (dt ring : Nat) (buf : HostRead) (s : State) : Answer :=
  let s := s.elapse dt
  .next (match (if ring < 16 then s.headAbsent ring buf else none) with
  | some o => s.endHead ring stBadParam o
  | none => s.runDesc ring 0x13 fun d s =>
    let n := dLength d.desc
    let near (t : Nat) : Bool := decide (t ≤ s.now + 2 ^ 32)
    if dFlag d.desc 3 then
      s.checked ring (s.switchIndirectChecks d.desc) fun s =>
        s.withBuffer ring buf fun b s =>
          let es := slices (b.drop 8) 8 n
          s.checked ring ((near (wordAt b 0 8), 0) :: ((es.flatMap fun e => s.switchChecks e.2 (8 + e.1)) ++ channelsOnce 8 es [])) fun s =>
            s.switchWait ring (wordAt b 0 8) d.index (es.map fun e => parseSwitch e.2)
    else
      let es := slices (dBytes d.desc 24 40) 8 (min 5 n)
      s.checked ring ([flagCheck d.desc 0x02, (inRange 1 5 n, 2), (near (dfield d.desc 16 8), 16)] ++
          ((es.flatMap fun e => s.switchChecks e.2 (24 + e.1)) ++ channelsOnce 24 es [])) fun s =>
        s.switchWait ring (dfield d.desc 16 8) d.index (es.map fun e => parseSwitch e.2))

/-- The context an earlier entry of the same descriptor binds. -/
def boundIn (c : Nat) (es : List SwEntry) : Bool := es.any fun e => e.op == 4 && e.context == c

/-- An operation is refused (R242, R256, R288). A BIND is no re-claim. -/
def State.switchDenied (s : State) (e : SwEntry) : Bool :=
  let c := s.chan e.channel
  if e.op = 6 then false
  else match c.holding with
    | .escapement => true
    | .regulator => e.op != 0
    | _ => e.op == 4 && (c.isKept || (s.ctx e.context).bound.isSome || (s.ctx e.context).remote)

/-- A channel leaves its context (R242). -/
def State.unbind (n : Nat) (s : State) : State :=
  let c := s.chan n
  if c.holding = .regulator then
    (s.onCtx c.context fun x => { x with bound := none, tgtLost := false }).onChan n fun c => { c with holding := .direct, context := 0 }
  else s

/-- What a context gives its target now: its output, or SAFE_OUT while it is disabled (R292). -/
def State.ctxOut (s : State) (c : Nat) : Int := if (s.ctx c).enable && s.powered 6 then (s.ctx c).y else s.safeOut c

/-- A channel passes to a context (R242, R288). -/
def State.bind (e : SwEntry) (s : State) : State :=
  let s := (s.onCtx e.context fun x => { x with bound := some e.channel }).onChan e.channel fun c =>
    { c with holding := .regulator, context := e.context, bindCurrent := e.value == 1, bindArg := e.value2 }
  (s.command e.channel (boundCmd (e.value == 1) e.value2 (s.ctxOut e.context))).noteTarget e.context

/-- CLEAR in the cycle of a new trip loses (R9, R243); a cycle has `span` ticks. -/
def State.clearUnless (span n : Nat) (s : State) : State :=
  if (s.chan n).tripTick.map (· / span) = some (s.now / span) then s else s.clearChan n

/-- One accepted operation takes effect (R242). -/
def State.applySwitch (s : State) (e : SwEntry) : State :=
  let n := e.channel
  match e.op with
  | 0 => ((s.reclaim n).unbind n).command n .off
  | 1 => (s.reclaim n).command n .on
  | 2 => (s.reclaim n).command n (.pwm e.value e.value2)
  | 3 => (s.reclaim n).command n (.current e.value e.value2)
  | 4 => s.bind e
  | 5 => s.reclaim n
  | _ => s.clearUnless 1 n

/-- The first refused entry, an earlier BIND to the same context counting. -/
def State.firstDenied (s : State) : List SwEntry → List SwEntry → Option SwEntry
  | _, [] => none
  | done, e :: t => if s.switchDenied e || (e.op == 4 && boundIn e.context done) then some e else s.firstDenied (e :: done) t

/-- A waiting DIRECT_SWITCH executes: all its entries or none (R243). -/
def State.switchNow (w : SwWait) (s : State) : State :=
  let s := s.onLsb fun l => { l with waits := l.waits.erase w }
  match s.firstDenied [] w.entries with
  | some e => s.claimDenied.finishAt w.ring w.index stClaimDenied e.channel 0
  | none => (w.entries.foldl State.applySwitch s).finishAt w.ring w.index stOk w.entries.length 0

/-- The waiting DIRECT_SWITCH of a ring with the earliest tick. -/
def Lsb.earliestWait (l : Lsb) (ring : Nat) : Option SwWait :=
  match l.waits.filter fun w => w.ring == ring with
  | [] => none
  | h :: t => some (t.foldl (fun b w => if w.tick < b.tick then w else b) h)

def execDirectSwitchExecute (dt ring : Nat) (s : State) : Answer :=
  let s := s.elapse dt
  .next (match s.lsb.earliestWait ring with
    | some w => s.when (decide (w.tick ≤ s.now)) (State.switchNow w)
    | none => s)

/-! ### Trips (R247-R250) -/

/-- Inrush and current limit, hard-short level and continuous current by class, mA (R238). -/
def State.inrushLimit (s : State) (n : Nat) : Nat := if s.classH n then 60000 else 20000
def State.hardShort (s : State) (n : Nat) : Nat := if s.classH n then 180000 else 60000
def State.continuousMa (s : State) (n : Nat) : Nat := if s.classH n then 10000 else 3000

/-- A channel that a trip can cut: present, armed, on, its bank supplied. -/
def State.canTrip (s : State) (n : Nat) : Bool :=
  s.chanExists n && (s.chan n).prot == .armed && (s.chan n).out && s.supplied (s.bankOf n)

/-- The channel's inrush window has been over for `ticks` (R244, R247). -/
def State.pastInrush (s : State) (n ticks : Nat) : Bool :=
  let c := s.chan n
  !c.inrush && decide (c.inrushTick + (s.chNv n).inrushMs * msTicks + ticks ≤ s.now)

/-- A trip while the keeper holds: latched out until a re-claim and a CLEAR (R255). -/
def State.keeperTripped (n bit : Nat) (s : State) : State :=
  let s := s.onChan n fun c =>
    { c with faults := setFlag (setFlag c.faults s.cycle bit) s.cycle 6, trips := count32 c.trips, prot := .latched,
             keepTripped := true, tripTick := some s.now }
  let s := ((s.turnOff n).raise (288 + n)).record 0x0701 n [(0, w32 bit)]
  s.latchOut n |>.lsbFault 5 325

/-- A trip of a channel, the keeper's or not. -/
def State.tripAny (n bit : Nat) (s : State) : State :=
  if (s.chan n).keepTick.isSome then s.keeperTripped n bit else s.trip n bit

/-- A channel that regulates its current runs at 100 % duty (R246): five periods after it came on or its setpoint changed,
its current is short of the setpoint by more than the accuracy. -/
def Channel.isShort (c : Channel) (tick milliamp : Nat) : Bool :=
  match c.cmd with
  | .current ma hz => c.out && decide (max c.onTick c.setTick + 5 * secTicks / max 1 hz ≤ tick) && decide (milliamp + max (ma / 100) 20 < ma)
  | _ => false

/-- A new current sample (R246, R251). -/
def State.sample (n milliamp : Nat) (s : State) : State :=
  s.onChan n fun c => { c with sense := s.senseCode n milliamp, sat := c.isShort s.now milliamp }

/-- The mean sensed current of a millisecond's samples, mA (R248, R251). -/
def State.meanSensed (s : State) (n : Nat) (milliamps : List Int) : Nat :=
  (milliamps.map fun m => s.senseCode n m.toNat).sum * s.senseLsb n / max 1 milliamps.length

/-- A millisecond's current samples: the last one stands in LSB_CH_CURRENT (R246, R251). -/
def State.sampled (n : Nat) (milliamps : List Int) (s : State) : State :=
  s.onChan n fun c =>
    { c with sense := (milliamps.getLast?.map fun m => s.senseCode n m.toNat).getD c.sense
             sat := c.isShort s.now (s.meanSensed n milliamps) }

/-- HARD_SHORT: current above the class level (R247). -/
def execHardShortTrip (dt channel milliamp : Nat) (s : State) : Answer :=
  let s := s.elapse dt
  .next (s.when (s.canTrip channel && decide (s.hardShort channel < milliamp)) fun s =>
    (((s.sample channel milliamp).tripAny channel 0).heat channel))

/-- LIMIT: current held at the inrush limit for 200 µs outside the window (R247). -/
def execLimitTrip (dt channel : Nat) (current : HeldCurrent) (s : State) : Answer :=
  let s := s.elapse dt
  .next (s.when (s.canTrip channel && s.pastInrush channel (200 * usTicks) && (s.chan channel).keepTick.isNone &&
      decide (s.inrushLimit channel ≤ current.milliamp) && decide (200 ≤ current.us)) fun s =>
    (((s.sample channel current.milliamp).trip channel 1).heat channel))

/-- LATCH_TRIP: current at or above LATCH_MA for BLANK_MS in LATCH mode (R247). -/
def execLatchTrip (dt channel : Nat) (current : HeldCurrent) (s : State) : Answer :=
  let s := s.elapse dt
  let blank := (s.chNv channel).blankMs
  .next (s.when (s.canTrip channel && !(s.chNv channel).curveMode && s.pastInrush channel (blank * msTicks) &&
      (s.chan channel).keepTick.isNone && decide (s.latchMa channel ≤ current.milliamp) && decide (1000 * blank ≤ current.us)) fun s =>
    (s.sample channel current.milliamp).trip channel 2)

/-- OVERTEMP: 175 °C or more (R247). -/
def execOvertempTrip (dt channel : Nat) (celsius : Int) (s : State) : Answer :=
  let s := s.elapse dt
  .next (s.when (s.chanExists channel && (s.chan channel).prot == .armed && decide (175 ≤ celsius)) fun s =>
    (s.onChan channel fun c => { c with tempC := celsius, hot := true }).tripAny channel 4)

/-- A channel's temperature (R247, R258): one that an OVERTEMP trip cut may be on again at 150 °C. -/
def State.chanTemp (n : Nat) (celsius : Int) (s : State) : State :=
  let back := (s.chan n).hot && decide (celsius ≤ 150)
  let s := s.onChan n fun c => { c with tempC := celsius, hot := c.hot && decide (150 < celsius) }
  if back && (s.chan n).prot == .armed then s.chanBack n else s

/-- A millisecond of a channel's wire model (R248), with CURVE_TRIP (R247). -/
def State.wireUpdate (n milliamp : Nat) (s : State) : State :=
  let wire := (s.chNv n).wire
  let s := s.onChan n fun c => { c with theta := thetaNext wire c.theta milliamp }
  if (s.chNv n).curveMode && s.canTrip n && decide (s.thetaRoom n ≤ ((s.chan n).theta : Int)) then s.trip n 3 else s

/-- A millisecond's current samples, the channel's and the module's temperature, and but for a channel in the keeper's hold
the wire model's step (R248, R251, R255). -/
def State.wireMs (n : Nat) (milliamps : List Int) (celsius moduleC : Int) (s : State) : State :=
  let s := (s.onLsb fun l => { l with moduleC }).onChan n fun c => { c with wireTick := c.wireTick + msTicks }
  let s := (s.sampled n milliamps).chanTemp n celsius
  if (s.chan n).keepTick.isNone then s.wireUpdate n (s.meanSensed n milliamps) else s

def execWireModelUpdate (dt channel : Nat) (milliamps : List Int) (celsius : Temperatures) (s : State) : Answer :=
  let s := s.elapse dt
  .next (s.when (s.chanExists channel && s.powered 7 && decide ((s.chan channel).wireTick + msTicks ≤ s.now))
    (State.wireMs channel milliamps celsius.channel celsius.module_))

/-- A tripped channel has cooled and its holder commands it on: it retries (R249). -/
def State.mayRetry (s : State) (n : Nat) : Bool :=
  let c := s.chan n
  c.prot == .tripped && decide (2 * (c.theta : Int) ≤ s.thetaRoom n) && decide (c.tempC ≤ 150) && s.holderOn n && c.keepTick.isNone &&
    s.supplied (s.bankOf n)

def execCurveRetry (dt channel : Nat) (s : State) : Answer :=
  .next ((s.elapse dt).when ((s.elapse dt).mayRetry channel) fun s =>
    (s.onChan channel fun c => { c with prot := .armed, retriesUsed := c.retriesUsed + 1, onTick := s.now }).chanBack channel)

/-- 60 s of running on without a trip restore the retries (R249). -/
def execRetryRestore (dt channel : Nat) (s : State) : Answer :=
  let s := s.elapse dt
  let c := s.chan channel
  .next (s.when (c.prot == .armed && c.out && c.retriesUsed != 0 && decide (c.onTick + 60 * secTicks ≤ s.now)) fun s =>
    s.onChan channel fun c => { c with retriesUsed := 0 })

/-- The bank supervisor on an overload (R250): it cuts what is over its own limit, or warns. -/
def State.overload (b : Nat) (ma : List (Nat × Nat)) (s : State) : State :=
  let s := ma.foldl (fun s m => if s.chanExists m.1 then s.sample m.1 m.2 else s) s
  let beyond := (s.bankChans b).filter fun n =>
    s.canTrip n && (s.chan n).keepTick.isNone && s.overLimit n (Tbl.get 0 ma n)
  match beyond with
  | [] => s.lsbFault 4 324
  | _ => beyond.foldl (fun s n => s.trip n 5) s

/-- A bank of the member in service. -/
def State.bankRuns (s : State) (b : Nat) : Bool := s.bankOn b && (b == 0 || (b == 1 && Config.loadChannels s.part == 32))

/-- A bank is overloaded (R250): more than 100 A (A) or 200 A (B) for 1 ms, or the power die at 150 °C. -/
def State.isOverload (s : State) (b : Nat) (load : BankLoad) : Bool :=
  let sum := ((s.bankChans b).map fun n => Tbl.get 0 load.milliamps n).sum
  (decide ((if b = 0 then 100000 else 200000) < sum) && decide (1000 ≤ load.us)) || decide (150 ≤ load.dieC)

def execBankOverload (dt bank : Nat) (load : BankLoad) (s : State) : Answer :=
  let s := s.elapse dt
  .next (s.when (s.bankRuns bank && s.isOverload bank load) (State.overload bank load.milliamps))

/-- The supply of a bank by its number. -/
def bankSupply (b : Nat) : Supply := if b = 0 then .bankA else .bankB

/-- A dip of a bank's supply (R250): below half its mean over the last second for 10 µs. -/
def execBankDip (dt : Nat) (sag : BankSag) (s : State) : Answer :=
  let s := s.elapse dt
  .next (s.when (s.bankRuns sag.bank && decide (2 * sag.vbat10mV < sag.mean10mV) && decide (10 ≤ sag.us)) fun s =>
    ((s.onLsb fun l => l.setVbat (bankSupply sag.bank) sag.vbat10mV).lsbFault 3 323).record 0x0702 sag.bank [])

/-! ### Windows and indications -/

/-- The inrush window ends (R244). -/
def execInrushEnd (dt channel : Nat) (s : State) : Answer :=
  let s := s.elapse dt
  let c := s.chan channel
  .next (s.when (c.inrush && decide (c.inrushTick + (s.chNv channel).inrushMs * msTicks ≤ s.now)) fun s =>
    s.onChan channel fun c => { c with inrush := false })

/-- Pull-in ends: the channel switches at its hold duty (R245). -/
def execPullinEnd (dt channel : Nat) (s : State) : Answer :=
  let s := s.elapse dt
  let c := s.chan channel
  .next (s.when (c.pullin && c.out && decide (c.pullinTick + c.pullinTime * msTicks ≤ s.now)) fun s =>
    s.onChan channel fun c => { c with pullin := false, hold := true })

/-- The state an indication belongs to: 0 OPEN_ON, 1 OPEN_OFF, 2 SHORT_BAT (R252). -/
def State.canIndicate (s : State) (n kind : Nat) : Bool :=
  let c := s.chan n
  let offLong := !c.out && decide (c.offTick + 5 * msTicks ≤ s.now)
  match kind with
  | 0 => c.out && s.pastInrush n 0
  | 1 => offLong && c.offDiag
  | _ => offLong && !c.offDiag

/-- The measured condition of an indication (R252): the mean current in mA, or the output's voltage in 10 mV. -/
def State.indicates (s : State) (n kind : Nat) (value : Int) : Bool :=
  let vbat := Tbl.get 0 s.lsb.vbat (s.bankOf n)
  match kind with
  | 0 => decide (value < 10 * ((s.chan n).openOnMa : Int))
  | 1 => decide (6 * vbat < 10 * value)
  | _ => decide (vbat - 200 < value)

/-- An indication's state and condition have stood for its time: 10 ms on, or 2 ms off (R252). -/
def State.indicatesLong (s : State) (n kind heldUs : Nat) : Bool :=
  let c := s.chan n
  match kind with
  | 0 => decide (10000 ≤ heldUs) && s.pastInrush n (10 * msTicks) && decide (c.onTick + 10 * msTicks ≤ s.now)
  | _ => decide (2000 ≤ heldUs) && decide (c.offTick + 7 * msTicks ≤ s.now)

/-- An indication as the channel holds it. -/
def Channel.indication (c : Channel) (kind : Nat) : Bool :=
  match kind with
  | 0 => c.openOn
  | 1 => c.openOff
  | _ => c.shortBat

def Channel.setIndication (c : Channel) (kind : Nat) (v : Bool) : Channel :=
  match kind with
  | 0 => { c with openOn := v }
  | 1 => { c with openOff := v }
  | _ => { c with shortBat := v }

/-- A measurement for an indication (R252): the indication appears, with its fault bit, once its condition has stood for
its time, and goes where the condition does not hold. -/
def State.indicate (n kind : Nat) (value : Int) (heldUs : Nat) (s : State) : State :=
  if s.indicates n kind value then
    if s.indicatesLong n kind heldUs && !(s.chan n).indication kind then
      (s.onChan n fun c =>
        { (c.setIndication kind true) with faults := setFlag c.faults s.cycle (if kind = 2 then 9 else 8) }).raise (288 + n)
    else s
  else s.onChan n fun c => c.setIndication kind false

def execOpenLoadIndication (dt channel kind : Nat) (probe : LoadProbe) (s : State) : Answer :=
  let s := s.elapse dt
  .next (s.when (s.chanExists channel && s.powered 7 && decide (kind ≤ 2) && s.canIndicate channel kind) fun s =>
    (s.onLsb fun l => l.setVbat (bankSupply (s.bankOf channel)) probe.vbat10mV).indicate channel kind probe.value probe.us)

/-! ### Supplies (R253, R254) -/

/-- The bank of a supply exists on the member. -/
def State.supplyExists (s : State) (p : Supply) : Bool :=
  match p with
  | .bankB => Config.loadChannels s.part == 32
  | _ => true

/-- A supply leaves its range, 10 mV (R253). -/
def cutLevel (p : Supply) (v : Int) : Bool :=
  match p with
  | .pgnd => true
  | _ => decide (3900 < v) || decide (v < 600)

def execBankCutoff (dt : Nat) (supply : Supply) (vbat10mV : Int) (s : State) : Answer :=
  let s := s.elapse dt
  .next (s.when (s.supplyExists supply && cutLevel supply vbat10mV) fun s =>
    let s := s.onLsb fun l => (l.setVbat supply vbat10mV).noteLevel supply vbat10mV
    if s.lsb.isCut supply then s else s.supplyCut supply)

/-- A supply that has been stable for 10 ms returns once each cut has met its return level (R253). -/
def execBankReturn (dt : Nat) (supply : Supply) (vbat : StableVolt) (s : State) : Answer :=
  let s := s.elapse dt
  .next (s.when (s.supplyExists supply && s.lsb.isCut supply && decide (10 ≤ vbat.ms)) fun s =>
    let s := s.onLsb fun l => (l.setVbat supply vbat.vbat10mV).noteLevel supply vbat.vbat10mV
    if s.lsb.levelOk supply then s.supplyReturn supply else s)

/-- VBAT below -1 V: the bank is cut, and every channel of it is driven on in reverse; the reverse current reads 0
(R251, R253, R254). -/
def State.reverse (b : Nat) (v : Int) (s : State) : State :=
  let p := bankSupply b
  let s := s.onLsb fun l => (l.setVbat p v).noteLevel p v
  let s := if s.lsb.isCut p then s else s.supplyCut p
  let s := s.onLsb fun l => { l with reversed := Tbl.set false l.reversed b true }
  (s.bankChans b).foldl (fun s n => s.onChan n fun c => { c with out := true, sense := 0 }) s

def execReverseBattery (dt bank : Nat) (vbat10mV : Int) (s : State) : Answer :=
  let s := s.elapse dt
  .next (s.when (decide (vbat10mV < -100) && (bank == 0 || (bank == 1 && Config.loadChannels s.part == 32))) (State.reverse bank vbat10mV))

/-- HOST_C not written for 10 s gives way to the module temperature (R248). -/
def execAmbientStale (dt : Nat) (s : State) : Answer :=
  let s := s.elapse dt
  .next (s.when (s.nv.ambHost && !s.lsb.hostCStale && s.powered 7 && decide (s.lsb.hostCTick + 10 * secTicks ≤ s.now)) fun s =>
    (s.onLsb fun l => { l with hostCStale := true }).lsbFault 7 327)

/-! ### The keeper (R255, R256) -/

/-- A keeper's hold runs out without a re-claim; its clock may be 5 % fast. -/
def execKeeperExpiry (dt channel : Nat) (s : State) : Answer :=
  let s := s.elapse dt
  .next (match (s.chan channel).keepTick with
    | some t => s.when (decide (t + (s.chNv channel).keep10ms * 1900000 ≤ s.tbu.wall)) (State.keeperEnds channel)
    | none => s)

/-- The keeper's fixed trip: 1.5 x the continuous current for 10 ms. -/
def execKeeperTrip (dt : Nat) (load : ChannelCurrent) (s : State) : Answer :=
  let s := s.elapse dt
  let n := load.channel
  let ma := load.current.milliamp
  .next (s.when ((s.chan n).keepTick.isSome && s.canTrip n && decide (3 * s.continuousMa n ≤ 2 * ma) &&
      decide (10000 ≤ load.current.us)) fun s => (s.sample n ma).keeperTripped n 6)

/-- A bank's keeper loses its supply below 4.0 V: its holds end for good. -/
def State.keeperDies (b : Nat) (s : State) : State :=
  let s := s.onLsb fun l => { l with keeperDead := Tbl.set false l.keeperDead b true }
  ((s.bankChans b).filter fun n => (s.chan n).keepTick.isSome).foldl (fun s n => s.keeperEnds n) s

/-- So low a supply is an undervoltage as well: a bank that is not cut off yet is cut off (R253, R256). -/
def execKeeperSupplyLoss (dt : Nat) (vbat : BankVolt) (s : State) : Answer :=
  let s := s.elapse dt
  let p := bankSupply vbat.bank
  .next (s.when (s.supplyExists p && decide (vbat.bank ≤ 1) && decide (vbat.vbat10mV < 400)) fun s =>
    let s := s.onLsb fun l => (l.setVbat p vbat.vbat10mV).noteLevel p vbat.vbat10mV
    (if s.lsb.isCut p then s else s.supplyCut p).keeperDies vbat.bank)

/-! ### Registers and PWM -/

/-- A write of LSB_CLEAR: CLEAR of each channel named (R242, R258). -/
def State.lsbClear (v : Word) (s : State) : State :=
  ((List.range (Config.loadChannels s.part)).filter fun n => bit v n).foldl (fun s n => s.clearUnless 2 n) s

def execLsbClearWrite (dt : Nat) (value : Word) (s : State) : Answer :=
  .next ((s.elapse dt).when (s.hostTo 7) (State.lsbClear value))

/-- A channel under PWM at its edges (R242, R288): each period opens at its edge, with a duty that waited for it. -/
def State.pwmEdge (n : Nat) (s : State) : State :=
  match (s.chan n).cmd with
  | .pwm d p =>
    let per := max 1 p * usTicks
    let s := if (s.chan n).pwmTick + per ≤ s.now then
        s.onChan n fun c =>
          { c with pwmTick := c.pwmTick + (s.now - c.pwmTick) / per * per, cmd := .pwm (c.nextDuty.getD d) p, nextDuty := none }
      else s
    s.follow n false
  | _ => s

def execChannelPwmEdge (dt channel : Nat) (s : State) : Answer :=
  .next ((s.elapse dt).when (s.chanExists channel) (State.pwmEdge channel))

end Sys2Proof.Machine
end

