-- ==== Sys2Proof/Machine/TimeOps.lean ====
section
/-! DEFINITION. The balance: steering, steps and slews, loss of a source, TIME_EVENT (02_time_and_order.md). -/

namespace Sys2Proof.Machine

/-- The TIME_EVENT report (R48) with the state and source before the event and the calendar times it names. -/
def State.timeEvent (code oldState oldSource oldCal newCal : Nat) (s : State) : State :=
  s.report 0x4E 0 s.now
    [fld 16 1 code, fld 17 1 (s.tbu.tqual s.now), fld 18 1 oldState, fld 19 1 oldSource, fld 20 8 oldCal, fld 28 8 newCal,
     fld 36 4 (s.tbu.uncAt s.now), sfld 40 2 s.tbu.utcOffset]

/-- A TIME_EVENT of a code that moves no calendar time (R48). -/
def State.timeNote (code : Nat) (old : Tbu) (s : State) : State :=
  s.timeEvent code old.bal.code old.source s.cal s.cal

/-- The balance's state or source has changed from `old`: each raises its source and emits its event (R34, R47, R48). -/
def State.noteBalance (old : Tbu) (s : State) : State :=
  let b := s.tbu
  let s := if old.bal = b.bal then s else (s.raise 465).timeNote 1 old
  if old.source = b.source then s else (s.raise 470).timeNote 5 old

/-- The balance takes a state and a source, with the events of the change (R34). -/
def State.setBalance (b : BalState) (source : Nat) (s : State) : State :=
  (s.onTbu fun t => { t with bal := b, source }).noteBalance s.tbu

/-- A source steers: LOCKED, with its uncertainty (R34, R35). -/
def Tbu.locked (t : Tbu) (source unc : Nat) (utc : Option Int) : Tbu :=
  { t with srcUnc := unc, noTest := false, bal := .locked, source,
           utcOffset := if t.utcFromGnss then t.utcOffset else utc.getD t.utcOffset,
           utcValid := t.utcValid || utc.isSome }

/-- The balance leaves LOCKED: u_lock is the value at loss of the source (R34, R35). -/
def State.unlock (b : BalState) (s : State) : State :=
  let s := if s.tbu.bal = .locked then
      s.onTbu fun t => { t with srcUnc := t.uncAt s.now, lossTick := s.now }
    else s
  s.setBalance b s.tbu.source

/-- The balance enters FREERUN; HOLD_EXPIRED and HOLD_LIMIT where HOLDOVER ends in it (R34, R47, R49). -/
def State.enterFreerun (s : State) : State :=
  if s.tbu.bal = .holdover then
    ((s.onTbu fun t => { t with status := setFlag t.status s.cycle 2 }).raise 468).setBalance .freerun s.tbu.source
  else s.unlock .freerun

/-- The steering source of code 2 or above is lost while LOCKED: HOLDOVER (R34). -/
def State.loseSource (source : Nat) (s : State) : State :=
  if s.tbu.bal = .locked ∧ s.tbu.source = source then s.unlock .holdover else s

/-- A slew ends now, with its report (R37, R40). -/
def State.endSlew (s : State) : State :=
  if s.tbu.slewEnd.isSome then
    let old := s.tbu
    ((s.onTbu fun t => { (t.rebase s.now) with slew := 0, slewEnd := none }).raise 467).timeNote 4 old
  else s

/-- A slew of the error `d` starts: at most SLEW_MAX until d is zero (R37). `old`: the balance before the event. -/
def State.startSlew (d : Int) (old : Tbu) (s : State) : State :=
  if d = 0 then s.endSlew
  else
    let m := max 1 s.tbu.slewMax
    let s := s.onTbu fun t =>
      { (t.rebase s.now) with slew := if 0 < d then -(m : Int) else m,
                              slewEnd := some (s.now + (d.natAbs * secTicks + m - 1) / m) }
    if old.slewEnd.isSome then s else (s.raise 467).timeNote 3 old

/-- Running descriptors complete with one status (R42, R46). -/
def State.finishAll (status detail : Nat) : List (Nat × Word) → State → State
  | [], s => s
  | w :: t, s => State.finishAll status detail t (s.finishAt w.1 w.2 status detail 0)

/-- The error d = local - true of a true calendar time at a tick given as its excess on 5 ns x tick (R37). -/
def State.timeError (s : State) (off : Int) : Int := s.tbu.calAt s.now - (off + 5 * s.now)

/-- A source steers under R37: a slew at once, or a step at a second instant. `waiter` is the TIME_SET that asked. -/
def State.steer (source : Nat) (off : Int) (unc : Nat) (utc : Option Int) (jump : Bool) (waiter : Option (Nat × Word))
    (s : State) : State :=
  let d := s.timeError off
  let old := s.tbu.pend
  let lost : List (Nat × Word) := match old with
    | some p => if source = 3 ∧ p.source = 1 then p.waiters ++ p.losers else p.losers
    | none => []
  let kept : List (Nat × Word) := match old with
    | some p => if source = 3 ∧ p.source = 1 then [] else p.waiters
    | none => []
  let asks := kept ++ waiter.toList
  if s.tbu.calValid = false then
    s.onTbu fun t => { t with pend := some { d := off, source, unc, first := true, utc, waiters := asks, losers := lost } }
  else if d.natAbs ≤ s.tbu.stepThresh * 1000 ∧ jump = false then
    let s := s.onTbu fun t => { t with pend := none }
    let was := s.tbu
    let s := ((s.onTbu fun t => t.locked source unc utc).startSlew d was).noteBalance was
    (s.finishAll stAborted 3 lost).finishAll stOk 0 asks
  else
    s.onTbu fun t =>
      { t with pend := some { d, source, unc, first := false, jump, utc, waiters := asks, losers := lost } }

/-- Calendar time steps and its source steers (R34, R37, R39, R40): the record precedes the report (R32), and the event's
reports carry the quality and the uncertainty after all of it (R48; assumption log 148). -/
def State.applyStep (p : PendStep) (s : State) : State :=
  let old := s.tbu
  let oldCal := s.cal
  let new : Int := if p.first then p.d + 5 * s.now else s.tbu.calAt s.now - p.d
  let s := s.endSlew
  let s := s.onTbu fun t =>
    { t.locked p.source p.unc p.utc with
      calValid := true, calBase := new, calTick := s.now, stepTick := some s.now, pend := none, ppsStepNext := true }
  let newCal := s.cal
  let s := s.record 0x0101 p.source
    [(0, w32 oldCal), (1, w32 (oldCal / 2 ^ 32)), (2, w32 newCal), (3, w32 (newCal / 2 ^ 32))]
  let s := (s.raise 466).timeEvent 2 old.bal.code old.source oldCal newCal
  let s := if p.jump then s.timeEvent 6 old.bal.code old.source oldCal newCal else s
  ((s.noteBalance old).finishAll stAborted 3 p.losers).finishAll stOk 0 p.waiters

/-! ### GNSS and ring time -/

/-- A run of suspect times is discarded (R41). -/
def State.rejectRun (s : State) : State :=
  if s.tbu.suspect.isSome then
    let old := s.tbu
    ((s.onTbu fun t => { t with suspect := none }).raise 469).timeNote 7 old
  else s

/-- The test of R41 applies: HOLDOVER or FREERUN, last source of code 2 or above, not after a RELEASE. -/
def Tbu.tests (t : Tbu) : Bool := t.calValid && t.bal != .locked && decide (2 ≤ t.source) && !t.noTest

/-- A step to GNSS time waits for its second instant. -/
def Tbu.gnssStep (t : Tbu) : Bool := match t.pend with | some p => p.source == 3 | none => false

/-- A suspect GNSS time joins or starts a run; ten in agreement over 10 s end it, and with it the suspicion of their frequency
(R41, R193). -/
def State.suspectTime (off : Int) (unc : Nat) (drift : Int) (s : State) : State :=
  let s := s.onTbu fun t => { t with gnssValid := false, status := setFlag t.status s.cycle 3 }
  let fresh : SuspectRun := { offset := off, count := 1, startTick := s.now, lastTick := s.now }
  match s.tbu.suspect with
  | none => s.onTbu fun t => { t with suspect := some fresh }
  | some r =>
    if 1000 < (off - r.offset).natAbs then
      s.rejectRun.onTbu fun t => { t with suspect := some fresh }
    else
      let r' := { r with count := r.count + 1, lastTick := s.now }
      if 10 ≤ r'.count ∧ r.startTick + 10 * secTicks ≤ s.now then
        ((s.onTbu fun t =>
          { (t.rebase s.now) with suspect := none, gnssValid := true, freq := -drift, freqMeasured := true }).raise 469).steer 3 off unc none true none
      else s.onTbu fun t => { t with suspect := some r' }

/-- A GNSS time solution reaches TBU (R33, R37, R41, R185, R193). `marked`: a CLOCK or DOPPLER check failed, and the time is not
valid: R41 decides whether it is later accepted; `drift` is the TCXO's frequency error as measured, ppb. -/
def State.gnssTime (off : Int) (unc : Nat) (drift : Int) (marked : Bool) (s : State) : State :=
  let s := if marked then s else s.onTbu fun t => { (t.rebase s.now) with freq := -drift, freqMeasured := true }
  if marked && !s.tbu.tests then
    (s.onTbu fun t => { t with gnssValid := false }).loseSource 3
  else if s.tbu.hostForced then s.onTbu fun t => { t with gnssValid := !marked }
  else if s.tbu.gnssStep then
    s.onTbu fun t => { t with gnssValid := true }
  else if s.tbu.tests && (marked || decide (s.tbu.uncAt s.now + s.tbu.stepThresh * 1000 < (s.timeError off).natAbs)) then
    s.suspectTime off unc drift
  else
    let s := s.rejectRun.onTbu fun t => { t with gnssValid := true }
    s.steer 3 off unc none false none

/-- GNSS has no time solution: it is no valid source (R33, R34). -/
def State.gnssNoTime (s : State) : State := (s.onTbu fun t => { t with gnssValid := false }).loseSource 3

/-- The time master's time reaches TBU as source RING (R33, R230): it steers unless a source of higher code is valid. -/
def State.ringTime (off : Int) (unc : Nat) (s : State) : State :=
  let s := s.onTbu fun t => { t with ringValid := true }
  if s.tbu.hostForced || s.tbu.gnssValid then s
  else s.steer 2 off unc none false none

/-- The ring source is no longer valid (R33, R34). -/
def State.ringNoTime (s : State) : State := (s.onTbu fun t => { t with ringValid := false }).loseSource 2

/-- The leap second decoded from GNSS sets the UTC offset (R46, R187). -/
def State.leapSecond (v : Int) (s : State) : State :=
  s.onTbu fun t => { t with utcOffset := v, utcValid := true, utcFromGnss := true }

end Sys2Proof.Machine
end

