-- ==== Sys2Proof/Machine/Time.lean ====
section
/-! DEFINITION. The commands of TBU: reads that latch, second instants, TIME_SET, operating time
(02_time_and_order.md). -/

namespace Sys2Proof.Machine

/-! ### Reads that latch -/

/-- A read of TBU_TICK_LO captures tick, calendar time, uncertainty and state into the read shadows (R26). -/
def execTickLoRead (dt : Nat) (s : State) : Answer :=
  .next ((s.elapse dt).when s.hostUp fun s =>
    (s.onTbu fun t =>
      { t with shTick := t.tick, shCal := t.calField t.tick, shUnc := w32 (t.uncAt t.tick),
               shState := pack [(0, 8, t.tqual t.tick), (8, 16, toTwos 16 t.utcOffset), (24, 1, b2n t.utcValid)] }).readOut
      (w32 s.tbu.tick))

/-- A read of TBU_OPTIME_LO latches the HI word (R49, R391). -/
def execOptimeLoRead (dt : Nat) (s : State) : Answer :=
  .next ((s.elapse dt).when s.hostUp fun s =>
    (s.onTbu fun t => { t with optimeHi := t.optime / 2 ^ 32 }).readOut (w32 s.tbu.optime))

/-! ### Clocks and counts -/

/-- The PLL locks: device ticks count from here, or count on (R24). -/
def execPllLock (dt : Nat) (s : State) : Answer :=
  .next ((s.elapse dt).when s.prs.running fun s =>
    (s.onTbu fun t => { t with pllLocked := true }).onPrs fun p => { p with clockLost := false })

/-- Operating time increases by 1 every 0.1 s of device ticks (R28). -/
def execOptimeTick (dt : Nat) (s : State) : Answer :=
  let s := s.elapse dt
  .next (s.when (s.prs.running && decide (s.tbu.optimeTick + 100 * msTicks ≤ s.now)) fun s =>
    s.onTbu fun t => { t with optime := (t.optime + 1) % 2 ^ 40, optimeTick := t.optimeTick + 100 * msTicks })

/-- Operating time goes to the MRAM (R28, R342). -/
def State.persistOptime (s : State) : State := s.onNv fun n => { n with optime := s.tbu.optime }

/-- EVR persists operating time every 1 s (R28). -/
def execOptimePersist (dt : Nat) (s : State) : Answer :=
  let s := s.elapse dt
  .next (s.when (s.prs.running && decide (s.evr.persistTick + secTicks ≤ s.now)) fun s =>
    s.persistOptime.onEvr fun v => { v with persistTick := s.now })

/-! ### Second instants (R395) -/

/-- A calendar second begins at a tick, for the balance's model less `d` ns. -/
def Tbu.secondAt (t : Tbu) (d : Int) (tick : Nat) : Bool :=
  decide (Int.fdiv (t.calAt tick - d) 1000000000 ≠ Int.fdiv (t.calAt (tick - 1) - d) 1000000000) && t.calValid

/-- The step that waits is to be taken at the true second edge: its error is at most 500 ms (R37). -/
def PendStep.atEdge (p : PendStep) : Bool := !p.first && decide (p.d.natAbs ≤ 500000000)

/-- The ticks since the last emitted pulse suit an interval of 1 s + d (R37, R38). -/
def Tbu.edgeFits (t : Tbu) (d : Int) (tick : Nat) : Bool :=
  match t.lastEmitted with
  | some e => decide (e + secTicks / 2 ≤ tick) && !(decide (0 < d) && decide (tick ≤ e + secTicks / 2))
  | none => true

/-- A second instant falls due at a tick (R37, R38, R395). -/
def Tbu.instantDue (t : Tbu) (tick : Nat) : Bool :=
  t.pllLocked && (match t.lastInstant with | some k => decide (k < tick) | none => true) &&
    (if t.calValid then
      (match t.pend with
        | some p => if p.atEdge then t.secondAt p.d tick && t.edgeFits p.d tick else t.secondAt 0 tick
        | none => t.secondAt 0 tick) &&
      (match t.lastEmitted with | some e => decide (e + t.minGap ≤ tick) | none => true)
    else tick % secTicks == 0)

/-- A pulse is emitted: TP_EDGE, PPS_STEP, and TP_OUT while it runs (R43, R47, R395); TP_COUNT counts from the pulse with
which RUNNING sets (R49). -/
def State.emitPulse (s : State) : State :=
  (s.onTbu fun t =>
    let run := t.tpRunning || t.tpEnable
    { t with lastEmitted := some s.now, minGap := 0, ppsStepNext := false,
             status := if t.ppsStepNext then setFlag t.status s.cycle 0 else t.status,
             tpRunning := run, tpCount := if t.tpRunning then t.tpCount + 1 else if run then 1 else t.tpCount,
             tpActive := run || t.tpActive, tpEdge := if run then s.now else t.tpEdge }).raise 464

/-- A pulse is suppressed and counted (R37, R38). -/
def State.suppressPulse (s : State) : State :=
  let old := s.tbu
  (s.onTbu fun t =>
    { t with status := setFlag t.status s.cycle 1, tpSuppressed := satAdd 0xFFFF t.tpSuppressed 1,
             minGap := 3 * secTicks / 2 }).timeNote 8 old

/-- With source HOST the balance leaves LOCKED at the pulse (R34). -/
def State.hostHoldover (s : State) : State :=
  if s.tbu.bal = .locked ∧ s.tbu.source = 1 then s.unlock .holdover else s

/-- A second instant: the HOST move, a pending step, the pulse (R34, R37, R38, R395). -/
def State.secondInstant (s : State) : State :=
  let s := (s.onTbu fun t => { t with lastInstant := some s.now }).hostHoldover
  match s.tbu.pend with
  | none => s.emitPulse
  | some p =>
    if p.atEdge then (s.applyStep p).emitPulse
    else if p.first then
      let s := s.applyStep p
      if s.tbu.calAt s.now % 1000000000 = 0 then s.emitPulse else s
    else (s.applyStep p).suppressPulse

def execSecondInstant (dt : Nat) (s : State) : Answer :=
  let s := s.elapse dt
  .next (s.when (s.tbu.instantDue s.now) State.secondInstant)

/-- TP_OUT returns to rest WIDTH_MS of device ticks after its leading edge (R44). -/
def execTpPulseEnd (dt : Nat) (s : State) : Answer :=
  let s := s.elapse dt
  .next (s.when (s.tbu.tpActive && decide (s.tbu.tpEdge + s.tbu.tpWidth * msTicks ≤ s.now)) fun s =>
    s.onTbu fun t => { t with tpActive := false })

/-- A write of TBU_TP_CFG (R43, R49): ENABLE takes only a 1; POL and WIDTH_MS keep their values while running, and every
write then counts in CFG_IGNORED. -/
def State.tpCfgWrite (v : Word) (s : State) : State :=
  s.onTbu fun t =>
    let t := { t with tpEnable := t.tpEnable || bit v 0 }
    if t.tpRunning then { t with status := setFlag t.status s.cycle 4 }
    else { t with tpPol := bit v 1, tpWidth := nearest 1 500 (bits v 2 9) }

/-- Writing 1 to TBU_TP_CFG.ENABLE starts TP_OUT at the next emitted pulse (R43). -/
def execTpEnableWrite (dt : Nat) (value : Word) (s : State) : Answer :=
  .next ((s.elapse dt).when (s.hostUp && bit value 0) (State.tpCfgWrite value))

/-! ### The balance -/

/-- A running slew brings the error to zero (R37, R40): the rate ends at the tick at which it was due. -/
def execSlewDone (dt : Nat) (s : State) : Answer :=
  let s := s.elapse dt
  .next (match s.tbu.slewEnd with
    | some e => s.when (decide (e ≤ s.now)) fun s =>
      let old := s.tbu
      ((s.onTbu fun t => { (t.rebase e) with slew := 0, slewEnd := none }).raise 467).timeNote 4 old
    | none => s)

/-- Holdover has lasted HOLD_LIMIT: FREERUN (R34, R47). -/
def execHoldLimit (dt : Nat) (s : State) : Answer :=
  let s := s.elapse dt
  .next (s.when (s.tbu.bal == .holdover && decide (s.tbu.lossTick + s.tbu.holdLimit * secTicks ≤ s.now)) State.enterFreerun)

/-- No GNSS time solution for 2 s: the suspect run is discarded (R41). -/
def execSuspectRunTimeout (dt : Nat) (s : State) : Answer :=
  let s := s.elapse dt
  .next (match s.tbu.suspect with
    | some r => s.when (decide (r.lastTick + 2 * secTicks ≤ s.now)) State.rejectRun
    | none => s)

/-! ### TIME_SET (R45, R46) -/

/-- The checks of case 1 of R46. -/
def State.timeSetChecks (s : State) (d : DescBits) : List (Bool × Nat) :=
  [((dfield d 1 1 &&& 0xE8) == 0 && !(dFlag d 4 && dFlag d 2), 1), (decide (dfield d 24 8 ≤ s.now), 24),
    (decide (dfield d 38 1 < 2), 38)] ++ zeroBytes d 39 25

/-- The true time of a TIME_SET as its excess on 5 ns x tick. -/
def State.timeSetOffset (s : State) (d : DescBits) : Int :=
  let at_ := if dfield d 24 8 = 0 then s.now else dfield d 24 8
  dsfield d 16 8 - 5 * (at_ : Int)

/-- The UTC offset a TIME_SET brings. -/
def timeSetUtc (d : DescBits) : Option Int := if (dfield d 38 1).testBit 0 then some (dsfield d 36 2) else none

/-- TIME_SET without RELEASE: cases 1 and 3 to 6 of R46. -/
def execTimeSet (dt ring : Nat) (s : State) : Answer :=
  .next ((s.elapse dt).runDesc ring 0x16 fun d s =>
    if dFlag d.desc 4 && !dFlag d.desc 2 then s
    else s.checked ring (s.timeSetChecks d.desc) fun s =>
      if dFlag d.desc 2 then
        ((s.onTbu fun t => { t with hostForced := true }).startHead ring []).steer 4
          (s.timeSetOffset d.desc) (dfield d.desc 32 4) (timeSetUtc d.desc) false (some (ring, d.index))
      else if s.tbu.hostForced then s.finishHead ring stAborted 2 0
      else if s.tbu.gnssValid then s.finishHead ring stAborted 1 0
      else
        (s.startHead ring []).steer 1
          (s.timeSetOffset d.desc) (dfield d.desc 32 4) (timeSetUtc d.desc) false (some (ring, d.index)))

/-- HOST_FORCED ends (R34, R46): a balance that is LOCKED has lost its source, and a step that HOST_FORCED asked for and
that has not been taken is dropped, with its TIME_SETs ABORTED (assumption log 154). -/
def State.endForce (s : State) : State :=
  let drop : Option PendStep := s.tbu.pend.filter fun p => p.source == 4
  let s := s.onTbu fun t => { t with hostForced := false, noTest := true, pend := if drop.isSome then none else t.pend }
  let s := if s.tbu.bal = .locked then s.unlock .holdover else s
  match drop with
  | some p => s.finishAll stAborted 0 (p.waiters ++ p.losers)
  | none => s

/-- TIME_SET with RELEASE: cases 1 and 2 of R46. -/
def execTimeSetRelease (dt ring : Nat) (s : State) : Answer :=
  .next ((s.elapse dt).runDesc ring 0x16 fun d s =>
    if dFlag d.desc 4 && !dFlag d.desc 2 then
      s.checked ring (s.timeSetChecks d.desc) fun s =>
        (if s.tbu.hostForced then s.endForce else s).finishHead ring stOk 0 0
    else s)

end Sys2Proof.Machine
end

