-- ==== Sys2Proof/Machine/CalOps.lean ====
section
/-! DEFINITION. Samples of delays and of the meter factor (12_live_calibration.md). A delay is named by its endpoint and its
kind, 0 on and 1 off. -/

namespace Sys2Proof.Machine

def State.delayPol (s : State) (p : Nat) : DelayPol := Tbl.get {} s.lca.pols p

/-- The policy that covers an endpoint (R321). -/
def State.polOf (s : State) (ep : Nat) : DelayPol := s.delayPol (s.entry ep).product

/-- A policy that is not OFF uses a source: bit 0 COIL, 1 SEAT, 2 FLOW (R321). LCA runs while CTL is ready (R322). -/
def State.polUses (s : State) (p : DelayPol) (src : Nat) : Bool := s.isReady 3 && p.mode != 0 && p.sources.testBit src

/-- The staged value of a proposal: a step toward it, within the base's bound (R314). -/
def stagedDelay (p : DelayPol) (d base : Nat) (proposal : Int) : Int × Bool :=
  let v := (d : Int) + clampInt (-(p.stepMax : Int)) p.stepMax (proposal - d)
  let w := clampInt (max 0 ((base : Int) - p.maxDev)) (min 65534 (base + p.maxDev)) v
  (w, decide (v ≠ w))

/-- A new proposal (R314). -/
def State.propose (ep kind : Nat) (s : State) : State :=
  let p := s.polOf ep
  let est := s.delayEst ep kind
  let d := s.delayOf ep kind
  let v := divHalfUp est 10
  let restart (s : State) : State := s.onDelay ep kind fun c => { c with n := 0, rejected := 0 }
  if p.mode = 1 then restart (s.delayResult ep kind 0 d)
  else if (v - d).natAbs ≤ p.deadband then restart s
  else
    let w := stagedDelay p d (s.delayBase ep kind) v
    let order := s.lca.order + 1
    let s := (s.onLca fun l => { l with order }).onDelay ep kind fun c =>
      { c with staged := some w.1.toNat, stagedOrder := order, held := false }
    let s := if w.2 then (s.delayResult ep kind 3 w.1.toNat).lcaFault 0 450 else s.delayResult ep kind 1 w.1.toNat
    (restart s).raise 448

/-- A delay sample, µs (R311, R313, R314). `src` is its source code 1 COIL, 2 SEAT, 3 FLOW. -/
def State.delaySample (src ep kind : Nat) (v : Int) (s : State) : State :=
  let p := s.polOf ep
  let est := s.delayEst ep kind
  let s := s.onLca fun l => { l with samples := count32 l.samples }
  if p.outlier * 10 < (v - est).natAbs then
    ((s.onLca fun l => { l with rejected := count32 l.rejected }).onDelay ep kind fun c =>
      { c with rejected := c.rejected + 1, source := src, est := some est }).lcaFault 2 452
  else
    let s := s.onDelay ep kind fun c => { c with est := some (est + divTrunc (v - est) (2 ^ p.avgShift : Nat)), n := c.n + 1, source := src }
    if p.minSamples ≤ (s.delayCal (2 * ep + kind)).n then s.propose ep kind else s

/-- A COIL or SEAT measurement that gives no sample (R311). -/
def State.notDetected (s : State) : State :=
  (s.onLca fun l => { l with notDetected := count32 l.notDetected }).lcaFault 3 453

/-- A SEAT entry: its TAG names the command whose delay it measures (R219, R311). -/
def State.seatSample (ep tag v : Nat) (s : State) : State :=
  let d := s.dyn ep
  if s.polUses (s.polOf ep) 1 then
    let take (kind : Nat) : State := if v = 0xFFFFFF then s.notDetected else s.delaySample 2 ep kind v
    if d.tagOn = some tag then take 0 else if d.tagOff = some tag then take 1 else s
  else s

/-! ### Meter factor (R318-R320) -/

def State.meterPol (s : State) (c : Nat) : MeterPol := Tbl.get {} s.lca.meters c

def State.onMeter (c : Nat) (f : MeterPol → MeterPol) (s : State) : State :=
  s.onLca fun l => { l with meters := Tbl.modify {} l.meters c f }

/-- w_open of R318 in 1/10,000 mm: the endpoints of a product that R16 counts. -/
def State.openWidth (s : State) (p : Nat) : Nat :=
  s.gle.dyn.foldl (fun acc e =>
    let en := s.entry e.1
    if en.product == p && e.2.inDemand && !en.noDemand && !en.feeder && s.hasPath e.1 then
      acc + en.width * 25 * (if s.isPwm e.1 then e.2.demandDuty else 1000)
    else acc) 0

/-- rho of R318, or none where the pressure or the width gives none. -/
def State.rho (s : State) (m : MeterPol) (product : Nat) (f : Int) : Option Nat :=
  let w := s.openWidth product
  let press := (s.ain m.pressAin).value
  if w = 0 ∨ press < m.pressZero + 1000 then none
  else
    let root := isqrt ((press - m.pressZero) * 4294967296)
    some (f.toNat * 65536 * 65536 * 10000 / (w * root))

/-- The product has been steady for STEADY_MS (R318). -/
def State.isSteady (s : State) (m : MeterPol) (product : Nat) : Bool :=
  decide (m.steadyTick + m.steadyMs * msTicks ≤ s.now) &&
    !(s.lca.effHist.any fun h => h.1 == product && decide (s.now < h.2.1 + m.steadyMs * msTicks))

/-- FB_SCALE of a context's active bank. -/
def State.fbScale (s : State) (c : Nat) : Nat := (s.ctx c).active.fbScale

/-- 10 s of samples at a context's period (R318, R319). -/
def State.tenSeconds (s : State) (c n : Nat) : Bool := decide (10000000 ≤ n * periodUs (s.ctx c).period)

/-- One sample of a context under a METER policy (R318). -/
def State.meterSample (c : Nat) (f : Int) (s : State) : State :=
  let m := s.meterPol c
  if m.mode = 0 then s
  else
    let p := (s.ctx c).product
    let d := Tbl.get 0 s.gle.demand p
    let s := if 100 * ((d : Int) - m.steadyDemand).natAbs ≤ m.steadyDemand then s
      else s.onMeter c fun m => { m with steadyDemand := d, steadyTick := s.now }
    let m := s.meterPol c
    if s.isSteady m p then
      match s.rho m p f with
      | some r =>
        let s := s.onMeter c fun m => { m with sum := m.sum + r, count := m.count + 1 }
        let m := s.meterPol c
        if m.rhoRef.isNone && s.tenSeconds c m.count then
          s.onMeter c fun m => { m with rhoRef := some (m.sum / m.count), sum := 0, count := 0 }
        else s
      | none => s
    else s

/-- CAL_RESULT of a meter factor (R323); CTL is on. -/
def State.meterResult (c outcome before after est samples : Nat) (s : State) : State :=
  let m := s.meterPol c
  s.calResult 3 outcome (if outcome = 4 then 0 else 4) c before after est samples 0 m.base (m.rhoRef.getD 0)

/-- A staged correction falls away (R297, R320, R321). -/
def State.dropCorrection (c : Nat) (s : State) : State :=
  let s := s.onCtx c fun x => { x with calStaged := false, swaps := x.swaps.filter fun w => w.byHost }
  if (s.meterPol c).staged.isSome then
    let fb := s.fbScale c
    ((s.meterResult c 4 fb fb 0 0).onMeter c fun m => { m with staged := none }).lcaFault 1 451
  else s

/-- The meter factor's record starts afresh from the active bank: a policy starts, or the host swaps (R319). -/
def State.meterBase (c : Nat) (s : State) : State :=
  let fb := s.fbScale c
  s.onMeter c fun m => { m with base := fb, history := [(s.tbu.optime, fb)] }

/-- A correction has been swapped in (R316, R320). -/
def State.meterApplied (c before : Nat) (s : State) : State :=
  let m := s.meterPol c
  let fb := s.fbScale c
  let s := (s.onMeter c fun m =>
    { m with staged := none, lastOptime := s.tbu.optime, history := (s.tbu.optime, fb) :: m.history.take 360 }).onLca fun l =>
    { l with applied := count32 l.applied }
  let s := s.record 0x0A02 c [(2, w32 before), (3, w32 fb), (4, w32 m.base), (5, w32 (m.rhoRef.getD 0))]
  (s.meterResult c 2 before fb 0 0).raise 449

/-- The highest and lowest factor in force in the last hour of operating time (R319): of the entries, newest first, those
that came into force within it and the one before them. -/
def inForce (optime : Nat) : List (Nat × Nat) → List Nat
  | [] => []
  | e :: t => if e.1 + 36000 ≤ optime then [e.2] else e.2 :: inForce optime t

/-- The limits of R319 on a new factor. -/
def State.meterLimit (s : State) (m : MeterPol) (fb : Nat) (target : Int) : Int :=
  let dt := min (s.tbu.optime - m.lastOptime) 36000
  let v := clampInt (fb - Int.fdiv (fb * 5 * dt : Nat) 3600000) (fb + Int.fdiv (fb * 5 * dt : Nat) 3600000) target
  let past := fb :: inForce s.tbu.optime m.history
  let hi := past.foldl max fb
  let lo := past.foldl min fb
  let v := clampInt (ceilDiv (95 * hi) 100) (105 * lo / 100 : Nat) v
  min 4294967295 (clampInt (ceilDiv (m.base * (1000 - m.factorMax)) 1000) (m.base * (1000 + m.factorMax) / 1000 : Nat) v)

/-- A new factor staged: the active bank with word 1 changed, and a swap at the next sample (R320). -/
def State.stageFactor (c v : Nat) (s : State) : State :=
  let b := { (s.ctx c).active with fbScale := v }
  (s.onCtx c fun x =>
    { x with bank0 := if x.bankSel then b else x.bank0, bank1 := if x.bankSel then x.bank1 else b, calStaged := true,
             swaps := x.swaps ++ [{ mode := (s.meterPol c).swapMode, tick := s.now, byHost := false }] }).onMeter c
    fun m => { m with staged := some v }

/-- The update of a meter factor every UPDATE_S (R319, R320). -/
def State.meterUpdate (c : Nat) (s : State) : State :=
  let m := s.meterPol c
  let fb := s.fbScale c
  let rho := m.sum / max 1 m.count
  let target : Int := (fb * (m.rhoRef.getD 0) * m.count / max 1 m.sum : Nat)
  let n := m.count
  let s := s.onMeter c fun m => { m with sum := 0, count := 0, startTick := s.now }
  if m.sum = 0 ∨ 1000 * (target - fb).natAbs ≤ 2 * fb then s
  else
    let v := s.meterLimit m fb target
    if m.mode = 1 then s.meterResult c 0 fb fb rho n
    else
      let s := s.stageFactor c v.toNat
      let s := if v = target then s.meterResult c 1 fb v.toNat rho n else (s.meterResult c 3 fb v.toNat rho n).lcaFault 0 450
      s.raise 448

end Sys2Proof.Machine
end

