-- ==== Sys2Proof/Machine/FbuOps.lean ====
section
/-! DEFINITION. Parts of FBU that other blocks meet: its faults and the distance of its repeaters (10_feedback.md). -/

namespace Sys2Proof.Machine

def State.onFch (n : Nat) (f : Fch → Fch) (s : State) : State := s.onFbu fun b => { b with chans := Tbl.modify {} b.chans n f }
def State.onCmp (m : Nat) (f : Cmp → Cmp) (s : State) : State := s.onFbu fun b => { b with cmps := Tbl.modify {} b.cmps m f }
def State.onRep (r : Nat) (f : Rep → Rep) (s : State) : State := s.onFbu fun b => { b with reps := Tbl.modify {} b.reps r f }
def State.onCap (k : Nat) (f : Cap → Cap) (s : State) : State := s.onFbu fun b => { b with caps := Tbl.modify {} b.caps k f }
def State.onAin (a : Nat) (f : Ain → Ain) (s : State) : State := s.onFbu fun b => { b with ains := Tbl.modify {} b.ains a f }
def State.onProbe (j : Nat) (f : ProbeCfg → ProbeCfg) (s : State) : State :=
  s.onFbu fun b => { b with probes := Tbl.modify {} b.probes j f }

/-- A channel fault (R281, R282). -/
def State.chFault (n bit : Nat) (s : State) : State :=
  (s.onFch n fun c => { c with faults := setFlag c.faults s.cycle bit }).raise (352 + n)

/-- A claim is refused (R277). -/
def State.claimRefused (resource : Nat) (s : State) : State :=
  (s.onFbu fun b => { b with fault := setFlag b.fault s.cycle 0, claimLast := resource, claimCount := satAdd 0xFFFF b.claimCount 1 }).raise 409

/-- A repeater stops or reaches its rate limit (R273, R274). -/
def State.repFault (r : Nat) (s : State) : State := (s.onFbu fun b => { b with fault := setFlag b.fault s.cycle 2 }).raise (388 + r)

/-- The source of a SYNTH repeater works (R274). -/
def State.repSource (s : State) (p : Rep) : Bool :=
  if p.mode = 2 then (s.fch (p.src % 16)).mode != 0 && p.scale != 0
  else p.mode == 3 && s.isReady 4 && s.pse.valid

/-- A stopped repeater whose source has returned starts with an empty accumulator (R274). -/
def State.repResume (r : Nat) (s : State) : State :=
  let p := s.rep r
  if p.stopped && s.repSource p then s.onRep r fun p => { p with stopped := false, acc := 0, poseTick := s.now } else s

/-- A measured rate in pulses per 2^16 s is above 20 kHz (R273). -/
def tooFast (rate16 : Nat) : Bool := decide (20000 * 65536 < rate16)

/-- The rate limit is reached: OVER_RATE (R273). -/
def State.repRate (r rate16 : Nat) (s : State) : State :=
  if tooFast rate16 && !bit (s.rep r).overRate.w 3 then
    (s.onRep r fun p => { p with overRate := setFlag p.overRate s.cycle 3 }).repFault r else s

/-- The spacing of pulses at a measured rate in pulses per 2^16 s (R273): even, and at most 20 kHz. -/
def pulseSpacing (rate16 : Nat) : Nat := max (50 * usTicks) (if rate16 = 0 then 0 else 65536 * secTicks / rate16)

/-- The measured rate of a SYNTH repeater, in pulses per 2^16 s (R273). -/
def State.repRate16 (s : State) (p : Rep) : Nat :=
  if p.mode = 3 then s.pse.cur.speed.natAbs * p.ppm / 1000
  else (s.fch (p.src % 16)).lastSpeed.natAbs * p.scale * p.ppm * 4096 / 1000000

/-- Distance under PSE's fused speed up to now, in µm times PPM (R273). -/
def State.poseDistance (s : State) (p : Rep) : Nat :=
  s.pse.cur.speed.natAbs * 1000 * p.ppm * (s.now - p.poseTick) / (65536 * secTicks)

/-- The SYNTH_POSE repeaters take the distance at the speed that now ends (R273). -/
def State.repIntegrate (s : State) : State :=
  (List.range 4).foldl (fun s r =>
    if (s.rep r).mode = 3 then
      let s := s.repResume r
      let p := s.rep r
      if p.stopped then s
      else (s.onRep r fun p => { p with acc := p.acc + s.poseDistance p, poseTick := s.now }).repRate r (s.repRate16 p)
    else s) s

end Sys2Proof.Machine
end

