-- ==== Sys2Proof/Machine/Feedback.lean ====
section
/-! DEFINITION. The commands of the feedback inputs (10_feedback.md). -/

namespace Sys2Proof.Machine

/-- A position in its 32 bits (R259). -/
def wrap32 (v : Int) : Int := fromTwos 32 (toTwos 32 v)

/-! ### FEEDBACK_SAMPLE (R280) -/

/-- FEEDBACK_SAMPLE of a channel. -/
def State.channelSample (n kind index : Nat) (behind : Bool) (s : State) : State :=
  let c := s.fch n
  s.report 0x46 0 s.now
    [fld 16 1 n, fld 17 1 kind,
     fld 18 1 (b2n c.sync + 2 * b2n c.reverse + 4 * b2n c.still + 8 * b2n c.scSource + 16 * b2n (c.faults.w != 0#32) + 32 * b2n behind),
     fld 19 1 index, sfld 20 4 c.pos, sfld 24 4 (s.fchSpeed n), sfld 28 4 c.rev, fld 32 2 c.angle,
     fld 34 2 (if c.scValid then c.fine else 0), sfld 36 2 c.idxErr, fld 40 8 c.edgeTick, fld 48 8 s.cal]

/-- FEEDBACK_SAMPLE of an analogue input. -/
def State.ainReport (a : Nat) (s : State) : State :=
  s.report 0x46 0 s.now [fld 16 1 (a + 16), fld 38 2 (s.ain a).value, fld 48 8 s.cal]

def execFeedbackSample (dt : Nat) (ain : Bool) (index : Nat) (s : State) : Answer :=
  let s := s.elapse dt
  let ms := if ain then (s.ain index).rptMs else (s.fch index).rptMs
  .next (s.when (s.isReady 3 && decide (index < 16) && ms != 0 && s.now % (msTicks * ms) == 0) fun s =>
    if ain then s.ainReport index else s.channelSample index 0 0 false)

/-! ### Comparators (R271, R272) -/

/-- A comparator's output takes its ACTION. -/
def Cmp.act (c : Cmp) (tick : Nat) : Cmp :=
  match c.action with
  | 0 => { c with level := true, pulseTick := some tick }
  | 1 => { c with level := true, pulseTick := none }
  | 2 => { c with level := false, pulseTick := none }
  | _ => { c with level := !c.level, pulseTick := none }

/-- A comparator fires (R271). -/
def State.fire (m : Nat) (s : State) : State :=
  let s := s.onCmp m fun c =>
    let c := { (c.act s.now) with fired := true }
    if c.step = 0 then { c with arm := false } else { c with value := wrap32 (c.value + (if c.down then -c.step else c.step)) }
  (s.raise (368 + m / 2)).channelSample (m / 2) 2 m (s.fcmp m).behind

/-- Position passes a comparator's value in its direction (R271). -/
def Cmp.crossed (c : Cmp) (old new : Int) : Bool :=
  let d := wrap32 (c.value - old)
  let m := wrap32 (new - old)
  c.arm && (if c.down then decide (d < 0) && decide (m ≤ d) else decide (0 < d) && decide (d ≤ m))

/-- The firings of one comparator on a move from a position: a value that STEP moves may be passed by the same edge. -/
def State.firings (m : Nat) (old : Int) : Nat → State → State
  | 0, s => s
  | k + 1, s =>
    if (s.fcmp m).crossed old (s.fch (m / 2)).pos then State.firings m old k (s.fire m) else s

/-- A channel's position moves (R259, R271). -/
def State.moveTo (n : Nat) (new : Int) (s : State) : State :=
  let old := (s.fch n).pos
  let s := s.onFch n fun c => { c with pos := wrap32 new }
  let k := (wrap32 (new - old)).natAbs
  State.firings (2 * n + 1) old k (State.firings (2 * n) old k s)

def execComparePulseEnd (dt comparator : Nat) (s : State) : Answer :=
  let s := s.elapse dt
  .next (match (s.fcmp comparator).pulseTick with
    | some t => s.when (decide (t + (s.fcmp comparator).pulseUs * usTicks ≤ s.now)) fun s =>
        s.onCmp comparator fun c => { c with level := false, pulseTick := none }
    | none => s)

/-- The value lies on the side that the motion has left (R272). -/
def State.isBehind (s : State) (m : Nat) : Bool :=
  let c := s.fch (m / 2)
  let d := wrap32 ((s.fcmp m).value - c.pos)
  if c.reverse then decide (0 ≤ d) else decide (d ≤ 0)

/-- The test of a value just written (R272). -/
def State.testWritten (m : Nat) (s : State) : State :=
  if s.isBehind m then
    let s := s.onCmp m fun c => { c with behind := true }
    if (s.fcmp m).arm && (s.fcmp m).immediate then s.fire m else s
  else s

/-- FBU_CMP_CFG (R282). -/
def Cmp.config (c : Cmp) (v : Word) : Cmp :=
  { c with arm := bit v 0, down := bit v 1, immediate := bit v 2, action := bits v 3 2, fired := c.fired && !bit v 5,
           behind := c.behind && !bit v 6, pulseUs := max 1 (bits v 7 9), step := sbits v 16 16 }

/-- A write of FBU_CMP_CFG or FBU_CMP_VAL takes effect in the TMR cycle after it lands (R272): that cycle passes first, so
that what came before in the cycle of the write has met the old value. -/
def State.cmpWrite (m : Nat) (toCfg : Bool) (v : Word) (s : State) : State :=
  let s := s.elapse 1
  if toCfg then
    let s := s.onCmp m fun c => c.config v
    if bit v 0 then s.testWritten m else s
  else (s.onCmp m fun c => { c with value := v.toInt }).testWritten m

def execCmpWrite (dt comparator : Nat) (toCfg : Bool) (value : Word) (s : State) : Answer :=
  .next ((s.elapse dt).when ((s.elapse dt).hostTo 6 && decide (comparator < 32)) (State.cmpWrite comparator toCfg value))

/-! ### Interval speed (R266-R268) -/

/-- The sum of the last `k` intervals, in 1/12 tick, and how many of the `k` there are: an interval entry of a reference
stands for several of equal length. -/
def lastIntervals : Nat → List (Nat × Nat) → Nat × Nat
  | _, [] => (0, 0)
  | k, (t, u) :: rest =>
    if k = 0 then (0, 0)
    else if u ≤ k then
      let r := lastIntervals (k - u) rest
      (12 * t + r.1, u + r.2)
    else (12 * t * k / max 1 u, k)

/-- The interval speed of a channel (R266): a timed interval of `t` ticks that counts as `units` joins. -/
def Fch.timed (c : Fch) (t units : Nat) : Fch :=
  let is := ((t, units) :: c.intervals).take 16
  let r := lastIntervals (if c.avg = 0 then 16 else c.avg) is
  let v : Int := (16 * 12 * secTicks * r.2 / max 1 r.1 : Nat)
  { c with intervals := is, lastSpeed := if c.reverse then -v else v }

/-! ### Counting (R259-R263) -/

/-- One SYNTH_CH repeater takes counts of its channel (R273). -/
def State.repCount (n adv : Nat) (s : State) (r : Nat) : State :=
  let p := s.rep r
  if p.mode = 2 ∧ p.src % 16 = n then
    let s := s.repResume r
    let p := s.rep r
    if p.stopped then s
    else (s.onRep r fun p => { p with acc := p.acc + adv * p.scale * p.ppm }).repRate r (s.repRate16 p)
  else s

/-- An edge counts `adv` positions (R259, R262). -/
def State.countPos (n adv : Nat) (s : State) : State :=
  let c := s.fch n
  let s := s.onFch n fun c => { c with sinceRef := c.sinceRef + adv, angle := (c.angle + adv) % 65536 }
  let s := s.moveTo n (c.pos + (if c.reverse then -(adv : Int) else adv))
  (List.range 4).foldl (State.repCount n adv) s

/-- A channel's SYNC (R263, R281). -/
def State.setSync (n : Nat) (v : Bool) (s : State) : State :=
  if (s.fch n).sync = v then s else (s.onFch n fun c => { c with sync := v }).raise 408

/-- The index count check (R263). -/
def State.indexCheck (n : Nat) (s : State) : State :=
  let c := s.fch n
  if c.teeth = 0 ∨ c.refSeen = false ∨ c.skipCompare = true then s
  else if c.sinceRef = c.teeth then s.setSync n true
  else ((s.onFch n fun c => { c with idxErr := (c.sinceRef : Int) - c.teeth }).chFault n 2).setSync n false

/-- The edge is a reference (R263). -/
def State.reference (n : Nat) (s : State) : State :=
  let s := s.indexCheck n
  (s.onFch n fun c =>
    { c with refSeen := true, skipCompare := false, sinceRef := 0, angle := 0,
             rev := wrap32 (c.rev + (if c.reverse then -1 else 1)) }).channelSample n 3 0 false

/-- The interval of a reference under MISSING (R262). -/
def Fch.isGap (c : Fch) (t : Nat) : Bool :=
  match c.lastInterval with
  | some p => c.refMode == 1 && decide ((2 * c.missing + 1) * p ≤ 2 * t) && decide (2 * t ≤ (2 * c.missing + 3) * p)
  | none => false

/-- The interval may end at an extra tooth (R262). -/
def Fch.isShort (c : Fch) (t : Nat) : Bool :=
  match c.lastInterval with
  | some p => c.refMode == 2 && decide (10 * t ≤ 7 * p)
  | none => false

/-- An edge counts after an interval of `t` ticks in the present direction (R262, R266). -/
def State.plainEdge (n t : Nat) (s : State) : State :=
  let c := s.fch n
  if c.isGap t then
    let s := s.onFch n fun c => { (c.timed t (c.missing + 1)) with lastInterval := some t }
    (s.countPos n (c.missing + 1)).reference n
  else (s.onFch n fun c => { (c.timed t 1) with lastInterval := some t }).countPos n 1

/-- The edge held back as a possible extra tooth was none: it counts after all. -/
def State.releaseEdge (n : Nat) (s : State) : State :=
  match (s.fch n).extra with
  | some (t, _) => (s.onFch n fun c => { c with extra := none }).plainEdge n t
  | none => s

/-- An edge after an interval of `t` ticks: an edge that may be an extra tooth waits for the next (R262). -/
def State.intervalEdge (n t : Nat) (s : State) : State :=
  match (s.fch n).extra with
  | some (k, p) =>
    if 8 * p ≤ 10 * (k + t) ∧ 10 * (k + t) ≤ 12 * p then
      let s := s.onFch n fun c => { (c.timed (k + t) 1) with extra := none, lastInterval := some (k + t) }
      (s.countPos n 1).reference n
    else
      let s := s.releaseEdge n
      if (s.fch n).isShort t then s.onFch n fun c => { c with extra := some (t, k) } else s.plainEdge n t
  | none =>
    let c := s.fch n
    if c.isShort t then s.onFch n fun c => { c with extra := some (t, c.lastInterval.getD 0) } else s.plainEdge n t

/-- The first edge in a direction (R267, R268). -/
def State.firstEdge (n : Nat) (rev : Bool) (s : State) : State :=
  let s := s.releaseEdge n
  (s.onFch n fun c =>
    { c with reverse := rev, intervals := [], lastInterval := none, lastSpeed := 0, run := 1, skipCompare := true }).countPos n 1

/-- STILL clears (R267, R281). -/
def State.leaveStill (n : Nat) (s : State) : State :=
  if (s.fch n).still then (s.onFch n fun c => { c with still := false }).raise 411 else s

/-- The channel's sin/cos tracks are in use and valid (R264). -/
def Fch.scOk (c : Fch) : Bool := c.scEn && c.scValid

/-- The sin/cos position, in 1/1,024 period, set level with the pulse count. -/
def Fch.align (c : Fch) : Fch := { c with scCount := 1024 * c.pos }

/-- The test of the pulse count against the tracks at an edge (R265); before the first edge the tracks are set level with it. -/
def State.scTest (n : Nat) (first : Bool) (s : State) : State :=
  let c := s.fch n
  if c.scOk = false then s
  else if first then s.onFch n Fch.align
  else if 256 < (wrap32 (c.scCount - 1024 * c.pos)).natAbs then s.chFault n 4
  else s

/-- Position goes back to the pulse train without a step; the comparison of the revolution under way is skipped (R263, R265). -/
def Fch.handBack (c : Fch) : Fch :=
  { c.align with scSource := false, cleanEdges := 0, intervals := [], lastInterval := none, lastSpeed := 0, extra := none,
                 skipCompare := true }

/-- A counted edge in a direction (R259-R268): its tick stands and STILL ends before it counts (R280). While the tracks drive
position, the second clean edge hands it back (R265). -/
def State.countedEdge (n : Nat) (rev : Bool) (s : State) : State :=
  let c := s.fch n
  let t := s.now - c.edgeTick
  let fresh := c.run == 0 || c.reverse != rev
  let first := c.scStart
  let s := (s.onFch n fun c => { c with edgeTick := s.now, anyEdge := true, scStart := false, scAdvance := 0 }).leaveStill n
  if c.scSource then
    if c.cleanEdges + 1 < 2 then s.onFch n fun c => { c with cleanEdges := c.cleanEdges + 1, reverse := rev }
    else s.onFch n fun c => { c.handBack with reverse := rev, run := 1 }
  else
    let s := if fresh then (s.firstEdge n rev) else (s.onFch n fun c => { c with run := c.run + 1 }).intervalEdge n t
    if (s.fch n).extra.isSome then s else s.scTest n first

/-- An EDGE_FAST or QUAD_ERR event: three in the last ten expected intervals put the pulse train in fault (R265). -/
def State.edgeFault (n bit : Nat) (s : State) : State :=
  let s := (s.chFault n bit).onFch n fun c =>
    let ts := s.now :: c.faultTicks.filter fun k => match c.lastInterval with
      | some p => decide (s.now ≤ k + 10 * p)
      | none => false
    { c with faultTicks := ts, cleanEdges := 0 }
  let c := s.fch n
  if c.scOk && decide (3 ≤ c.faultTicks.length) then s.onFch n fun c => { c with scSource := true } else s

/-- The edge on A is active in PULSE and PULSE_DIR (R259). -/
def Fch.isActive (c : Fch) (inputB levelA : Bool) : Bool := !inputB && (levelA != c.fallEdge)

/-- The direction ball of a PULSE channel is claimed as DIR (R260, R276). -/
def State.dirClaimed (s : State) (c : Fch) : Bool := c.dirSel != 0 && Tbl.get 0 s.fbu.auxi (c.dirSel + 3) == 2

/-- A quadrature edge counts (R259): all four, A's two, or A's while B is low. -/
def Fch.quadCounts (c : Fch) (inputB levelB : Bool) : Bool :=
  if c.quadX = 2 then true else if c.quadX = 1 then !inputB else !inputB && !levelB

/-- An accepted edge by mode (R259, R260). -/
def State.acceptEdge (n : Nat) (inputB a b : Bool) (s : State) : State :=
  let c := s.fch n
  match c.mode with
  | 1 =>
    if c.isActive inputB a then
      if c.dirSel = 0 then s.countedEdge n c.dirFix
      else if s.dirClaimed c then s.countedEdge n b
      else (s.chFault n 5).countedEdge n c.dirFix
    else s
  | 2 => if c.isActive inputB a then s.countedEdge n (b != c.dirInv) else s
  | 3 =>
    if c.quadCounts inputB b then s.countedEdge n ((if inputB then a != b else a == b) != c.dirInv) else s
  | _ => s

/-- The repeaters in ECHO follow an input (R273). -/
def State.echo (n : Nat) (inputB level : Bool) (s : State) : State :=
  (List.range 4).foldl (fun s r =>
    let p := s.rep r
    if p.mode = 1 ∧ p.src = n + 16 * b2n inputB then s.onRep r fun p => { p with level := level != p.inv } else s) s

/-- A polarity code takes an edge: 0 rising, 1 falling, else both. -/
def takesEdge (polarity : Nat) (rising : Bool) : Bool :=
  match polarity with
  | 0 => rising
  | 1 => !rising
  | _ => true

/-- A capture FIFO takes an entry, or loses it (R279). -/
def State.capture (k : Nat) (e : CapEntry) (s : State) : Bool × State :=
  if (s.cap k).fifo.length < 8 then (true, s.onCap k fun c => { c with fifo := c.fifo ++ [e] })
  else (false, (s.onFbu fun b => { b with fault := setFlag b.fault s.cycle 1 }).raise 410)

/-- A capture timer meets the level of its input: an edge of its polarity goes into its FIFO (R279). -/
def State.timerMeets (k : Nat) (level : Bool) (s : State) : State :=
  let c := s.cap k
  if c.level = level then s
  else
    let s := s.onCap k fun c => { c with level }
    if c.enable && takesEdge c.polarity level then (s.capture k { tick := s.now, rising := level }).2 else s

/-- The capture timers whose INPUT names an input of a channel meet its level (R279). -/
def State.timersMeet (n : Nat) (inputB level : Bool) (s : State) : State :=
  (List.range 16).foldl (fun s k => if (s.cap k).input = n + 16 * b2n inputB then s.timerMeets k level else s) s

/-- The level of an input reaches the repeaters and capture timers that take it (R273, R279). -/
def State.inputMeets (n : Nat) (inputB level : Bool) (s : State) : State :=
  (s.echo n inputB level).timersMeet n inputB level

/-- An edge on a feedback input (R259-R261). -/
def State.feedbackEdge (n : Nat) (inputB a b : Bool) (s : State) : State :=
  let c := s.fch n
  let ball := c.mode == 1 && !inputB && s.dirClaimed c
  let s := s.inputMeets n false a
  let s := if ball then s else s.inputMeets n true b
  let s := s.onFch n fun c => { c with levelA := a, levelB := if ball then c.levelB else b }
  if c.mode = 0 then s
  else if c.mode = 3 ∧ a ≠ c.levelA ∧ b ≠ c.levelB then s.edgeFault n 1
  else
    let last := if inputB then c.lastB else c.lastA
    let fast := match last with
      | some k => decide (s.now < k + 4 * c.minEdge)
      | none => false
    if fast then (s.onFch n fun c => { c with edgeFast := count32 c.edgeFast }).edgeFault n 0
    else
      let s := s.onFch n fun c => if inputB then { c with lastB := some s.now } else { c with lastA := some s.now }
      s.acceptEdge n inputB a b

def execFeedbackEdge (dt channel : Nat) (inputB levelA levelB : Bool) (s : State) : Answer :=
  let s := s.elapse dt
  let c := s.fch channel
  let changes := if inputB then levelB != c.levelB else levelA != c.levelA
  .next (s.when (s.isReady 3 && decide (channel < 16) && changes) (State.feedbackEdge channel inputB levelA levelB))

def execStandstill (dt channel : Nat) (s : State) : Answer :=
  let s := s.elapse dt
  let c := s.fch channel
  .next (s.when (s.isReady 3 && decide (channel < 16) && c.mode != 0 && !c.still && decide (c.edgeTick + c.stillMs * msTicks ≤ s.now))
    fun s => ((s.releaseEdge channel).onFch channel fun c =>
      { c with still := true, intervals := [], lastInterval := none, lastSpeed := 0, run := 0, skipCompare := true }).raise 411)

/-- A channel restarts (R259). -/
def State.restartChannel (n : Nat) (s : State) : State :=
  let was := (s.fch n).still
  let s := (s.setSync n false).onFch n fun c =>
    { c with pos := 0, still := true, reverse := false, lastA := none, lastB := none, anyEdge := false, intervals := [],
             lastInterval := none, lastSpeed := 0, run := 0, extra := none, sinceRef := 0, refSeen := false, skipCompare := true,
             scSource := false, scCount := 0, scAdvance := 0, scStart := c.scEn, faultTicks := [], cleanEdges := 0 }
  if was then s else s.raise 411

/-- FBU_CH_CFG (R259, R282). -/
def State.chCfg (n : Nat) (v : Word) (s : State) : State :=
  let mode := bits v 0 2
  let restarts := mode != (s.fch n).mode
  let sc := bit v 10 && decide (n < 4)
  let s := s.onFch n fun c =>
    { c with mode, quadX := min 2 (bits v 2 2), fallEdge := bit v 4, dirInv := bit v 5, dirFix := bit v 6, dirSel := bits v 7 3,
             scEn := sc, scStart := sc && (c.scStart || !c.scEn), minEdge := nearest 1 65000 (bits v 16 16),
             scValid := c.scValid && sc, fine := if sc then c.fine else 0, scSource := c.scSource && sc,
             scGood := if sc then c.scGood else 0, scTick := if sc then c.scTick else none, scAngle := if sc then c.scAngle else none,
             scLatest := if sc then c.scLatest else [], scSpeed := if sc then c.scSpeed else 0 }
  if restarts then s.restartChannel n else s

def execFbuModeWrite (dt channel : Nat) (value : Word) (s : State) : Answer :=
  .next ((s.elapse dt).when ((s.elapse dt).hostTo 6 && decide (channel < 16)) (State.chCfg channel value))

/-! ### Sin/cos tracks (R264, R265) -/

/-- The pulse train is silent while the tracks move on (R265). -/
def Fch.silent (c : Fch) (tick : Nat) : Bool :=
  match c.lastInterval with
  | some p => decide (c.edgeTick + 4 * p ≤ tick) && decide (1024 ≤ c.scAdvance.natAbs)
  | none => false

/-- A good sample: angle, sin/cos count and SC_SPEED over 1 ms. With the sample that makes the tracks valid their count is set
level with position. -/
def Fch.scSample (c : Fch) (angle tick : Nat) : Fch :=
  let d : Int := match c.scAngle with
    | some a => fromTwos 10 (toTwos 10 ((angle : Int) - a))
    | none => 0
  let good := min 100 (c.scGood + 1)
  let starts := !c.scValid && decide (100 ≤ good)
  let count := if starts then 1024 * c.pos else c.scCount + d
  let hist := (tick, count) :: (if starts then [] else c.scLatest.filter fun h => decide (tick ≤ h.1 + msTicks))
  let speed := match hist.getLast? with
    | some h => if h.1 < tick then divTrunc ((count - h.2) * 16 * secTicks) (1024 * (tick - h.1 : Nat)) else 0
    | none => 0
  { c with fine := angle, scAngle := some angle, scCount := count, scAdvance := if starts then 0 else c.scAdvance + d, scLatest := hist, scSpeed := speed,
           scGood := good, scValid := c.scValid || decide (100 ≤ good) }

/-- Whole periods by which the tracks are ahead of position. -/
def Fch.scLead (c : Fch) : Int := divTrunc (c.scCount - 1024 * c.pos) 1024

/-- The tracks count `adv` periods into position, in their direction (R263, R265). -/
def State.trackCount (n : Nat) (adv : Int) (s : State) : State :=
  if adv = 0 then s
  else
    let rev := decide (adv < 0)
    (s.onFch n fun c => { c with reverse := rev, skipCompare := c.skipCompare || c.reverse != rev }).countPos n adv.natAbs

/-- The magnitude of a sample, in codes of which the nominal 0.5 V peak is 1,024, lies in 50 % to 150 % (R264). -/
def scGoodSample (sin cos : Int) : Bool :=
  let m := sin * sin + cos * cos
  decide (512 * 512 ≤ m) && decide (m ≤ 1536 * 1536)

/-- The angle of a sample in 1/1,024 of a period (R264). -/
def scAngleOf (sin cos : Int) : Nat := (atan2 sin cos).toNat / 4194304

/-- A sample of both tracks in 12-bit codes (R264). A sample out of the window ends the tracks' uses: the pulse train counts
again. -/
def State.scTake (n : Nat) (sin cos : Int) (s : State) : State :=
  let s := s.onFch n fun c => { c with scTick := some s.now }
  if scGoodSample sin cos then
    let s := s.onFch n fun c => c.scSample (scAngleOf sin cos) s.now
    let c := s.fch n
    if c.scValid && c.mode != 0 then
      let s := if !c.scStart && c.silent s.now then s.onFch n fun c => { c with scSource := true, cleanEdges := 0 } else s
      if (s.fch n).scSource || c.scStart then s.trackCount n (s.fch n).scLead else s
    else s
  else
    (s.onFch n fun c =>
      { (if c.scSource then { c.handBack with run := 0 } else c) with scValid := false, scGood := 0, scAngle := none }).chFault n 3

/-- The tracks are sampled at 1 MS/s: at the ticks that are multiples of 200 (R264). -/
def execSincosSample (dt channel : Nat) (sin cos : Int) (s : State) : Answer :=
  let s := s.elapse dt
  .next (s.when (s.isReady 3 && decide (channel < 4) && (s.fch channel).scEn && s.now % usTicks == 0 &&
    (s.fch channel).scTick != some s.now) (State.scTake channel sin cos))

/-! ### Probes and capture timers (R270, R276, R277, R279) -/

/-- A probe's claim of its timer ends. -/
def State.releaseTimer (j : Nat) (s : State) : State :=
  let k := (s.fprobe j).timer
  if (s.cap k).probeOwner = some j then s.onCap k fun c => { c with probeOwner := none } else s

/-- A capture timer is free to a probe. -/
def State.timerFree (s : State) (j k : Nat) : Bool :=
  !(s.cap k).enable && (match (s.cap k).probeOwner with
    | some i => i == j
    | none => true)

/-- The fields of FBU_PROBE_CFG but ENABLE. -/
def ProbeCfg.config (p : ProbeCfg) (v : Word) : ProbeCfg :=
  { p with polarity := bits v 1 2, oneShot := bit v 3, src := bits v 4 4, timer := bits v 8 4 }

/-- FBU_PROBE_CFG (R270, R277). -/
def State.probeCfg (j : Nat) (v : Word) (s : State) : State :=
  let s := (s.releaseTimer j).onProbe j fun p => { (p.config v) with enable := false }
  if bit v 0 then
    let k := bits v 8 4
    if Tbl.get 0 s.fbu.auxi j = 1 then s.claimRefused j
    else if s.timerFree j k = false then s.claimRefused (16 + k)
    else (s.onProbe j fun p => { p with enable := true }).onCap k fun c => { c with probeOwner := some j }
  else s

def execProbeEnableWrite (dt probe : Nat) (value : Word) (s : State) : Answer :=
  .next ((s.elapse dt).when ((s.elapse dt).hostTo 6 && decide (probe < 4)) (State.probeCfg probe value))

def execProbeLatch (dt probe : Nat) (rising : Bool) (s : State) : Answer :=
  let s := s.elapse dt
  let p := s.fprobe probe
  .next (s.when (s.isReady 3 && decide (probe < 4) && p.enable && takesEdge p.polarity rising && Tbl.get 0 s.fbu.auxi probe == 2) fun s =>
    let c := s.fch p.src
    let r := s.capture p.timer { tick := s.now, rising, pos := some c.pos, fine := if c.scOk then some c.fine else none }
    if r.1 then
      let s := (r.2.raise (384 + probe)).channelSample p.src 1 probe false
      if p.oneShot then (s.releaseTimer probe).onProbe probe fun p => { p with enable := false } else s
    else r.2)

/-- An edge on an input that capture timers take, without the channel that uses the same input (R279). -/
def execCaptureEdge (dt : Nat) (input : FbkInput) (level : Bool) (s : State) : Answer :=
  let s := s.elapse dt
  .next (s.when (s.isReady 3 && decide (input.channel < 16)) (State.timersMeet input.channel input.inputB level))

/-- A read of FBU_CAP_DATA removes the oldest entry (R279). -/
def execCapDataRead (dt timer : Nat) (s : State) : Answer :=
  .next ((s.elapse dt).when s.hostUp fun s =>
    (s.when (s.powered 6 && decide (timer < 16)) fun s => s.onCap timer fun c => { c with fifo := c.fifo.tail }).readOut
      (s.regRead (0x3C680 + 4 * timer)))

/-- FBU_CAP_CFG (R277, R279): a claim of a timer that a probe holds is refused. -/
def State.capCfg (k : Nat) (v : Word) (s : State) : State :=
  let ch := s.fch (bits v 1 4)
  let level := if bit v 5 then ch.levelB else ch.levelA
  let s := s.onCap k fun c =>
    { c with input := bits v 1 5, polarity := bits v 6 2, level := if c.input = bits v 1 5 ∧ c.enable = true then c.level else level }
  if bit v 0 then
    if (s.cap k).probeOwner.isSome then s.claimRefused (16 + k) else s.onCap k fun c => { c with enable := true }
  else s.onCap k fun c => { c with enable := false }

def execCapCfgWrite (dt timer : Nat) (value : Word) (s : State) : Answer :=
  .next ((s.elapse dt).when ((s.elapse dt).hostTo 6 && decide (timer < 16)) (State.capCfg timer value))

/-- FBU_AUXI_SEL (R276, R277). -/
def State.auxiSel (k f : Nat) (s : State) : State :=
  let old := Tbl.get 0 s.fbu.auxi k
  if 2 < f ∨ old = f then s
  else if old ≠ 0 ∧ f ≠ 0 then s.claimRefused k
  else s.onFbu fun b => { b with auxi := Tbl.set 0 b.auxi k f }

/-- FBU_AUXO_SEL (R276, R277). -/
def State.auxoSel (k f : Nat) (s : State) : State :=
  let old := Tbl.get 0 s.fbu.auxo k
  if 10 < f ∨ old = f then s
  else if old ≠ 0 ∧ f ≠ 0 then s.claimRefused (8 + k)
  else if f ≠ 0 ∧ s.fbu.auxo.any (fun e => e.2 == f) = true then s.claimRefused (32 + f)
  else s.onFbu fun b => { b with auxo := Tbl.set 0 b.auxo k f }

def execAuxSelWrite (dt : Nat) (out : Bool) (ball : Nat) (value : Word) (s : State) : Answer :=
  .next ((s.elapse dt).when ((s.elapse dt).hostTo 6 && decide (ball < 8)) fun s =>
    if out then s.auxoSel ball (bits value 0 4) else s.auxiSel ball (bits value 0 4))

/-! ### Repeaters (R273, R274) -/

/-- A repeater's accumulator now; the distance of the pose counts on between epochs. -/
def State.repAcc (s : State) (p : Rep) : Nat := if p.mode = 3 then p.acc + s.poseDistance p else p.acc

def execRepeaterPulse (dt repeater : Nat) (s : State) : Answer :=
  let s := s.elapse dt
  let p := s.rep repeater
  let synth := p.mode == 2 || p.mode == 3
  .next (s.when (s.isReady 3 && decide (repeater < 4) && synth && !p.stopped && s.repSource p && decide (1000000 ≤ s.repAcc p) &&
      (p.pulses == 0 || decide (p.pulseTick + pulseSpacing (s.repRate16 p) ≤ s.now))) fun s =>
    let high := pulseSpacing (s.repRate16 p) / 2
    s.onRep repeater fun p =>
      { p with high, acc := s.repAcc p - 1000000, poseTick := if p.mode = 3 then s.now else p.poseTick, pulseTick := s.now,
               pulses := p.pulses + 1 })

def execRepeaterSourceFail (dt repeater : Nat) (s : State) : Answer :=
  let s := s.elapse dt
  let p := s.rep repeater
  .next (s.when (s.isReady 3 && decide (repeater < 4) && (p.mode == 2 || p.mode == 3) && !p.stopped && !s.repSource p) fun s =>
    (s.onRep repeater fun p => { p with stopped := true, acc := 0, level := false }).repFault repeater)

/-! ### Analogue inputs (R275) -/

/-- The code of an input: microvolts, or in the CURRENT range nanoamperes. -/
def Ain.code (c : Ain) (v : Nat) : Nat :=
  let full := if c.current then 25000000 else 5000000
  min 65535 ((2 * v * 65535 + full) / (2 * full))

/-- The mean of the last 2^AVG_LOG2 samples, or of as many as exist. -/
def Ain.mean (c : Ain) : Nat :=
  let vs := c.samples.take (2 ^ c.avgLog2)
  vs.foldl (· + ·) 0 / max 1 vs.length

/-- A new mean against the limits. -/
def Ain.judge (c : Ain) : Ain :=
  let low := decide (c.value < c.lowLim)
  let high := decide (c.highLim < c.value)
  if low || high then { c with low := c.low || low, high := c.high || high, inside := 0 }
  else if 10 ≤ c.inside + 1 then { c with low := false, high := false, inside := 10 }
  else { c with inside := c.inside + 1 }

def State.ainTake (a v : Nat) (s : State) : State :=
  let old := s.ain a
  let s := s.onAin a fun c =>
    let c := { c with samples := (c.code v :: c.samples).take 64 }
    ({ c with value := c.mean } : Ain).judge
  let c := s.ain a
  if (c.low && !old.low) || (c.high && !old.high) then s.raise (392 + a) else s

def execAinSample (dt input microvolt : Nat) (s : State) : Answer :=
  let s := s.elapse dt
  .next (s.when (s.isReady 3 && decide (input < 16) && s.now % 20000 == 0) (State.ainTake input microvolt))

end Sys2Proof.Machine
end

