-- ==== Sys2Proof/Machine/RgeOps.lean ====
section
/-! DEFINITION. A regulator context: its numbers, its test signals, banks and their swaps, injections and traces
(11_regulators.md). -/

namespace Sys2Proof.Machine

/-! ### Banks (R286, R291, R293) -/

/-- An arithmetic shift right. -/
def shiftRight (v : Int) (k : Nat) : Int := Int.fdiv v (2 ^ k : Nat)

/-- The feedforward table at a point (R291). -/
def tableAt (x : Int) : List (Int × Int) → Int
  | [] => 0
  | [p] => p.2
  | p :: q :: t =>
    if x < q.1 then (if x < p.1 then p.2 else p.2 + divTrunc ((x - p.1) * (q.2 - p.2)) (q.1 - p.1))
    else tableAt x (q :: t)

/-- Each point's x is at or above the one before it. -/
def risingFrom : Int → List (Int × Int) → List Bool
  | _, [] => []
  | x, p :: t => decide (x ≤ p.1) :: risingFrom p.1 t

/-- The shadow bank changed by `f`. -/
def Ctx.onShadow (f : Bank → Bank) (x : Ctx) : Ctx :=
  if x.bankSel then { x with bank0 := f x.bank0 } else { x with bank1 := f x.bank1 }

/-! ### Contexts: faults, sample instants, status -/

/-- A context's feedback kind (R286): LOOPBACK is context 0's, and only its. -/
def State.srcKindOf (s : State) (c : Nat) : Nat :=
  if c = 0 then 4 else if (s.ctx c).srcKind < 4 then (s.ctx c).srcKind else 0

/-- The sample period in ticks (R284). -/
def Ctx.periodTicks (x : Ctx) : Nat := usTicks * periodUs x.period

/-- SAMPLE_OFS in ticks: at most the period less 1 µs (R309). -/
def Ctx.offsetTicks (x : Ctx) : Nat := usTicks * min x.sampleOfs (periodUs x.period - 1)

/-- The latest sample instant at or before a tick (R284). -/
def Ctx.latest (x : Ctx) (tick : Nat) : Option Nat :=
  if tick < x.offsetTicks then none else some (tick - (tick - x.offsetTicks) % x.periodTicks)

/-- The first output phase at or after a tick (R284). -/
def Ctx.nextOutput (x : Ctx) (tick : Nat) : Nat :=
  let o := (x.offsetTicks + usTicks * x.outPhase) % x.periodTicks
  tick + (o + x.periodTicks - tick % x.periodTicks) % x.periodTicks

/-- REG_STATUS (R306) of a context for a sample instant. -/
def State.regStatus (c tick reason : Nat) (s : State) : State :=
  let x := s.ctx c
  s.report 0x47 0 tick
    [fld 16 1 c, fld 17 1 x.state.code, fld 18 1 reason,
     fld 19 1 (b2n x.bankSel + 2 * b2n x.clampHi + 4 * b2n x.clampLo + 8 * b2n x.inject.isSome + 16 * b2n x.tgtLost + 32 * b2n x.idle),
     sfld 20 4 x.r, sfld 24 4 x.f, sfld 28 4 x.y, sfld 32 4 x.ff, fld 36 4 x.samples.toNat, fld 40 2 x.lostCount, fld 42 1 x.cause,
     fld 48 8 (s.tbu.calField tick)]

/-! ### Swaps (R295-R297, R320) -/

/-- The history as a swap leaves it: a swap outside CLOSED changes the bank only (R296). -/
def Ctx.swapHistory (mode : Nat) (x : Ctx) : Ctx :=
  if x.state = .closed then
    match mode with
    | 1 => { x with presetNext := true }
    | 2 => { x with eHist := [0, 0, 0], hHist := [0, 0, 0] }
    | _ => x
  else x

/-- The descriptor of a swap completes once no context holds it any more (R295). -/
def State.swapDone (w : Option (Nat × Word)) (s : State) : State :=
  match w with
  | some i => if s.rge.ctxs.any fun e => e.2.swaps.any fun q => q.waiter == some i then s else s.finishAt i.1 i.2 stOk 0 0
  | none => s

/-- A context exchanges its banks for one request (R295, R297, R320). -/
def State.exchange (c : Nat) (q : SwapReq) (s : State) : State :=
  let before := s.fbScale c
  let s := s.onCtx c fun x => { (x.swapHistory q.mode) with bankSel := !x.bankSel, swaps := x.swaps.erase q }
  if q.byHost then (((s.onCtx c fun x => { x with hostOwnsShadow := false }).meterBase c).swapDone q.waiter)
  else (s.onCtx c fun x => { x with calStaged := false }).meterApplied c before

/-- The calibrator's correction falls to the host (R297). -/
def State.hostDiscards (c : Nat) (s : State) : State :=
  if (s.ctx c).calStaged then (s.dropCorrection c).ctxFault c 4 else s

/-- The swaps of a context that are due at a tick: the host's before the calibrator's (R297). -/
def State.swapsDue (c tick : Nat) (s : State) : State :=
  let due := (s.ctx c).swaps.filter fun q => decide (q.tick ≤ tick)
  let hosts := due.filter fun q => q.byHost
  if hosts.isEmpty then due.foldl (fun s q => s.exchange c q) s
  else hosts.foldl (fun s q => s.exchange c q) (if due.any (fun q => !q.byHost) then s.hostDiscards c else s)

/-- A context that is not enabled exchanges whatever waits, at once (R295). -/
def State.swapsNow (c : Nat) (s : State) : State := (s.ctx c).swaps.foldl (fun s q => s.exchange c q) s

/-! ### Injection (R301, R302) -/

/-- 2^(1/2^k) in 2^-120, for k = 1, 2, …: `n` of them. -/
def rootsOfTwo : Nat → Nat → List Nat
  | 0, _ => []
  | n + 1, r => let q := isqrt (r * 2 ^ 120); q :: rootsOfTwo n q

/-- 2^x in 2^-120 for a fraction x of which the list gives the roots of its bits, `bit` the first one's weight in `x`. -/
def powTwo : List Nat → Nat → Nat → Nat → Nat
  | [], _, _, acc => acc
  | q :: t, x, k, acc => powTwo t x (k - 1) (if x.testBit k then acc * q / 2 ^ 120 else acc)

/-- The fraction bits of log2 of m (2^-120, in 1 to 2): `n` bits. -/
def logBits : Nat → Nat → Nat → Nat
  | 0, _, acc => acc
  | n + 1, m, acc =>
    let q := m * m / 2 ^ 120
    if 2 ^ 121 ≤ q then logBits n (q / 2) (2 * acc + 1) else logBits n q (2 * acc)

/-- log2 of a natural number from 1 up, in 2^-80. -/
def log2Fix (v : Nat) : Nat := Nat.log2 v * 2 ^ 80 + logBits 80 (v * 2 ^ 120 / 2 ^ Nat.log2 v) 0

/-- 2^x in 2^-64 for an x in 2^-80. -/
def exp2Fix (x : Nat) : Nat :=
  powTwo (rootsOfTwo 80 (2 ^ 121)) (x % 2 ^ 80) 79 (2 ^ 120) * 2 ^ (x / 2 ^ 80) / 2 ^ 56

/-- f_j of a SWEEP in 0.1 Hz, in 2^-64 (R302). -/
def Inject.freq (i : Inject) : Nat :=
  let n := i.duration - 1
  if i.log then
    let a : Int := log2Fix i.p1
    exp2Fix (a + Int.fdiv (((log2Fix i.p2 : Nat) - a) * i.j) n).toNat
  else (((i.p1 : Int) * n + ((i.p2 : Int) - i.p1) * i.j) * 18446744073709551616 / n).toNat

/-- The feedback taps of the PRBS by order (R302). -/
def prbsTaps : Nat → List Nat
  | 7 => [7, 6]
  | 8 => [8, 6, 5, 4]
  | 9 => [9, 5]
  | 10 => [10, 7]
  | 11 => [11, 9]
  | 12 => [12, 6, 4, 1]
  | 13 => [13, 4, 3, 1]
  | 14 => [14, 5, 3, 1]
  | _ => [15, 14]

/-- One step of the PRBS register, stage k in bit k - 1 (R302). -/
def prbsNext (order v : Nat) : Nat :=
  let fb := ((prbsTaps order).filter fun k => v.testBit (k - 1)).length % 2
  (2 * v + fb) % 2 ^ order

/-- The SWEEP value (R302): one of the values within 2 codes of the exact one, `free` says which. -/
def sweepValue (amp : Int) (phase free : Nat) : Int :=
  let v := amp * sin30 (phase / 2 ^ 64 : Nat)
  let lo := -Int.fdiv (2147483648 - v) 1073741824
  let hi := Int.fdiv (v + 2147483648) 1073741824
  lo + (free % (hi - lo + 1).toNat : Nat)

/-- The injected value w at the j-th injected sample (R302). -/
def Inject.value (i : Inject) (free : Nat) : Int :=
  match i.wave with
  | 1 => i.amp
  | 2 => if i.j / max 1 i.p1 % 2 = 0 then i.amp else -i.amp
  | 3 => sweepValue i.amp i.phase free
  | _ => if i.lfsr.testBit (i.p1 - 1) then i.amp else -i.amp

/-- The injection once a sample has taken its value (R302). -/
def Inject.advance (i : Inject) (periodMicros : Nat) : Inject :=
  { i with
    j := i.j + 1
    phase := if i.wave = 3 then (i.phase + i.freq * periodMicros * 2 ^ 32 / 10000000) % 2 ^ 96 else i.phase
    lfsr := if i.wave = 4 ∧ (i.j + 1) % max 1 i.p2 = 0 then prbsNext i.p1 i.lfsr else i.lfsr }

/-- Injections that wait are aborted (R301). -/
def State.abortInjects (c : Nat) (s : State) : State :=
  let ws := (s.ctx c).injects
  (s.onCtx c fun x => { x with injects := [] }).finishAll stAborted 2 (ws.filterMap fun i => i.waiter)

/-- Leaving CLOSED ends the injections (R301): the reasons of REG_STATUS that this gives. -/
def State.leaveClosed (c : Nat) (s : State) : List Nat × State :=
  let ran := (s.ctx c).inject.isSome
  let s := s.abortInjects c
  if ran then ([4], (s.onCtx c fun x => { x with inject := none }).ctxFault c 3) else ([], s)

/-- A waiting injection reaches its first sample, or WAVE NONE stops the one that runs (R301). -/
def State.startInject (c : Nat) (r : List Nat × State) (i : Inject) : List Nat × State :=
  let ran := (r.2.ctx c).inject.isSome
  let s := r.2.onCtx c fun x => { x with inject := if i.wave = 0 then none else some { i with waiter := none } }
  let s := s.finishAll stOk 0 i.waiter.toList
  (r.1 ++ (if ran then [4] else []) ++ (if i.wave = 0 then [] else [3]), s)

/-- The injections of a sample: one that has run its DURATION ends, and the due ones start (R301). -/
def State.injectsDue (c tick : Nat) (s : State) : List Nat × State :=
  let x := s.ctx c
  let isOver := match x.inject with
    | some i => i.duration != 0 && decide (i.duration ≤ i.j)
    | none => false
  let s := if isOver then s.onCtx c fun x => { x with inject := none } else s
  let due := x.injects.filter fun i => decide (i.tick ≤ tick)
  let s := s.onCtx c fun x => { x with injects := x.injects.filter fun i => !decide (i.tick ≤ tick) }
  due.foldl (fun r i => State.startInject c r i) (if isOver then [4] else [], s)

/-! ### Traces (R303, R304) -/

def State.trace (s : State) (q : Nat) : Trace := Tbl.get {} s.rge.traces q

def State.onTrace (q : Nat) (f : Trace → Trace) (s : State) : State :=
  s.onRge fun r => { r with traces := Tbl.modify {} r.traces q f }

/-- Nodes selected. -/
def nodeCount (nodes : Nat) : Nat := ((List.range 8).filter fun i => nodes.testBit i).length

/-- The words of one kept sample, in node order (R303). -/
def Ctx.words (x : Ctx) (nodes : Nat) : List Word :=
  ([x.r, x.f, x.e, x.v, x.ff, x.w, x.y, x.raw].zipIdx.filter fun p => nodes.testBit p.2).map fun p => i32 p.1

/-- The trigger of a trace comes with a sample, whose events are REG_STATUS reasons (R303). -/
def Trace.triggers (t : Trace) (tick : Nat) (events : List Nat) : Bool :=
  t.trigIndex.isNone && (match t.trigger with
    | 0 => decide (t.atTick ≤ tick)
    | 1 => events.contains 3
    | 2 => events.contains 2
    | _ => events.contains 5)

/-- A trace takes a sample of its context (R303): the trigger sample is always kept. -/
def Trace.sample (t : Trace) (x : Ctx) (tick : Nat) (events : List Nat) : Trace :=
  let trig := t.triggers tick events
  if trig || t.skip == 0 then
    let t := { t with skip := t.decim - 1, trigIndex := if trig then some t.kept.length else t.trigIndex,
                      trigTick := if trig then tick else t.trigTick }
    let kept := x.words t.nodes :: t.kept
    if t.trigIndex.isNone then { t with kept := kept.take t.pre }
    else { t with kept, ended := decide (t.samples ≤ kept.length) }
  else { t with skip := t.skip - 1 }

/-- The traces of a context take its sample. -/
def State.traceSample (c tick : Nat) (events : List Nat) (s : State) : State :=
  (List.range 4).foldl (fun s q =>
    let t := s.trace q
    if t.busy && !t.ended && t.context == c then s.onTrace q fun t => t.sample (s.ctx c) tick events else s) s

/-- The traces of a context that leaves ENABLE end (R304). -/
def State.traceOff (c : Nat) (s : State) : State :=
  (List.range 4).foldl (fun s q =>
    let t := s.trace q
    if t.busy && !t.ended && t.context == c then s.onTrace q fun t => { t with ended := true, status := 2 } else s) s

/-! ### Targets (R288, R289) -/

/-- An OUTPUT record to a remote target for a tick (R215, R289). -/
def State.sendOutput (addr tick : Nat) (y : Int) (s : State) : State :=
  s.queueRec (addr / 65536) (addr / 256 % 256)
    { endpoint := addr % 256, kind := 5, tag := tagOf tick, value := toTwos 24 y, tick }

/-- A context's output on its way to its target, for its output phase (R284, R288, R289). -/
def State.emit (c tick : Nat) (y : Int) (s : State) : State :=
  let x := s.ctx c
  let s := s.noteTarget c
  if x.remote then
    (if s.targetLost c then s else (s.sendOutput x.tgtAddr tick y).onCtx c fun x => { x with lastOut := tick })
  else if x.bound.isSome then s.onCtx c fun x => { x with outs := x.outs ++ [(tick, y)] }
  else s

/-- What comes with the end of ENABLE: waiting swaps act, traces end (R295, R304). -/
def State.leaveEnable (c : Nat) (s : State) : State := (s.swapsNow c).traceOff c

end Sys2Proof.Machine
end

