-- ==== Sys2Proof/Machine/Calib.lean ====
section
/-! DEFINITION. The commands of live calibration (12_live_calibration.md). -/

namespace Sys2Proof.Machine

/-! ### CAL_POLICY (R321) -/

def delayPolicyChecks (d : DescBits) : List (Bool × Nat) :=
  [flagCheck d 0, (inRange 1 63 (dfield d 17 1), 17), (decide (dfield d 18 1 ≤ 2), 18),
    (decide (dfield d 19 1 < 8) && !(dfield d 32 1 == 0 && (dfield d 19 1).testBit 2), 19),
    (decide (dfield d 20 2 ≤ 1000), 20), (inRange 1 200 (dfield d 22 2), 22), (inRange 1 10000 (dfield d 24 2), 24),
    (decide (1 ≤ dfield d 26 1), 26), (decide (dfield d 27 1 ≤ 7), 27), (decide (1 ≤ dfield d 28 2), 28),
    (inRange 1 100 (dfield d 33 1), 33)] ++ zeroBytes d 36 28

/-- A context that a METER policy may name (R321). -/
def State.meterContext (s : State) (c : Nat) : Bool :=
  decide (1 ≤ c) && (s.ctx c).spProduct && ((s.ctx c).srcKind == 1 || (s.ctx c).srcKind == 3)

def State.meterPolicyChecks (s : State) (d : DescBits) : List (Bool × Nat) :=
  [flagCheck d 0, (s.meterContext (dfield d 17 1), 17), (decide (dfield d 18 1 ≤ 2), 18), (decide (dfield d 19 1 ≤ 1), 19),
    (decide (dfield d 20 1 ≤ 15), 20), (decide (dfield d 21 1 ≤ 2), 21), (inRange 1 200 (dfield d 22 2), 22),
    (inRange 10 3600 (dfield d 26 2), 26), (!(dfield d 28 4 == 0 && dfield d 19 1 == 0), 28),
    (inRange 100 10000 (dfield d 32 2), 32)] ++ zeroBytes d 34 30

def parseDelayPol (d : DescBits) : DelayPol :=
  { mode := dfield d 18 1, sources := dfield d 19 1, deadband := dfield d 20 2, stepMax := dfield d 22 2, maxDev := dfield d 24 2,
    minSamples := dfield d 26 1, avgShift := dfield d 27 1, outlier := dfield d 28 2, coilLag := dsfield d 30 2,
    respContext := dfield d 32 1, stepMin := dfield d 33 1, respLag := dsfield d 34 2 }

/-- The estimates and staged values of a product's delays fall away (R321). -/
def State.dropProductCal (p : Nat) (s : State) : State :=
  (s.lca.delays.filter fun e => (s.entry (e.1 / 2)).product = p ∧ (e.2.est.isSome = true ∨ e.2.staged.isSome = true)).foldl
    (fun s e => s.discardCal (e.1 / 2) (e.1 % 2) e.2.base) s

def State.setDelayPol (p : Nat) (v : DelayPol) (s : State) : State :=
  let s := s.onLca fun l => { l with pols := Tbl.set {} l.pols p v }
  if v.mode = 0 then s.dropProductCal p else s

/-- A METER policy starts, or ends (R318-R321). -/
def State.setMeterPol (d : DescBits) (s : State) : State :=
  let c := dfield d 17 1
  let capture := dfield d 19 1 == 1
  let demand := Tbl.get 0 s.gle.demand (s.ctx c).product
  let s := if dfield d 18 1 = 0 then s.dropCorrection c else s
  let s := s.onMeter c fun m =>
    { mode := dfield d 18 1, refCapture := capture, pressAin := dfield d 20 1, swapMode := dfield d 21 1, factorMax := dfield d 22 2,
      pressZero := dfield d 24 2, updateS := dfield d 26 2, rhoRefCfg := dfield d 28 4, steadyMs := dfield d 32 2,
      rhoRef := if capture then none else some (dfield d 28 4), startOptime := s.tbu.optime, startTick := s.now,
      lastOptime := s.tbu.optime, staged := m.staged, steadyDemand := demand, steadyTick := s.now }
  s.meterBase c

def execCalPolicy (dt ring : Nat) (s : State) : Answer :=
  .next ((s.elapse dt).runDesc ring 0x15 fun x s =>
    let d := x.desc
    match dfield d 16 1 with
    | 0 => s.checked ring (delayPolicyChecks d) fun s => (s.setDelayPol (dfield d 17 1) (parseDelayPol d)).finishHead ring stOk 0 0
    | 1 => s.checked ring (s.meterPolicyChecks d) fun s => (s.setMeterPol d).finishHead ring stOk 0 0
    | _ => s.checked ring [flagCheck d 0, (false, 16)] id)

/-! ### COIL (R311) -/

/-- How long a coil search of an endpoint lasts, µs. -/
def State.coilWindow (s : State) (ep : Nat) : Nat := min (20 * (s.entry ep).onDelay) 100000

/-- A local ON's search may give a sample at a time after the ON: the opening has no hold mode, or its pull-in reaches that
far (R245, R311). -/
def State.fullConduction (s : State) (n us : Nat) : Bool :=
  let c := s.chan n
  !(c.pullin || c.hold) || decide (us ≤ 1000 * c.pullinTime)

/-- The search of R311 over the current's 12-bit codes, 10 µs apart (R251): the least code `low`, at sample `at_`, of a dip
of at least 8 codes below the peak `peak` before it, once the current has risen 8 codes again. `i` is the next sample. -/
def firstMinimum : List Nat → Nat → Nat → Nat → Nat → Option Nat
  | [], _, _, _, _ => none
  | v :: t, i, peak, low, at_ =>
    if low + 8 ≤ peak ∧ low + 8 ≤ v then some at_
    else if v < low then firstMinimum t (i + 1) peak v i
    else if low + 8 ≤ peak then firstMinimum t (i + 1) peak low at_
    else if peak ≤ v then firstMinimum t (i + 1) v v i
    else firstMinimum t (i + 1) peak low at_

/-- t_c in µs, searched over `window` µs (R311). -/
def coilMinimum (codes : List Nat) (window : Nat) : Option Nat :=
  match codes.take (window / 10 + 1) with
  | [] => none
  | v :: t => (firstMinimum t 1 v v 0).map fun i => 10 * i

/-- What a finished search gives (R311). -/
def State.coilResult (n : Nat) (minimumUs : Option Nat) (s : State) : State :=
  let ep := localBase + n
  let p := s.polOf ep
  let out := (s.chan n).out
  let s := s.onChan n fun c => { c with coil := none }
  if out && s.polUses p 0 then
    match minimumUs with
    | some v => if s.fullConduction n v then s.delaySample 1 ep 0 (v + p.coilLag) else s
    | none => if s.fullConduction n 0 then s.notDetected else s
  else s

/-- The samples of a coil search since the ON: it ends with the first minimum, or at the end of its window. -/
def execCoilSample (dt channel : Nat) (codes : List Nat) (s : State) : Answer :=
  let s := s.elapse dt
  let w := s.coilWindow (localBase + channel)
  let found := coilMinimum codes w
  .next (match (s.chan channel).coil with
    | some t0 =>
      let ended := found.isSome || decide (t0 + w * usTicks ≤ s.now)
      s.when (s.chanExists channel && decide (t0 + 10 * (codes.length - 1) * usTicks ≤ s.now) && ended) (State.coilResult channel found)
    | none => s)

/-! ### FLOW (R312) -/

/-- The mean of a context's feedback over a span of ticks, in 1/65,536, if there is a sample in it. -/
def Lca.meanOver (l : Lca) (c lo hi : Nat) : Option Int :=
  let vs := (l.respHist.filter fun h => h.1 = c ∧ lo ≤ h.2.1 ∧ h.2.1 ≤ hi).map fun h => h.2.2.1
  if vs.isEmpty then none else some (Int.fdiv (vs.foldl (· + ·) 0 * 65536) vs.length)

/-- t_x: the first sample after a tick that has moved half the step. -/
def Lca.halfway (l : Lca) (c lo hi : Nat) (pre post : Int) : Option Nat :=
  let hs := (l.respHist.filter fun h => h.1 = c ∧ lo < h.2.1 ∧ h.2.1 ≤ hi).reverse
  (hs.find? fun h =>
    let moved := 2 * (h.2.2.1 * 65536 - pre)
    if pre ≤ post then decide (post - pre ≤ moved) else decide (moved ≤ post - pre)).map fun h => h.2.1

/-- The endpoints that a valve effect at a tick closes, with their d_ev. -/
def Lca.closing (l : Lca) (product tick : Nat) : List (Nat × Nat) :=
  (l.effHist.filter fun h => h.1 = product ∧ h.2.1 = tick ∧ h.2.2.1 = false).map fun h => (h.2.2.2.1, h.2.2.2.2)

/-- The oldest close of a product whose step has not been judged and whose window has ended. -/
def State.flowDue (s : State) (product : Nat) : Option Nat :=
  (s.lca.effHist.filter fun h =>
    h.1 = product ∧ h.2.2.1 = false ∧ Tbl.get 0 s.lca.flowDone product < h.2.1 + 1 ∧ h.2.1 + 60 * msTicks ≤ s.now).getLast?.map
    fun h => h.2.1

/-- The conditions of R312 that do not depend on the feedback. -/
def State.flowAllowed (s : State) (product t : Nat) (p : DelayPol) : Bool :=
  let ds := (s.lca.closing product t).map Prod.snd
  let inWindow (tick : Nat) : Bool := decide (t ≤ tick + 20 * msTicks) && decide (tick ≤ t + 60 * msTicks)
  s.polUses p 2 && decide (1 ≤ p.respContext) &&
    (s.lca.respHist.all fun h => h.1 != p.respContext || !inWindow h.2.1 || h.2.2.2) &&
    !(s.lca.effHist.any fun h => h.1 == product && h.2.1 != t && inWindow h.2.1) &&
    decide (ds.foldl max 0 ≤ ds.foldl min 65535 + 100)

/-- An endpoint's node reports SEAT (R312). -/
def State.reportsSeat (s : State) (ep : Nat) : Bool := !isLocalEp ep && (s.node (ep / 65536) (ep / 256 % 256)).hasSeat

/-- The FLOW samples of one close (R311, R312). -/
def State.flowSamples (product t : Nat) (s : State) : State :=
  let p := s.delayPol product
  let s := s.onLca fun l => { l with flowDone := Tbl.set 0 l.flowDone product (t + 1) }
  if s.flowAllowed product t p then
    let c := p.respContext
    match s.lca.meanOver c (t - 20 * msTicks) (t - 10 * msTicks), s.lca.meanOver c (t + 40 * msTicks) (t + 60 * msTicks) with
    | some pre, some post =>
      if p.stepMin * pre.natAbs ≤ 100 * (post - pre).natAbs then
        match s.lca.halfway c (t - 10 * msTicks) (t + 60 * msTicks) pre post with
        | some tx => (s.lca.closing product t).foldl (fun s e =>
            if s.reportsSeat e.1 then s
            else s.delaySample 3 e.1 1 (10 * (e.2 : Int) + Int.fdiv ((tx : Int) - t) usTicks - p.respLag)) s
        | none => s
      else s
    | _, _ => s
  else s

def execFlowStep (dt product : Nat) (s : State) : Answer :=
  let s := s.elapse dt
  .next (match s.flowDue product with
    | some t => s.when (s.isReady 3) (State.flowSamples product t)
    | none => s)

/-! ### METER (R319, R320) -/

/-- An update is due: UPDATE_S have passed, with 10 s of steady samples, and nothing holds it (R297, R319, R320). -/
def State.meterDue (s : State) (c : Nat) : Bool :=
  let m := s.meterPol c
  s.isReady 3 && m.mode != 0 && m.rhoRef.isSome && m.staged.isNone && !(s.ctx c).hostOwnsShadow &&
    decide (m.startTick + m.updateS * secTicks ≤ s.now) && s.tenSeconds c m.count

/-- A context that is not enabled swaps the correction in at once (R295). -/
def execMeterUpdate (dt context : Nat) (s : State) : Answer :=
  let s := s.elapse dt
  .next (s.when (s.meterDue context) fun s =>
    let s := s.meterUpdate context
    if (s.ctx context).enable then s else s.swapsNow context)

end Sys2Proof.Machine
end

