-- ==== Sys2Proof/Machine/ReadyOps.lean ====
section
/-! DEFINITION. Ready bits: setting, losing, and what the loss of one reports (R21, R78, R360, R361). -/

namespace Sys2Proof.Machine

/-- The interrupt source of a ready bit (R360): AON's has none, which a FAULT report shows as 0xFFFF (R78). -/
def readySource (b : Nat) : Nat :=
  if b = 0 then 0xFFFF else if b = 1 then 52 else if b < 7 then 478 + b else if b < 12 then 216 + b else 244 + b

/-- The ready bits of a domain (R358, R360). -/
def readyBits : Nat → List Nat
  | 1 => [1]
  | 2 => [4]
  | 3 => [5]
  | 4 => [6]
  | 5 => [8, 9, 10, 11, 12, 13]
  | 6 => [3]
  | 7 => [2]
  | _ => []

/-- The domain of a ready bit. -/
def readyDomain (b : Nat) : Nat :=
  match b with
  | 0 => 0
  | 1 => 1
  | 2 => 7
  | 3 => 6
  | 4 => 2
  | 5 => 3
  | 6 => 4
  | _ => 5

/-- A ready bit sets or clears; the time of a setting is kept in µs from the release of POR_N (R361). -/
def State.putReady (b : Nat) (v : Bool) (s : State) : State :=
  s.onPrs fun p =>
    if v then
      { p with ready := p.ready ||| BitVec.ofNat 14 (2 ^ b), readyUs := Tbl.set 0 p.readyUs b ((s.tbu.wall - p.porTick) / usTicks) }
    else { p with ready := p.ready &&& ~~~(BitVec.ofNat 14 (2 ^ b)) }

/-- A ready bit changes and raises its source, where it has one (R360, R361). -/
def State.setReady (b : Nat) (v : Bool) (s : State) : State :=
  if s.isReady b = v then s else if b = 0 then s.putReady b v else (s.putReady b v).raise (readySource b)

/-- FAULT READY_LOST of a ready bit (R21, R78). -/
def State.readyFault (b : Nat) (s : State) : State := s.faultReport 0x0001 b (readySource b) (s.readPrs 0x18).toNat 0

end Sys2Proof.Machine
end

