-- ==== Sys2Proof/Machine/WardOps.lean ====
section
/-! DEFINITION. The ward as the warded settings see it, and the faults of PRS (R8, R370, R374). -/

namespace Sys2Proof.Machine

/-- A bit of PRS_FAULT sets, and SUPERVISOR is raised (R374). -/
def State.prsFault (i : Nat) (s : State) : State :=
  (s.onPrs fun p => { p with fault := setFlag p.fault s.cycle i }).raise 487

/-- The tick at which an OPEN ward expires (R368). -/
def Prs.wardEnd (p : Prs) : Nat := p.wardTick + 120 * secTicks

/-- The ward is OPEN, the BUS cycle of its expiry has not come, and SVC_J was strapped where the setting also asks for it
(R370, R372); a BUS cycle is 2 ticks. -/
def State.wardAllows (s : State) (needsSvcJ : Bool) : Bool :=
  s.prs.ward == .opened && decide (s.now / 2 < s.prs.wardEnd / 2) && (!needsSvcJ || s.prs.svcJ)

/-- The warded settings as they stand, for a CLOSE in this BUS cycle (R372). -/
def State.wardImage (s : State) : WardUndo :=
  { cycle := s.now / 2, count := 0, channels := s.nv.channels, safeOut := s.nv.safeOut, ambHost := s.nv.ambHost,
    sealEnable := s.nv.sealEnable, snapSets := s.nv.snapSets, work := s.evr.work, lostTimeMs := s.hre.lostTimeMs,
    policySafe := s.hre.policySafe, continueLimit := s.hre.continueLimit, domainId := s.mpg.domainId, trigEn := s.evr.trigEn }

/-- A warded write counts as accepted (R368). Called before the write takes its effect. -/
def State.wardAccept (s : State) : State :=
  let u := if s.prs.wardUndo.cycle = s.now / 2 ∧ s.prs.wardUndo.count ≠ 0 then s.prs.wardUndo else s.wardImage
  s.onPrs fun p => { p with wardAccepted := p.wardAccepted + 1, wardUndo := { u with count := u.count + 1 } }

/-- A warded write is refused and counted (R8, R370). -/
def State.wardRefuse (s : State) : State :=
  (s.onPrs fun p => { p with wardRefused := satAdd 0xFFFF p.wardRefused 1 }).prsFault 1

/-- A register write judged under the ward (R8, R370): `changes` says of each warded field whether the write would change
it and whether it may. A field that would change and may not makes the write
refused, counted once; one that changes counts as accepted. -/
def State.warded (changes : List (Bool × Bool)) (s : State) : State :=
  if changes.any fun c => c.1 && !c.2 then s.wardRefuse
  else if changes.any fun c => c.1 then s.wardAccept
  else s

end Sys2Proof.Machine
end

