-- ==== Sys2Proof/Machine/FieldLink.lean ====
section
/-! DEFINITION. The commands of the Adehaet field links (08_links.md). Nodes are named by their port, in a ring the even one
of the pair (R208), and their number. -/

namespace Sys2Proof

/-- A frame that a receiver drops (R205). -/
def FrameHead.isBad (h : FrameHead) (etherType : Nat) : Bool :=
  h.vlan || decide (h.etherType ≠ etherType) || decide (h.version ≠ 1) || !h.fcsOk

end Sys2Proof

namespace Sys2Proof.Machine

/-! ### Ports (R204, R206, R208, R210) -/

def State.fieldPort (s : State) (p : Nat) : Bool := decide (p < Config.fieldPorts s.part)

/-- A field port's own link is up and the port enabled. -/
def State.portUp (s : State) (p : Nat) : Bool := (s.port p).linked && s.flp.portEn.getLsbD p

/-- The port whose number a port's nodes carry (R208). -/
def State.nodePort (s : State) (p : Nat) : Nat := if s.inRing p then p / 2 * 2 else p

/-- PSTATE of a field port now (R234). -/
def State.fieldState (s : State) (p : Nat) : PState :=
  if !(s.port p).linked then .down
  else if !s.flp.portEn.getLsbD p then .up
  else if s.inRing p && p % 2 == 1 then .secondary
  else .running

/-- A port's, or a ring pair's, new SESSION as it starts beating (R210). -/
def State.newSession (p : Nat) (s : State) : State :=
  let last := (s.port p).lastSession
  let v := (last + 1 + Config.freeSessionStep p s.flp.freeCount % 65535) % 65536
  let f (q : Port) : Port := { q with session := v, lastSession := v, beatFrom := s.now }
  let s := (s.onPort p f).onFlp fun l => { l with freeCount := l.freeCount + 1 }
  if s.inRing p then s.onPort (p + 1) f else s

/-- The endpoints of a node that ESC or the ground still count (R16). -/
def State.nodeEps (s : State) (p n : Nat) : List Nat :=
  (s.gle.dyn.map Prod.fst).filter fun ep => ep < localBase ∧ ep / 256 = 256 * p + n

/-- The endpoints of a port. -/
def State.portEps (s : State) (p : Nat) : List Nat :=
  (s.gle.dyn.map Prod.fst).filter fun ep => ep < localBase ∧ ep / 65536 = p

/-- A node's endpoints lose their path (R16, R221). -/
def State.nodePathLost (p n : Nat) (s : State) : State := ((s.nodeEps p n).foldl (fun s ep => s.pathLost ep) s).noteTargets

/-- A port, or both ports of a ring, no longer carry frames: its endpoints lose their path, and no SAFE record is sent
(R21, R221). -/
def State.portStops (p : Nat) (s : State) : State :=
  let s := s.onFlp fun l => { l with nodes := l.nodes.map fun e => if e.1 / 256 = p then (e.1, { e.2 with sendSafe := false }) else e }
  ((s.portEps p).foldl (fun s ep => s.pathLost ep) s).noteTargets

/-- A node's endpoints that ESC holds on find their path again (R16; assumption log 158). -/
def State.nodePathBack (p n : Nat) (s : State) : State :=
  ((s.nodeEps p n).foldl (fun s ep => if s.hasPath ep then s.pathBack ep else s) s).noteTargets

/-- A port carries frames again: the endpoints of its present nodes find their path (R16; assumption log 158). -/
def State.portStarts (p : Nat) (s : State) : State :=
  ((s.portEps p).foldl (fun s ep => if s.hasPath ep then s.pathBack ep else s) (s.newSession p)).noteTargets

/-- A ring whose pair no longer runs on both ports is OPEN (R208). -/
def State.refreshRing (pair : Nat) (s : State) : State :=
  let p := 2 * pair
  if (s.port p).ringClosed && !(s.inRing p && s.portUp p && s.portUp (p + 1)) then
    ((s.onPort p fun q => { q with ringClosed := false }).raise (240 + pair)).fieldStatus p 8 0 0
  else s

/-- PSTATE brought up to date, with its source and LINK_STATUS (R234, R235). -/
def State.refreshState (p : Nat) (s : State) : State :=
  let old := (s.port p).state
  let new := s.fieldState p
  if old = new then s
  else
    let s := (s.onPort p fun q => { q with state := new }).raise (224 + p)
    if old = .down then s.fieldStatus p 1 0 0
    else if new = .down then ((s.fieldStatus p 2 0 0).record 0x0601 p []).readyFault (8 + p)
    else s

/-- A change of links or settings of FLP takes effect: `f` changes them. -/
def State.changePorts (f : State → State) (s : State) : State :=
  let ps := List.range (Config.fieldPorts s.part)
  let was := ps.filter fun p => s.portExists p && s.portRuns p
  let s := f s
  let s := ((ps.foldl (fun s p => s.refreshState p) s).refreshRing 0).refreshRing 1
  ps.foldl (fun s p =>
    if s.portExists p then
      if s.portRuns p && !was.contains p then s.portStarts p
      else if !s.portRuns p && was.contains p then s.portStops p
      else s
    else s) s

/-- A field port's SGMII in-band word changes (R204). -/
def State.fieldWord (p : Nat) (w : LinkWord) (s : State) : State :=
  let q := s.port p
  let up := w == .up
  let bad := w == .wrongSpeed
  let s := if up = q.linked ∧ bad = q.speedBad then s
    else s.changePorts fun s => (s.onPort p fun q => { q with linked := up, speedBad := bad }).putReady (8 + p) up
  if bad && !q.speedBad then (s.onFlp fun l => { l with fault := setFlag l.fault s.cycle 3 }).fieldStatus p 16 0 0 else s

/-- FLP_CTRL (R236): a RING bit stands while either port of its pair is enabled. -/
def State.flpCtrl (v : Word) (s : State) : State :=
  s.changePorts fun s => s.onFlp fun l =>
    { l with portEn := BitVec.ofNat 4 (bits v 0 4 % 2 ^ Config.fieldPorts s.part)
             ring01 := if bits (BitVec.ofNat 32 l.portEn.toNat) 0 2 = 0 then bit v 4 && s.fieldPort 1 else l.ring01
             ring23 := if bits (BitVec.ofNat 32 l.portEn.toNat) 2 2 = 0 then bit v 5 && s.fieldPort 3 else l.ring23 }

/-! ### Beats (R211, R222) -/

/-- The latest beat instant. -/
def State.beatInstant (s : State) : Nat := s.now / msTicks * msTicks

/-- A BEAT of a port or a ring pair at an instant (R211), with the SAFE records of R221. -/
def State.sendBeat (b p : Nat) (s : State) : State :=
  let q := s.port p
  let s := s.sendAde p 1 0 (q.beatCount.toNat)
    [fld 0 8 b, fld 16 4 q.beatCount.toNat, fld 20 1 s.flp.timeout,
     fld 21 1 (b2n s.prs.planned.isSome + 2 * b2n (s.inRing p) + 4 * b2n s.tbu.calValid), fld 24 8 (s.tbu.calField b)] []
  let s := s.onPort p fun q => { q with beatCount := q.beatCount + 1 }
  (s.flp.nodes.filter fun e => e.1 / 256 = p ∧ e.2.sendSafe = true).foldl
    (fun s e => s.queueRec p (e.1 % 256) { endpoint := 0, kind := 7, tag := 0, value := 0 }) s

/-- The ports or pairs that take the beat of an instant. -/
def State.beating (s : State) (b : Nat) : List Nat :=
  (List.range (Config.fieldPorts s.part)).filter fun p => s.portExists p && s.portRuns p && decide ((s.port p).beatFrom ≤ b)

def execBeatSend (dt : Nat) (s : State) : Answer :=
  let s := s.elapse dt
  let b := s.beatInstant
  let ps := s.beating b
  .next (s.when (decide (s.flp.beatTick < b) && !ps.isEmpty) fun s =>
    let s := ps.foldl (fun s p => s.sendBeat b p) (s.onFlp fun l => { l with beatTick := b })
    s.onPrs fun r => { r with planned := r.planned.map fun g => if g.tick < b then { g with fences := g.fences + 1 } else g })

/-! ### Commands to nodes (R215-R218) -/

/-- The records of a node's next frame: at most 180, an ON_PWM and its PWM_GRID together (R215, R216). -/
def takeRecs (rs : List CmdRec) : List CmdRec :=
  let a := rs.take 180
  if decide (180 < rs.length) && (a.getLast?.map fun r => r.kind) == some 3 then rs.take 179 else a

/-- A record's bytes (R215); PWM_GRID packs period and phase. -/
def CmdRec.fields (r : CmdRec) : List Fld := [fld 0 1 r.endpoint, fld 1 1 r.kind, fld 2 3 r.tag, fld 5 3 r.value]

/-- A COMMAND frame goes out (R215). -/
def State.sendCommand (p n : Nat) (f : SentFrame) (s : State) : State := s.sendAde p 2 n f.seq [] (f.records.map CmdRec.fields)

/-- A frame for a node is due (R216). -/
def State.frameDue (s : State) (p n : Nat) : Bool :=
  let d := s.node p n
  s.portExists p && s.portRuns p && !d.waiting.isEmpty &&
    (decide (180 ≤ d.waiting.length) || decide (d.waitTick + 50 * usTicks ≤ s.now))

def execCommandFrameSend (dt port node : Nat) (s : State) : Answer :=
  let s := s.elapse dt
  .next (s.when (s.frameDue port node) fun s =>
    let d := s.node port node
    let rs := takeRecs d.waiting
    let f : SentFrame :=
      { seq := (d.seq + 1) % 65536, records := rs, sentTick := s.now }
    (s.sendCommand port node f).onNode port node fun d =>
      { d with seq := f.seq, waiting := d.waiting.drop rs.length, sent := d.sent ++ [f] })

/-- ACK_WAIT has passed for a frame, and it may go out again (R218). -/
def State.ackDue (s : State) (f : SentFrame) : Bool :=
  decide (f.sentTick + s.flp.ackWait * 100 * usTicks ≤ s.now) && decide (f.retries < s.flp.retry)

/-- The frames before the first one whose wait is over, and the rest. -/
def State.splitDue (s : State) : List SentFrame → List SentFrame × List SentFrame
  | [] => ([], [])
  | f :: t => if s.ackDue f then ([], f :: t) else let r := s.splitDue t; (f :: r.1, r.2)

def execAckWaitExpiry (dt port node : Nat) (s : State) : Answer :=
  let s := s.elapse dt
  let r := s.splitDue (s.node port node).sent
  .next (s.when (s.portExists port && s.portRuns port && !r.2.isEmpty) fun s =>
    (r.2.foldl (fun s f => s.sendCommand port node f) s).onNode port node fun d =>
      { d with sent := r.1 ++ r.2.map fun f => { f with sentTick := s.now, retries := f.retries + 1 } })

/-- A record that is a command with a tag of its own (R215, R218). -/
def CmdRec.isCommand (r : CmdRec) : Bool := r.kind == 1 || r.kind == 2 || r.kind == 3 || r.kind == 5

/-- A command's time for acknowledgement is over (R218). -/
def CmdRec.lateAt (r : CmdRec) (tick : Nat) : Bool := r.isCommand && !r.counted && decide (r.tick + 10 * msTicks ≤ tick)

/-- Commands go unacknowledged (R218). -/
def State.countUnacked (p k : Nat) (s : State) : State :=
  if k = 0 then s else (s.onPort p fun q => { q with unacked := satAdd 0xFFFFFFFF q.unacked k }).flpFault 0 (232 + p)

/-- A node's records whose time is over, and the node once they are counted. A record not yet sent falls away, and a frame
goes once it has no repeat left and nothing in it to count. -/
def State.lateRecs (s : State) (d : Node) : Nat × Node :=
  let late (r : CmdRec) : Bool := r.lateAt s.now
  let k := (d.waiting.filter late).length + ((d.sent.map fun f => (f.records.filter late).length).foldl (· + ·) 0)
  let sent := d.sent.map fun f => { f with records := f.records.map fun r => if late r then { r with counted := true } else r }
  (k, { d with
    waiting := d.waiting.filter fun r => !late r
    sent := sent.filter fun f => decide (f.retries < s.flp.retry) || f.records.any fun r => r.isCommand && !r.counted })

def execUnacked (dt port node : Nat) (s : State) : Answer :=
  let s := s.elapse dt
  let r := s.lateRecs (s.node port node)
  .next (s.when (s.portExists port && decide (0 < r.1)) fun s => (s.onNode port node fun _ => r.2).countUnacked port r.1)

/-! ### Reports (R207, R219, R221) -/

/-- A frame is dropped on a field port (R205). -/
def State.badField (p : Nat) (s : State) : State :=
  (s.onPort p fun q => { q with badFrame := count32 q.badFrame }).flpFault 2 247

/-- The beat interval of a tick. -/
def beatOf (tick : Nat) : Nat := tick / msTicks

/-- An acknowledged command takes effect at the ground (R15, R218); one acknowledged too late counts. -/
def State.ackRec (p : Nat) (s : State) (r : CmdRec) : State :=
  if r.counted || !r.isCommand then s
  else if r.lateAt s.now then s.countUnacked p 1
  else match r.effect with
    | some v => s.addEffect v
    | none => s

/-- ACK_SEQ of a node: its frames up to there are acknowledged (R218). -/
def State.takeAck (p n ack : Nat) (s : State) : State :=
  let acked (f : SentFrame) : Bool := !precedes16 ack f.seq
  let done := ((s.node p n).sent.filter acked).flatMap fun f => f.records
  let s := s.onNode p n fun d => { d with ackSeq := ack, sent := d.sent.filter fun f => !acked f }
  done.foldl (fun s r => s.ackRec p r) s

/-- One entry of a REPORT (R219). -/
def State.takeEntry (p n : Nat) (s : State) (e : ReportEntry) : State :=
  match e.kind with
  | 0x10 => (s.onNode p n fun d => { d with hasSeat := true }).seatSample (65536 * p + 256 * n + e.endpoint) e.tag e.value
  | 0x11 => (s.onPort p fun q => { q with reject := count32 q.reject }).raise (236 + p)
  | 0x12 => s.onNode p n fun d => { d with feedback := Tbl.set none d.feedback e.endpoint (some (e.tag, fromTwos 24 e.value)) }
  | 0x14 => (s.onPort p fun q => { q with reject := count32 q.reject }).raise (236 + p)
  | _ => s

/-- Two nodes of one number, by their HOP within one beat interval (R207). -/
def State.dupNode (s : State) (d : Node) (r : NodeReport) : Bool :=
  d.seen && beatOf d.lastReportTick == beatOf s.now && d.hop != r.hop

/-- A REPORT's bearing on DUP_NODE (R207). -/
def State.takeDup (p : Nat) (r : NodeReport) (s : State) : State :=
  let d := s.node p r.node
  if s.dupNode d r then
    let s := (s.onNode p r.node fun d => { d with dup := true, singleBeats := 0 }).flpFault 1 246
    if d.dup then s else s.fieldStatus p 7 r.node 0
  else if beatOf d.lastReportTick = beatOf s.now then s
  else s.onNode p r.node fun d => { d with singleBeats := d.singleBeats + 1 }

/-- A REPORT's NSTATUS (R219, R221). -/
def State.takeNstatus (p : Nat) (r : NodeReport) (s : State) : State :=
  let d := s.node p r.node
  let follows := beatOf d.lastReportTick + 1 == beatOf s.now || beatOf d.lastReportTick == beatOf s.now
  let count := if r.safe && r.syncOk then (if d.seen && follows then d.safeBeats else 0) +
      (if d.seen && beatOf d.lastReportTick == beatOf s.now then 0 else 1) else 0
  let s := s.onNode p r.node fun d =>
    { d with present := true, safe := r.safe, syncOk := r.syncOk, seen := true, hop := r.hop, endpoints := r.endpoints,
             lastBeat := r.beatSeen, lastReportTick := s.now, safeBeats := count, sendSafe := d.sendSafe && !r.safe,
             repSeqs := (r.seq :: d.repSeqs).take 8 }
  let s := if d.present then s else (s.raise (228 + p)).fieldStatus p 3 r.node 0
  let s := if (d.present && !d.safe) || r.safe then s else s.nodePathBack p r.node
  let s := if r.safe && !d.safe then ((s.raise (228 + p)).fieldStatus p 5 r.node 0).nodePathLost p r.node else s
  if d.syncOk && !r.syncOk then (s.flpFault 4 (242 + p)).fieldStatus p 15 r.node 0 else s

/-- A REPORT frame (R208, R219). In a ring the later copy of a report is dropped. -/
def State.takeReport (p : Nat) (r : NodeReport) (s : State) : State :=
  if s.inRing p && (s.node p r.node).repSeqs.contains r.seq then s
  else
    let s := (s.takeDup p r).takeNstatus p r
    r.entries.foldl (fun s e => s.takeEntry p r.node e) (s.takeAck p r.node r.ackSeq)

def execNodeReport (dt port : Nat) (r : NodeReport) (s : State) : Answer :=
  let s := s.elapse dt
  .next (s.when (s.fieldPort port && s.portUp port && decide (r.node < 256)) fun s =>
    if r.head.isBad s.flp.etherType then s.badField port else s.takeReport (s.nodePort port) r)

def execNodeLost (dt port node : Nat) (s : State) : Answer :=
  let s := s.elapse dt
  let d := s.node port node
  .next (s.when (s.powered 5 && d.present && decide (beatOf d.lastReportTick + 4 ≤ beatOf s.now)) fun s =>
    let s := (s.onNode port node fun d => { d with present := false, safeBeats := 0, repSeqs := [], sendSafe := s.portRuns port }).raise (228 + port)
    ((s.fieldStatus port 4 node 0).record 0x0602 (256 * port + node) []).nodePathLost port node)

/-- ESC holds a node's endpoints off; they are evaluated afresh (R111, R221). -/
def State.holdNodeOff (p n : Nat) (s : State) : State :=
  (s.nodeEps p n).foldl (fun s ep => s.onDyn ep fun d =>
    { d with heldOn := false, probe := d.probe.map fun b => { b with last := none } }) s

def execNodeRelease (dt port node : Nat) (s : State) : Answer :=
  let s := s.elapse dt
  let d := s.node port node
  .next (s.when (s.portExists port && s.portRuns port && d.present && d.safe && decide (s.flp.recover ≤ d.safeBeats)) fun s =>
    let s := (s.onNode port node fun d => { d with safeBeats := 0 }).queueRec port node { endpoint := 0, kind := 6, tag := 0, value := 0 }
    ((s.holdNodeOff port node).raise (228 + port)).fieldStatus port 6 node 0)

def execDupNodeClear (dt port node : Nat) (s : State) : Answer :=
  let s := s.elapse dt
  let d := s.node port node
  let whole := d.singleBeats - b2n (beatOf d.lastReportTick == beatOf s.now)
  .next (s.when (s.powered 5 && d.dup && decide (100 ≤ whole)) fun s => s.onNode port node fun d => { d with dup := false })

/-- A ring opens or closes as its BEATs stop or resume returning (R208). -/
def execFieldRingChange (dt pair : Nat) (closed : Bool) (s : State) : Answer :=
  let s := s.elapse dt
  let p := 2 * pair
  .next (s.when (s.fieldPort (p + 1) && s.inRing p && s.portUp p && s.portUp (p + 1) && (s.port p).ringClosed != closed) fun s =>
    ((s.onPort p fun q => { q with ringClosed := closed }).raise (240 + pair)).fieldStatus p (if closed then 9 else 8) 0 0)

/-! ### DELAY_REQ (R213) -/

/-- The body of a delay frame. -/
def delayBody (t1 t2 t3 : Nat) : List Fld := [fld 0 8 t1, fld 8 8 t2, fld 16 8 t3]

/-- An arrival and a departure as the SGMII side stamps them, in 2^-16 ns, at the timestamp point (R205). -/
def Port.arrival (p : Port) (t : Nat) : Nat := t - 65536 * p.rxNs
def Port.departure (p : Port) (t : Nat) : Nat := t + 65536 * p.txNs

/-- A field port answers a DELAY_REQ (R213): SEQ is the request's. -/
def State.answerField (port seq t1 t2 t3 : Nat) (s : State) : State :=
  let q := s.port port
  s.sendFrame { link := 0, port, type := 5, seq := seq % 65536, session := q.session, body := delayBody t1 (q.arrival t2) (q.departure t3) }

/-! ### NODE_WRITE (R223-R225) -/

def nodeWriteChecks (d : DescBits) : List (Bool × Nat) :=
  [flagCheck d 0, (decide (dfield d 20 1 < 2), 20), (inRange 1 8 (dfield d 21 1), 21)] ++ zeroBytes d 22 2 ++ zeroBytes d 34 30

/-- A WRITE that touches a node's warded settings (R224). -/
def touchesWarded (d : DescBits) : Bool :=
  dfield d 20 1 == 0 && decide (dfield d 18 2 < 0x60) && decide (0x20 < dfield d 18 2 + dfield d 21 1)

/-- The WRITE frame of a NODE_WRITE (R225). -/
def State.sendWrite (w : WritePend) (s : State) : State :=
  s.sendAde w.port 6 w.node w.token
    [fld 0 2 w.token, fld 2 2 w.addr, fld 4 1 w.op, fld 5 1 w.count, fld 8 8 w.data] []

/-- A NODE_WRITE starts: its first frame goes out (R225). -/
def State.startWriteNode (ring : Nat) (d : Slot) (s : State) : State :=
  let b := d.desc
  let t := dfield b 32 2
  let w : WritePend :=
    { ring, index := d.index, port := dfield b 16 1, node := dfield b 17 1, addr := dfield b 18 2, op := dfield b 20 1,
      count := dfield b 21 1, data := if dfield b 20 1 = 0 then dfield b 24 8 % 2 ^ (8 * dfield b 21 1) else 0,
      token := Config.freeToken s.flp.freeCount % 65536, startTick := s.now, lastTick := s.now,
      timeoutMs := if t = 0 then 10 else t }
  ((s.onFlp fun l => { l with writes := l.writes ++ [w], freeCount := l.freeCount + 1 }).sendWrite w).startHead ring []

def execNodeWrite (dt ring : Nat) (s : State) : Answer :=
  .next ((s.elapse dt).runDesc ring 0x14 fun d s =>
    s.checked ring (nodeWriteChecks d.desc) fun s =>
      if touchesWarded d.desc then
        if s.wardAllows false then s.wardAccept.startWriteNode ring d else s.wardRefuse.finishHead ring stWarded 0 0
      else s.startWriteNode ring d)

/-- The first of the NODE_WRITEs that passes a test, and the others. -/
def takeWrite (f : WritePend → Bool) : List WritePend → Option (WritePend × List WritePend)
  | [] => none
  | w :: t => if f w then some (w, t) else (takeWrite f t).map fun r => (r.1, w :: r.2)

/-- TIMEOUT_MS of a NODE_WRITE has passed. -/
def WritePend.isOver (w : WritePend) (tick : Nat) : Bool := decide (w.startTick + w.timeoutMs * msTicks ≤ tick)

def execNodeWriteResend (dt ring : Nat) (s : State) : Answer :=
  let s := s.elapse dt
  .next (match takeWrite (fun w => w.ring == ring && decide (w.lastTick + 2 * msTicks ≤ s.now) && !w.isOver s.now) s.flp.writes with
    | some (w, t) => s.when (s.powered 5) fun s =>
        (s.onFlp fun l => { l with writes := t ++ [{ w with lastTick := s.now }] }).sendWrite w
    | none => s)

def execNodeWriteTimeout (dt ring : Nat) (s : State) : Answer :=
  let s := s.elapse dt
  .next (match takeWrite (fun w => w.ring == ring && w.isOver s.now) s.flp.writes with
    | some (w, t) => (s.onFlp fun l => { l with writes := t }).finishAt ring w.index stAborted 1 0
    | none => s)

/-- A WRITE_RESP answers its NODE_WRITE (R225). -/
def State.takeWriteResp (port token status : Nat) (data : List Byte) (s : State) : State :=
  match takeWrite (fun w => w.port == s.nodePort port && w.token == token) s.flp.writes with
  | some (w, t) =>
    let s := s.onFlp fun l => { l with writes := t }
    if status ≠ 0 then s.finishAt w.ring w.index stAborted (0x100 + status) 0
    else if w.op = 1 then s.finishAt w.ring w.index stOk (wordAt data 0 4) (wordAt data 4 4)
    else s.finishAt w.ring w.index stOk 0 0
  | none => s

def execWriteResp (dt port : Nat) (h : RespHead) (status : Nat) (data : List Byte) (s : State) : Answer :=
  let s := s.elapse dt
  .next (s.when (s.fieldPort port && s.portUp port) fun s =>
    if h.head.isBad s.flp.etherType then s.badField port else s.takeWriteResp port h.token status data)

end Sys2Proof.Machine
end

