-- ==== Sys2Proof/Machine/PoseOps.lean ====
section
/-! DEFINITION. The fusion of PSE: prediction, measurements at their own tick, gates, exclusion and re-initialisation
(06_pose_geometry.md). Lengths are in 1/65,536 mm, angles 2^32 to the turn. -/

namespace Sys2Proof.Machine

/-- "Within the last 200 ms" of R172 and R174. -/
def recent (last : Option Nat) (tick : Nat) : Bool :=
  match last with
  | some k => decide (tick < k + 200 * msTicks)
  | none => false

/-- A source was accepted within the last 200 ms. -/
def Filter.heard (f : Filter) (src tick : Nat) : Bool :=
  match Tbl.get 0 f.acc src with
  | 0 => false
  | k + 1 => recent (some k) tick

/-- The model that takes a vehicle fix: MOUNTED 0 or TRAILED 1, the model in force or its FALLBACK (R160, R172). -/
def Pse.vehModel (p : Pse) : Option Nat :=
  if p.model.model < 2 then some p.model.model
  else match p.model.fallback with
    | 0 => none
    | k + 1 => some k

/-! ### Prediction (R164, R166) -/

/-- The field velocity of a point (x, y) mm fixed to a body, 1/65,536 mm/s. -/
def PoseState.pointVel (p : PoseState) (x y : Int) : Int × Int :=
  let sx := p.yawSpeed x
  let sy := p.yawSpeed y
  let sn := sin30 p.heading
  let cs := cos30 p.heading
  (Int.fdiv (p.speed * sn + sx * cs + sy * sn) 1073741824, Int.fdiv (p.speed * cs - sx * sn + sy * cs) 1073741824)

/-- A pose carried on along the path of R100. -/
def PoseState.carry (p : PoseState) (tick : Nat) : PoseState :=
  let a := p.ahead ((tick : Int) - p.tick)
  { p with tick, east := a.1, north := a.2.1, heading := (toTwos 32 a.2.2 : Nat) }

/-- The hitch kinematics of R164 carry the heading: while vehicle positions are accepted (R172). -/
def Pse.hitched (p : Pse) (f : Filter) : Bool :=
  p.vehModel == some 1 && f.pose.sHdg.isSome && !f.standstill && (p.model.model == 1 || !recent f.lastPrimary f.pose.tick) &&
    (match f.vehicle with | some v => recent v.posTick f.pose.tick | none => false)

/-- One step of R164 from a vehicle pose: the implement's heading follows the hitch, its reference moves with it. -/
def Pse.hitchStep (p : Pse) (q : PoseState) (v : PoseState) (tick : Nat) : PoseState :=
  let g := p.model
  let dt : Int := (tick : Int) - q.tick
  let vel := v.pointVel g.towX g.towY
  let across := Int.fdiv (vel.1 * cos30 q.heading - vel.2 * sin30 q.heading) 1073741824
  let yaw := Int.fdiv (across * 65536000000000) (max 1 (g.hitchX - g.axleX) * 6283185307)
  let heading : Int := (toTwos 32 (q.heading + Int.fdiv (yaw * dt) 200000000) : Nat)
  let h0 := v.centre g.towX g.towY
  let h1 := (v.carry tick).centre g.towX g.towY
  { q with tick, heading, yaw,
           east := q.east + (h1.1 - h0.1) - (rotE g.hitchX 0 heading - rotE g.hitchX 0 q.heading),
           north := q.north + (h1.2 - h0.2) - (rotN g.hitchX 0 heading - rotN g.hitchX 0 q.heading) }

/-- Growth of a 1-sigma over a time at a rate in whole units a second. -/
def grow (sigma rate dt : Nat) : Nat := sigma + rate * 65536 * dt / secTicks

/-- sigma_pos of R166 at a tick. -/
def Pse.sigmaPos (p : Pse) (f : Filter) (q : PoseState) (tick : Nat) : Option Nat :=
  match f.posTick, q.sHdg, q.sSpd with
  | some k, some sh, some sv =>
    let t := tick - k
    some (f.sPos0 + (sv + p.posGrowth * 65536) * t / secTicks +
      q.speed.natAbs * sh * 6283185307 / 4294967296000000000 * t / secTicks)
  | some k, _, _ => if tick ≤ k then some f.sPos0 else none
  | none, _, _ => none

/-- The state carried on to a tick (R100, R164, R166, R170). -/
def Pse.predict (p : Pse) (f : Filter) (tick : Nat) : Filter :=
  if tick ≤ f.pose.tick then f
  else
    let dt := tick - f.pose.tick
    let q := f.pose
    let moved : PoseState :=
      if f.standstill then { q with tick }
      else match f.vehicle with
        | some v => if p.hitched f then p.hitchStep q v.pose tick else q.carry tick
        | none => q.carry tick
    let moved := { moved with sHdg := q.sHdg.map fun s => grow s p.hdgGrowth dt,
                              sSpd := q.sSpd.map fun s => if recent f.lastSpd tick then s else grow s p.posGrowth dt }
    { f with pose := { moved with sPos := p.sigmaPos f moved tick },
             vehicle := f.vehicle.map fun v => { v with pose := v.pose.carry tick } }

/-! ### Corrections (R167) -/

/-- The gate: a component never measured takes any value. -/
def Pse.passes (p : Pse) (s : Option Nat) (innov : Int) (sm : Nat) : Bool :=
  match s with
  | none => true
  | some ss => decide (innov.natAbs * innov.natAbs ≤ p.gate * p.gate * (ss * ss + sm * sm))

/-- What a correction adds to a component. -/
def gain (s : Option Nat) (innov : Int) (sm : Nat) : Int :=
  match s with
  | none => innov
  | some ss => if ss * ss + sm * sm = 0 then 0 else divHalfUp (innov * (ss * ss : Nat)) (ss * ss + sm * sm)

/-- The 1-sigma after a correction. -/
def mixed (s : Option Nat) (sm : Nat) : Nat :=
  match s with
  | none => sm
  | some ss => if ss * ss + sm * sm = 0 then 0 else isqrt (ss * ss * (sm * sm) / (ss * ss + sm * sm))

/-- What became of one source's measurement: its value at the reference and its 1-sigma; `yaw`: a yaw rate, which counts
apart from the quantity the source stands for. -/
structure Took where
  src : Nat
  ok : Bool
  sigma : Nat
  a : Int
  b : Int
  yaw : Bool := false
  deriving DecidableEq, Repr

/-- The fusion's state with what has been taken so far. -/
abbrev Fused := Filter × List Took

def Filter.accept (f : Filter) (src : Nat) : Filter := { f with acc := Tbl.set 0 f.acc src (f.pose.tick + 1) }

/-- A position at the implement reference. -/
def Pse.takePos (p : Pse) (src : Nat) (e n : Int) (sm : Nat) (r : Fused) : Fused :=
  let f := r.1
  let q := f.pose
  let ok := p.passes q.sPos (e - q.east) sm && p.passes q.sPos (n - q.north) sm
  let t : Took := { src, ok, sigma := sm, a := e, b := n }
  if ok then
    let s := mixed q.sPos sm
    (({ f with pose := { q with east := q.east + gain q.sPos (e - q.east) sm, north := q.north + gain q.sPos (n - q.north) sm,
                                sPos := some s },
               sPos0 := s, posTick := some q.tick }).accept src, r.2 ++ [t])
  else (f, r.2 ++ [t])

/-- A yaw rate of a source with the 1-sigma of a heading (R167); in STANDSTILL it is held at 0 (R170). -/
def Pse.takeYaw (p : Pse) (src : Nat) (yaw : Int) (sHdg : Nat) (r : Fused) : Fused :=
  let f := r.1
  let q := f.pose
  let sm := 200 * sHdg
  if f.standstill then r
  else if p.passes q.sYaw (yaw - q.yaw) sm then
    ({ f with pose := { q with yaw := q.yaw + gain q.sYaw (yaw - q.yaw) sm, sYaw := some (mixed q.sYaw sm) } }, r.2)
  else (f, r.2 ++ [{ src, ok := false, sigma := sm, a := yaw, b := 0, yaw := true }])

/-- Where a heading stands in the order of R172: 0 primary, 1 FALLBACK, 2 course over ground. -/
def Filter.rankHdg (f : Filter) (level : Nat) : Filter :=
  let t := some f.pose.tick
  let f := { f with hdgTick := t }
  match level with
  | 0 => { f with lastPrimary := t }
  | 1 => { f with lastFallback := t }
  | _ => { f with lastCog := t }

/-- A heading of the implement; `derive`: the yaw rate takes its derivative (R167). -/
def Pse.takeHdg (p : Pse) (src level : Nat) (h : Int) (sm : Nat) (derive : Bool) (r : Fused) : Fused :=
  let f := r.1
  let q := f.pose
  let d := angleDiff h q.heading
  let ok := p.passes q.sHdg d sm
  let t : Took := { src, ok, sigma := sm, a := h, b := 0 }
  if ok then
    let g := ({ f with pose := { q with heading := (toTwos 32 (q.heading + gain q.sHdg d sm) : Nat), sHdg := some (mixed q.sHdg sm) },
                       lastHdg := some (q.tick, h) }.accept src).rankHdg level
    match f.lastHdg with
    | some (k, h0) =>
      if derive && decide (k < q.tick) then
        p.takeYaw src (Int.fdiv (angleDiff h h0 * 200000000) ((q.tick : Int) - k)) sm (g, r.2 ++ [t])
      else (g, r.2 ++ [t])
    | none => (g, r.2 ++ [t])
  else (f, r.2 ++ [t])

/-- The sources of each quantity in the order of R168. -/
def posSources : List Nat := [0, 5, 2]
def hdgSources : List Nat := [1, 13, 12, 6, 3]
def spdSources : List Nat := [7, 14, 4, 8, 9, 10, 11]

/-- STANDSTILL (R170): below 10 mm/s with every accepted speed source at 0. -/
def Filter.still (f : Filter) : Bool :=
  decide (f.pose.speed.natAbs < 655360) && spdSources.all fun k => !(f.heard k f.pose.tick) || !f.moving.contains k

/-- A forward speed of the reference; `zero`: the source itself reads 0. -/
def Pse.takeSpd (p : Pse) (src : Nat) (v : Int) (sm : Nat) (zero : Bool) (r : Fused) : Fused :=
  let f := r.1
  let q := f.pose
  let ok := p.passes q.sSpd (v - q.speed) sm
  let t : Took := { src, ok, sigma := sm, a := v, b := 0 }
  if ok then
    let g := { f with pose := { q with speed := q.speed + gain q.sSpd (v - q.speed) sm, sSpd := some (mixed q.sSpd sm) },
                      lastSpd := some q.tick,
                      moving := if zero then f.moving.filter (fun k => k != src) else src :: f.moving.filter fun k => k != src }.accept src
    let st := g.still
    (if st then { g with standstill := true, pose := { g.pose with speed := 0, yaw := 0 } } else { g with standstill := false }, r.2 ++ [t])
  else (f, r.2 ++ [t])

/-- `k` where a source takes part. -/
def part (m : PFix) (src : Nat) (k : Fused → Fused) (r : Fused) : Fused := if m.skip.contains src then r else k r

/-! ### The field frame (R157) -/

/-- x·y in 2^-60. -/
def mul60 (x y : Int) : Int := Int.fdiv (x * y) 1152921504606846976

/-- The sine of an angle of the first quarter turn in 10^-7 degrees, in 2^-60: the Taylor series to the 25th power. -/
def sinQuarter60 (u : Int) : Int :=
  let x := Int.fdiv (3622009729038561421 * u) 1800000000
  let x2 := mul60 x x
  let one : Int := 1152921504606846976
  mul60 x ([24, 22, 20, 18, 16, 14, 12, 10, 8, 6, 4, 2].foldl (fun t k => one - Int.fdiv (mul60 x2 t) (k * (k + 1))) one)

/-- The sine of an angle in 10^-7 degrees, in 2^-60. -/
def sinDeg (u : Int) : Int :=
  let v := Int.fmod u 3600000000
  let q := Int.fmod v 900000000
  if v < 900000000 then sinQuarter60 q
  else if v < 1800000000 then sinQuarter60 (900000000 - q)
  else if v < 2700000000 then -sinQuarter60 q
  else -sinQuarter60 (900000000 - q)

def cosDeg (u : Int) : Int := sinDeg (u + 900000000)

/-- The earth-centred place of the origin on the WGS 84 ellipsoid, in 1/65,536 mm (R157): a = 6,378,137 m, e² in 2^-60. -/
def Pse.originXyz (p : Pse) : Int × Int × Int :=
  let sp := sinDeg p.originLat
  let e2 : Int := 7718094650643697
  let w : Int := isqrt ((1152921504606846976 - mul60 e2 (mul60 sp sp)) * 1152921504606846976).toNat
  let n := Int.fdiv (6378137000 * 65536 * 1152921504606846976) w
  let h := 65536 * p.originHeight
  let r := mul60 (n + h) (cosDeg p.originLat)
  (mul60 r (cosDeg p.originLon), mul60 r (sinDeg p.originLon), mul60 (n - mul60 e2 n + h) sp)

/-- An earth-centred displacement as east, north and up at the origin (R157). -/
def Pse.rotateEnu (p : Pse) (x y z : Int) : Int × Int × Int :=
  let sp := sinDeg p.originLat
  let cp := cosDeg p.originLat
  let sl := sinDeg p.originLon
  let cl := cosDeg p.originLon
  let out := mul60 x cl + mul60 y sl
  (mul60 y cl - mul60 x sl, mul60 z cp - mul60 out sp, mul60 out cp + mul60 z sp)

/-- An earth-centred position in mm as field-frame east, north and up, in 1/65,536 mm (R157). -/
def Pse.toField (p : Pse) (x y z : Int) : Int × Int × Int :=
  let o := p.originXyz
  p.rotateEnu (65536 * x - o.1) (65536 * y - o.2.1) (65536 * z - o.2.2)

/-! ### The models (R162-R165, R169) -/

/-- ROLL_COMP can act: a lateral baseline under SELF_MEASURED (R162). -/
def Pse.rollOn (p : Pse) : Bool :=
  p.model.model == 2 && p.model.rollComp && decide ((p.model.antAX - p.model.antBX).natAbs ≤ 100)

/-- An angle in radians of 1/65,536 units over a length: sigma / length, 2^32 to the turn. -/
def radSigma (sigma len : Nat) : Nat := sigma * 4294967296000000000 / (max 1 len * 6283185307)

/-- The hitch-line measurement of R164: from antenna A at (e, n) to the hitch of the vehicle. -/
def Pse.hitchLine (p : Pse) (v : VehicleFix) (e n : Int) (sA : Nat) : Int × Nat :=
  let g := p.model
  let h := v.pose.centre g.towX g.towY
  let az := headingOf (h.1 - e) (h.2 - n) - atan2 g.antAY (g.hitchX - g.antAX)
  ((toTwos 32 az : Nat), radSigma (isqrt (sA * sA + v.sigma * v.sigma)) (hypot (h.1 - e) (h.2 - n)))

/-- The level of R172 of what belongs to a model: primary under it, FALLBACK under another. -/
def Pse.levelOf (p : Pse) (model : Nat) : Nat := if p.model.model = model then 0 else 1

/-- The azimuth of the antenna baseline in the implement frame, beta of R162. -/
def Model.beta (g : Model) : Int := atan2 (-(g.antBY - g.antAY)) (g.antBX - g.antAX)

/-- How far ROLL_COMP moves the reference along the implement y axis, towards the low side, by the baseline's elevation
(R162). -/
def Pse.rollShift (p : Pse) (elev : Option Int) : Int :=
  let g := p.model
  let low : Int := if g.antBY < g.antAY then 1 else if g.antAY < g.antBY then -1 else 0
  match elev with
  | some v => if p.rollOn then divHalfUp (low * g.antAZ * sin30 v) 1073741824 else 0
  | none => 0

/-- The measurements of the own GNSS solution under the model of their tick (R162, R164, R168, R169). -/
def Pse.applyOwn (p : Pse) (m : PFix) (f : Filter) : Fused :=
  let g := p.model
  let r : Fused := (f, [])
  let r := match m.hdg with
    | some (az, sm) => if g.model = 2 then part m 1 (p.takeHdg 1 0 (toTwos 32 (az - g.beta) : Nat) sm true) r else r
    | none => r
  let r := match m.pos, r.1.vehicle with
    | some (e, n, sm), some v =>
      if p.vehModel = some 1 ∧ recent v.posTick m.tick = true then
        let hl := p.hitchLine v e n sm
        part m 13 (p.takeHdg 13 (p.levelOf 1) hl.1 hl.2 false) r
      else r
    | _, _ => r
  let r := match m.pos with
    | some (e, n, sm) =>
      if g.model = 3 ∧ g.fallback = 0 then r
      else
        let psi := r.1.pose.heading
        part m 0 (p.takePos 0 (e - rotE g.antAX (g.antAY - p.rollShift m.elev) psi)
          (n - rotN g.antAX (g.antAY - p.rollShift m.elev) psi) sm) r
    | none => r
  match m.vel with
  | some (ve, vn, sm) =>
    let q := r.1.pose
    let len := hypot ve vn
    let along := Int.fdiv (ve * sin30 q.heading + vn * cos30 q.heading) 1073741824
    let v : Int := if q.sHdg.isSome then along - q.yawSpeed g.antAY else len
    let r := part m 7 (p.takeSpd 7 v sm (len == 0)) r
    if decide (65536 * p.cogMin ≤ len) && !r.1.standstill && !(g.model == 1 && r.1.pose.sHdg.isNone) then
      part m 12 (p.takeHdg 12 2 (headingOf ve vn) (radSigma sm len) true) r
    else r
  | none => r

/-- The time master's pose under FOLLOW (R165). -/
def Pse.applyRing (p : Pse) (m : PFix) (f : Filter) : Fused :=
  let g := p.model
  let psi := match m.hdg with
    | some (h, _) => h
    | none => f.pose.heading
  let r : Fused := (f, [])
  let r := match m.pos with
    | some (e, n, sm) => part m 5 (p.takePos 5 (e + rotE g.followX g.followY psi) (n + rotN g.followX g.followY psi) sm) r
    | none => r
  let r := match m.hdg with
    | some (h, sm) => part m 6 (fun r =>
        let r := p.takeHdg 6 0 h sm m.yaw.isNone r
        match m.yaw with
        | some y => p.takeYaw 6 y sm r
        | none => r) r
    | none => r
  match m.spd with
  | some (v, sm) =>
    let w : PoseState := { f.pose with yaw := m.yaw.getD f.pose.yaw }
    part m 14 (p.takeSpd 14 (v + w.yawSpeed g.followY) sm (v == 0)) r
  | none => r

/-- The 1-sigma of a yaw rate that comes without a heading. -/
def Filter.yawSigma (f : Filter) (m : PFix) : Nat :=
  match m.hdg with
  | some (_, sm) => sm
  | none => f.pose.sHdg.getD 0

/-- EXT_FIX at the implement reference, and under every model (R160, R175). -/
def Pse.applyImplement (p : Pse) (m : PFix) (f : Filter) : Fused :=
  let r : Fused := (f, [])
  let r := match m.pos with
    | some (e, n, sm) => part m 2 (p.takePos 2 e n sm) r
    | none => r
  let r := match m.hdg with
    | some (h, sm) => part m 3 (p.takeHdg 3 (if p.model.model < 2 then 0 else 1) h sm m.yaw.isNone) r
    | none => r
  let r := match m.yaw with
    | some y => part m 3 (p.takeYaw 3 y (f.yawSigma m)) r
    | none => r
  match m.spd with
  | some (v, sm) => part m 4 (p.takeSpd 4 v sm (v == 0)) r
  | none => r

/-- The vehicle as an AT_VEHICLE fix leaves it: what the fix does not give stays as it was (R163, R164). -/
def Pse.vehicleOf (p : Pse) (m : PFix) (f : Filter) : VehicleFix :=
  let q := f.pose
  let old : PoseState := match f.vehicle with
    | some v => v.pose
    | none => { q with heading := (toTwos 32 (q.heading - 65536 * p.model.mountYaw) : Nat) }
  let heading := match m.hdg with
    | some (h, _) => h
    | none => old.heading
  let speed := match m.spd with
    | some (v, _) => v
    | none => old.speed
  let yaw := match m.yaw with
    | some y => y
    | none => if p.vehModel = some 0 then q.yaw else old.yaw
  { (f.vehicle.getD { pose := old }) with pose := { old with tick := m.tick, heading, speed, yaw } }

/-- EXT_FIX at the vehicle reference under MOUNTED (R163). -/
def Pse.applyMounted (p : Pse) (m : PFix) (f : Filter) : Fused :=
  let g := p.model
  let v := p.vehicleOf m f
  let q := v.pose
  p.applyImplement { m with pos := m.pos.map fun x => (x.1 + rotE g.towX g.towY q.heading, x.2.1 + rotN g.towX g.towY q.heading, x.2.2),
                            hdg := m.hdg.map fun x => ((toTwos 32 (x.1 + 65536 * g.mountYaw) : Nat), x.2),
                            spd := m.spd.map fun x => (x.1 + q.yawSpeed g.towY, x.2) } { f with vehicle := some v }

/-- EXT_FIX at the vehicle reference under TRAILED (R164). -/
def Pse.applyTrailed (p : Pse) (m : PFix) (f : Filter) : Fused :=
  let g := p.model
  let v := p.vehicleOf m f
  let level := p.levelOf 1
  let r : Fused := ({ f with vehicle := some v }, [])
  let r := match m.hdg with
    | some (h, sm) => part m 3 (fun r =>
        let t : Took := { src := 3, ok := true, sigma := sm, a := h, b := 0 }
        let q := r.1.pose
        if q.sHdg.isNone then
          (({ r.1 with pose := { q with heading := (toTwos 32 (h + 65536 * g.mountYaw) : Nat), sHdg := some (sm + 134217728) } }.accept
            3).rankHdg level, r.2 ++ [t])
        else (r.1.accept 3, r.2 ++ [t])) r
    | none => r
  let r := match m.pos with
    | some (e, n, sm) => part m 2 (fun r =>
        let q := r.1.pose
        let h := ({ v.pose with east := e, north := n } : PoseState).centre g.towX g.towY
        let r' := p.takePos 2 (h.1 - rotE g.hitchX 0 q.heading) (h.2 - rotN g.hitchX 0 q.heading) sm r
        match r'.2.getLast? with
        | some t =>
          if t.ok then
            let f := { r'.1 with vehicle := some { v with pose := { v.pose with east := e, north := n }, posTick := some m.tick, sigma := sm } }
            (if f.pose.sHdg.isSome then f.rankHdg level else f, r'.2)
          else r'
        | none => r') r
    | none => r
  match m.spd with
  | some (w, sm) => part m 4 (fun r =>
      let q := r.1.pose
      let vel := v.pose.pointVel g.towX g.towY
      let along := if q.sHdg.isSome then Int.fdiv (vel.1 * sin30 q.heading + vel.2 * cos30 q.heading) 1073741824 else w
      let r' := p.takeSpd 4 along sm (w == 0) r
      match r'.2.getLast?, f.vehicle with
      | some t, some old =>
        if t.ok then r'
        else ({ r'.1 with vehicle := r'.1.vehicle.map fun x => { x with pose := { x.pose with speed := old.pose.speed } } }, r'.2)
      | _, _ => r') r
  | none => r

/-- A re-initialisation: the quantity takes the measurement as it is (R171). -/
def Pse.applyForced (p : Pse) (m : PFix) (f : Filter) : Fused :=
  let src := m.skip.headD 0
  let f := match m.pos with
    | some (e, n, sm) =>
      ({ f with pose := { f.pose with east := e, north := n, sPos := some sm }, sPos0 := sm, posTick := some m.tick }).accept src
    | none => f
  match m.hdg with
  | some (h, sm) =>
    let level := if src = 12 then 2 else if src = 13 then p.levelOf 1 else if src = 3 ∧ 2 ≤ p.model.model then 1 else 0
    ((({ f with pose := { f.pose with heading := h, sHdg := some sm }, lastHdg := some (m.tick, h) }).accept src).rankHdg level, [])
  | none => (f, [])

/-- One source's measurements applied at their tick. -/
def Pse.applyFix (p : Pse) (m : PFix) (f : Filter) : Fused :=
  let f := p.predict f m.tick
  if m.forced then p.applyForced m f
  else match m.rank with
    | 0 => p.applyOwn m f
    | 1 => p.applyRing m f
    | 2 =>
      if m.vehicle then
        match p.vehModel with
        | some 0 => p.applyMounted m f
        | some _ => p.applyTrailed m f
        | none => (f, [])
      else p.applyImplement m f
    | k =>
      match m.spd with
      | some (v, sm) =>
        let v : Int := if m.unsigned then (if f.pose.speed < 0 then -v.natAbs else v.natAbs) else v
        part m (5 + k) (p.takeSpd (5 + k) v sm (v == 0)) (f, [])
      | none => (f, [])

/-! ### Measurements at their own tick (R155, R168) -/

/-- The fusion's state before its first epoch. -/
def Pse.fresh (p : Pse) : Filter := { pose := { tick := p.histFloor - 1 } }

/-- The state carried to a tick through the measurements of a list that lie after it. -/
def Pse.run (p : Pse) (ms : List PFix) (f : Filter) (tick : Nat) : Filter :=
  p.predict ((ms.filter fun m => decide (f.pose.tick < m.tick) && decide (m.tick ≤ tick)).foldl (fun f m => (p.applyFix m f).1) f) tick

/-- The latest kept epoch before a tick. -/
def Pse.before (p : Pse) (tick : Nat) : Filter :=
  (p.filters.find? fun f => decide (f.pose.tick < tick)).getD p.fresh

/-- A measurement in its place: by tick, then by R168, then by arrival. -/
def insertFix (m : PFix) : List PFix → List PFix
  | [] => [m]
  | x :: t => if m.tick < x.tick ∨ (m.tick = x.tick ∧ m.rank < x.rank) then m :: x :: t else x :: insertFix m t

/-- A MODEL in force from an epoch: the history and what was accepted under the old one are gone (R161, R168, R173). -/
def Pse.withModel (p : Pse) (g : Model) (e : Nat) : Pse :=
  { p with model := g, hist := [], filters := [], fixes := p.fixes.filter (fun m => decide (e ≤ m.tick) && !m.forced), histFloor := e,
           valid := false, validSince := e, epochTick := none }

/-- PSE as a measurement of a tick finds it: a MODEL that waits applies at the next epoch before any measurement of it
(R168). -/
def Pse.dueAt (p : Pse) (tick : Nat) : Pse :=
  match p.modelWaits.getLast?, p.epochTick with
  | some w, some k => if k + 1000000 ≤ tick then p.withModel w.model (k + 1000000) else p
  | _, _ => p

/-- What becomes of a measurement at its tick. -/
def Pse.judgeFix (p : Pse) (m : PFix) : List Took :=
  let p := p.dueAt m.tick
  let ms := p.fixes.filter fun x => decide (x.tick < m.tick) || (x.tick == m.tick && decide (x.rank ≤ m.rank))
  (p.applyFix m (p.run ms (p.before m.tick) m.tick)).2

/-- A measurement kept, and the epochs from its tick on propagated again. -/
def Pse.addFix (p : Pse) (m : PFix) : Pse :=
  let p := { p with fixes := insertFix m p.fixes }
  let newer := p.filters.takeWhile fun f => decide (m.tick ≤ f.pose.tick)
  let older := p.filters.drop newer.length
  { p with filters := newer.reverse.foldl (fun acc f => p.run p.fixes (acc.headD p.fresh) f.pose.tick :: acc) older }

/-! ### What a measurement counts for (R171, R176, R177) -/

/-- A PSE source with its fault bit (R176, R177). -/
def State.pseFault (bit src : Nat) (s : State) : State :=
  (s.onPse fun p => { p with fault := setFlag p.fault s.cycle bit }).raise src

def State.psrc (s : State) (k : Nat) : PSource := Tbl.get {} s.pse.srcs k

def State.onPsrc (k : Nat) (f : PSource → PSource) (s : State) : State :=
  s.onPse fun p => { p with srcs := Tbl.modify {} p.srcs k f }

/-- The PSE_REJECT index of a source (R177). -/
def rejectIndex (src : Nat) : Nat :=
  if src = 0 ∨ src = 7 then 0
  else if src = 1 ∨ src = 12 ∨ src = 13 then 1
  else if 2 ≤ src ∧ src ≤ 4 then 2
  else if 8 ≤ src ∧ src ≤ 11 then src - 4
  else 3

/-- A measurement that was rejected, stale or excluded counts (R177). -/
def State.countReject (src : Nat) (s : State) : State :=
  s.onPse fun p => { p with rejectCount := Tbl.modify 0 p.rejectCount (rejectIndex src) count32 }

/-- A source is excluded now (R171). -/
def State.excluded (s : State) (src : Nat) : Bool :=
  match (s.psrc src).excludedUntil with
  | some t => decide (s.now < t)
  | none => false

/-- The sources of the quantity that a source measures. -/
def sameQuantity (src : Nat) : List Nat :=
  if posSources.contains src then posSources else if hdgSources.contains src then hdgSources else spdSources

/-- A rejected measurement joins its source's run; the run keeps the one with the least sigma, the latest of equals. -/
def PSource.reject (c : PSource) (tick : Nat) (t : Took) : PSource :=
  let first := c.rejects == 0
  let better := first || decide (t.sigma < c.bestSigma) || (t.sigma == c.bestSigma && decide (c.bestTick ≤ tick))
  { c with rejects := c.rejects + 1, runTick := if first then tick else c.runTick, lastTick := tick,
           bestTick := if better then tick else c.bestTick, bestSigma := if better then t.sigma else c.bestSigma,
           bestA := if better then t.a else c.bestA, bestB := if better then t.b else c.bestB }

/-- Sources of a quantity whose runs of rejections have reached REJECT_N. -/
def State.runsOut (s : State) (ks : List Nat) : List Nat := ks.filter fun k => decide (s.pse.rejectN ≤ (s.psrc k).rejects)

/-- The measurement that a re-initialisation takes (R171). -/
def State.bestRejected (s : State) (ks : List Nat) : Option Nat :=
  (s.runsOut ks).foldl (fun acc k => match acc with
    | none => some k
    | some b =>
      let x := s.psrc k
      let y := s.psrc b
      if x.bestSigma < y.bestSigma ∨ (x.bestSigma = y.bestSigma ∧ y.bestTick ≤ x.bestTick) then some k else some b) none

/-- PSE re-initialises a quantity: the runs and exclusions of its sources end (R171). -/
def State.reinit (ks : List Nat) (isPos : Bool) (s : State) : State :=
  match s.bestRejected ks with
  | none => s
  | some k =>
    let c := s.psrc k
    let oldest := (s.pse.filters.getLast?.map fun f => f.pose.tick).getD s.pse.histFloor
    let tick := max c.bestTick (oldest + 1)
    -- a measurement older than the history is carried on to its oldest epoch
    let q : PoseState := { (s.pse.before tick).pose with tick := c.bestTick }
    let a := q.ahead ((tick : Int) - c.bestTick)
    let m : PFix :=
      if isPos then
        { tick, rank := 2, forced := true, skip := [k], pos := some (c.bestA + (a.1 - q.east), c.bestB + (a.2.1 - q.north), c.bestSigma) }
      else { tick, rank := 2, forced := true, skip := [k], hdg := some ((toTwos 32 (c.bestA + (a.2.2 - q.heading)) : Nat), c.bestSigma) }
    let s := s.onPse fun p => { (p.addFix m) with resetFlag := true }
    let s := (sameQuantity k).foldl (fun s j => s.onPsrc j fun x => { x with rejects := 0, excludedUntil := none }) s
    (s.pseFault 2 134).faultReport 0x0401 (if isPos then 0 else 1) 134 ((c.bestSigma + 65535) / 65536) 0

/-- A source whose run has reached REJECT_N is excluded, or, where all are rejected, the quantity starts again (R171). -/
def State.checkRun (src : Nat) (s : State) : State :=
  let c := s.psrc src
  let ks := sameQuantity src
  if c.rejects < s.pse.rejectN then s
  else if ks.any fun j => j != src && (match (s.psrc j).lastAccepted with | some t => decide (c.runTick ≤ t) | none => false) then
    ((s.onPsrc src fun c => { c with excludedUntil := some (s.now + s.pse.excludeS * secTicks) }).pseFault 1 133).record 0x0302
      (rejectIndex src) []
  else if spdSources.contains src then s
  else if ks.all fun j => decide (s.pse.rejectN ≤ (s.psrc j).rejects) || decide ((s.psrc j).lastTick < c.runTick) then
    s.reinit ks (posSources.contains src)
  else s

/-- One outcome counts; a yaw rate that was gated out counts for its source and joins no run of a quantity (assumption log
161). -/
def State.noteTook (tick : Nat) (s : State) (t : Took) : State :=
  if t.yaw then (s.countReject t.src).pseFault 0 132
  else if t.ok then s.onPsrc t.src fun c => { c with rejects := 0, lastAccepted := some tick, lastTick := tick, excludedUntil := none }
  else (((s.countReject t.src).pseFault 0 132).onPsrc t.src fun c => c.reject tick t).checkRun t.src

/-- An excluded source's measurement is discarded and counted (R171). -/
def State.noteSkipped (tick : Nat) (s : State) (src : Nat) : State :=
  (s.countReject src).onPsrc src fun c => { c with lastTick := tick }

/-- A measurement older than the history (R155, R161). -/
def State.isStale (s : State) (tick : Nat) : Bool := decide (64000000 < s.now - tick) || decide (tick < s.pse.histFloor)

/-- The sources that a fix names, for a stale one. -/
def PFix.sources (m : PFix) : List Nat :=
  match m.rank with
  | 0 => (if m.pos.isSome then [0] else []) ++ (if m.hdg.isSome then [1] else []) ++ (if m.vel.isSome then [7] else [])
  | 1 => [5, 6, 14]
  | 2 => (if m.pos.isSome then [2] else []) ++ (if m.hdg.isSome then [3] else []) ++ (if m.spd.isSome then [4] else [])
  | k => [5 + k]

/-- A fix reaches PSE: what became of it, by source, and the state (R155, R167, R171). None: it was stale. -/
def State.takeFix (m : PFix) (s : State) : Option (List Took) × State :=
  if s.isStale m.tick then (none, (m.sources.foldl (fun s k => s.countReject k) s).pseFault 3 135)
  else
    let ks := (((s.pse.judgeFix m).map Took.src).filter s.excluded).eraseDups
    let m := { m with skip := ks }
    let took := s.pse.judgeFix m
    let s := s.onPse fun p => p.addFix m
    let s := ks.foldl (State.noteSkipped m.tick) s
    (some took, took.foldl (State.noteTook m.tick) s)

end Sys2Proof.Machine
end

