-- ==== Sys2Proof/Machine/Pose.lean ====
section
/-! DEFINITION. The commands of PSE (06_pose_geometry.md). -/

namespace Sys2Proof.Machine

/-! ### GEOMETRY_SET (R157-R161) -/

/-- The square of the antennas' distance, mm² (R160). -/
def Model.baselineSq (g : Model) : Nat :=
  ((g.antAX - g.antBX) * (g.antAX - g.antBX) + (g.antAY - g.antBY) * (g.antAY - g.antBY) +
    (g.antAZ - g.antBZ) * (g.antAZ - g.antBZ)).toNat

/-- The straight-line distance of the antennas, mm (R160, R161). -/
def Model.baseline (g : Model) : Nat :=
  isqrt g.baselineSq

def parseModel (d : DescBits) : Model :=
  { model := dfield d 17 1, fallback := dfield d 18 1, rollComp := (dfield d 19 1).testBit 0, antAX := dsfield d 20 2,
    antAY := dsfield d 22 2, antAZ := dsfield d 24 2, antBX := dsfield d 26 2, antBY := dsfield d 28 2, antBZ := dsfield d 30 2,
    towX := dsfield d 32 2, towY := dsfield d 34 2, hitchX := dsfield d 36 2, axleX := dsfield d 38 2, mountYaw := dsfield d 40 2,
    followX := dsfield d 42 2, followY := dsfield d 44 2 }

/-- The needs of a model (R160). -/
def State.modelNeeds (s : State) (g : Model) (code : Nat) : Bool :=
  match code with
  | 0 => true
  | 1 => decide (100 ≤ g.hitchX - g.axleX)
  | 2 => Config.gnssAntennas s.part == 2 && inRange 250000 9000000 g.baselineSq
  | 3 => decide (1 ≤ Config.deviceLinks s.part)
  | _ => false

/-- The checks of a MODEL (R159, R160). -/
def State.modelChecks (s : State) (d : DescBits) : List (Bool × Nat) :=
  let g := parseModel d
  [flagCheck d 0x02, (s.modelNeeds g g.model, 17),
    (decide (g.fallback ≤ 2) && (g.fallback == 0 || (decide (2 ≤ g.model) && s.modelNeeds g (g.fallback - 1))), 18),
    (decide (dfield d 19 1 < 2), 19)] ++ zeroBytes d 46 18

/-- The checks of an ORIGIN (R159). -/
def originChecks (d : DescBits) : List (Bool × Nat) :=
  [flagCheck d 0x02, (decide ((dsfield d 20 4).natAbs ≤ 900000000), 20), (decide ((dsfield d 24 4).natAbs ≤ 1800000000), 24)] ++
    zeroBytes d 17 3 ++ zeroBytes d 32 32

/-- An ORIGIN is accepted only while nothing is placed by the old one (R158). -/
def State.originFree (s : State) : Bool := !s.gle.enable && !(s.mpg.layers.any fun e => e.2.enable)

def execGeometrySet (dt ring : Nat) (s : State) : Answer :=
  .next ((s.elapse dt).runDesc ring 0x0E fun d s =>
    match dfield d.desc 16 1 with
    | 0 => s.checked ring (s.modelChecks d.desc) fun s =>
        (s.onPse fun p => { p with modelWaits := p.modelWaits ++ [{ ring, index := d.index, model := parseModel d.desc }] }).startHead
          ring []
    | 1 => s.checked ring (originChecks d.desc) fun s =>
        if s.originFree then
          (s.onPse fun p =>
            { p with originSet := true, originLat := dsfield d.desc 20 4, originLon := dsfield d.desc 24 4,
                     originHeight := dsfield d.desc 28 4 }).finishHead ring stOk 0 0
        else s.finishHead ring stAborted 1 0
    | _ => s.checked ring [flagCheck d.desc 0x02, (false, 16)] id)

/-! ### EXT_FIX (R175) -/

def State.extFixChecks (s : State) (d : DescBits) : List (Bool × Nat) :=
  [flagCheck d 0x02, (decide (dfield d 16 8 ≤ s.now), 16), (decide (dfield d 50 1 < 4), 50)] ++ zeroBytes d 51 13

/-- The measurements of an EXT_FIX at a tick. -/
def parseExtFix (d : DescBits) (tick : Nat) : PFix :=
  let fl := dfield d 50 1
  let u (o : Nat) : Nat := 65536 * dfield d o 2
  { tick, rank := 2, vehicle := fl.testBit 1,
    pos := if dfield d 44 2 = 0 then none else some (65536 * dsfield d 24 4, 65536 * dsfield d 28 4, u 44),
    hdg := if dfield d 46 2 = 0 then none else some ((u 36 : Nat), u 46),
    spd := if dfield d 48 2 = 0 then none else some (65536 * dsfield d 40 4, u 48),
    yaw := if fl.testBit 0 then some (65536 * dsfield d 38 2) else none }

/-- The outcome code of one quantity (R175). -/
def outcomeOf (given : Bool) (src : Nat) : Option (List Took) → Nat
  | none => if given then 1 else 5
  | some ts =>
    if given then
      match ts.find? fun t => t.src == src with
      | some t => if t.ok then 0 else 2
      | none => 3
    else 5

def execExtFix (dt ring : Nat) (s : State) : Answer :=
  .next ((s.elapse dt).runDesc ring 0x0C fun d s =>
    s.checked ring (s.extFixChecks d.desc) fun s =>
      let m := parseExtFix d.desc (if dfield d.desc 16 8 = 0 then s.now else dfield d.desc 16 8)
      if m.vehicle && (s.pse.dueAt m.tick).vehModel.isNone && !s.isStale m.tick then
        let c (given : Bool) : Nat := if given then 4 else 5
        s.finishHead ring stOk (c m.pos.isSome + 16 * c m.hdg.isSome + 256 * c m.spd.isSome) 0
      else
        let r := s.takeFix m
        r.2.finishHead ring stOk
          (outcomeOf m.pos.isSome 2 r.1 + 16 * outcomeOf m.hdg.isSome 3 r.1 + 256 * outcomeOf m.spd.isSome 4 r.1) 0)

/-! ### POSE_EPOCH (R154-R174) -/

/-- A new MODEL takes effect at an epoch: the history and what was accepted under the old one are gone, and GNB starts a new
fix of the baseline (R161, R173, R196). -/
def State.applyModel (g : Model) (e : Nat) (s : State) : State :=
  (s.onPse fun p =>
    { p.withModel g e with resetFlag := true, srcs := p.srcs.map fun c => (c.1, { c.2 with rejects := 0 }) }).onGnb fun b =>
    { b with baselineCfg := min 4095 g.baseline, ambiguities := [], baselineFails := 0 }

/-- The speed source `k` at an epoch (R169). -/
def State.speedFix (s : State) (k e : Nat) : Option PFix :=
  let c : SpeedSrc := Tbl.get {} s.pse.speedSrcs k
  if c.enable && c.scale != 0 && s.isReady 3 then
    let v := Int.fdiv ((s.fch c.channel).speedAt e * (c.scale * 4096 : Nat)) 1000
    some { tick := e, rank := 3 + k, unsigned := !c.signed, spd := some (v, max (65536 * c.floor) (v.natAbs * c.rel / 1000)) }
  else none

/-- A 1-sigma in whole units, rounded up, saturating. -/
def sigmaField : Option Nat → Nat
  | some v => min 0xFFFF ((v + 65535) / 65536)
  | none => 0xFFFF

/-- POS_UNC of the latest pose (R174). -/
def State.posUnc (s : State) : Nat := sigmaField s.pse.cur.sPos

/-- R20 holds. -/
def State.r20 (s : State) : Bool := s.isReady 5 && s.pse.valid && decide (s.posUnc ≤ s.gle.poseLimit)

/-- Map decisions stop or resume (R20, R21): R21 asks nothing of GLE_CTRL.ENABLE. -/
def State.poseCheck (s : State) : State :=
  let ok := s.r20
  if ok = s.gle.poseOk then s
  else if ok then
    let s := (s.onGle fun g => { g with poseOk := true }).raise 69
    if s.gle.enable then s.startProbes else s
  else
    let s := (s.onGle fun g => { g with poseOk := false }).raise 69
    let r := s.closeAll
    (r.2.gleFault 5 70).faultReport 0x0201 0 70 s.posUnc r.1

/-- PQUAL of an epoch's state and the pose it shows (R172, R174). -/
def State.pqualOf (s : State) (f : Filter) (shown : PoseState) (valid : Bool) : BitVec 8 :=
  let t := f.pose.tick
  BitVec.ofNat 8 (b2n valid + 2 * b2n (!recent f.posTick t) + 4 * b2n (!recent f.lastPrimary t) + 8 * b2n s.pse.resetFlag +
    16 * b2n f.standstill + 32 * b2n (decide (sigmaField shown.sPos ≤ s.gle.poseLimit)) +
    64 * b2n (s.pse.rollOn && f.heard 1 t))

/-- SOURCES of an epoch's state (R174). -/
def Filter.sourcesByte (f : Filter) : BitVec 8 :=
  let h (k : Nat) : Bool := f.heard k f.pose.tick
  BitVec.ofNat 8 (b2n (h 0) + 2 * b2n (h 1) + 4 * b2n (h 2) + 8 * b2n (h 3) + 16 * b2n (h 7) +
    32 * b2n (h 8 || h 9 || h 10 || h 11) + 64 * b2n (h 12) + 128 * b2n (h 5 || h 6))

/-- The heading source in force, 0-3 (R172, R174). -/
def Filter.hdgLevel (f : Filter) : Nat :=
  let t := f.pose.tick
  if recent f.lastPrimary t then 0 else if recent f.lastFallback t then 1 else if recent f.lastCog t then 2 else 3

/-- A whole-unit rate clamped to a signed 16-bit field. -/
def field16 (v : Int) : Int := clampInt (-32768) 32767 (divHalfUp v 65536)

/-- The payload of POSE (R174). -/
def State.posePayload (s : State) : List Fld :=
  let p := s.pse
  let q := p.cur
  [sfld 16 4 (mm q.east), sfld 20 4 (mm q.north), sfld 24 4 (if p.sources.getLsbD 0 then p.up else 0),
   sfld 28 2 (divHalfUp q.heading 65536), sfld 30 2 (field16 q.yaw), sfld 32 4 (divHalfUp q.speed 65536), fld 36 2 (sigmaField q.sPos),
   fld 38 2 (sigmaField q.sHdg), fld 40 2 (sigmaField q.sSpd), fld 42 1 p.pqual.toNat, fld 43 1 p.sources.toNat,
   fld 44 1 (p.model.model + 4 * p.hdgLevel), fld 45 1 (s.tbu.tqual q.tick), fld 48 4 (s.tbu.uncAt q.tick),
   fld 52 8 (s.tbu.calField q.tick), fld 60 4 p.epoch.toNat]

/-- The bits of PQUAL whose changes raise a source: VALID, HDG_FALLBACK, DEAD_RECKON, UNC_OK (R176). -/
def qualitySources : List (Nat × Nat) := [(0, 129), (2, 130), (1, 131), (5, 136)]

/-- The pose of an epoch is published (R172-R174, R176, R231): while it is invalid its fields hold their last values
(assumption log 162). -/
def State.publish (f : Filter) (s : State) : State :=
  let q := f.pose
  let valid := sigmaField q.sPos != 0xFFFF && (s.pse.valid ||
    ((match f.posTick with | some k => decide (s.pse.validSince ≤ k) | none => false) &&
     (match f.hdgTick with | some k => decide (s.pse.validSince ≤ k) | none => false)))
  let old := s.pse
  let shown : PoseState := { (if valid then q else old.cur) with tick := q.tick, valid }
  let pq := s.pqualOf f shown valid
  let s := s.onPse fun p =>
    { p with cur := shown, hist := if p.epochTick.isSome then (p.cur :: p.hist).take 64 else p.hist, valid,
             validSince := if old.valid && !valid then q.tick else p.validSince, pqual := pq, sources := f.sourcesByte,
             standstill := f.standstill, hdgLevel := f.hdgLevel, epoch := w32 (q.tick / 1000000), epochTick := some q.tick, resetFlag := false,
             fault := if old.pqual.getLsbD 0 && !valid then setFlag p.fault s.cycle 4 else p.fault }
  let s := qualitySources.foldl (fun s c => if old.pqual.getLsbD c.1 = pq.getLsbD c.1 then s else s.raise c.2) s
  let s := (s.report 0x43 0 q.tick s.posePayload).raise 128
  if s.dlk.master then
    s.sendTeb 0x22 (fld 0 8 q.tick :: s.posePayload.map fun x => { x with off := x.off - 8 }) []
  else s

/-- A speed source's value at an epoch is fused (R168). -/
def State.takeSpeed (e : Nat) (s : State) (k : Nat) : State :=
  match s.speedFix k e with
  | some m => (s.takeFix m).2
  | none => s

/-- One pose epoch at its tick. -/
def State.poseEpoch (e : Nat) (s : State) : State :=
  let waits := s.pse.modelWaits
  let s := s.repIntegrate.onPse fun p => { p with modelWaits := [] }
  let s := match waits.getLast? with
    | some w => s.applyModel w.model e
    | none => s
  let s := (List.range 4).foldl (State.takeSpeed e) s
  let f := s.pse.run s.pse.fixes (s.pse.filters.headD s.pse.fresh) e
  let fs := (f :: s.pse.filters).take 66
  let s := s.onPse fun p =>
    { p with filters := fs,
             fixes := if fs.length = 66 then
                 match fs.getLast? with
                 | some o => p.fixes.filter fun m => decide (o.pose.tick < m.tick)
                 | none => p.fixes
               else p.fixes }
  let s := s.publish f
  let s := if waits.isEmpty then s
    else (s.gle.dyn.map Prod.fst).foldl (fun s ep => s.retimeAll ep) s
  let s := if s.powered 3 then s.mapEpoch s.pse.cur s.pse.valid else s
  let s := ((s.poseCheck.refreshDemand).refreshLoad).armCheck
  s.finishAll stOk 0 (waits.map fun w => (w.ring, w.index))

def execPoseEpoch (dt : Nat) (s : State) : Answer :=
  let s := s.elapse dt
  let e := s.now / 1000000 * 1000000
  .next (s.when (s.isReady 4 && (match s.pse.epochTick with | some k => decide (k < e) | none => true)) (State.poseEpoch e))

/-- An exclusion ends: the source counts its rejections afresh (R171). `source` as in PSource. -/
def execExclusionExpiry (dt source : Nat) (s : State) : Answer :=
  let s := s.elapse dt
  .next (match (s.psrc source).excludedUntil with
    | some t => s.when (decide (t ≤ s.now)) fun s => s.onPsrc source fun c => { c with excludedUntil := none, rejects := 0 }
    | none => s)

end Sys2Proof.Machine
end

