-- ==== Sys2Proof/Machine/DeviceLink.lean ====
section
/-! DEFINITION. The commands of the Tebecia device links (08_links.md). -/

namespace Sys2Proof

/-- Hops to the originator of a frame. -/
def TebHead.hops (h : TebHead) : Nat := min 63 (65 - h.ttl)

end Sys2Proof

namespace Sys2Proof.Machine

/-! ### Ports -/

/-- PSTATE of a device link port now (R234). -/
def State.deviceState (s : State) (q : Nat) : PState :=
  if !(s.dport q).linked then .down else if s.dlk.portEn.getLsbD q then .running else .up

/-- PSTATE brought up to date, with its source and LINK_STATUS (R234, R235). -/
def State.refreshDport (q : Nat) (s : State) : State :=
  let old := (s.dport q).state
  let new := s.deviceState q
  if old = new then s
  else
    let s := (s.onDport q fun d => { d with state := new }).raise (256 + q)
    if old = .down then s.dlkStatus q 1 0 0
    else if new = .down then ((s.dlkStatus q 2 0 0).record 0x0601 (256 + q) []).readyFault (12 + q)
    else s

/-- The Tebecia ring is OPEN once a device link port no longer runs (R227). -/
def State.refreshTebRing (s : State) : State :=
  if s.dlk.ringClosed && !(s.dportRuns 0 && s.dportRuns 1) then
    ((s.onDlk fun d => { d with ringClosed := false }).raise 261).dlkStatus 0 8 0 0
  else s

def State.refreshDports (s : State) : State := ((s.refreshDport 0).refreshDport 1).refreshTebRing

/-- A device link port's SGMII in-band word changes (R204). -/
def State.deviceWord (q : Nat) (w : LinkWord) (s : State) : State :=
  let d := s.dport q
  let up := w == .up
  let bad := w == .wrongSpeed
  let s := if up = d.linked ∧ bad = d.speedBad then s
    else ((s.onDport q fun d => { d with linked := up, speedBad := bad }).putReady (12 + q) up).refreshDports
  if bad && !d.speedBad then s.dlkStatus q 16 0 0 else s

def execPortLinkChange (dt link port : Nat) (word : LinkWord) (s : State) : Answer :=
  let s := s.elapse dt
  .next (if link = 0 then s.when (s.powered 5 && s.fieldPort port) (State.fieldWord port word)
    else s.when (decide (link = 1) && s.powered 5 && decide (port < Config.deviceLinks s.part)) (State.deviceWord port word))

/-! ### Election (R229) -/

/-- CLASS of this device (R228). -/
def State.ownClass (s : State) : Nat :=
  b2n ((s.tbu.bal != .freerun) && (s.tbu.source == 3 || s.tbu.source == 4))

/-- This device is a candidate (R229). -/
def State.ownCandidate (s : State) : Bool :=
  s.dlk.elect && decide (s.mpg.domainId ≠ 0) && !s.dlk.dupId && decide (s.dlk.portEn ≠ 0#2)

/-- Where a candidate stands: class, priority, identity. -/
structure Rank where
  cls : Nat
  priority : Nat
  identity : Nat
  deriving DecidableEq, Repr

/-- One candidate ranks before another (R229). -/
def Rank.above (a b : Rank) : Bool :=
  decide (b.cls < a.cls) || (a.cls == b.cls && (decide (a.priority < b.priority) ||
    (a.priority == b.priority && decide (a.identity < b.identity))))

def Sibling.rank (b : Sibling) : Rank := { cls := b.cls, priority := b.priority, identity := b.identity }

def State.ownRank (s : State) : Rank := { cls := s.ownClass, priority := s.dlk.priority, identity := s.mpg.domainId }

/-- The siblings heard. -/
def State.siblings (s : State) : List Sibling := s.dlk.siblings.filterMap Prod.snd

/-- The candidates (R229). -/
def State.candidates (s : State) : List Rank :=
  (if s.ownCandidate then [s.ownRank] else []) ++
    ((s.siblings.filter fun b => b.candidate && decide (b.identity ≠ 0) && b.valid s.now).map Sibling.rank)

/-- The highest of some candidates. -/
def topRank : List Rank → Option Rank
  | [] => none
  | a :: t => match topRank t with
    | some b => some (if b.above a then b else a)
    | none => some a

/-- The RING source is lost (R230, R233). -/
def State.ringLost (s : State) : State :=
  (s.onDlk fun d => { d with timeOk := false, offTick := none, masterRate := 0 }).ringNoTime

/-- This device follows another master, or none (R229). It takes ROLE 1 with its next heartbeat, and yields it at once. -/
def State.followMaster (m : Nat) (s : State) : State :=
  if s.dlk.masterId = m then s
  else
    let s := s.ringLost
    let s := s.onDlk fun d => { d with masterId := m, master := d.master && m == s.mpg.domainId }
    (s.raise 258).dlkStatus 0 10 m 0

/-- An election (R229). -/
def State.election (s : State) : State :=
  s.followMaster (match topRank s.candidates with
    | some r => r.identity
    | none => 0)

/-- The master this device follows stands among the candidates, as ranked now. -/
def State.masterRank (s : State) : Option Rank := s.candidates.find? fun r => r.identity == s.dlk.masterId

/-- An election where the master is no candidate any more, or where there is none and a candidate has come (R229). -/
def State.checkMaster (s : State) : State :=
  if s.masterRank.isNone then s.election else s

/-- A CLASS 1 candidate other than the master stands ready. -/
def State.classWaiting (s : State) : Bool :=
  s.candidates.any fun r => r.cls == 1 && r.identity != s.dlk.masterId

/-- The master's CLASS has fallen to 0 while another candidate has CLASS 1 (R229). -/
def State.classFell (s : State) : State := if s.classWaiting then s.election else s

/-- A CLASS 1 candidate has been present for 1 s under a CLASS 0 master (R229). -/
def State.classPresence (s : State) : Bool :=
  (match s.masterRank with | some r => r.cls == 0 | none => false) &&
    ((s.siblings.any fun b => b.candidate && b.cls == 1 && decide (b.identity ≠ 0) && b.valid s.now &&
        decide (b.clsTick + secTicks ≤ s.now)) ||
      (s.ownCandidate && s.dlk.ownCls == 1 && decide (s.dlk.ownClsTick + secTicks ≤ s.now)))

def execClassPresenceElection (dt : Nat) (s : State) : Answer :=
  let s := s.elapse dt
  .next (s.when (s.powered 5 && s.classPresence) State.election)

/-- DLK_CTRL (R237). The first enable after power-on gives the instance (R228); an enable runs an election (R229). -/
def State.dlkCtrl (v : Word) (s : State) : State :=
  if Config.deviceLinks s.part = 0 then s
  else
    let was := s.dlk.portEn
    let s := s.onDlk fun d => { d with portEn := BitVec.ofNat 2 (bits v 0 2), elect := bit v 2, priority := bits v 8 8 }
    let on := decide (was = 0#2) && decide (s.dlk.portEn ≠ 0#2)
    let s := if on && !s.dlk.instanceSet then s.onDlk fun d => { d with instanceId := w32 s.now, instanceSet := true } else s
    let s := s.refreshDports
    if on then s.election else s.checkMaster

/-! ### Frames received (R205, R227) -/

/-- A frame is dropped on a device link port (R205). -/
def State.badDevice (q : Nat) (s : State) : State :=
  (s.onDport q fun d => { d with badFrame := count32 d.badFrame }).dlkFault 4 247

/-- A duplicate of this device's identity (R227, R228). -/
def State.dupSeen (q : Nat) (s : State) : State :=
  let was := s.dlk.dupId
  let s := s.onDlk fun d => { d with dupId := true, dupTick := s.now }
  if was then s
  else
    let id := s.mpg.domainId
    (((s.dlkFault 0 260).dlkStatus q 13 id 0).record 0x0603 id []).checkMaster

/-- A frame goes on out of the other port with TTL - 1 (R227). -/
def State.forward (q type : Nat) (h : TebHead) (body : List Fld) (s : State) : State :=
  if 1 < h.ttl ∧ s.dportRuns (1 - q) = true then
    s.sendFrame { link := 1, port := 1 - q, type, node := h.origin, seq := h.seq.toNat, ttl := h.ttl - 1, instanceId := h.instanceId,
                  forwarded := true, length := h.length, body }
  else s

/-- The last SEQ processed of a series (R227). -/
def Dlk.lastSeq (d : Dlk) (type : Nat) (h : TebHead) : Option Word :=
  (d.seen.find? fun e => e.origin == h.origin && e.instanceId == h.instanceId && e.type == type).map fun e => e.seq

/-- A series takes a SEQ. -/
def Dlk.note (d : Dlk) (type : Nat) (h : TebHead) : Dlk :=
  { d with seen := { origin := h.origin, instanceId := h.instanceId, type, seq := h.seq } ::
      d.seen.filter fun e => !(e.origin == h.origin && e.instanceId == h.instanceId && e.type == type) }

/-- What every Tebecia frame goes through: drop, DUP_ID, forwarding, and processing of the first copy (R205, R227). -/
def State.tebecia (q type : Nat) (h : TebHead) (fwd : List Fld) (again : State → State) (k : Option Word → State → State)
    (s : State) : State :=
  if h.head.isBad s.dlk.etherType then s.badDevice q
  else if h.origin = s.mpg.domainId ∧ h.instanceId = s.dlk.instanceId then s
  else
    let s := s.forward q type h fwd
    if h.origin = s.mpg.domainId then s.dupSeen q
    else
      match s.dlk.lastSeq type h with
      | some l => if precedes l h.seq then k (some l) (s.onDlk fun d => d.note type h) else again s
      | none => k none (s.onDlk fun d => d.note type h)

/-- A frame may arrive on a device link port. -/
def State.dportHears (s : State) (q : Nat) : Bool := s.powered 5 && decide (q < Config.deviceLinks s.part) && s.dportRuns q

/-! ### Heartbeats (R228-R230, R233) -/

/-- A sibling's slot. -/
def State.slotOf (s : State) (identity : Nat) : Option Nat :=
  (s.dlk.siblings.find? fun e => match e.2 with
    | some b => b.identity == identity
    | none => false).map Prod.fst

/-- The lowest free slot. -/
def State.freeSlot (s : State) : Option Nat := (List.range 64).find? fun i => (Tbl.get none s.dlk.siblings i).isNone

def State.setSibling (i : Nat) (b : Option Sibling) (s : State) : State :=
  s.onDlk fun d => { d with siblings := Tbl.set none d.siblings i b }

def State.sibling (s : State) (identity : Nat) : Option Sibling :=
  match s.slotOf identity with
  | some i => Tbl.get none s.dlk.siblings i
  | none => none

/-- A heartbeat's entry in DLK_SIBLING (R228, R237). -/
def State.noteSibling (h : Heartbeat) (s : State) : State :=
  let old := s.sibling h.teb.origin
  let since := match old with
    | some b => if b.cls = 1 ∧ b.candidate = true ∧ b.instanceId = h.teb.instanceId then b.clsTick else s.now
    | none => s.now
  let b : Sibling :=
    { identity := h.teb.origin, cls := h.cls, priority := h.priority, hops := h.teb.hops, role := h.role, candidate := h.candidate,
      tqual := h.tqual, instanceId := h.teb.instanceId, lastTick := s.now, clsTick := since }
  match s.slotOf h.teb.origin with
  | some i => s.setSibling i (some b)
  | none => match s.freeSlot with
    | some i => ((s.setSibling i (some b)).raise 259).dlkStatus 0 11 h.teb.origin 0
    | none => s

/-- The second copy of a heartbeat may have come by fewer hops. -/
def State.fewerHops (h : TebHead) (s : State) : State :=
  match s.slotOf h.origin with
  | some i => s.onDlk fun d =>
      { d with siblings := Tbl.modify none d.siblings i fun b => b.map fun b => { b with hops := min b.hops h.hops } }
  | none => s

/-- Time from the originator's timestamp point to the arrival at the own one, in 2^-16 ns (R212). -/
def State.transfer (s : State) (q : Nat) (h : Heartbeat) : Int := h.correction + (s.dport q).linkDelay

/-- CORRECTION of a forwarded HEARTBEAT: the residence between the timestamp points is what the two PHYs add (R205, R212;
assumption log 168). -/
def State.forwardCorrection (s : State) (q : Nat) (h : Heartbeat) : Int :=
  s.transfer q h + 65536 * ((s.dport q).rxNs + (s.dport (1 - q)).txNs : Nat)

/-- Time transfer from the master (R205, R212, R230): the bound of R227 is 1,000 ns. -/
def State.takeTime (q : Nat) (h : Heartbeat) (s : State) : State :=
  let ns := Int.fdiv (s.transfer q h) 65536 + (s.dport q).rxNs
  let off : Int := (h.rxTick : Int) - h.originTick - divHalfUp ns 5
  let rate := match s.dlk.offTick with
    | some k => if k < h.rxTick then Int.fdiv ((off - s.dlk.masterOffset) * 4294967296) (h.rxTick - k : Nat) else s.dlk.masterRate
    | none => 0
  let unc := min 0xFFFFFFFF (h.timeUnc + 1000)
  let ok := h.tqual.testBit 2
  let s := s.onDlk fun d =>
    { d with masterOffset := off, masterUnc := unc, masterRate := rate, offTick := some h.rxTick, timeOk := ok }
  if ok then s.ringTime ((h.calNs : Int) + ns - 5 * (h.rxTick : Int)) unc else s.ringNoTime

/-- A claim of ROLE 1 by a sibling (R229): of two that claim it the higher-ranked stands. -/
def State.takeRole (h : Heartbeat) (s : State) : State :=
  if h.role = 1 ∧ h.teb.origin ≠ s.dlk.masterId then
    match s.masterRank, s.candidates.find? fun r => r.identity == h.teb.origin with
    | some m, some r => if r.above m then s.followMaster r.identity else s
    | none, some r => s.followMaster r.identity
    | _, none => s
  else s

/-- A heartbeat of a sibling, its first copy (R228-R230). -/
def State.takeHeartbeat (q : Nat) (h : Heartbeat) (s : State) : State :=
  let fell := s.dlk.masterId == h.teb.origin && h.cls == 0 &&
    match s.sibling h.teb.origin with
    | some b => b.cls == 1
    | none => false
  let s := s.noteSibling h
  let s := if fell then s.classFell else s.takeRole h
  let s := s.checkMaster
  if s.dlk.masterId = h.teb.origin then s.takeTime q h else s

def execHeartbeatReceive (dt port : Nat) (h : Heartbeat) (s : State) : Answer :=
  let s := s.elapse dt
  .next (s.when (s.dportHears port) (State.tebecia port 0x21 h.teb [sfld 24 8 (s.forwardCorrection port h)] (State.fewerHops h.teb)
    fun _ => State.takeHeartbeat port h))

/-- The HEARTBEAT of this device at an instant (R228). -/
def State.sendHeartbeat (b : Nat) (s : State) : State :=
  let cls := s.ownClass
  let fell := s.dlk.masterId == s.mpg.domainId && s.dlk.master && s.dlk.ownCls == 1 && cls == 0
  let s := s.onDlk fun d =>
    { d with hbTick := b, ownCls := cls, ownClsTick := if d.ownCls = cls then d.ownClsTick else s.now }
  let s := (if fell then s.classFell else s).checkMaster
  let s := s.onDlk fun d => { d with master := s.ownCandidate && d.masterId == s.mpg.domainId }
  let d := s.dlk
  s.sendTeb 0x21
    [fld 0 1 d.priority, fld 1 1 cls, fld 2 1 (b2n d.master), fld 3 1 (s.tbu.tqual b), fld 4 2 d.masterId, fld 6 1 (b2n d.elect),
     fld 8 4 d.instanceId.toNat, fld 12 4 (s.tbu.uncAt b), fld 16 8 b, fld 24 8 0, fld 32 8 (s.tbu.calField b)] []

def execHeartbeatSend (dt : Nat) (s : State) : Answer :=
  let s := s.elapse dt
  let b := s.beatInstant
  .next (s.when (s.powered 5 && (s.dportRuns 0 || s.dportRuns 1) && decide (s.dlk.hbTick < b)) (State.sendHeartbeat b))

def execDupIdClear (dt : Nat) (s : State) : Answer :=
  let s := s.elapse dt
  .next (s.when (s.powered 5 && s.dlk.dupId && decide (s.dlk.dupTick + secTicks ≤ s.now)) fun s =>
    (s.onDlk fun d => { d with dupId := false }).checkMaster)

/-- A sibling's slot clears (R233). -/
def State.loseSibling (i identity : Nat) (s : State) : State :=
  let s := ((s.setSibling i none).raise 259).dlkStatus 0 12 identity 0
  if s.dlk.masterId = identity then
    ((s.onDlk fun d => { d with fault := setFlag d.fault s.cycle 3 }).ringLost).election
  else s

def execSiblingLost (dt identity : Nat) (s : State) : Answer :=
  let s := s.elapse dt
  .next (match s.slotOf identity, s.sibling identity with
    | some i, some b => s.when (s.powered 5 && decide (b.lastTick + 5 * msTicks ≤ s.now)) (State.loseSibling i identity)
    | _, _ => s)

/-- The Tebecia ring opens or closes as own HEARTBEATs stop or resume returning (R227). -/
def execTebeciaRingChange (dt : Nat) (closed : Bool) (s : State) : Answer :=
  let s := s.elapse dt
  .next (s.when (s.powered 5 && s.dportRuns 0 && s.dportRuns 1 && s.dlk.ringClosed != closed) fun s =>
    ((s.onDlk fun d => { d with ringClosed := closed }).raise 261).dlkStatus 0 (if closed then 9 else 8) 0 0)

/-- A read of DLK_MASTER_OFFSET_LO latches the HI word (R391). -/
def execMasterOffsetLoRead (dt : Nat) (s : State) : Answer :=
  .next ((s.elapse dt).when s.hostUp fun s =>
    (s.when (s.powered 5) fun s => s.onDlk fun d => { d with masterHi := w32 (toTwos 64 d.masterOffset / 2 ^ 32) }).readOut
      (s.regRead 0x34040))

/-! ### POSE and COVERAGE frames (R231, R232) -/

/-- A master tick as an own tick (R230). -/
def Dlk.ownTick (d : Dlk) (t : Nat) : Int :=
  let k : Int := t + d.masterOffset
  match d.offTick with
  | some o => k + Int.fdiv (d.masterRate * (k - o)) 4294967296
  | none => k

/-- The master's pose as a measurement: its uncertainty plus the link's bound of 1 µs times |v| (R165, R227). -/
def State.poseFix (p : PoseFrame) (s : State) : PFix :=
  let v := p.speed * 65536
  let link := 1000 * v.natAbs / 1000000000
  { tick := (s.dlk.ownTick p.epochTick).toNat, rank := 1,
    pos := some (p.east * 65536, p.north * 65536, p.posUnc * 65536 + link),
    hdg := some ((p.heading * 65536 : Nat), p.hdgUnc * 65536), spd := some (v, p.spdUnc * 65536), yaw := some (p.yawRate * 65536) }

/-- A POSE of the master reaches PSE under FOLLOW (R165, R231). -/
def State.takePose (p : PoseFrame) (s : State) : State :=
  if s.dlk.masterId = p.teb.origin ∧ s.dlk.offTick.isSome = true ∧ s.pse.model.model = 3 ∧ p.valid = true ∧ s.isReady 4 = true then
    (s.takeFix (s.poseFix p)).2
  else s

def execPoseFrameReceive (dt port : Nat) (p : PoseFrame) (s : State) : Answer :=
  let s := s.elapse dt
  .next (s.when (s.dportHears port) (State.tebecia port 0x22 p.teb [] id fun _ => State.takePose p))

/-- One delta as a record of a COVERAGE frame (R232). -/
def deltaRecord (d : Delta) : List Fld := (deltaPayload d).map fun f => { f with off := f.off - 16 }

/-- Deltas that cannot leave are counted and discarded (R232). -/
def State.dropDeltas (s : State) : State :=
  (s.onDlk fun d => { d with covUnsent := satAdd 0xFFFFFFFF d.covUnsent d.outQ.length, outQ := [] }).dlkFault 2 263

/-- A COVERAGE frame leaves (R232). -/
def State.sendCoverage (s : State) : State :=
  let ds := s.dlk.outQ.take 30
  (s.sendTeb 0x23 [fld 0 2 ds.length] (ds.map deltaRecord)).onDlk fun d => { d with outQ := d.outQ.drop ds.length, outTick := s.now }

def execCoverageFrameSend (dt : Nat) (s : State) : Answer :=
  let s := s.elapse dt
  let n := s.dlk.outQ.length
  .next (s.when (s.powered 5 && decide (0 < n) && (decide (30 ≤ n) || decide (s.dlk.outTick + msTicks ≤ s.now))) fun s =>
    if (s.dportRuns 0 || s.dportRuns 1) && !s.dlk.dupId then s.sendCoverage else s.dropDeltas)

/-- A gap in an origin's COVERAGE frames (R232). -/
def State.covGap (q : Nat) (h : TebHead) (last : Option Word) (s : State) : State :=
  match last with
  | some l =>
    let k := (h.seq - l).toNat - 1
    if k = 0 then s
    else ((s.onDlk fun d => { d with covGap := satAdd 0xFFFFFFFF d.covGap k }).dlkFault 1 262).dlkStatus q 14 h.origin k
  | none => s

def execCoverageFrameReceive (dt port : Nat) (c : CoverageFrame) (s : State) : Answer :=
  let s := s.elapse dt
  .next (s.when (s.dportHears port) (State.tebecia port 0x23 c.teb [] id fun last s =>
    c.deltas.foldl (fun s d => s.mergeFromLink d) (s.covGap port c.teb last)))

/-! ### Link delay (R213, R227) -/

/-- A DELAY frame of this device on one port, its SEQ one on from the last of its type (R213, R226). -/
def State.sendDelay (port type : Nat) (body : List Fld) (s : State) : State :=
  (s.onDlk fun d => { d with sendSeq := Tbl.set 0 d.sendSeq type (d.seqOf type + 1) }).sendFrame
    { link := 1, port, type, node := s.mpg.domainId, seq := (s.dlk.seqOf type).toNat, ttl := 1, instanceId := s.dlk.instanceId, body }

/-- What every DELAY frame received on a device link port goes through (R205, R213, R227): it is never forwarded. -/
def State.delayFrame (q : Nat) (h : TebHead) (k : State → State) (s : State) : State :=
  if h.head.isBad s.dlk.etherType then s.badDevice q
  else if h.origin = s.mpg.domainId then (if h.instanceId = s.dlk.instanceId then s else s.dupSeen q)
  else k s

def execLinkDelayMeasure (dt port : Nat) (s : State) : Answer :=
  let s := s.elapse dt
  .next (s.when (s.dportHears port) fun s =>
    let t1 := (s.dport port).departure (s.now * 327680)
    (s.onDport port fun p => { p with reqT1 := some t1 }).sendDelay port 0x24 (delayBody t1 0 0))

/-- A DELAY_REQ is answered on every port (R213, R227); T2 and T3 come with the command as the SGMII side stamps them. -/
def execDelayReq (dt link port : Nat) (h : TebHead) (t1 t2 t3 : Nat) (s : State) : Answer :=
  let s := s.elapse dt
  .next (
    if link = 0 then s.when (s.fieldPort port && s.portUp port) fun s =>
      if h.head.isBad s.flp.etherType then s.badField port else s.answerField port h.seq.toNat t1 t2 t3
    else s.when (decide (link = 1) && s.dportHears port) fun s =>
      let q := s.dport port
      s.delayFrame port h (State.sendDelay port 0x25 (delayBody t1 (q.arrival t2) (q.departure t3))))

/-- A DELAY_RESP to the request that waits gives the link's delay (R213, R227). -/
def execDelayResp (dt port : Nat) (h : TebHead) (t1 t2 t3 t4 : Nat) (s : State) : Answer :=
  let s := s.elapse dt
  .next (s.when (s.dportHears port) fun s => s.delayFrame port h fun s =>
    if (s.dport port).reqT1 = some t1 then
      s.onDport port fun p =>
        { p with linkDelay := Int.fdiv (((p.arrival t4 : Nat) : Int) - t1 - ((t3 : Int) - t2)) 2, reqT1 := none }
    else s)

end Sys2Proof.Machine
end

