-- ==== Sys2Proof/Machine/Gnss.lean ====
section
/-! DEFINITION. The commands of GNB (07_gnss_baseband.md): what the RF front ends and the correlators measured comes with
the command (assumption log 13); the checks and what follows from them are the block's. -/

namespace Sys2Proof

/-- The band of a signal: 2 x antenna + band (R178, R203). -/
def GnssSignal.band (g : GnssSignal) : Nat := 2 * g.antenna + (if g.signal % 16 = 2 then 1 else 0)

end Sys2Proof

namespace Sys2Proof.Machine

/-- A GNB source with its fault bit (R202, R203). -/
def State.gnbFault (bit src : Nat) (s : State) : State :=
  (s.onGnb fun g => { g with fault := setFlag g.fault s.cycle bit }).raise src

def State.antExists (s : State) (a : Nat) : Bool := decide (a < Config.gnssAntennas s.part)

/-! ### EPHEMERIS_LOAD (R188-R191) -/

/-- A satellite number of a system (R178). -/
def svOk (system sv : Nat) : Bool :=
  match system with
  | 0 => inRange 1 32 sv
  | 1 => inRange 1 36 sv
  | 2 => inRange 1 63 sv
  | 3 => inRange 193 202 sv
  | 4 => inRange 120 158 sv
  | _ => false

/-- The signals that GNB tracks (R178). -/
def signalCodes : List Nat := [0x01, 0x02, 0x11, 0x12, 0x21, 0x22, 0x31, 0x32, 0x41]

/-- A signal of a satellite of R178. -/
def signalOk (c : GnssSignal) : Bool := signalCodes.contains c.signal && c.signal / 16 == c.system && svOk c.system c.sv

/-- A SOURCE that belongs to a system (R189). -/
def sourceOk (system source : Nat) : Bool :=
  match system with
  | 1 => source == 3 || source == 4
  | 2 => source == 5 || source == 6
  | _ => source == 1 || source == 2

/-- The checks of one record whose bytes stand at `base` (R188). -/
def ephChecks (b : List Byte) (base : Nat) : List (Bool × Nat) :=
  match wordAt b 0 1 with
  | 1 =>
    let sys := wordAt b 1 1
    [(decide (sys ≤ 3), base + 1), (svOk sys (wordAt b 2 1), base + 2), (sourceOk sys (wordAt b 3 1), base + 3)] ++
      zeroBuf b 124 4 (base + 124)
  | 2 => zeroBuf b 1 7 (base + 1) ++ zeroBuf b 44 84 (base + 44)
  | _ => [(false, base)]

def parseEph (b : List Byte) : Eph :=
  { system := wordAt b 1 1, sv := wordAt b 2 1, source := wordAt b 3 1, iod := wordAt b 4 2, health := wordAt b 6 1,
    toe := wordAt b 8 4, bits := BitVec.ofNat 1024 (wordAt b 0 128) }

def parseAssist (b : List Byte) : Assist :=
  { calNs := wordAt b 8 8, atTick := wordAt b 16 8, timeUncUs := wordAt b 24 4, lat := swordAt b 28 4, lon := swordAt b 32 4,
    heightMm := swordAt b 36 4, posUncM := wordAt b 40 4 }

def execEphemerisLoad (dt ring : Nat) (buf : HostRead) (s : State) : Answer :=
  .next ((s.elapse dt).runDesc ring 0x0D fun d s =>
    let n := dLength d.desc
    s.checked ring ([flagCheck d.desc 0x0A, (dFlag d.desc 3, 1), (inRange 1 512 n && lengthFits d.desc (128 * n), 2)] ++
        indirectChecks d.desc) fun s =>
      s.withBuffer ring buf fun b s =>
        let rs := slices b 128 n
        s.checked ring (rs.flatMap fun r => ephChecks r.2 r.1) fun s =>
          let isEph (r : Nat × List Byte) : Bool := wordAt r.2 0 1 == 1
          (s.onGnb fun g =>
            { g with ephWait := g.ephWait ++ [{ ring, index := d.index, records := (rs.filter isEph).map (fun r => parseEph r.2),
                                                assists := (rs.filter fun r => !isEph r).map (fun r => parseAssist r.2) }] }).startHead
            ring [])

/-- Seconds of one unit of TOE in the ICD of a SOURCE (PRESUMED, assumption log 23). -/
def toeUnit : Nat → Nat
  | 1 => 16
  | 3 => 60
  | 4 => 60
  | _ => 300

/-- The reference time of a record, s on the GPS scale since 1980-01-06 (PRESUMED, assumption log 23). -/
def Eph.toeSec (e : Eph) : Nat :=
  let week := e.bits.toNat / 2 ^ 128 % 2 ^ 32
  let start := match e.system with
    | 1 => 1024 * 604800
    | 2 => 1356 * 604800 + 14
    | _ => 0
  start + week * 604800 + e.toe * toeUnit e.source

/-- The store without the record of the oldest TOE. -/
def dropOldestEph (es : List Eph) : List Eph :=
  match es with
  | [] => []
  | h :: t => es.erase (t.foldl (fun b e => if e.toeSec < b.toeSec then e else b) h)

def Eph.same (a b : Eph) : Bool := a.system == b.system && a.sv == b.sv && a.source == b.source

/-- A record stored (R191), with the counts of those stored and of those that replaced one. -/
def storeEph (r : List Eph × Nat × Nat) (e : Eph) : List Eph × Nat × Nat :=
  if r.1.any fun x => x.same e then (r.1.map (fun x => if x.same e then e else x), r.2.1 + 1, r.2.2 + 1)
  else if r.1.length < 160 then (r.1 ++ [e], r.2.1 + 1, r.2.2)
  else (dropOldestEph r.1 ++ [e], r.2.1 + 1, r.2.2)

/-- The records of the EPHEMERIS_LOADs that wait apply at a measurement epoch (R188). -/
def State.applyEph (s : State) : State :=
  s.gnb.ephWait.foldl (fun s w =>
    let r := w.records.foldl storeEph (s.gnb.eph, 0, 0)
    (s.onGnb fun g => { g with eph := r.1, assist := w.assists.getLastD g.assist }).finishAt w.ring w.index stOk r.2.2 r.2.1)
    (s.onGnb fun g => { g with ephWait := [] })

/-! ### Measurement epochs (R184-R196) -/

/-- Ticks between measurement epochs by MEAS_RATE (R184, R203). -/
def measTicks : Nat → Nat
  | 0 => 200000000
  | 1 => 100000000
  | 2 => 40000000
  | 3 => 20000000
  | 4 => 10000000
  | _ => 4000000

/-! ### Tracking channels (R179) -/

def trackOf (c : GnssSignal) : Track := { system := c.system, sv := c.sv, signal := c.signal }

/-- A signal may be tracked (R178, R179): its system and band are enabled, the satellite stands above the mask, and the antenna
exists and runs. -/
def State.trackable (s : State) (burst : Bool) (c : GnssSignal) : Bool :=
  let g := s.gnb
  signalOk c && s.antExists c.antenna && !(burst && c.antenna == 1) && g.sysEn.testBit c.system &&
    (if c.signal % 16 = 2 then g.bandL5 else g.bandL1) && (!g.fixSinceReady || decide ((g.elevMask : Int) < c.elev))

/-- A signal put among others by elevation, highest first. -/
def insertElev (c : GnssSignal) : List GnssSignal → List GnssSignal
  | [] => [c]
  | x :: t => if x.elev < c.elev then c :: x :: t else x :: insertElev c t

/-- Signals satellite by satellite, the highest first (R179). -/
def bySatellite (cs : List GnssSignal) : List GnssSignal :=
  let hs := cs.foldr insertElev []
  ((hs.map fun c => (c.system, c.sv)).eraseDups).flatMap fun v => hs.filter fun c => (c.system, c.sv) == v

/-- The signals that the channels of an antenna are to track: at most 96, on antenna B only what antenna A tracks (R179). -/
def wantedTracks (ok : List GnssSignal) (antenna : Nat) : List Track :=
  let ts (a : Nat) : List Track := (((bySatellite (ok.filter fun c => c.antenna == a)).map trackOf).eraseDups).take 96
  if antenna = 0 then ts 0 else (ts 1).filter fun k => (ts 0).contains k

def State.track (s : State) (n : Nat) : Option Track := Tbl.get none s.gnb.chans n

/-- The channels of an antenna. -/
def antChans (antenna : Nat) : List Nat := (List.range 96).map fun n => 96 * antenna + n

/-- A channel is released (R179). -/
def State.dropTrack (n : Nat) (s : State) : State :=
  s.onGnb fun g =>
    { g with chans := Tbl.set none g.chans n none, slips := g.slips.filter (fun k => k != n), msgCount := Tbl.set 0 g.msgCount n 0,
             lastBits := Tbl.set none g.lastBits n none }

/-- A free channel of an antenna takes a signal; which one is a free value (assumption log 163). -/
def State.giveTrack (antenna : Nat) (s : State) (k : Track) : State :=
  let free := (antChans antenna).filter fun n => (s.track n).isNone
  match free[Config.freeChannel s.gnb.freeCount % free.length]? with
  | some n => s.onGnb fun g => { g with chans := Tbl.set none g.chans n (some k), freeCount := g.freeCount + 1 }
  | none => s

/-- The channels of one antenna at an epoch: those of signals no longer wanted are released, and new signals get one. -/
def State.allocate (ok : List GnssSignal) (s : State) (antenna : Nat) : State :=
  let want := wantedTracks ok antenna
  let s := (antChans antenna).foldl (fun s n => match s.track n with
    | some k => if want.contains k then s else s.dropTrack n
    | none => s) s
  let held := (antChans antenna).filterMap s.track
  (want.filter fun k => !held.contains k).foldl (State.giveTrack antenna) s

/-- The signals in lock with the channels that track them, in channel order. -/
def State.tracked (s : State) (ok : List GnssSignal) : List (Nat × GnssSignal) :=
  (List.range 192).filterMap fun n =>
    match s.track n with
    | some k => (ok.find? fun c => c.antenna == n / 96 && trackOf c == k).map fun c => (n, c)
    | none => none

/-- Both notches of a band are in use (R192). -/
def State.notchesUsed (s : State) (b : Nat) : Bool :=
  (Tbl.get {} s.gnb.notches (2 * b)).active && (Tbl.get {} s.gnb.notches (2 * b + 1)).active

/-- The AGC check of one band against its learned median (R192): INTERFERED sets, and its fault. -/
def State.agcCheck (e : Nat) (m : GnssEpoch) (s : State) (b : Nat) : State :=
  if s.bandExists b && decide (b < m.agcGain.length) then
    let gain := m.agcGain.getD b 0
    let median := (Tbl.get {} s.gnb.bands b).median
    let fails := decide (gain + s.gnb.agcTol < median) || (s.notchesUsed b && m.powerOver.contains b)
    let was := (Tbl.get {} s.gnb.bands b).interfered
    let s := s.onGnb fun g => { g with bands := Tbl.modify {} g.bands b fun c =>
      { c with gain, median := Config.agcMedian median gain, interfered := c.interfered || fails, failTick := if fails then e else c.failTick } }
    if fails then (if was then s.onGnb fun g => { g with fault := setFlag g.fault s.cycle 2 } else s.gnbFault 2 165) else s
  else s

/-- A band is INTERFERED. -/
def State.interfered (s : State) (c : GnssSignal) : Bool := (Tbl.get {} s.gnb.bands c.band).interfered

/-- A system is excluded by the ISB check (R192). -/
def State.isbOut (s : State) (system : Nat) : Bool := decide (s.now < Tbl.get 0 s.gnb.isbUntil system)

/-- The time by which the age of a record is judged, s: calendar time, assistance time, or what the messages broadcast (R183,
R191). -/
def State.ephTime (s : State) (e : Nat) (m : GnssEpoch) : Option Nat :=
  if s.tbu.calValid then some ((s.tbu.calAt e).toNat / 1000000000)
  else if s.gnb.assist.calNs ≠ 0 then some ((s.gnb.assist.calNs + 5 * e - 5 * s.gnb.assist.atTick) / 1000000000)
  else m.broadcastSec

/-- A satellite and a SOURCE as one number. -/
def ephKey (system sv source : Nat) : Nat := (system * 256 + sv) * 8 + source

/-- The SOURCE whose records a signal's messages broadcast (R178, R189). -/
def sourceOf (signal : Nat) : Nat :=
  match signal with
  | 0x01 => 1
  | 0x31 => 1
  | 0x02 => 2
  | 0x32 => 2
  | 0x11 => 3
  | 0x12 => 4
  | 0x21 => 5
  | 0x22 => 6
  | _ => 0

/-- A record may be used for ranging on a signal (R191): healthy, of an age within EPH_MAX_AGE, and of the IOD last heard. -/
def State.ephUsable (s : State) (now : Option Nat) (c : GnssSignal) (r : Eph) : Bool :=
  r.system == c.system && r.sv == c.sv && (r.health == 0 || Config.ephHealthy r.source r.health c.signal) && !r.stale &&
    Tbl.get none s.gnb.iods (ephKey r.system r.sv r.source) == some r.iod &&
    (match now with
      | some t => decide (t ≤ r.toeSec + s.gnb.ephMaxAge * 3600) && decide (r.toeSec ≤ t + s.gnb.ephMaxAge * 3600)
      | none => false)

/-- The check code that excludes a signal (R192, R199); `res` are the signals that RESIDUAL excluded. -/
def State.exclOf (s : State) (res : List GnssSignal) (c : GnssSignal) : Nat :=
  if s.interfered c then 1 else if res.contains c then 2 else if s.isbOut c.system then 3 else 0

/-- The record that serves a satellite in a solution: one, for all its signals (R188); which of several is a free value
(assumption log 164). -/
def State.recordFor (s : State) (now : Option Nat) (cs : List GnssSignal) (c : GnssSignal) : Option Eph :=
  let own := cs.filter fun x => x.system == c.system && x.sv == c.sv
  match s.gnb.eph.filter fun r => own.any fun x => s.ephUsable now x r with
  | [] => none
  | [r] => some r
  | rs => rs[Config.freeRecord (s.gnb.measCount * 2048 + c.system * 256 + c.sv) % rs.length]?

/-- The signals that range before RESIDUAL, with their records: antenna A, not SBAS, neither interfered nor of an excluded
system (R185, R186, R191, R192). -/
def State.ranging (s : State) (now : Option Nat) (cs : List GnssSignal) : List GnssRange :=
  let own := cs.filter fun c => c.antenna == 0 && c.prValid && c.system != 4 && !s.interfered c && !s.isbOut c.system
  own.filterMap fun c => match s.recordFor now own c with
    | some r => if s.ephUsable now c r then
        some { signal := c, record := r.bits, other := own.find? fun x => x.system == c.system && x.sv == c.sv && x.signal != c.signal }
      else none
    | none => none

/-- The systems among some ranges. -/
def systemsOf (rs : List GnssRange) : List Nat := (List.range 4).filter fun k => rs.any fun r => r.signal.system == k

/-- A solution has its 4 signals and 1 for each system after the first (R186). -/
def enoughRanges (rs : List GnssRange) : Bool := decide (3 + max 1 (systemsOf rs).length ≤ rs.length)

/-- The SBAS satellite received best. -/
def strongestSbas (cs : List GnssSignal) : Option GnssSignal :=
  (cs.filter fun c => c.system == 4 && c.antenna == 0).foldl (fun b c => match b with
    | some x => if x.cn0 < c.cn0 then some c else some x
    | none => some c) none

/-- What a fit is made of (R186). -/
def State.gnssInput (s : State) (cs : List GnssSignal) (rs : List GnssRange) : GnssInput :=
  { ranges := rs, klobuchar := s.gnb.klobuchar,
    sbas := if s.gnb.sbasCorr then (strongestSbas cs).map fun c => Tbl.get [] s.gnb.sbas c.sv else none }

/-- The range of the largest normalised residual. -/
def worstRange (i : GnssInput) : Option (GnssRange × Nat) :=
  i.ranges.foldl (fun b r =>
    let v := Config.gnssResidual i r.signal
    match b with
    | some (x, w) => if w < v then some (r, v) else some (x, w)
    | none => some (r, v)) none

/-- RESIDUAL (R192): the signal of the largest residual over the gate is excluded and the fit repeated, at most 4 times; false
where a fifth would be needed. -/
def State.residualCheck (s : State) (cs : List GnssSignal) : Nat → List GnssRange → List GnssSignal → Bool × List GnssRange × List GnssSignal
  | 0, rs, out => (false, rs, out)
  | n + 1, rs, out =>
    if enoughRanges rs then
      match worstRange (s.gnssInput cs rs) with
      | some (r, v) =>
        if s.gnb.resGate * 1000 < v then
          (if n = 0 then (false, rs, out) else s.residualCheck cs n (rs.filter fun x => x != r) (out ++ [r.signal]))
        else (true, rs, out)
      | none => (true, rs, out)
    else (true, rs, out)

/-- The broadcast offset of a system against GPS, if one has been decoded (R187). -/
def Gnb.broadcastIsb (g : Gnb) (system : Nat) : Option Int :=
  match system with
  | 1 => g.galileoOffset
  | 2 => g.beidouOffset
  | _ => none

/-- The ISB check fails for an offset (R192). -/
def State.isbFails (s : State) (first system : Nat) (v : Int) : Bool :=
  let tol := s.gnb.isbTol
  (match Tbl.get none s.gnb.isbRun system with
    | some r => decide (tol < (v - r).natAbs)
    | none => false) ||
  (match s.gnb.broadcastIsb system with
    | some b => first == 0 && decide (3 * tol < (v - b).natAbs)
    | none => false)

/-- The ISB check of one system after the first (R192). -/
def State.isbCheck (first : Nat) (i : GnssInput) (s : State) (system : Nat) : State :=
  let v := Config.gnssIsb i system
  if s.isbFails first system v then
    (s.onGnb fun g => { g with isbUntil := Tbl.set 0 g.isbUntil system (s.now + g.isbHold * secTicks) }).gnbFault 5 168
  else s.onGnb fun g =>
    { g with isbRun := Tbl.set none g.isbRun system (some (match Tbl.get none g.isbRun system with | some r => Config.isbRunning r v | none => v)) }

/-- The ISB check of every system in use after the first (R192). -/
def State.isbChecks (cs : List GnssSignal) (rs : List GnssRange) (s : State) : State :=
  match systemsOf rs with
  | [] => s
  | first :: more => if enoughRanges rs then more.foldl (State.isbCheck first (s.gnssInput cs rs)) s else s

/-! ### Heading (R195, R196) -/

/-- Carrier lock, C/N0 and band suffice for the heading (R195). -/
def State.hdgGood (s : State) (c : GnssSignal) : Bool :=
  c.phaseValid && decide (4 * s.gnb.hdgMinCn0 ≤ c.cn0) && !s.interfered c

/-- The signals that both antennas track well enough for the heading. -/
def State.hdgPairs (s : State) (cs : List GnssSignal) : List (GnssSignal × GnssSignal) :=
  (cs.filter fun a => a.antenna == 0 && s.hdgGood a).filterMap fun a =>
    (cs.find? fun b => b.antenna == 1 && trackOf b == trackOf a && s.hdgGood b).map fun b => (a, b)

/-- The pairs whose ambiguities are fixed: a slip removes one until it is fixed again (R195). -/
def State.fixedPairs (s : State) (cs : List GnssSignal) : List (GnssSignal × GnssSignal) :=
  (s.hdgPairs cs).filter fun p => !p.1.slip && !p.2.slip && (s.gnb.ambiguities.contains (trackOf p.1) || p.1.resolved)

/-- Validity of the heading changes (R202). -/
def State.setHdg (v : Bool) (n : Nat) (s : State) : State :=
  let was := s.gnb.hdg
  let s := s.onGnb fun g => { g with hdg := v, hdgSignals := n }
  if was = v then s else s.raise 162

/-- The heading of an epoch (R195, R196): the baseline to deliver, if any. There is a fix of the baseline while HDG_MIN_SIGNALS
signals take part (assumption log 165). -/
def State.headingCheck (burst : Bool) (ps : List (GnssSignal × GnssSignal)) (s : State) : Option GnssBaseline × State :=
  let n := ps.length
  let s := s.onGnb fun g => { g with ambiguities := ps.map fun p => trackOf p.1 }
  if burst ∨ s.antExists 1 = false then (none, (s.onGnb fun g => { g with baselineMeas := 0 }).setHdg false 0)
  else if n < s.gnb.hdgMinSignals then (none, (s.onGnb fun g => { g with baselineMeas := 0 }).setHdg false n)
  else
    let b := Config.gnssBaseline s.gnb.baselineCfg ps
    let s := s.onGnb fun g => { g with baselineMeas := min 4095 b.lengthMm }
    if 20 < ((b.lengthMm : Int) - s.gnb.baselineCfg).natAbs then
      let k := s.gnb.baselineFails + 1
      let s := (s.onGnb fun g => { g with ambiguities := [], baselineFails := if k = 3 then 0 else k }).setHdg false n
      (none, if k = 3 then (s.gnbFault 6 169).record 0x0502 0 [] else s)
    else (some b, (s.onGnb fun g => { g with baselineFails := 0 }).setHdg true n)

/-- The CLOCK check is made, and fails (R192); not while a step to GNSS time waits, which ended the suspicion (R193). -/
def State.clockFails (s : State) (e : Nat) (f : GnssFit) : Bool :=
  s.tbu.bal != .freerun && decide (2 ≤ s.tbu.source) && !s.tbu.noTest && s.tbu.calValid && !s.tbu.gnssStep &&
    decide (s.gnb.clkTol + s.tbu.uncAt e < ((f.timeNs : Int) - s.tbu.calAt e).natAbs)

/-- The DOPPLER check is made, and fails (R192). -/
def State.dopplerFails (s : State) (f : GnssFit) : Bool :=
  s.tbu.freqMeasured && decide ((s.gnb.driftTol : Int) < ((f.driftPpb + s.tbu.freq).natAbs : Int))

/-- The own solution and heading as PSE takes them (R157, R162, R185): position and velocity in the field frame, the baseline as
measured. -/
def State.ownFix (s : State) (e : Nat) (fit : Option GnssFit) (vel : Bool) (b : Option GnssBaseline) : PFix :=
  let p := s.pse
  let placed := p.originSet
  { tick := e, rank := 0,
    pos := if placed then fit.map fun f => let q := p.toField f.x f.y f.z; (q.1, q.2.1, 65536 * f.posSigma) else none,
    vel := if placed && vel then
        fit.map fun f => let v := p.rotateEnu (65536 * f.velX) (65536 * f.velY) (65536 * f.velZ); (v.1, v.2.1, 65536 * f.velSigma)
      else none,
    hdg := b.map fun x => ((toTwos 32 (65536 * x.azimuth) : Nat), 65536 * x.sigma),
    elev := b.map fun x => 65536 * x.elevation }

/-- Delivery to PSE (R185). -/
def State.deliverPose (e : Nat) (fit : Option GnssFit) (vel : Bool) (b : Option GnssBaseline) (s : State) : State :=
  let m := s.ownFix e fit vel b
  if s.isReady 4 && (m.pos.isSome || m.hdg.isSome) then
    let s := match fit with
      | some f => if m.pos.isSome then s.onPse fun p => { p with up := mm (p.toField f.x f.y f.z).2.2 - p.model.antAZ } else s
      | none => s
    (s.takeFix m).2
  else s

/-- Delivery to TBU (R185, R192, R193): CLOCK and DOPPLER mark the epoch's time. The answer says that velocity passes. -/
def State.deliverTime (e : Nat) (f : GnssFit) (s : State) : Bool × State :=
  let dop := s.dopplerFails f
  let marked := s.clockFails e f || dop
  let s := if marked then s.gnbFault 4 167 else s
  let s := s.gnssTime ((f.timeNs : Int) - 5 * e) f.timeUnc f.driftPpb marked
  (!dop, s.onGnb fun g => { g with timeOk := s.tbu.gnssValid })

/-- A solution becomes available, or is lost for 2 s (R202). -/
def State.noteFix (e : Nat) (ok : Bool) (s : State) : State :=
  let was := s.gnb.fixTick
  let s := s.onGnb fun g =>
    { g with fix := ok, fixSinceReady := g.fixSinceReady || ok, everFixed := g.everFixed || ok,
             fixTick := if ok then some e else match g.fixTick with
               | some k => if k + 2 * secTicks ≤ e then none else some k
               | none => none }
  if was.isSome = s.gnb.fixTick.isSome then s else s.raise 161

/-- What the reports of an epoch say beside the measurements: burst tracking, the signals in the solution, in the heading and
excluded by RESIDUAL. -/
structure EpochUse where
  burst : Bool
  sol : List GnssSignal
  hdg : List Track
  res : List GnssSignal
  deriving DecidableEq, Repr

/-- GNSS_MEAS of one channel (R199). -/
def State.measReport (e : Nat) (last : Bool) (u : EpochUse) (n : Nat) (c : GnssSignal) (s : State) : State :=
  s.report 0x44 (if last then 2 else 0) e
    [fld 16 1 n, fld 17 1 c.system, fld 18 1 c.sv, fld 19 1 c.signal,
     fld 20 1 (b2n c.prValid + 2 * b2n c.phaseValid + 4 * b2n c.halfCycleOk + 8 * b2n (s.gnb.slips.contains n) +
       16 * b2n (u.sol.contains c) + 32 * b2n (u.hdg.contains (trackOf c)) + 64 * b2n (s.interfered c) + 128 * b2n u.burst),
     fld 21 1 (min 255 c.cn0), fld 22 2 (min 0xFFFF c.lock), fld 24 8 c.pr, sfld 32 8 c.phase, sfld 40 4 c.doppler,
     fld 44 2 (min 0xFFFF c.prSigma), fld 46 2 (min 0xFFFF c.phaseSigma),
     (if s.gnb.fixSinceReady then sfld 48 1 c.elev else fld 48 1 0x7F), fld 49 1 (c.azim % 180), fld 50 1 (s.exclOf u.res c),
     fld 52 8 (s.tbu.calField e), fld 60 4 s.gnb.measCount]

/-- The GNSS_MEAS reports of an epoch in channel order (R199). -/
def State.measReports (e : Nat) (u : EpochUse) : List (Nat × GnssSignal) → State → State
  | [], s => s
  | c :: t, s => State.measReports e u t (s.measReport e t.isEmpty u c.1 c.2)

/-- The GNSS_MEAS reports of every MEAS_DIV-th epoch (R199); a slip shows until its channel has reported. -/
def State.epochReports (e : Nat) (u : EpochUse) (cs : List (Nat × GnssSignal)) (s : State) : State :=
  let n := s.gnb.sinceReport + 1
  if s.gnb.measDiv ≠ 0 ∧ s.gnb.measDiv ≤ n then
    (s.measReports e u cs).onGnb fun g => { g with sinceReport := 0, slips := [] }
  else s.onGnb fun g => { g with sinceReport := if g.measDiv = 0 then 0 else n }

/-- The channels at an epoch (R178, R179, R199): allocated anew, with the slips since their last reports. -/
def State.trackEpoch (burst : Bool) (m : GnssEpoch) (s : State) : List (Nat × GnssSignal) × State :=
  let ok := m.signals.filter (s.trackable burst)
  let s := s.allocate ok 0
  let s := if burst then s else s.allocate ok 1
  let cs := s.tracked ok
  (cs, s.onGnb fun g => { g with slips := (g.slips ++ (cs.filter fun c => c.2.slip).map Prod.fst).eraseDups })

/-- The checks 2 and 3 of R192 and the fit: the fit if there is one, the ranges it is made of, and what RESIDUAL excluded. -/
def State.solveEpoch (now : Option Nat) (cs : List GnssSignal) (s : State) : Option GnssFit × List GnssRange × List GnssSignal × State :=
  let r := s.residualCheck cs 5 (s.ranging now cs) []
  let s := r.2.2.foldl (fun s _ => (s.onGnb fun g => { g with exclude := count32 g.exclude }).gnbFault 3 166) s
  let s := if r.1 then s.isbChecks cs r.2.1 else s
  let used := r.2.1.filter fun x => !s.isbOut x.signal.system
  (if r.1 && enoughRanges used then some (Config.gnssFit (s.gnssInput cs used)) else none, used, r.2.2, s)

/-- One measurement epoch (R184-R196, R199). -/
def State.measEpoch (e : Nat) (burst : Bool) (m : GnssEpoch) (s : State) : State :=
  let s := s.applyEph
  let s := (List.range 4).foldl (State.agcCheck e m) s
  let k := s.trackEpoch burst m
  let cs := k.1.map Prod.snd
  let v := k.2.solveEpoch (k.2.ephTime e m) cs
  let fit := v.1
  let used := if fit.isSome then v.2.1 else []
  let s := v.2.2.2
  let r := s.headingCheck burst (s.fixedPairs cs)
  let s := r.2.noteFix e fit.isSome
  let s := s.onGnb fun g =>
    { g with signals := used.length, solFail := if fit.isSome then g.solFail else count32 g.solFail,
             measCount := g.measCount + 1, lastMeasTick := some e, ephInUse := ((used.map GnssRange.record).eraseDups).length }
  let t : Bool × State := match fit with
    | some f => s.deliverTime e f
    | none => (false, s.gnssNoTime.onGnb fun g => { g with timeOk := false })
  let s := (t.2.deliverPose e fit t.1 r.1).raise 160
  let u : EpochUse := { burst, sol := used.map GnssRange.signal, hdg := s.gnb.ambiguities, res := v.2.2.1 }
  (s.epochReports e u k.1).armCheck

/-- An epoch has not been solved yet. -/
def Gnb.newEpoch (g : Gnb) (e : Nat) : Bool :=
  (match g.lastMeasTick with | some k => decide (k < e) | none => true) && decide (g.resumeTick ≤ e)

def execGnssMeasEpoch (dt : Nat) (m : GnssEpoch) (s : State) : Answer :=
  let s := s.elapse dt
  let p := measTicks s.gnb.measRate
  let e := s.now / p * p
  .next (s.when (s.isReady 6 && !s.gnb.burst && s.gnb.newEpoch e) (State.measEpoch e false m))

/-! ### NAV_BITS (R187, R191, R200, R201) -/

/-- A broadcast IOD against the record of its satellite and SOURCE (R191). -/
def State.iodHeard (k : Track) (iod : Nat) (s : State) : State :=
  let source := sourceOf k.signal
  let hit (r : Eph) : Bool := r.system == k.system && r.sv == k.sv && r.source == source
  let dies := s.gnb.eph.any fun r => hit r && r.iod != iod && !r.stale && decide (1 ≤ r.iodMisses)
  let s := s.onGnb fun g =>
    { g with iods := Tbl.set none g.iods (ephKey k.system k.sv source) (some iod),
             eph := g.eph.map fun r =>
        if hit r then
          (if r.iod = iod then { r with iodMisses := 0 }
          else { r with iodMisses := min 2 (r.iodMisses + 1), stale := r.stale || decide (1 ≤ r.iodMisses) })
        else r }
  if dies then s.gnbFault 7 170 else s

/-- Whether a signal's message is LNAV (R178). -/
def isLnav (signal : Nat) : Bool := signal == 0x01 || signal == 0x31

/-- The data bits under each of the six parity bits of an LNAV word, and whether D30* of the word before joins them rather than
D29* (PRESUMED, IS-GPS-200; assumption log 166). -/
def lnavParity : List (Bool × List Nat) :=
  [(false, [1, 2, 3, 5, 6, 10, 11, 12, 13, 14, 17, 18, 20, 23]), (true, [2, 3, 4, 6, 7, 11, 12, 13, 14, 15, 18, 19, 21, 24]),
   (false, [1, 3, 4, 5, 7, 8, 12, 13, 14, 15, 16, 19, 20, 22]), (true, [2, 4, 5, 6, 8, 9, 13, 14, 15, 16, 17, 20, 21, 23]),
   (true, [1, 3, 5, 6, 7, 9, 10, 14, 15, 16, 17, 18, 21, 22, 24]), (false, [3, 5, 6, 8, 9, 10, 11, 13, 15, 19, 22, 23, 24])]

/-- The parity of a 30-bit LNAV word after one that ended in the bits `d29` and `d30` (R178, R201). -/
def lnavOk (d29 d30 : Bool) (w : List Bool) : Bool :=
  let data (i : Nat) : Bool := w.getD (i - 1) false != d30
  (List.range 6).all fun j =>
    let e := lnavParity.getD j (false, [])
    w.getD (24 + j) false == e.2.foldl (fun b i => b != data i) (if e.1 then d30 else d29)

/-- CRC-24Q over bits that end in the code itself: 0 where it is right (PRESUMED, polynomial 0x1864CFB; assumption log 166). -/
def crc24 (bits : List Bool) : Nat :=
  bits.foldl (fun c b =>
    let c' := 2 * c % 16777216
    if (8388608 ≤ c) != b then Nat.xor c' 0x864CFB else c') 0

/-- The check code of a message (R201). -/
def State.checkCode (s : State) (k : Track) (m : NavMessage) : Nat :=
  if !m.complete then 2
  else if isLnav k.signal then
    match Tbl.get none s.gnb.lastBits m.channel with
    | some (a, b) => if lnavOk a b m.bits then 0 else 1
    | none => 2
  else if crc24 m.bits = 0 then 0 else 1

/-- The bits of a message as it is reported: an LNAV word has 30 (R200). -/
def reportBits (k : Track) (m : NavMessage) : List Bool := if isLnav k.signal then m.bits.take 30 else m.bits

/-- Up to 256 bits as bytes, the first bit in bit 7 of the first byte, unused bits zero (R200). -/
def bitBytes (bs : List Bool) : List Nat :=
  (List.range 32).map fun i => (List.range 8).foldl (fun n j => 2 * n + b2n (bs.getD (8 * i + j) false)) 0

/-- Time is known (R183, R200). -/
def State.towKnown (s : State) : Bool := s.tbu.calValid || s.gnb.assist.calNs != 0 || s.gnb.fixSinceReady

/-- One part of a message as NAV_BITS (R200). -/
def State.navPart (k : Track) (check count : Nat) (m : NavMessage) (parts i : Nat) (s : State) : State :=
  let bs := ((reportBits k m).drop (256 * i)).take 256
  let at_ := m.parts.getD i (0, 0)
  s.report 0x45 0 at_.1
    ([fld 16 1 m.channel, fld 17 1 k.system, fld 18 1 k.sv, fld 19 1 k.signal, fld 20 1 check,
      fld 21 1 (i % 16 + 16 * b2n (decide (i + 1 = parts))), fld 22 2 bs.length,
      fld 24 4 (if s.towKnown then at_.2 else 0xFFFFFFFF)] ++
     ((bitBytes bs).zip (List.range 32)).map (fun e => fld (28 + e.2) 1 e.1) ++ [fld 60 4 count])

/-- NAV_BITS of a message, in parts of at most 256 bits that all carry its check code (R200, R201). -/
def State.navReport (k : Track) (check count : Nat) (m : NavMessage) (s : State) : State :=
  let n := ((reportBits k m).length + 255) / 256
  (List.range n).foldl (fun s i => s.navPart k check count m n i) s

/-- What a message that passed its check says, where its signal is one that GNB takes it from (R187, R191). -/
def State.navInfo (k : Track) (s : State) (i : NavInfo) : State :=
  match i with
  | .klobuchar p => if k.signal = 0x01 then s.onGnb fun g => { g with klobuchar := p } else s
  | .utc p => if k.signal = 0x01 then s.onGnb fun g => { g with utc := p } else s
  | .leapSecond v => if k.signal = 0x01 then s.leapSecond v else s
  | .galileoOffset v => if k.signal = 0x11 then s.onGnb fun g => { g with galileoOffset := some v } else s
  | .beidouOffset v => if k.signal = 0x21 ∨ k.signal = 0x22 then s.onGnb fun g => { g with beidouOffset := some v } else s
  | .iod v => s.iodHeard k v

/-- An SBAS message is kept for its corrections (R187). -/
def State.keepSbas (k : Track) (m : NavMessage) (s : State) : State :=
  if k.signal = 0x41 then s.onGnb fun g => { g with sbas := Tbl.modify [] g.sbas k.sv fun l => (m.bits :: l).take 64 } else s

/-- A message received on a channel: its check, its reports, what it says (R187, R200, R201). -/
def State.navMessage (k : Track) (m : NavMessage) (s : State) : State :=
  let check := s.checkCode k m
  let count := Tbl.get 0 s.gnb.msgCount m.channel + 1
  let s := s.onGnb fun g =>
    { g with msgCount := Tbl.set 0 g.msgCount m.channel count,
             lastBits := Tbl.set none g.lastBits m.channel
               (if isLnav k.signal then some (m.bits.getD 28 false, m.bits.getD 29 false) else none) }
  let s := if check = 1 then (s.onGnb fun g => { g with navFail := count32 g.navFail }).gnbFault 8 172 else s
  let s := if s.gnb.navEn && m.polarityKnown && (check != 1 || s.gnb.navFailedEn) then s.navReport k check count m else s
  if check = 0 then m.info.foldl (State.navInfo k) (s.keepSbas k m) else s

def execNavMessage (dt : Nat) (m : NavMessage) (s : State) : Answer :=
  let s := s.elapse dt
  .next (match s.track m.channel with
    | some k => s.when (s.isReady 6 && s.antExists 0 && decide (m.channel < 96)) (State.navMessage k m)
    | none => s)

/-! ### Bands, systems, notches (R192, R194) -/

/-- A band has passed the AGC check for 2 s (R192). -/
def execInterferenceClear (dt band : Nat) (s : State) : Answer :=
  let s := s.elapse dt
  let b := Tbl.get {} s.gnb.bands band
  .next (s.when (s.isReady 6 && b.interfered && decide (b.failTick + 2 * secTicks ≤ s.now)) fun s =>
    (s.onGnb fun g => { g with bands := Tbl.modify {} g.bands band fun c => { c with interfered := false } }).raise 165)

/-- A system's exclusion ends after ISB_HOLD (R192). -/
def execIsbHoldExpiry (dt system : Nat) (s : State) : Answer :=
  let s := s.elapse dt
  .next (s.when (decide (Tbl.get 0 s.gnb.isbUntil system ≤ s.now)) fun s =>
    s.onGnb fun g => { g with isbUntil := Tbl.set 0 g.isbUntil system 0 })

def State.notch (s : State) (n : Nat) : Notch := Tbl.get {} s.gnb.notches n

def State.onNotch (n : Nat) (f : Notch → Notch) (s : State) : State :=
  s.onGnb fun g => { g with notches := Tbl.modify {} g.notches n f }

/-- A notch engages on a peak above NOTCH_THRESH that the band's other notch does not hold; one that is engaged follows its peak
(R194). -/
def execNotchEngage (dt notch : Nat) (offsetKhz : Int) (depthDb aboveDb : Nat) (s : State) : Answer :=
  let s := s.elapse dt
  let c := s.notch notch
  let o := s.notch (notch ^^^ 1)
  .next (s.when (s.isReady 6 && s.bandExists (notch / 2) && c.enable && decide (s.gnb.notchThresh < aboveDb) &&
      !(o.active && o.offsetKhz == offsetKhz)) fun s =>
    let s := s.onNotch notch fun c => { c with active := true, depthDb := max 40 depthDb, offsetKhz, overTick := s.now }
    if c.active then s else s.raise 164)

/-- A notch releases 1 s after its peak was last above the threshold (R194). -/
def execNotchRelease (dt notch : Nat) (s : State) : Answer :=
  let s := s.elapse dt
  let c := s.notch notch
  .next (s.when (s.isReady 6 && c.active && decide (c.overTick + secTicks ≤ s.now)) fun s =>
    (s.onNotch notch fun c => { c with active := false, depthDb := 0, offsetKhz := 0 }).raise 164)

/-! ### Antenna bias (R180) -/

def State.bias (s : State) (a : Nat) : Bias := Tbl.get .off s.gnb.bias a

/-- A change of bias state: ANT_FAULT and the antenna's fault bit, and a record of a SHORT (R180); the current starts anew where
the bias comes on, and is 0 where it is cut. -/
def State.setBias (a : Nat) (b : Bias) (s : State) : State :=
  if s.bias a = b then s
  else
    let was := s.bias a
    let s := (s.onGnb fun g =>
      { g with bias := Tbl.set .off g.bias a b,
               biasMa := if was = .off ∨ b = .off ∨ b = .short then Tbl.set none g.biasMa a none else g.biasMa }).gnbFault a 163
    if b = .short then s.record 0x0501 a [] else s

/-- The bias current is sampled (R180). -/
def State.sampleBias (a ma : Nat) (s : State) : State := s.onGnb fun g => { g with biasMa := Tbl.set none g.biasMa a (some ma) }

/-- The monitored current of an antenna in state OK: below 2 mA, as it has been for 10 ms, OPEN sets; any other is a sample. -/
def execAntOpen (dt antenna milliamp : Nat) (s : State) : Answer :=
  let s := s.elapse dt
  .next (s.when (s.bias antenna == .ok && decide (milliamp ≤ 60)) fun s =>
    let s := s.sampleBias antenna milliamp
    if milliamp < 2 then s.setBias antenna .opened else s)

/-- A current above 60 mA, as it has been for 1 ms: the bias is cut (R180). -/
def execAntShort (dt antenna milliamp : Nat) (s : State) : Answer :=
  let s := s.elapse dt
  .next (s.when ((s.bias antenna == .ok || s.bias antenna == .opened) && decide (60 < milliamp)) fun s =>
    (s.onGnb fun g => { g with shortTick := Tbl.set 0 g.shortTick antenna s.now }).setBias antenna .short)

/-- The bias of a shorted antenna is tried again every 1 s (R180). -/
def execAntBiasRetry (dt antenna milliamp : Nat) (s : State) : Answer :=
  let s := s.elapse dt
  .next (s.when (s.bias antenna == .short && decide (Tbl.get 0 s.gnb.shortTick antenna + secTicks ≤ s.now)) fun s =>
    let s := s.onGnb fun g => { g with shortTick := Tbl.set 0 g.shortTick antenna s.now }
    if inRange 2 60 milliamp then (s.setBias antenna .ok).sampleBias antenna milliamp else s)

def execAntBiasRecover (dt antenna milliamp : Nat) (s : State) : Answer :=
  let s := s.elapse dt
  .next (s.when (s.bias antenna == .opened && inRange 2 60 milliamp) fun s => (s.sampleBias antenna milliamp).setBias antenna .ok)

/-! ### Burst tracking (R197, R198) -/

/-- The whole second of device ticks at or before now. -/
def State.wholeSecond (s : State) : Nat := s.now / secTicks * secTicks

def execBurstStart (dt : Nat) (s : State) : Answer :=
  let s := (s.elapse dt).armCheck
  .next (s.when (s.isReady 6 && !s.gnb.burst &&
      (match s.gnb.allowedSince with | some t => decide (t + 2 * secTicks ≤ s.wholeSecond) | none => false)) fun s =>
    ((s.onGnb fun g => { g with burst := true, ambiguities := [], baselineMeas := 0 }).raise 171).setHdg false 0)

/-- The measurement epoch of a burst window: the last pose epoch inside it (R198). -/
def State.windowEpoch (s : State) : Nat := s.wholeSecond + (s.gnb.burstMs * msTicks - 1) / 1000000 * 1000000

def execBurstWindow (dt : Nat) (m : GnssEpoch) (s : State) : Answer :=
  let s := s.elapse dt
  .next (s.when (s.isReady 6 && s.gnb.burst && decide (s.windowEpoch ≤ s.now) && s.gnb.newEpoch s.windowEpoch)
    (State.measEpoch s.windowEpoch true m))

def execBurstExit (dt : Nat) (s : State) : Answer :=
  let s := (s.elapse dt).armCheck
  .next (s.when (s.gnb.burst && !s.burstAllowed) fun s =>
    (s.onGnb fun g => { g with burst := false, resumeTick := s.now + 20 * msTicks, ambiguities := [] }).raise 171)

end Sys2Proof.Machine
end

