-- ==== Sys2Proof/Machine/Interrupt.lean ====
section
/-! DEFINITION. The commands of ICU (13_interrupts.md). -/

namespace Sys2Proof.Machine

/-- TIME_US has passed in an open window: the source becomes pending (R328). -/
def execCoalesceTimeout (dt source : Nat) (s : State) : Answer :=
  let s := s.elapse dt
  let c := s.src source
  .next (match c.windowTick with
    | some k => s.when (c.timeUs != 0 && decide (k + c.timeUs * usTicks ≤ s.now)) fun s =>
      s.onSrc source fun c => c.closeWindow s.now
    | none => s)

/-- EXTINT_k takes an edge: the ball is claimed, the edge is the active one, and the new level has held for FILTER
cycles (R327, R329). -/
def State.extintTakes (s : State) (k : Nat) (rising : Bool) (held : Nat) : Bool :=
  let e := Tbl.get 0 s.icu.extEdge k
  decide (k < 8) && Tbl.get 0 s.fbu.auxi k == 1 &&
    (match e with | 0 => rising | 1 => !rising | _ => true) && decide ((s.src (496 + k)).filter ≤ held)

def execExtintEdge (dt k : Nat) (rising : Bool) (heldCycles : Nat) (s : State) : Answer :=
  .next ((s.elapse dt).when (s.extintTakes k rising heldCycles) fun s =>
    s.onSrc (496 + k) fun c => c.accept s.now)

/-- Source `n` is a candidate of target `t` (R330). -/
def State.candidate (s : State) (t n : Nat) : Bool :=
  let g := s.target t
  let p := (s.src n).priority
  s.waits t n && decide ((s.src n).dueCycle ≤ s.cycle) && decide (g.threshold < p) && decide (g.level < p)

/-- The candidate with the highest priority, the lowest source number among equals (R330). -/
def State.bestOf (s : State) (t : Nat) : List Nat → Option Nat
  | [] => none
  | n :: rest =>
    match s.bestOf t rest with
    | none => if s.candidate t n then some n else none
    | some m =>
      let p := (s.src n).priority
      let q := (s.src m).priority
      if s.candidate t n && (decide (q < p) || (p == q && decide (n < m))) then some n else some m

/-- MSI-X is on, and a message of target `t` is held while its vector or the function is masked (R337). -/
def State.msixOn (s : State) : Bool := s.hre.msixEnable && s.hre.linkUp
def State.msixHolds (s : State) (t : Nat) : Bool := (Tbl.get {} s.hre.msix t).masked || s.hre.msixFuncMask

/-- A committed message goes to HRE (R330, R337): sent, held with its pending bit while masked, or not sent at all. -/
def State.sendMsix (t : Nat) (s : State) : State :=
  let e := Tbl.get {} s.hre.msix t
  if s.msixOn then
    if s.msixHolds t then s.onHre fun h => { h with pba := setBit h.pba t }
    else s.onOut fun o => { o with msix := (t, e.addr, e.data) :: o.msix }
  else s

/-- What target `t` latches of source `n` (R330). -/
def State.commitOf (s : State) (t n : Nat) : Commit :=
  let c := s.src n
  { source := n, priority := c.priority, events := c.events, cycle := s.cycle, sent := s.msixOn && !s.msixHolds t,
    held := s.msixOn && s.msixHolds t && !bit s.hre.pba t }

/-- A target with an empty slot commits its best candidate (R330, R336). -/
def State.commitTarget (t : Nat) (s : State) : State :=
  match s.bestOf t s.sources with
  | some n => s.when (decide (t < 16) && (s.target t).slot.isNone && !(s.target t).parked) fun s =>
    (s.onTarget t fun g => { g with slot := some (s.commitOf t n) }).sendMsix t
  | none => s

def execIcuCommit (dt target : Nat) (s : State) : Answer := .next ((s.elapse dt).commitTarget target)

/-- The targets that have committed in this BUS cycle. -/
def State.committing (s : State) : List Nat :=
  (List.range 16).filter fun t => match (s.target t).slot with
    | some c => c.cycle == s.cycle
    | none => false

/-- The first message of a target in the list falls away. -/
def dropMsix (t : Nat) : List (Nat × Nat × Word) → List (Nat × Nat × Word)
  | [] => []
  | m :: r => if m.1 = t then r else m :: dropMsix t r

/-- The commit of a target in this BUS cycle is taken back, for a write that takes part in its decision (R333). -/
def State.recall (t : Nat) (s : State) : State :=
  match (s.target t).slot with
  | some c =>
    let s := s.onTarget t fun g => { g with slot := none }
    let s := if c.sent then s.onOut fun o => { o with msix := dropMsix t o.msix } else s
    if c.held then s.onHre fun h => { h with pba := h.pba &&& ~~~(BitVec.ofNat 32 (2 ^ t)) } else s
  | none => s

/-- A register write takes part in the decisions of its BUS cycle (R333, R334): the commits of this cycle are judged again
after it. -/
def State.recommit (f : State → State) (s : State) : State :=
  let ts := s.committing
  if ts = [] then f s else ts.foldl (fun s t => s.commitTarget t) (f (ts.foldl (fun s t => s.recall t) s))

/-- A claimed source: its pending bit and EVENTS clear, and the way is open for a new window (R328, R331). An event accepted
in the BUS cycle of the claim counts after it, and a pending bit set in that cycle stays set (R334). -/
def Src.claim (cycle : Nat) (c : Src) : Src :=
  let z := { c with pending := false, events := 0, windowTick := none, windowCount := 0, windowDone := false, moved := false }
  if c.lastTick.map (· / 2) = some cycle then z.accept (c.lastTick.getD 0)
  else if c.setCycle = some cycle then { z.pend (2 * cycle) (cycle + 1) with events := 1, windowDone := true }
  else z

/-- A read of TGT_CLAIM (R331). -/
def execTgtClaimRead (dt target : Nat) (s : State) : Answer :=
  let s := s.elapse dt
  .next (s.when (s.hostUp && decide (target < 16)) fun s =>
    let word := s.readTarget target 0x4
    match (s.target target).slot with
    | some c =>
      ((s.onTarget target fun g => { g with slot := none, stack := c.priority :: g.stack }).onSrc c.source (Src.claim s.cycle)).readOut word
    | none => (s.onTarget target fun g => { g with spurious := count32 g.spurious }).readOut word)

/-- A write to TGT_EOI pops the stack, or is ignored with EOI_ERR (R332). -/
def State.eoi (t : Nat) (s : State) : State :=
  match (s.target t).stack with
  | [] => s.onIcu fun i => { i with fault := setFlag i.fault s.cycle 0 }
  | _ :: r => s.onTarget t fun g => { g with stack := r }

def execTgtEoiWrite (dt target : Nat) (_value : Word) (s : State) : Answer :=
  .next ((s.elapse dt).when (s.hostUp && decide (target < 16)) (State.recommit (State.eoi target)))

/-- One event on each software source whose bit is set (R329). -/
def State.swi (v : Word) (s : State) : State :=
  ((List.range 8).filter fun n => bit v n).foldl (fun s n => s.raise (504 + n)) s

def execIcuSwiWrite (dt : Nat) (value : Word) (s : State) : Answer :=
  .next ((s.elapse dt).when s.hostUp (State.swi value))

/-- Each source whose bit is set becomes pending at once (R329). -/
def State.pendWrite (w : Nat) (v : Word) (s : State) : State :=
  ((List.range 32).filter fun b => bit v b).foldl (fun s b => s.onSrc (32 * w + b) fun c => c.pend s.now s.cycle) s

def execIcuPendWrite (dt w : Nat) (value : Word) (s : State) : Answer :=
  .next ((s.elapse dt).when (s.hostUp && decide (w < 16)) (State.recommit (State.pendWrite w value)))

/-- A write of ICU_SRC_CFG (R335, R340): a new TARGET governs at once. -/
def State.srcCfgWrite (n : Nat) (v : Word) (s : State) : State :=
  s.onSrc n fun c =>
    { c with priority := bits v 0 4, target := bits v 4 4, filter := bits v 8 8,
             moved := c.moved && c.target == bits v 4 4 }

def execSrcTargetWrite (dt source : Nat) (value : Word) (s : State) : Answer :=
  .next ((s.elapse dt).when (s.hostUp && decide (source < 512)) (State.recommit (State.srcCfgWrite source value)))

/-- A source routed to target `t` returns to it (R336). -/
def Src.unmove (t : Nat) (c : Src) : Src := if c.target = t then { c with moved := false } else c

/-- A write of TGT_CFG (R336, R340): setting PARKED starts the park, clearing it brings the sources back. -/
def State.tgtCfgWrite (t : Nat) (v : Word) (s : State) : State :=
  let s := s.onTarget t fun g =>
    { g with threshold := bits v 0 4, parked := bit v 4, fbEn := bit v 5, fallback := bits v 6 4, graceUs := bits v 16 16,
             parkTick := if bit v 4 && !g.parked then s.now else g.parkTick }
  if bit v 4 then s else s.sources.foldl (fun s n => s.onSrc n (Src.unmove t)) s

def execTgtParkWrite (dt target : Nat) (value : Word) (s : State) : Answer :=
  .next ((s.elapse dt).when (s.hostUp && decide (target < 16)) (State.recommit (State.tgtCfgWrite target value)))

/-- After GRACE_US of park and of pending, a source moves to the fallback target (R336). -/
def execParkGraceExpiry (dt source : Nat) (s : State) : Answer :=
  let s := s.elapse dt
  let c := s.src source
  let g := s.target c.target
  .next (s.when (c.pending && !s.committed source && g.parked && g.fbEn && g.fallback != c.target &&
      decide (g.parkTick + g.graceUs * usTicks ≤ s.now) && decide (c.pendTick + g.graceUs * usTicks ≤ s.now)) fun s =>
    s.onSrc source fun c => { c with moved := true })

/-- Unmasking an MSI-X entry sends its held message (R337). Enabling MSI-X itself is a write of configuration space, for
which the table has no row: a host that unmasks an entry has enabled MSI-X (assumption log 21). -/
def State.unmask (entry : Nat) (s : State) : State :=
  let held := bit s.hre.pba entry
  let s := s.onHre fun h =>
    { h with msixEnable := true, msix := Tbl.modify {} h.msix entry fun e => { e with masked := false },
             pba := if h.msixFuncMask then h.pba else h.pba &&& ~~~(BitVec.ofNat 32 (2 ^ entry)) }
  if held && !s.hre.msixFuncMask then
    let e := Tbl.get {} s.hre.msix entry
    s.onOut fun o => { o with msix := (entry, e.addr, e.data) :: o.msix }
  else s

def execMsixUnmask (dt entry : Nat) (s : State) : Answer :=
  .next ((s.elapse dt).when (s.hostUp && decide (entry < 16)) (State.unmask entry))

end Sys2Proof.Machine
end

