-- ==== Sys2Proof/Machine/Recorder.lean ====
section
/-! DEFINITION. The commands of EVR (14_event_recorder.md). -/

namespace Sys2Proof.Machine

/-! ### The write sequencer -/

/-- The repeats that arrived while a record was in flight fold once it has committed (R350, R354). -/
def State.applyFolds (r : Rec) (waits : List (Nat × Nat)) (s : State) : State :=
  match waits with
  | [] => s
  | w :: _ =>
    let due := r.foldDue w.1
    let r' := { (waits.foldr (fun w r => r.fold w.2) r) with foldTick := if due then some w.1 else r.foldTick }
    let s := s.onNv fun n => { n with records := Tbl.set none n.records (recSlot r.index) (some r') }
    if due then s.recordReport r' true w.1 else s

/-- The next staged entry leaves the queue; the first free slot then takes a LOST record that is due (R349, R351). -/
def State.nextStaged (s : State) : State :=
  match s.evr.staged with
  | [] => s
  | r :: t =>
    let s := (s.onEvr fun v => { v with staged := t }).startWrite r
    if s.evr.lostSince = 0 then s
    else
      let l := s.makeRec 0x0C01 0 [(0, w32 s.evr.lostSince)]
      s.onEvr fun v => { v with staged := v.staged ++ [l], lostSince := 0 }

/-- A record commits (R352, R354, R356). -/
def State.commitRec (r : Rec) (s : State) : State :=
  let waits := s.evr.foldWait
  let s := (s.onNv fun n =>
    { n with records := Tbl.set none n.records (recSlot r.index) (some r),
             permFull := n.permFull || r.index == 2047 }).onEvr fun v =>
      { v with inFlight := none, foldWait := [], lastCommitted := some r.index, lastFolds := v.staged.isEmpty }
  let s := (s.raise 488).recordReport r false r.tick
  let s := if r.index = 2047 then s.raise 492 else s
  s.applyFolds r waits

/-- The write of the record in flight fails its read-back: no valid record stands in its slot (R345, R356; assumption
log 22). -/
def State.failRec (r : Rec) (s : State) : State :=
  ((s.onEvr fun v => { v with inFlight := none, foldWait := [], lastFolds := false, fault := setFlag v.fault s.cycle 3 }).onNv fun n =>
    { n with torn := recSlot r.index :: n.torn }).raise 493

/-- The sequencer finishes the record in flight (R352). -/
def execRecordCommit (dt : Nat) (readBackOk : Bool) (s : State) : Answer :=
  let s := s.elapse dt
  .next (match s.evr.inFlight with
    | some r => (if readBackOk then s.commitRec r else s.failRec r).nextStaged
    | none => s)

/-- The highest index of a valid record, plus 1; 0 with none (R353). -/
def nextOf (t : Tbl (Option Rec)) : Nat :=
  t.foldl (fun m e => match e.2 with | some r => max m (r.index + 1) | none => m) 0

/-- At power-up EVR scans both regions; POWER_UP is the first record (R346, R353, R363). -/
def State.powerUpScan (s : State) : State :=
  let bad := s.nv.torn
  let s := (s.onNv fun n => { n with nextIndex := nextOf n.records }).onEvr fun v =>
    { v with scanned := true, lastCommitted := none, lastFolds := false,
             fault := if bad = [] then v.fault else setFlag v.fault s.cycle 1 }
  let s := bad.foldl (fun s _ => s.raise 490) s
  s.startWrite (s.makeRec 0x0001 0 [(0, w32 s.prs.powerCause)])

def execEvrPowerUpScan (dt : Nat) (s : State) : Answer :=
  .next ((s.elapse dt).when (s.prs.running && !s.evr.scanned && s.evr.inFlight.isNone) State.powerUpScan)

/-! ### Snapshot sets -/

/-- A write of EVR_SNAP_SEL reloads the working copy from the class's set (R357). -/
def State.snapSel (v : Word) (s : State) : State :=
  let k := bits v 0 4
  s.onEvr fun e => { e with snapSel := k, work := (Tbl.get {} s.nv.snapSets k).entries }

def execSnapSelWrite (dt : Nat) (value : Word) (s : State) : Answer :=
  .next ((s.elapse dt).when s.hostUp (State.snapSel value))

/-- A write of 1 to EVR_SNAP_COMMIT: the working copy becomes the class's set, its generation rises and SNAP_SET is
recorded; without the ward open the write is refused (R347, R370). -/
def State.snapCommit (v : Word) (s : State) : State :=
  if bit v 0 then
    if s.wardAllows false then
      let k := s.evr.snapSel
      let s := s.wardAccept.onNv fun n =>
        { n with snapSets := Tbl.modify {} n.snapSets k fun t => { entries := s.evr.work, gen := (t.gen + 1) % 65536 } }
      s.record 0x0C02 k ((List.range 48).map fun i => (i, snapWord (Tbl.get (0, false) s.evr.work i)))
    else s.wardRefuse
  else s

def execSnapCommitWrite (dt : Nat) (value : Word) (s : State) : Answer :=
  .next ((s.elapse dt).when s.hostUp (State.snapCommit value))

/-! ### RECORD_READ (R355) -/

/-- The first index that a RECORD_READ does not reach: the record in flight, or the next index. -/
def State.recLimit (s : State) : Nat :=
  match s.evr.inFlight with
  | some r => r.index
  | none => s.nv.nextIndex

/-- The valid records held, in index order: permanent ones, then the circulating slots from the one the next index
falls on (R341). -/
def State.recordsHeld (s : State) : List Rec :=
  let p := recSlot (max 2048 s.recLimit)
  let held (f : Nat → Bool) : List Rec := (s.nv.records.filter fun e => f e.1).filterMap Prod.snd
  held (fun i => decide (i < 2048)) ++ held (fun i => decide (p ≤ i) && decide (2048 ≤ i)) ++
    held (fun i => decide (i < p) && decide (2048 ≤ i))

/-- The index at which examination starts (R355). -/
def State.recFirst (s : State) (d : DescBits) : Nat :=
  if dFlag d 4 then nextOf s.nv.records - dfield d 20 2 else dfield d 16 4

/-- The records a RECORD_READ copies. -/
def State.recTaken (s : State) (d : DescBits) : List Rec :=
  (s.recordsHeld.filter fun r => decide (s.recFirst d ≤ r.index) && decide (r.index < s.recLimit)).take (dfield d 20 2)

/-- The next index to examine after the copy (R355). -/
def State.recNext (s : State) (d : DescBits) : Nat :=
  let t := s.recTaken d
  match t.getLast? with
  | some r => if t.length = dfield d 20 2 then r.index + 1 else max (s.recFirst d) s.recLimit
  | none => max (s.recFirst d) s.recLimit

/-- Records copied to host memory one after another. -/
def State.copyRecords (addr : Nat) : List Rec → State → State
  | [], s => s
  | r :: t, s => State.copyRecords (addr + 256) t (s.hostWrite (.record addr r))

/-- The checks of RECORD_READ (R355). -/
def recordReadChecks (d : DescBits) : List (Bool × Nat) :=
  [flagCheck d 0x12, (inRange 1 4096 (dfield d 20 2), 20), (dfield d 24 8 % 8 == 0, 24),
    (decide (256 * dfield d 20 2 ≤ dfield d 32 4), 32)] ++ zeroBytes d 22 2 ++ zeroBytes d 36 28

/-- RECORD_READ copies valid records to DEST in index order (R355). -/
def execRecordRead (dt ring : Nat) (destOk : Bool) (s : State) : Answer :=
  .next ((s.elapse dt).runDesc ring 0x18 fun d s =>
    s.checked ring (recordReadChecks d.desc) fun s =>
      if destOk then
        (s.copyRecords (dfield d.desc 24 8) (s.recTaken d.desc)).finishHead ring stOk (s.recTaken d.desc).length
          (s.recNext d.desc)
      else s.dmaError.finishHead ring stDmaError 0 0)

end Sys2Proof.Machine
end

