-- ==== Sys2Proof/Machine/Regulator.lean ====
section
/-! DEFINITION. The commands of the regulator engine (11_regulators.md). -/

namespace Sys2Proof.Machine

/-! ### BANK_LOAD (R293, R294, R297) -/

/-- The seven points of a PART 1. -/
def bankPoints (d : DescBits) : List (Int × Int) :=
  (List.range 7).map fun i => (dsfield d (20 + 6 * i) 3, dsfield d (23 + 6 * i) 3)

/-- The checks of a PART 1's x values, each reported where it stands. -/
def pointChecks (d : DescBits) : List (Bool × Nat) :=
  (risingFrom (dsfield d 20 3) (bankPoints d).tail).zipIdx.map fun p => (p.1, 26 + 6 * p.2)

def bankLoadChecks (d : DescBits) : List (Bool × Nat) :=
  [flagCheck d 0, (decide (dfield d 17 1 ≤ 1), 17), (dfield d 19 1 == 0, 19)] ++
    (if dfield d 17 1 = 0 then (inRange 2 3 (dfield d 18 1), 18) :: zeroBytes d 52 12
     else (dfield d 18 1 == 0, 18) :: (pointChecks d ++ zeroBytes d 62 2))

/-- The part of a bank that a BANK_LOAD writes (R294). -/
def Bank.load (d : DescBits) (b : Bank) : Bank :=
  if dfield d 17 1 = 0 then
    { b with order := dfield d 18 1, fbScale := dfield d 20 4, b := (List.range 4).map fun i => dsfield d (24 + 4 * i) 4,
             a := (List.range 3).map fun i => dsfield d (40 + 4 * i) 4 }
  else { b with pts := bankPoints d }

def execBankLoad (dt ring : Nat) (s : State) : Answer :=
  .next ((s.elapse dt).runDesc ring 0x0F fun x s =>
    let d := x.desc
    let c := dfield d 16 1
    s.checked ring (bankLoadChecks d) fun s =>
      ((s.hostDiscards c).onCtx c fun y => { (y.onShadow (Bank.load d)) with hostOwnsShadow := true }).finishHead ring stOk 0 0)

/-! ### BANK_SWAP (R295) -/

def State.bankSwapChecks (s : State) (d : DescBits) : List (Bool × Nat) :=
  [flagCheck d 0, (decide (dfield d 32 1 ≤ 2), 32), (decide (dfield d 40 8 ≤ s.now + 2 ^ 32), 40)] ++ zeroBytes d 33 7 ++ zeroBytes d 48 16

/-- The contexts a BANK_SWAP names. -/
def State.swapMask (s : State) (d : DescBits) : List Nat :=
  (List.range 128).filter fun c => (dfield d 16 16).testBit c && s.ctxExists c

/-- A BANK_SWAP reaches its contexts: those not enabled exchange at once. -/
def State.bankSwap (ring : Nat) (x : Slot) (s : State) : State :=
  let d := x.desc
  let q : SwapReq := { mode := dfield d 32 1, tick := max (dfield d 40 8) s.now, byHost := true, waiter := some (ring, x.index) }
  let cs := s.swapMask d
  let s := cs.foldl (fun s c => (s.hostDiscards c).onCtx c fun y => { y with swaps := y.swaps ++ [q] }) (s.startHead ring [])
  let s := (cs.filter fun c => !(s.ctx c).enable).foldl (fun s c => s.swapsNow c) s
  s.swapDone q.waiter

def execBankSwap (dt ring : Nat) (s : State) : Answer :=
  .next ((s.elapse dt).runDesc ring 0x10 fun x s => s.checked ring (s.bankSwapChecks x.desc) fun s => s.bankSwap ring x)

/-! ### INJECT_START (R301) -/

def parseInject (ring : Nat) (x : Slot) : Inject :=
  let d := x.desc
  { point := dfield d 17 1, wave := dfield d 18 1, log := (dfield d 19 1).testBit 0, amp := dsfield d 20 3, duration := dfield d 24 4,
    p1 := dfield d 28 2, p2 := dfield d 30 2, tick := dfield d 32 8, waiter := some (ring, x.index),
    lfsr := 2 ^ dfield d 28 2 - 1 }

/-- PARAM1 and PARAM2 fit the wave at a sample period of `p` µs. -/
def injectParams (p wave p1 p2 : Nat) (log : Bool) : Bool × Bool :=
  match wave with
  | 2 => (p1 != 0, true)
  | 3 => (decide (p1 * p ≤ 5000000) && (!log || p1 != 0), decide (p2 * p ≤ 5000000) && (!log || p2 != 0))
  | 4 => (inRange 7 15 p1, p2 != 0)
  | _ => (true, true)

def State.injectChecks (s : State) (d : DescBits) : List (Bool × Nat) :=
  let wave := dfield d 18 1
  let ok := injectParams (periodUs (s.ctx (dfield d 16 1)).period) wave (dfield d 28 2) (dfield d 30 2) ((dfield d 19 1).testBit 0)
  [flagCheck d 0, (decide (dfield d 17 1 ≤ 1), 17), (decide (wave ≤ 4), 18), (decide (dfield d 19 1 ≤ 1), 19), (dfield d 23 1 == 0, 23),
    (wave != 3 || decide (2 ≤ dfield d 24 4), 24), (ok.1, 28), (ok.2, 30)] ++ zeroBytes d 40 24

def execInjectStart (dt ring : Nat) (s : State) : Answer :=
  .next ((s.elapse dt).runDesc ring 0x11 fun x s =>
    let c := dfield x.desc 16 1
    s.checked ring (s.injectChecks x.desc) fun s =>
      if (s.ctx c).state = .closed then
        (s.onCtx c fun y => { y with injects := y.injects ++ [parseInject ring x] }).startHead ring []
      else s.finishHead ring stAborted 2 0)

/-! ### TRACE_ARM and TRACE_BLOCK (R303, R304) -/

def traceArmChecks (d : DescBits) : List (Bool × Nat) :=
  let bytes := 4 * dfield d 24 4 * nodeCount (dfield d 18 1)
  [flagCheck d 0x10, (decide (dfield d 17 1 ≤ 3), 17)] ++
    (if dFlag d 4 then []
     else [(dfield d 18 1 != 0, 18), (decide (dfield d 19 1 ≤ 3), 19), (dfield d 20 2 != 0, 20),
       (decide (dfield d 22 2 < dfield d 24 4) && decide (bytes ≤ 65536), 24), (dfield d 40 8 % 8 == 0, 40),
       (decide (bytes ≤ dfield d 48 4), 48)]) ++ zeroBytes d 28 4 ++ zeroBytes d 52 12

def parseTrace (d : DescBits) : Trace :=
  { busy := true, context := dfield d 16 1, nodes := dfield d 18 1, trigger := dfield d 19 1, decim := dfield d 20 2,
    pre := dfield d 22 2, samples := dfield d 24 4, atTick := dfield d 32 8, dest := dfield d 40 8 }

/-- STOP of TRACE_ARM: the capture ends and keeps what it holds (R303). -/
def Trace.stop (t : Trace) : Trace := if t.busy && !t.ended then { t with ended := true, status := 1 } else t

def execTraceArm (dt ring : Nat) (s : State) : Answer :=
  .next ((s.elapse dt).runDesc ring 0x12 fun x s =>
    let d := x.desc
    let q := dfield d 17 1
    s.checked ring (traceArmChecks d) fun s =>
      if dFlag d 4 then (s.onTrace q Trace.stop).finishHead ring stOk q 0
      else if (s.trace q).busy then s.finishHead ring stClaimDenied q 0
      else (s.onTrace q fun _ => parseTrace d).finishHead ring stOk q 0)

/-- A finished capture goes to DEST, its quarter is free, and TRACE_BLOCK says so (R304). -/
def State.traceOut (q : Nat) (destOk : Bool) (s : State) : State :=
  let t := s.trace q
  let n := t.kept.length
  let copied := if destOk then n else 0
  let s := if n = 0 then s
    else if destOk then s.hostWrite (.words t.dest t.kept.reverse.flatten)
    else (s.onRge fun r => { r with fault := setFlag r.fault s.cycle 1 }).raise 416 |>.dmaError
  let s := s.onTrace q fun _ => {}
  s.report 0x48 0 s.now
    [fld 16 1 t.context, fld 17 1 q, fld 18 1 t.nodes, fld 19 1 (if n != 0 && !destOk then 3 else t.status), fld 20 4 copied,
     fld 24 4 (t.trigIndex.getD 0xFFFFFFFF), fld 28 2 t.decim, fld 32 8 t.trigTick, fld 40 4 (4 * copied * nodeCount t.nodes),
     fld 48 8 s.cal]

def execTraceBlock (dt quarter : Nat) (destOk : Bool) (s : State) : Answer :=
  let s := s.elapse dt
  let t := s.trace quarter
  .next (s.when (s.isReady 3 && decide (quarter < 4) && t.busy && t.ended) (State.traceOut quarter destOk))

/-! ### One sample (R284-R291) -/

/-- The setpoint before an injection (R287). -/
def State.setpointOf (s : State) (c : Nat) : Int :=
  let x := s.ctx c
  if x.spProduct then sat24 ((Tbl.get 0 s.gle.demand x.product * x.spScale / 2 ^ 32 : Nat) : Int) else x.setpoint

/-- The newest FEEDBACK entry of a remote feedback channel: tag and value (R219, R286); an absent address has none (R6). -/
def State.remoteFeedback (s : State) (addr : Nat) : Option (Nat × Int) :=
  if s.remoteExists addr then Tbl.get none (s.targetNode addr).feedback (addr % 256) else none

/-- raw of a context (R286). -/
def State.rawOf (s : State) (c : Nat) : Int :=
  let x := s.ctx c
  match s.srcKindOf c with
  | 1 => s.fchSpeed (x.srcAddr % 16)
  | 2 => ((s.ain (x.srcAddr % 16)).value : Int) - x.fbOffset
  | 3 => ((s.remoteFeedback x.srcAddr).getD (0, 0)).2
  | 4 => x.y
  | _ => 0

/-- A context is idle (R287). -/
def State.idleCtx (s : State) (c : Nat) : Bool :=
  let x := s.ctx c
  x.spProduct && Tbl.get 0 s.gle.demand x.product == 0 &&
    (x.idleZero || s.hre.hostState == .lostSafe || s.hre.hostState == .safeHold)

/-- What the lost-feedback tests keep from sample to sample (R298, R300): when the FBU_SPEED conditions began, how long the TAG
has stood or advanced, the AIN values of the last FROZEN_N samples with the outputs they met. -/
def State.watch (c tick : Nat) (s : State) : State :=
  let x := s.ctx c
  let fb := x.active.fbScale
  let tag := (s.remoteFeedback x.srcAddr).map Prod.fst
  let v : Int := (s.ain (x.srcAddr % 16)).value
  let kind := s.srcKindOf c
  s.onCtx c fun x =>
    { x with
      condTick := if 0 < x.r ∧ x.lossMin < x.y ∧ fb ≠ 0 then some (x.condTick.getD tick) else none
      tagLast := if kind = 3 then tag else none
      tagStuck := if kind = 3 ∧ tag = x.tagLast then x.tagStuck + 1 else 0
      tagFresh := if kind = 3 ∧ tag ≠ x.tagLast then x.tagFresh + 1 else 0
      frozen := if kind = 2 ∧ x.state = .closed ∧ x.idle = false then ((v, x.y) :: x.frozen).take (max 1 x.frozenN) else [] }

/-- Phase 0: setpoint, injection and feedback latched (R284, R290). -/
def State.latch (c tick : Nat) (s : State) : State :=
  let raw := s.rawOf c
  let r0 := s.setpointOf c
  let idle := s.idleCtx c
  let s := s.onCtx c fun x =>
    let w := match x.inject with
      | some i => i.value (Config.freeSweep (128 * tick + c))
      | none => 0
    let atSetpoint := match x.inject with
      | some i => i.point == 0
      | none => false
    let r := if atSetpoint then sat24 (r0 + w) else r0
    let f := sat24 (shiftRight (raw * x.active.fbScale) x.fbShift)
    { x with w, r, raw, f, e := sat24 (r - f), ff := if x.ffEn then tableAt r x.active.pts else 0, idle,
             inject := x.inject.map fun i => i.advance (periodUs x.period) }
  s.watch c tick

/-- The least and the greatest output of the window differ by more than MOVE_MIN. -/
def moved (ys : List Int) (minMove : Nat) : Bool :=
  decide ((minMove : Int) < ys.foldl max (ys.headD 0) - ys.foldl min (ys.headD 0))

/-- The lost-feedback test of a context (R298). -/
def State.isLost (s : State) (c tick : Nat) : Bool :=
  let x := s.ctx c
  match s.srcKindOf c with
  | 1 =>
    (match x.condTick with
      | some k =>
        let ch := s.fch (x.srcAddr % 16)
        let base := if ch.anyEdge then max k ch.edgeTick else k
        decide (64 * x.active.fbScale * secTicks ≤ (tick - base) * x.r.toNat * 2 ^ x.fbShift)
      | none => false)
  | 2 =>
    let start := (x.frozen.getLastD (0, 0)).1
    decide (max 1 x.frozenN ≤ x.frozen.length) && x.frozen.all (fun p => decide ((p.1 - start).natAbs ≤ 1)) &&
      moved (x.frozen.map Prod.snd) x.moveMin
  | 3 => !s.remoteExists x.srcAddr || !(s.targetNode x.srcAddr).present || decide (3 ≤ x.tagStuck)
  | _ => false

/-- A lost context has its feedback back (R300): for FBU_SPEED a speed timed between two edges since the loss. -/
def State.isBack (s : State) (c : Nat) : Bool :=
  let x := s.ctx c
  match s.srcKindOf c with
  | 1 =>
    let ch := s.fch (x.srcAddr % 16)
    s.fchSpeed (x.srcAddr % 16) != 0 && (match ch.lastInterval with
      | some p => decide (x.lostTick + p ≤ ch.edgeTick)
      | none => false)
  | 2 => decide (1 < (((s.ain (x.srcAddr % 16)).value : Int) - x.aisBase).natAbs)
  | 3 => decide (2 ≤ x.tagFresh)
  | _ => false

/-- SAFE of R299. -/
def State.enterSafe (c : Nat) (s : State) : State :=
  ((s.onCtx c fun x => { x with state := .safe, enable := false }).ctxFault c 1).record 0x0902 c []

/-- CAUSE of a loss (R306). -/
def causeOf (kind : Nat) : Nat :=
  match kind with
  | 1 => 1
  | 2 => 3
  | 3 => 2
  | _ => 0

/-- The answer to a lost feedback (R299): the reasons of REG_STATUS. -/
def State.loseFeedback (c tick : Nat) (s : State) : List Nat × State :=
  let cause := causeOf (s.srcKindOf c)
  let v : Int := (s.ain ((s.ctx c).srcAddr % 16)).value
  let s := (s.onCtx c fun x =>
    { x with lostCount := satAdd 0xFFFF x.lostCount 1, cause, lostTick := tick, tagFresh := 0, aisBase := v }).ctxFault c 0
  let s := s.record 0x0901 c [(0, w32 cause)]
  let r := s.leaveClosed c
  let s := match (s.ctx c).lossMode with
    | 0 => r.2.onCtx c fun x => { x with state := .lostHold }
    | 1 => r.2.onCtx c fun x => { x with state := .lostFf }
    | _ => r.2.enterSafe c
  (5 :: r.1, s)

/-- The tests of a sample once its values are latched (R290, R298-R300). -/
def State.respond (c tick : Nat) (s : State) : List Nat × State :=
  let x := s.ctx c
  match x.state with
  | .closed => if !x.idle && s.isLost c tick then s.loseFeedback c tick else ([], s)
  | .lostHold =>
    if s.isBack c then ([6], (s.onCtx c fun x => { x with state := .closed, presetY := true }).raise (416 + c / 4)) else ([], s)
  | .lostFf =>
    if s.isBack c then ([6], (s.onCtx c fun x => { x with state := .closed, presetY := true }).raise (416 + c / 4))
    else if x.lostTick + 2 * secTicks ≤ tick then ([1], s.enterSafe c)
    else ([], s)
  | _ => ([], s)

/-- Products of coefficients and signals, summed. -/
def dot : List Int → List Int → Int
  | a :: as, b :: bs => a * b + dot as bs
  | _, _ => 0

/-- v of the compensator (R290), rounded half up. -/
def Ctx.law (x : Ctx) : Int :=
  let k := x.active
  let n := k.order
  sat24 (Int.fdiv (k.b.headD 0 * x.e + dot (k.b.tail.take n) x.eHist - dot (k.a.take n) x.hHist + 2 ^ 27) (2 ^ 28))

/-- The output within OUT_MIN and OUT_MAX, and which of them acted (R290). -/
def Ctx.limited (x : Ctx) (v : Int) : Ctx :=
  { x with y := min (max v x.outMin) x.outMax, clampHi := decide (x.outMax < v), clampLo := decide (v < x.outMin) }

/-- The injected value that joins the output (R290, R301). `point` is the injection's at this sample. -/
def Ctx.wOut (x : Ctx) (point : Option Nat) : Int := if point = some 1 then x.w else 0

/-- The compensator's sample (R290). -/
def Ctx.regulate (point : Option Nat) (x : Ctx) : Ctx :=
  let hPrev := if x.presetY then sat24 (x.y - x.ff) else x.hPrev
  let preset := x.presetY || x.presetNext
  let x := if preset then { x with eHist := [x.e, x.e, x.e], hHist := [hPrev, hPrev, hPrev], hPrev } else x
  let v := if preset then hPrev else x.law
  let wo := x.wOut point
  let x := { x with v, presetNext := false, presetY := false }.limited (v + x.ff + wo)
  let h := sat24 (x.y - x.ff - wo)
  { x with hPrev := h, eHist := (x.e :: x.eHist).take 3, hHist := (h :: x.hHist).take 3 }

/-- The output of a sample by state (R290). `halt`: the safe action holds a product's context at its safe output, in
LOST_HOLD and LOST_FF too (R81, R287). -/
def Ctx.evaluate (safe : Int) (point : Option Nat) (halt : Bool) (x : Ctx) : Ctx :=
  let x := if x.idle then { x with presetNext := true } else x
  match x.state with
  | .lostHold => { x with y := if halt then safe else x.y, clampHi := false, clampLo := false }
  | .lostFf => if halt then { x with y := safe, clampHi := false, clampLo := false } else x.limited (tableAt x.r x.active.pts)
  | .closed => if x.idle then { x with y := safe, clampHi := false, clampLo := false } else x.regulate point
  | _ => { x with y := safe, clampHi := false, clampLo := false }

/-- A feedback sample for the FLOW measurements of the policies that name the context (R312). -/
def State.noteResponse (c tick : Nat) (s : State) : State :=
  if s.lca.pols.any fun e => e.2.mode != 0 && e.2.respContext == c then
    let x := s.ctx c
    let usable := x.state == .closed && x.inject.isNone
    s.onLca fun l => { l with respHist := (c, tick, x.f, usable) :: l.respHist.filter fun h => tick ≤ h.2.1 + 200 * msTicks }
  else s

/-- A periodic REG_STATUS falls due between two samples (R306). -/
def State.statusDue (s : State) (last tick : Nat) : Bool :=
  let p := s.rge.statusMs * msTicks
  p != 0 && tick / p != last / p

/-- The first sample instant of a context that has been enabled starts it in CLOSED (R292). -/
def State.startClosed (c : Nat) (s : State) : State :=
  if (s.ctx c).starting then (s.onCtx c fun x => { x with state := .closed, starting := false }).raise (416 + c / 4) else s

/-- A sample of a context at its phase 0 (R290). -/
def State.regSample (c tick : Nat) (s : State) : State :=
  let last := (s.ctx c).sampleTick
  let bank := (s.ctx c).bankSel
  let starts := if (s.ctx c).starting then [1] else []
  let s := ((s.onCtx c fun x => { x with sampleTick := tick, samples := x.samples + 1 }).startClosed c).swapsDue c tick
  let swapped := if (s.ctx c).bankSel = bank then [] else [2]
  let r1 := if (s.ctx c).state = .closed then s.injectsDue c tick else ([], s)
  let point := (r1.2.ctx c).inject.map fun i => i.point
  let r2 := (r1.2.latch c tick).respond c tick
  let reasons := starts ++ swapped ++ r1.1 ++ r2.1
  let halt := r2.2.idleCtx c && r2.2.hostSafe
  let s := (r2.2.onCtx c fun x => x.evaluate (s.safeOut c) point halt)
  let s := s.emit c (tick + usTicks * (s.ctx c).outPhase) (s.ctx c).y
  let s := ((s.traceSample c tick reasons).noteResponse c tick).meterSample c (s.ctx c).f
  let s := (reasons ++ if s.statusDue last tick then [0] else []).foldl (fun s r => s.regStatus c tick r) s
  if (s.ctx c).enable then s else s.leaveEnable c

/-- REG_SAMPLE: an enabled context reaches its next sample instant. -/
def execRegSample (dt context : Nat) (s : State) : Answer :=
  let s := s.elapse dt
  let x := s.ctx context
  .next (match x.latest s.now with
    | some t => s.when (s.isReady 3 && s.ctxExists context && x.enable && decide (x.sampleTick < t)) (State.regSample context t)
    | none => s)

/-- REG_OUTPUT: the outputs whose phase has come reach the bound channel (R284, R288). -/
def State.regOutput (c : Nat) (s : State) : State :=
  let x := s.ctx c
  let due := x.outs.filter fun o => decide (o.1 ≤ s.now)
  let s := s.onCtx c fun x => { x with outs := x.outs.filter fun o => !decide (o.1 ≤ s.now) }
  match x.bound with
  | some n => due.foldl (fun s o => s.driveBound n o.2) s
  | none => s

def execRegOutput (dt context : Nat) (s : State) : Answer :=
  let s := s.elapse dt
  .next (s.when ((s.ctx context).outs.any fun o => decide (o.1 ≤ s.now)) (State.regOutput context))

/-! ### Enabling (R285, R289, R292) -/

/-- The evaluation deadline D in µs (R285); none where FLIGHT_US exceeds OUT_PHASE. -/
def Ctx.deadline (x : Ctx) : Int := if x.remote then (x.outPhase : Int) - x.flightUs else x.outPhase

/-- The samples of a context in two spans of 4 ms: phase 0 and deadline in µs. -/
def Ctx.spanSamples (x : Ctx) : List (Nat × Nat) :=
  let p := periodUs x.period
  let o := min x.sampleOfs (p - 1)
  (List.range (8000 / p)).map fun k => (k * p + o, k * p + o + x.deadline.toNat)

/-- Every interval of at most 4 ms from a sample to a deadline has room for its samples and one more (R285). -/
def admissible (jobs : List (Nat × Nat)) : Bool :=
  (jobs.filter fun j => j.1 < 4000).all fun j =>
    let later := jobs.filter fun q => j.1 ≤ q.1
    later.all fun q =>
      decide (j.1 + 4000 < q.2) || decide (q.2 ≤ j.1) ||
        decide (((later.filter fun p => p.2 ≤ q.2).length + 1) * 90 ≤ (q.2 - j.1) * 200)

/-- Samples per second of some contexts. -/
def totalRate (xs : List Ctx) : Nat := (xs.map fun y => 1000000 / periodUs y.period).foldl (· + ·) 0

/-- The timeline with a context added (R285). -/
def State.timelineFits (s : State) (c : Nat) : Bool :=
  let x := s.ctx c
  let xs := (s.ctxsEnabled.filter fun e => e.1 != c).map Prod.snd
  decide (2 ≤ x.deadline) && decide (totalRate (x :: xs) ≤ 2200000) &&
    admissible ((x :: xs).flatMap Ctx.spanSamples)

/-- A remote target's timing fits its tags (R289). -/
def Ctx.tagsFit (x : Ctx) : Bool := !x.remote || (decide (1 ≤ x.period) && (x.offsetTicks + usTicks * x.outPhase) % 2000 == 0)

/-- A context is enabled (R292): it starts at its next sample instant; the bound channel is re-claimed (R255). -/
def State.startCtx (c : Nat) (s : State) : State :=
  let safe := s.safeOut c
  let was := (s.ctx c).state
  let s := (s.onCtx c fun x =>
    { x with enable := true, state := .disabled, starting := true, y := safe, presetY := true, presetNext := false, samples := 0, sampleTick := s.now,
             condTick := none, tagLast := none, tagStuck := 0, tagFresh := 0, frozen := [], idle := false, cause := 0 })
  let s := if was = .disabled then s else (s.raise (416 + c / 4)).regStatus c s.now 1
  match (s.ctx c).bound with
  | some n => s.reclaim n
  | none => s

/-- A write that sets ENABLE of a context that is not enabled (R285, R289): what refuses it says so, each for itself. -/
def State.tryEnable (c : Nat) (s : State) : State :=
  let tags := (s.ctx c).tagsFit
  let fits := s.timelineFits c
  if tags && fits then s.startCtx c
  else
    let s := if fits then s else (s.onRge fun r => { r with fault := setFlag r.fault s.cycle 0 }).raise 416
    if tags then s else s.ctxFault c 5

/-- The output phases at which a context that is disabled drives SAFE_OUT: the next one, and those for which a remote target
has a record already (R289, R292). -/
def Ctx.stopPhases (x : Ctx) (tick : Nat) : List Nat :=
  let first := x.nextOutput tick
  first :: if x.remote then
      ((List.range 40).map fun k => first + (k + 1) * x.periodTicks).filter fun t => decide (t ≤ x.lastOut)
    else []

/-- ENABLE clears (R292): SAFE_OUT from the next output phase. -/
def State.stopCtx (c : Nat) (s : State) : State :=
  let safe := s.safeOut c
  let r := s.leaveClosed c
  let s := (r.2.onCtx c fun x =>
    { x with enable := false, state := .disabled, starting := false, y := safe, clampHi := false, clampLo := false, idle := false
             outs := x.outs.filter fun o => decide (o.1 < x.nextOutput s.now) }).raise (416 + c / 4)
  let s := ((s.ctx c).stopPhases s.now).foldl (fun s t => s.emit c t safe) s
  ((r.1 ++ [1]).foldl (fun (s : State) k => s.regStatus c s.now k) s).leaveEnable c

/-- The fields of CTX_CFG but ENABLE; PERIOD stands while the context is enabled (R292, R309). -/
def Ctx.config (v : Word) (x : Ctx) : Ctx :=
  { x with
    period := if x.enable then x.period else min 5 (bits v 1 3)
    spProduct := bits v 4 2 == 1
    product := bits v 6 6
    ffEn := bit v 12
    idleZero := bit v 13
    lossMode := min 2 (bits v 14 2) }

/-- CTX_CFG (R292, R309). -/
def State.ctxCfg (c : Nat) (v : Word) (s : State) : State :=
  let was := s.ctx c
  let s := s.onCtx c (Ctx.config v)
  let s := if was.enable && min 5 (bits v 1 3) != was.period then s.ctxFault c 5 else s
  if bit v 0 then (if was.enable then s else s.tryEnable c)
  else if was.enable then s.stopCtx c
  else s

def execCtxEnableWrite (dt context : Nat) (value : Word) (s : State) : Answer :=
  .next ((s.elapse dt).when ((s.elapse dt).hostTo 6 && s.ctxExists context && bit value 0) (State.ctxCfg context value))

def execCtxDisableWrite (dt context : Nat) (value : Word) (s : State) : Answer :=
  .next ((s.elapse dt).when ((s.elapse dt).hostTo 6 && s.ctxExists context && !bit value 0) (State.ctxCfg context value))

/-! ### CTL is lost (R307) -/

/-- Bound channels take SAFE_OUT, and each remote target gets one record with it, one dispatch lead ahead. -/
def State.ctlLoss (s : State) : State :=
  let ts := s.rge.lostTargets
  let s := s.onRge fun r => { r with ctlLost := false, lostTargets := [] }
  let s := ((List.range (Config.loadChannels s.part)).filter fun n => (s.chan n).holding == .regulator).foldl
    (fun s n => s.driveBound n (s.safeOut (s.chan n).context)) s
  ts.foldl (fun s t =>
    if s.targetReached t.2 then
      s.sendOutput t.2 (ceilSlot (s.now + s.esc.leadUs * usTicks)) (s.safeOut t.1)
    else s) s

def execCtlLoss (dt : Nat) (s : State) : Answer :=
  .next ((s.elapse dt).when s.rge.ctlLost State.ctlLoss)

end Sys2Proof.Machine
end

