-- ==== Sys2Proof/Machine/Rings.lean ====
section
/-! DEFINITION. Rings, descriptors in general, fences, reports waiting in a backlog (03_host_rings.md). -/

namespace Sys2Proof.Machine

/-- Host activity restarts the host-lost timer and moves HOST_STATE (R79, R80); HOST_BACK on the way back (R85). -/
def State.hostActivity (s : State) : State :=
  let s := s.onHre fun h => { h with timerArmed := true, timerTick := s.now }
  match s.hre.hostState with
  | .unarmed => s.onHre fun h => { h with hostState := .present }
  | .lostContinue => (s.onHre fun h => { h with hostState := .present }).raise 49
  | .lostSafe => (s.onHre fun h => { h with hostState := .safeHold }).raise 49
  | _ => s

/-! ### NOP and FENCE -/

/-- NOP (R65): no payload. -/
def execNop (dt ring : Nat) (s : State) : Answer :=
  .next ((s.elapse dt).runDesc ring 0x01 fun d s =>
    s.checked ring (flagCheck d.desc 0x02 :: zeroBytes d.desc 16 48) fun s => s.finishHead ring stOk 0 0)

/-- The points a FENCE waits for (R69): the producer index of each ring named, its own index for its own ring. -/
def State.fenceMarks (s : State) (ring : Nat) (d : Slot) : List (Nat × Word) :=
  ((List.range 16).filter fun n => (dfield d.desc 16 2).testBit n).map fun n =>
    (n, if n = ring then d.index else (s.ring n).prod)

/-- Every descriptor of a ring below an index has completed or been abandoned (R69). -/
def State.markDone (s : State) (m : Nat × Word) : Bool :=
  let r := s.ring m.1
  let clear := r.slots.all fun d => d.stage == .finished || !precedes d.index m.2
  match r.mode with
  | .disabled => true
  | .draining => clear
  | _ => clear && !precedes r.cons m.2

/-- FENCE starts and records the points to wait for (R69). -/
def execFence (dt ring : Nat) (s : State) : Answer :=
  .next ((s.elapse dt).runDesc ring 0x02 fun d s =>
    s.checked ring (flagCheck d.desc 0x02 :: (zeroBytes d.desc 18 2 ++ zeroBytes d.desc 24 40)) fun s =>
      s.startHead ring (s.fenceMarks ring d))

/-- The FENCE running on a ring. -/
def State.runningFence (s : State) (ring : Nat) : Option Slot :=
  (s.ring ring).slots.find? fun d => d.stage == .started && d.opcode == 0x02

/-- A FENCE completes with OK once all it waits for is done (R69). -/
def execFenceDone (dt ring : Nat) (s : State) : Answer :=
  let s := s.elapse dt
  .next (match s.runningFence ring with
    | some d => s.when (d.marks.all s.markDone) fun s => s.finishAt ring d.index stOk 0 0
    | none => s)

/-- The mask of the rings still outstanding (R69). -/
def State.outstanding (s : State) (d : Slot) : Nat :=
  ((d.marks.filter fun m => !s.markDone m).map fun m => 2 ^ m.1).foldl (· + ·) 0

/-- A FENCE completes with ABORTED when TIMEOUT_US passes first (R69). -/
def execFenceTimeout (dt ring : Nat) (s : State) : Answer :=
  let s := s.elapse dt
  .next (match s.runningFence ring with
    | some d =>
      let us := dfield d.desc 20 4
      s.when (us != 0 && decide (d.startTick + us * usTicks ≤ s.now) && !d.marks.all s.markDone) fun s =>
        s.finishAt ring d.index stAborted (s.outstanding d) 0
    | none => s)

/-! ### Doorbells and fetch -/

/-- A doorbell that R56 refuses: disabled ring, backward, or more outstanding slots than the ring holds. -/
def Ring.refuses (r : Ring) (isReport : Bool) (i : Word) : Bool :=
  !r.isEnabled ||
    (if isReport then precedes i r.cons || decide (r.size < (r.prod - i).toNat)
     else precedes i r.prod || decide (r.size < (i - r.cons).toNat))

/-- A doorbell write (R54, R56, R79). -/
def execDoorbell (dt ring : Nat) (index : Word) (s : State) : Answer :=
  .next ((s.elapse dt).when (s.hostUp && decide (ring < 32)) fun s =>
    let s := s.hostActivity
    if (s.ring ring).refuses (decide (16 ≤ ring)) index then (s.hreFault 2).raise 54
    else if ring < 16 then s.onRing ring fun r => { r with prod := index }
    else s.onRing ring fun r => { r with cons := index })

/-- The ring has a descriptor to fetch. -/
def State.canFetch (s : State) (ring : Nat) : Bool :=
  let r := s.ring ring
  s.hostUp && decide (ring < 16) && (r.mode == .enabled) && r.prod != r.cons

/-- A descriptor is fetched and its SEQ checked (R57, R63). -/
def execDescriptorFetch (dt ring : Nat) (desc : DescBits) (s : State) : Answer :=
  .next ((s.elapse dt).when (s.canFetch ring) fun s =>
    let r := s.ring ring
    let slot : Slot := { desc, index := r.cons, fetchTick := s.now }
    if dSeq desc = r.seq then
      (s.onRing ring fun r => { r with cons := r.cons + 1, seq := r.seq + 1, slots := r.slots ++ [slot] }).settle ring
    else
      let bad := s.finishSlot stSeqGap r.seq.toNat 0 0 slot
      ((((s.onRing ring fun r => { r with cons := r.cons + 1, mode := .error, slots := r.slots ++ [bad] }).hreFault 0).raise
        ring).faultReport 0x0101 ring ring r.seq.toNat (dSeq desc).toNat).settle ring)

/-- The read of a descriptor fails (R396). -/
def execDescFetchFail (dt ring : Nat) (s : State) : Answer :=
  .next ((s.elapse dt).when (s.canFetch ring) fun s =>
    let r := s.ring ring
    let bad := s.finishSlot stDmaError 0 0 0 { desc := 0, index := r.cons, fetchTick := s.now, fetchFailSeq := some r.seq }
    ((((s.onRing ring fun r => { r with mode := .error, slots := r.slots ++ [bad] }).dmaError).raise ring).faultReport
      0x0103 ring 53 r.seq.toNat r.cons.toNat).settle ring)

/-! ### Held descriptors -/

/-- The head of a ring stands at a hold. -/
def State.heldAt (s : State) (ring : Nat) (g : Stage) : Option Slot :=
  if ring < 16 then
    match (s.ring ring).head with
    | some d => if d.stage = g then some d else none
    | none => none
  else none

/-- NOT_BEFORE has arrived (R68). -/
def execNotBeforeReached (dt ring : Nat) (s : State) : Answer :=
  let s := s.elapse dt
  .next (match s.heldAt ring .heldNotBefore with
    | some d => s.when (decide (dNotBefore d.desc ≤ s.now)) (State.rejudge ring)
    | none => s)

/-- The function's ready bit has set (R18, R68). -/
def execHeldDescriptorReady (dt ring : Nat) (s : State) : Answer :=
  let s := s.elapse dt
  .next (match s.heldAt ring .heldNotReady with
    | some d => match readyBitOf d.desc with
      | some b => s.when (s.isReady b) (State.rejudge ring)
      | none => s
    | none => s)

/-- The descriptor before, which carried FENCE_AFTER, has completed (R61, R68). -/
def execFenceAfterRelease (dt ring : Nat) (s : State) : Answer :=
  let s := s.elapse dt
  .next (match s.heldAt ring .heldFence with
    | some _ => s.when (!(s.ring ring).fenced) (State.rejudge ring)
    | none => s)

/-! ### Report rings -/

/-- Backlogged reports leave in their order of creation while there are free slots (R76). -/
def State.drainLoop (ring : Nat) : Nat → State → State
  | 0, s => s
  | n + 1, s =>
    match (s.ring ring).backlog with
    | [] => s
    | r :: t =>
      if (s.ring ring).isFull then s
      else State.drainLoop ring n ((s.onRing ring fun q => { q with backlog := t }).writeReport ring r)

/-- A report ring: 16 to 31. -/
def isReportRing (ring : Nat) : Bool := decide (16 ≤ ring) && decide (ring < 32)

/-- Backlogged reports leave once the host frees slots (R76). -/
def execBacklogDrain (dt ring : Nat) (s : State) : Answer :=
  .next ((s.elapse dt).when (isReportRing ring && (s.ring ring).isEnabled) fun s =>
    s.drainLoop ring (s.ring ring).backlog.length)

/-- The newest write of a report into a ring, and what remains of the writes. -/
def takeReport (ring : Nat) : List HostWrite → Option (Report × List HostWrite)
  | [] => none
  | w :: t =>
    match w with
    | .report r _ rp =>
      if r = ring then some (rp, t)
      else match takeReport ring t with
        | some (x, rest) => some (x, w :: rest)
        | none => none
    | _ => match takeReport ring t with
      | some (x, rest) => some (x, w :: rest)
      | none => none

/-- The device learns that the write of the newest report of a ring failed (R76; assumption log 8): the report is lost,
its slot and sequence number are free again. -/
def execReportWriteFail (dt ring : Nat) (s : State) : Answer :=
  let s := s.elapse dt
  let r := s.ring ring
  .next (match takeReport ring s.out.host with
    | some (rp, rest) => s.when (isReportRing ring && r.isEnabled && r.prod != r.cons) fun s =>
      ((((((s.onOut fun o => { o with host := rest }).onRing ring fun r =>
        { r with seq := r.seq - 1, prod := r.prod - 1, dropped := true }).onHre fun h =>
          { h with rqDrop := Tbl.modify 0 h.rqDrop (ring - 16) count32 }).raise (16 + ring)).covDrop rp.opcode)).dmaError
    | none => s)

/-- The device's own index of a ring (R55). -/
def Ring.ownIndex (r : Ring) (ring : Nat) : Word := if ring < 16 then r.cons else r.prod

/-- A ring with nothing to do. -/
def Ring.isIdle (r : Ring) : Bool := r.slots.isEmpty && r.backlog.isEmpty && r.prod == r.cons

/-- The device writes a changed index to its shadow (R55). -/
def execShadowWrite (dt ring : Nat) (s : State) : Answer :=
  let s := s.elapse dt
  let r := s.ring ring
  .next (s.when (decide (ring < 32) && s.hostUp && r.mode != .disabled && r.shadow != 0 &&
      r.ownIndex ring != r.shadowVal && (r.isIdle || decide (r.shadowTick + usTicks ≤ s.now))) fun s =>
    (s.hostWrite (.shadow ring r.shadow (r.ownIndex ring))).onRing ring fun r =>
      { r with shadowVal := r.ownIndex ring, shadowTick := s.now })

/-! ### Enabling and disabling -/

/-- COMPL_RING and COMPL_MODE, which report rings do not have (R86). -/
def Ring.takeCompl (r : Ring) (ring : Nat) (v : Word) : Ring :=
  if ring < 16 then { r with complRing := bits v 9 4, complMode := bits v 13 1 } else r

/-- A ring just enabled: indexes and sequences start (R58). -/
def Ring.start (r : Ring) : Ring :=
  { r with mode := .enabled, prod := 0, cons := 0, seq := r.seqStart, slots := [], backlog := [], dropped := false,
           shadowVal := 0, shadowTick := 0 }

/-- FENCEs no longer wait for a ring whose descriptors were all completed or abandoned (R69). -/
def Ring.forgetMarks (k : Nat) (r : Ring) : Ring :=
  { r with slots := r.slots.map fun d => { d with marks := d.marks.filter fun m => m.1 != k } }

/-- A write of RING_CFG with ENABLE set (R58): a disabled ring takes its size and starts; a report ring's drop counter
restarts (R86). -/
def State.ringEnable (ring : Nat) (v : Word) (s : State) : State :=
  match (s.ring ring).mode with
  | .disabled =>
    let s := s.onHre fun h =>
      { h with rings := (List.range 16).foldl (fun t k => Tbl.modify {} t k (Ring.forgetMarks ring)) h.rings,
               rqDrop := if 16 ≤ ring then Tbl.set 0 h.rqDrop (ring - 16) 0 else h.rqDrop }
    s.onRing ring fun r => { (r.takeCompl ring v) with log2 := nearest 6 16 (bits v 0 5) }.start
  | _ => s.onRing ring fun r => r.takeCompl ring v

/-- The reports of a backlog dropped and counted as for a disabled ring (R59, R75). -/
def State.dropAll : List Report → State → State
  | [], s => s
  | r :: t, s => State.dropAll t (s.dropRouted r.opcode)

/-- A held head completes with ABORTED (R59). -/
def State.abortHead (s : State) (d : Slot) : Slot :=
  match d.stage with
  | .heldNotBefore => s.finishSlot stAborted 0 0 0 d
  | .heldNotReady => s.finishSlot stAborted 0 0 0 d
  | .heldFence => s.finishSlot stAborted 0 0 0 d
  | _ => d

/-- A submission ring is disabled (R59). -/
def State.stopSubmission (ring : Nat) (s : State) : State :=
  let slots := onFirst s.abortHead (s.ring ring).slots
  let cons := match slots.find? Slot.waiting with
    | some d => d.index
    | none => (s.ring ring).cons
  let s := (s.onRing ring fun r =>
    { r with mode := .draining, cons, slots := slots.filter fun d => !d.waiting }).flush ring
  s.onRing ring fun r => if r.slots = [] then { r with mode := .disabled } else r

/-- A report ring is disabled (R59). -/
def State.stopReports (ring : Nat) (s : State) : State :=
  let bl := (s.ring ring).backlog
  (s.onRing ring fun r => { r with mode := .disabled, backlog := [] }).dropAll bl

/-- A write of RING_CFG with ENABLE clear (R58, R59). -/
def State.ringDisable (ring : Nat) (v : Word) (s : State) : State :=
  let s := s.onRing ring fun r => r.takeCompl ring v
  match (s.ring ring).mode with
  | .disabled => s.onRing ring fun r => { r with log2 := nearest 6 16 (bits v 0 5) }
  | .draining => s
  | _ => if ring < 16 then s.stopSubmission ring else s.stopReports ring

/-- RING_CFG written with ENABLE = 1 (R58). -/
def execRingEnable (dt ring : Nat) (value : Word) (s : State) : Answer :=
  .next ((s.elapse dt).when (s.hostUp && decide (ring < 32) && bit value 8) (State.ringEnable ring value))

/-- RING_CFG written with ENABLE = 0 (R59). -/
def execRingDisable (dt ring : Nat) (value : Word) (s : State) : Answer :=
  .next ((s.elapse dt).when (s.hostUp && decide (ring < 32) && !bit value 8) (State.ringDisable ring value))

/-- A disabled submission ring reaches DISABLED (R59). -/
def execRingDrained (dt ring : Nat) (s : State) : Answer :=
  .next ((s.elapse dt).when ((s.ring ring).mode == .draining && (s.ring ring).slots.isEmpty) fun s =>
    s.onRing ring fun r => { r with mode := .disabled })

end Sys2Proof.Machine
end

