-- ==== Sys2Proof/Machine/Presence.lean ====
section
/-! DEFINITION. Presence: the ward and its key, the host-lost timer and the safe action, the PCIe link, BEAT_OUT and the
seal loop (03_host_rings.md, 15_power_reset_presence.md). -/

namespace Sys2Proof.Machine

/-! ### The ward (R368-R372) -/

/-- The ward changes its state (R368): WARD is raised, WARD_OPENED and WARD_CLOSED are recorded. -/
def State.setWard (w : Ward) (s : State) : State :=
  if s.prs.ward = w then s
  else
    let left := s.prs.ward == .opened
    let n := s.prs.wardAccepted
    let s := (s.onPrs fun p =>
      { p with ward := w, press := .idle, wardAccepted := if w = .opened then 0 else p.wardAccepted }).raise 485
    let s := if left then s.record 0x0B02 0 [(0, w32 n)] else s
    if w = .opened then s.record 0x0B01 0 [] else s

/-- A disabled bound channel is driven at its context's SAFE_OUT (R292). -/
def State.driveSafe (c : Nat) (s : State) : State :=
  match (s.ctx c).bound with
  | some n => if (s.ctx c).enable then s else s.driveBound n (s.safeOut c)
  | none => s

/-- The warded writes of the BUS cycle of a CLOSE are turned away (R372): the settings stand as before them. -/
def State.undoWarded (s : State) : State :=
  let u := s.prs.wardUndo
  if s.prs.ward = .opened ∧ u.count ≠ 0 ∧ u.cycle = s.now / 2 then
    let s := s.onNv fun n =>
      { n with channels := u.channels, safeOut := u.safeOut, ambHost := u.ambHost, sealEnable := u.sealEnable, snapSets := u.snapSets }
    let s := (s.onEvr fun v => { v with work := u.work, trigEn := u.trigEn }).onMpg fun m => { m with domainId := u.domainId }
    let s := s.onHre fun h => { h with lostTimeMs := u.lostTimeMs, policySafe := u.policySafe, continueLimit := u.continueLimit }
    let s := (s.onPrs fun p =>
      { p with wardAccepted := p.wardAccepted - u.count, wardRefused := satAdd 0xFFFF p.wardRefused u.count, wardUndo := {} }).prsFault 1
    (s.rge.ctxs.map Prod.fst).foldl (fun s c => s.driveSafe c) s
  else s

/-- The checks of WARD_OPEN (R368). -/
def wardChecks (d : DescBits) : List (Bool × Nat) :=
  [flagCheck d 0, (decide (dfield d 16 1 < 2), 16)] ++ zeroBytes d 17 47

/-- WARD_OPEN with OP OPEN (R368): CLOSED becomes ARMED. -/
def execWardOpen (dt ring : Nat) (s : State) : Answer :=
  .next ((s.elapse dt).runDesc ring 0x17 fun d s =>
    if dfield d.desc 16 1 = 1 then s
    else s.checked ring (wardChecks d.desc) fun s =>
      let s := if s.prs.ward = .closed then (s.setWard .armed).onPrs fun p => { p with wardTick := s.now } else s
      s.finishHead ring stOk s.prs.ward.code 0)

/-- The ward has opened in this BUS cycle. -/
def State.openedNow (s : State) : Bool := s.prs.ward == .opened && s.prs.wardTick / 2 == s.now / 2

/-- The WARD_OPENED record of this BUS cycle. -/
def Rec.isOpening (r : Rec) (tick : Nat) : Bool := r.code == 0x0B01 && r.tick / 2 == tick / 2

/-- CLOSE in the BUS cycle of the release that completes a press wins (R372): the ward has not opened, and its WARD_OPENED is
not written. -/
def State.unopen (s : State) : State :=
  let s := s.onPrs fun p => { p with ward := .closed, press := .idle }
  match s.evr.inFlight with
  | some r =>
    if r.isOpening s.now then
      ((s.onNv fun n => { n with nextIndex := n.nextIndex - 1 }).onEvr fun v => { v with inFlight := none }).nextStaged
    else s.onEvr fun v => { v with staged := v.staged.filter fun q => !q.isOpening s.now }
  | none => s.onEvr fun v => { v with staged := v.staged.filter fun q => !q.isOpening s.now }

/-- WARD_OPEN with OP CLOSE (R368, R372). -/
def execWardClose (dt ring : Nat) (s : State) : Answer :=
  .next ((s.elapse dt).runDesc ring 0x17 fun d s =>
    if dfield d.desc 16 1 = 1 then
      s.checked ring (wardChecks d.desc) fun s =>
        let s := s.undoWarded
        (if s.openedNow then s.unopen else s.setWard .closed).finishHead ring stOk 0 0
    else s)

/-- 50 ms, the filter and the press of R369. -/
def keyTicks : Nat := 50 * msTicks

/-- A change of KEY_SW (R369): a press counts from its change while the ward is ARMED; a release after 50 ms of it may end
it. -/
def Prs.keyChange (p : Prs) (pressed : Bool) (tick : Nat) : Prs :=
  { p with
    keyRaw := pressed
    keyTick := tick
    press :=
      if pressed then (if p.ward = .armed then .pressed else .idle)
      else if p.press = .held ∨ (p.press = .pressed ∧ p.keyTick + keyTicks ≤ tick) then .released
      else .idle }

def execKeySwChange (dt : Nat) (pressed : Bool) (s : State) : Answer :=
  let s := s.elapse dt
  .next (s.when (pressed != s.prs.keyRaw) fun s => s.onPrs fun p => p.keyChange pressed s.now)

/-- The end of the arming, 30 s after it began (R368). -/
def Prs.armEnd (p : Prs) : Nat := p.wardTick + 30 * secTicks

/-- The release that stands would complete a press by the end of the arming: in the same BUS cycle the press is valid
(R372). -/
def Prs.pressInTime (p : Prs) : Bool := p.press == .released && decide ((p.keyTick + keyTicks) / 2 ≤ p.armEnd / 2)

/-- KEY_SW has stood for 50 ms (R369): the filtered level follows, a press is long enough, a release opens the ward. -/
def State.keyStood (s : State) : State :=
  let due := s.prs.keyTick + keyTicks
  let s := s.onPrs fun p => { p with keyFiltered := p.keyRaw, press := if p.press = .pressed then .held else p.press }
  if s.prs.ward = .armed ∧ s.prs.pressInTime = true then (s.setWard .opened).onPrs fun p => { p with wardTick := due } else s

def execKeyPressTimer (dt : Nat) (s : State) : Answer :=
  let s := s.elapse dt
  .next (s.when (decide (s.prs.keyTick + keyTicks ≤ s.now)) State.keyStood)

/-- ARMED ends after 30 s without a valid press (R368). -/
def execKeyTimeout (dt : Nat) (s : State) : Answer :=
  let s := s.elapse dt
  .next (s.when (s.prs.ward == .armed && decide (s.prs.armEnd ≤ s.now) && !s.prs.pressInTime) fun s =>
    (s.setWard .closed).prsFault 2)

/-- OPEN ends after 120 s (R368). -/
def execWardExpiry (dt : Nat) (s : State) : Answer :=
  let s := s.elapse dt
  .next (s.when (s.prs.ward == .opened && decide (s.prs.wardEnd ≤ s.now)) (State.setWard .closed))

/-! ### Host presence (R79-R82) -/

/-- A write to HRE_HOST_HB (R79). -/
def execHostHbWrite (dt : Nat) (_value : Word) (s : State) : Answer :=
  .next ((s.elapse dt).when s.hostUp State.hostActivity)

/-- HRE_DEV_HB increments every 1 ms while HRE is ready (R79). -/
def execDevHbTick (dt : Nat) (s : State) : Answer :=
  let s := s.elapse dt
  .next (s.when (s.isReady 1 && decide (s.hre.devHbTick + msTicks ≤ s.now)) fun s =>
    s.onHre fun h => { h with devHb := h.devHb + 1, devHbTick := h.devHbTick + msTicks })

/-- Every endpoint in mode ONOFF, PWM or LATCHED that is no FEEDER. -/
def State.safeEps (s : State) : List Nat :=
  (s.gle.entries.filter fun e => e.2.mode != .disabled && !e.2.feeder).map Prod.fst

/-- The channels that DIRECT_SWITCH holds. -/
def State.directChans (s : State) : List Nat :=
  (List.range (Config.loadChannels s.part)).filter fun n =>
    (s.chan n).holding == .direct && (s.chan n).keepTick.isNone && !(s.chan n).inSafe

/-- LOST_SAFE is entered: HOST_SAFE and the safe action (R81); an ON that a probe holds falls away. Contexts bound to a product follow its demand to zero. -/
def State.safeAction (s : State) : State :=
  let s := s.raise 50
  let s := s.safeEps.foldl (fun s ep =>
    (s.shut ep).onDyn ep fun d => { d with probe := d.probe.map fun p => { p with held := none } }) s
  s.directChans.foldl (fun s n => s.command n (if (s.chNv n).safeOn then .on else .off)) s

/-- The host-lost timer runs out in a state that it acts in (R80). -/
def Hre.lostDue (h : Hre) (tick : Nat) : Bool :=
  h.timerArmed && (h.hostState == .present || h.hostState == .safeHold) && decide (h.timerTick + h.lostTimeMs * msTicks ≤ tick)

/-- The host is lost (R80). -/
def State.loseHost (s : State) : State :=
  let new : HostState := if s.hre.hostState = .safeHold ∨ s.hre.policySafe = true then .lostSafe else .lostContinue
  let s := s.onHre fun h =>
    { h with hostState := new, hostLostCount := count32 h.hostLostCount, fault := setFlag h.fault s.cycle 4,
             continueTick := if new = .lostContinue then s.now else h.continueTick }
  let s := ((s.raise 48).faultReport 0x0102 new.code 48 s.hre.lostTimeMs 0).record 0x0201 new.code []
  if new = .lostSafe then s.safeAction else s

def execHostLost (dt : Nat) (s : State) : Answer :=
  let s := s.elapse dt
  .next (s.when (s.hre.lostDue s.now) State.loseHost)

/-- CONTINUE_LIMIT expires (R80). -/
def execContinueLimitExpiry (dt : Nat) (s : State) : Answer :=
  let s := s.elapse dt
  .next (s.when (s.hre.hostState == .lostContinue && decide (s.hre.continueTick + s.hre.continueLimit * 100 * msTicks ≤ s.now)) fun s =>
    (s.onHre fun h => { h with hostState := .lostSafe }).safeAction)

/-- RESUME (R81): each LATCHED endpoint whose section's LATCH bit is 1 opens as by a SECTION_SET. -/
def State.resume (s : State) : State :=
  let s := s.onHre fun h => { h with hostState := .present }
  let eps := (s.gle.entries.filter fun e => e.2.mode == .latched && !e.2.feeder && (s.section_ e.2.section_).latch).map Prod.fst
  eps.foldl (fun s ep =>
    if (s.dyn ep).scheduledOn then s else (s.insert ep true (s.event ep (s.earliest ep) true .latch)).2) s

/-- A write of HRE_HOSTLOST_CTL (R81). -/
def execResume (dt : Nat) (value : Word) (s : State) : Answer :=
  let s := s.elapse dt
  .next (s.when (s.hostUp && bit value 0 && s.hre.hostState == .safeHold) State.resume)

/-! ### The PCIe link (R79, R83, R84) -/

/-- The ring number that stands for no ring: a running descriptor of a ring that a link-down or a die reset has taken away
goes on under it, without a completion. -/
def deadRing : Nat := 32

/-- What waits for an event on behalf of a descriptor goes on without its ring (R83). -/
def State.orphan (s : State) : State :=
  let gone (ws : List (Nat × Word)) : List (Nat × Word) := ws.map fun w => (deadRing, w.2)
  let s := s.onTbu fun t => { t with pend := t.pend.map fun p => { p with waiters := gone p.waiters, losers := gone p.losers } }
  let s := s.onPse fun p => { p with modelWaits := p.modelWaits.map fun w => { w with ring := deadRing } }
  let s := s.onGnb fun g => { g with ephWait := g.ephWait.map fun w => { w with ring := deadRing } }
  let s := s.onMpg fun m => { m with passWaits := m.passWaits.map fun w => { w with ring := deadRing } }
  let s := s.onLsb fun l => { l with waits := l.waits.map fun w => { w with ring := deadRing } }
  let s := s.onFlp fun f => { f with writes := f.writes.map fun w => { w with ring := deadRing } }
  s.onRge fun r => { r with ctxs := r.ctxs.map fun e => (e.1, { e.2 with
    swaps := e.2.swaps.map fun q => { q with waiter := none }
    injects := e.2.injects.map fun i => { i with waiter := none } }) }

/-- The backlogs of all report rings dropped and counted as for disabled rings (R59, R83). -/
def State.dropBacklogs (s : State) : State := (List.range 16).foldl (fun s k => s.stopReports (16 + k)) s

/-- PCIe link-down (R83). -/
def State.linkDown (s : State) : State :=
  let s := s.dropBacklogs.orphan
  let s := s.onHre fun h =>
    { h with linkUp := false, linkSpeed := 0, linkWidth := 0, rings := [], msix := [], msixEnable := false, msixFuncMask := false,
             pba := 0, fault := setFlag h.fault s.cycle 5 }
  (s.raise 51).putReady 1 false

def execPcieLinkDown (dt : Nat) (s : State) : Answer :=
  .next ((s.elapse dt).when s.hre.linkUp State.linkDown)

/-- PCIe link-up (R79, R85, R360): HRE is ready. -/
def State.linkRise (speed width : Nat) (s : State) : State :=
  (s.onHre fun h => { h with linkUp := true, linkSpeed := speed % 8, linkWidth := width % 16, devHbTick := s.now }).setReady 1 true

def execPcieLinkUp (dt speed width : Nat) (s : State) : Answer :=
  .next ((s.elapse dt).when (s.prs.running && s.powered 1 && !s.prs.inReset && !s.hre.linkUp) (State.linkRise speed width))

/-- PERST_N (R363): cause 8, and a link-down. -/
def execPerst (dt : Nat) (s : State) : Answer :=
  .next ((s.elapse dt).when s.prs.running fun s =>
    let s := s.onPrs fun p => { p with cause := 8 }
    if s.hre.linkUp then s.linkDown else s)

/-- A planned reset is requested, unless one is under way (R365). -/
def State.plan (cause domains : Nat) (s : State) : State :=
  if s.prs.planned.isNone && !s.prs.inReset then s.onPrs fun p => { p with planned := some { cause, domains, tick := s.now } } else s

/-- A Function Level Reset is a planned die reset (R84, R363). -/
def execFlr (dt : Nat) (s : State) : Answer :=
  .next ((s.elapse dt).when s.hostUp (State.plan 7 0))

/-! ### BEAT_OUT (R367) -/

/-- BEAT_OUT may toggle (R367). A supervisor fault is a die reset at once in this model. -/
def State.beatAllowed (s : State) : Bool :=
  s.prs.beatEn && s.isReady 2 && s.prs.planned.isNone && !s.prs.inReset && !(s.prs.dropOnSafe && s.hostSafe)

/-- The latest half-period boundary (R367). -/
def halfPeriod (tick : Nat) : Nat := tick / 100000 * 100000

def execBeatOutToggle (dt : Nat) (s : State) : Answer :=
  let s := s.elapse dt
  .next (s.when (s.tbu.pllLocked && decide (s.prs.beatTick < halfPeriod s.now)) fun s =>
    s.onPrs fun p =>
      { p with beatTick := halfPeriod s.now, beatRun := s.beatAllowed, beatLevel := s.beatAllowed && !p.beatLevel })

/-- A write of PRS_BEAT_CTL (R367, R375). -/
def execBeatCtlWrite (dt : Nat) (value : Word) (s : State) : Answer :=
  .next ((s.elapse dt).when s.hostUp fun s => s.onPrs fun p => { p with beatEn := bit value 0, dropOnSafe := bit value 1 })

/-! ### The seal loop (R373) -/

/-- The loop is broken: the flag, the record and SEAL (R373). -/
def State.sealBreak (s : State) : State :=
  ((s.onNv fun n => { n with sealBroken := true }).record 0x0004 0 []).raise 486

/-- A check of the seal loop, 10 ms after the one before (R373). -/
def State.sealTest (follows : Bool) (s : State) : State :=
  let n := if follows then 0 else min 3 (s.prs.sealFails + 1)
  let breaks := s.prs.sealFails == 2 && !follows
  let s := s.onPrs fun p => { p with sealTick := s.now, sealFails := n }
  if breaks then s.sealBreak else s

/-- The loop is checked in this BUS cycle: a break found in the cycle of a write of ENABLE = 0 stands (R372). -/
def State.sealChecked (s : State) : Bool := s.nv.sealEnable || s.prs.sealOff == some s.cycle

def execSealCheck (dt : Nat) (follows : Bool) (s : State) : Answer :=
  let s := s.elapse dt
  .next (s.when (s.isReady 0 && s.sealChecked && decide (s.prs.sealTick + 10 * msTicks ≤ s.now)) (State.sealTest follows))

end Sys2Proof.Machine
end

