-- ==== Sys2Proof/Machine/Power.lean ====
section
/-! DEFINITION. Power domains, resets and readiness (01_architecture.md R21, 15_power_reset_presence.md). -/

namespace Sys2Proof.Machine

/-! ### What a block is after its reset -/

/-- A feedback channel after reset: its registers, with the levels of its pins (R259). -/
def Fch.fresh (c : Fch) : Fch := { levelA := c.levelA, levelB := c.levelB }

/-- FBU after reset. -/
def Fbu.fresh (b : Fbu) : Fbu :=
  { chans := b.chans.foldl (fun t e => Tbl.set {} t e.1 e.2.fresh) [] }

/-- A context after a reset that keeps bindings (R307); LOST_COUNT counts since power-on reset (R309). -/
def Ctx.fresh (x : Ctx) : Ctx := { bound := x.bound, lostCount := x.lostCount }

/-- RGE after a reset that keeps bindings. -/
def Rge.fresh (r : Rge) : Rge := { ctxs := r.ctxs.foldl (fun t e => Tbl.set {} t e.1 e.2.fresh) [] }

/-- What GEO keeps of a calibrated delay when LCA resets: its base and what is staged (R314, R322). -/
def DelayCal.fresh (c : DelayCal) : DelayCal :=
  { base := c.base, staged := c.staged, stagedOrder := c.stagedOrder, source := c.source }

/-- LCA's counts since power-on reset (R325). -/
def Lca.counts (l : Lca) : Lca :=
  { samples := l.samples, rejected := l.rejected, applied := l.applied, notDetected := l.notDetected }

/-- LCA after reset. -/
def Lca.fresh (l : Lca) : Lca :=
  { l.counts with order := l.order, delays := l.delays.foldl (fun t e => Tbl.set {} t e.1 e.2.fresh) [] }

/-- A port after reset: the last session picked is kept, so that the next one differs (R210), and the counts since power-on
reset (R236). -/
def Port.fresh (p : Port) : Port :=
  { lastSession := p.lastSession, unacked := p.unacked, reject := p.reject, badFrame := p.badFrame }

/-- FLP after reset. NODE_WRITEs under way run into their time-out (R225). -/
def Flp.fresh (f : Flp) : Flp :=
  { ports := f.ports.foldl (fun t e => Tbl.set {} t e.1 e.2.fresh) [], writes := f.writes, freeCount := f.freeCount }

/-- DLK after reset: the instance and the sequence numbers of this power cycle are kept (R226, R227), and the counts since
power-on reset (R237). -/
def Dlk.fresh (d : Dlk) : Dlk :=
  { covUnsent := d.covUnsent, covGap := d.covGap, ports := d.ports.foldl (fun t e => Tbl.set {} t e.1 e.2.fresh) []
    instanceId := d.instanceId, instanceSet := d.instanceSet, sendSeq := d.sendSeq }

/-- MPG after reset. The coverage sequence goes on, but for a die reset, which starts it again (R30); the counts go on from
power-on reset (R153). -/
def Mpg.fresh (m : Mpg) (keepSeq : Bool) : Mpg :=
  { covSeq := if keepSeq then m.covSeq else 0, freeCount := m.freeCount
    tileDrop := m.tileDrop, mergeDrop := m.mergeDrop, oor := m.oor, unknownRead := m.unknownRead }

/-- GLE after reset: the counts go on from power-on reset (R116). -/
def Gle.fresh (g : Gle) : Gle :=
  { lateCount := g.lateCount, lateMax := g.lateMax, pendingFullCount := g.pendingFullCount, dutyLimitCount := g.dutyLimitCount }

/-- PSE after reset: its reject counts go on from power-on reset (R177). -/
def Pse.afterReset (p : Pse) : Pse := { rejectCount := p.rejectCount }

/-- GNB after reset: its counts go on from power-on reset (R203), and the power cycle has had its first solution (R197). -/
def Gnb.fresh (g : Gnb) : Gnb :=
  { navFail := g.navFail, exclude := g.exclude, solFail := g.solFail, everFixed := g.everFixed, freeCount := g.freeCount }

/-- A domain that is switched off loses its counts as well (R359). -/
def State.loseCounts (d : Nat) (s : State) : State :=
  match d with
  | 2 => (s.onGle fun g =>
      { g with lateCount := 0, lateMax := 0, pendingFullCount := 0, dutyLimitCount := 0 }).onPse fun p => { p with rejectCount := [] }
  | 3 => s.onMpg fun m => { m with tileDrop := 0, mergeDrop := 0, oor := 0, unknownRead := 0 }
  | 4 => s.onGnb fun g => { g with navFail := 0, exclude := 0, solFail := 0 }
  | 5 => (s.onFlp fun f => { f with ports := Tbl.mapped {} (fun p => { p with unacked := 0, reject := 0, badFrame := 0 }) f.ports }).onDlk fun l =>
      { l with covUnsent := 0, covGap := 0 }
  | 6 => (s.onRge fun r => { r with ctxs := Tbl.mapped {} (fun x => { x with lostCount := 0 }) r.ctxs }).onLca fun l =>
      { l with samples := 0, rejected := 0, applied := 0, notDetected := 0 }
  | _ => s

/-! ### Parts of a domain's loss -/

/-- Ready bits clear, each raising its source (R361). -/
def State.clearReady (bs : List Nat) (s : State) : State := bs.foldl (fun s b => s.setReady b false) s

/-- Power and reset of a domain. -/
def State.setPower (d : Nat) (v : Bool) (s : State) : State :=
  s.onPrs fun p =>
    { p with powered := if v then p.powered ||| BitVec.ofNat 8 (2 ^ d) else p.powered &&& ~~~(BitVec.ofNat 8 (2 ^ d)) }

/-- Open strips end with END at the last pose epoch where GEO is lost while MAP runs (R398). -/
def State.endStrips (s : State) : State :=
  s.mpg.strips.foldl (fun s e => match e.2 with
    | some p =>
      let q := s.pse.cur
      let c := s.epCentre e.1 q
      s.endStrip e.1 p (max p.startTick q.tick) c.1 c.2
    | none => s) s

/-- A channel in holding ESCAPEMENT that nothing keeps goes to DIRECT, off, with the endpoint store (R92). -/
def State.dropEscapement (n : Nat) (s : State) : State :=
  if (s.chan n).holding == .escapement && (s.chan n).keepTick.isNone && !(s.chan n).inSafe then
    (s.onChan n fun c => { c with holding := .direct, cmd := .off }).follow n true
  else s

/-- GLE, ESC and PSE lose everything; the waiting MODELs are aborted (R19, R72). -/
def State.loseGeo (s : State) : State :=
  let s := s.repIntegrate.endStrips
  let ws := s.pse.modelWaits.map fun w => (w.ring, w.index)
  let s := s.allChans.foldl (fun s n => s.dropEscapement n) s
  let s := ((s.onGle Gle.fresh).onEsc fun _ => {}).onPse Pse.afterReset
  (s.finishAll stAborted 0 ws).armCheck

/-- R20 no longer holds, for want of MAP (R20, R21): every ONOFF and PWM endpoint closes. -/
def State.mapCloses (report : Bool) (s : State) : State :=
  let s := if s.gle.poseOk then (s.onGle fun g => { g with poseOk := false }).raise 69 else s
  let seq := (s.mpg.covSeq - 1).toNat
  let r := s.closeAll
  if report then r.2.faultReport 0x0202 0 0xFFFF seq r.1 else r.2

/-- MPG loses everything (R19, R21); waiting PASS_ADVANCEs are aborted. -/
def State.loseMap (report : Bool) (s : State) : State :=
  let s := if s.powered 2 then s.mapCloses report else s
  let ws := s.mpg.passWaits.map fun w => (w.ring, w.index)
  (s.onMpg fun m => m.fresh true).finishAll stAborted 3 ws

/-- GNB loses everything (R19, R21, R34); waiting EPHEMERIS_LOADs are aborted. -/
def State.loseNav (s : State) : State :=
  let ws := s.gnb.ephWait.map fun w => (w.ring, w.index)
  (s.gnssNoTime.onGnb Gnb.fresh).finishAll stAborted 0 ws

/-- Every remote endpoint that has an entry. -/
def State.remoteEps (s : State) : List Nat := (s.gle.entries.map Prod.fst).filter fun ep => decide (ep < localBase)

/-- FLP and DLK lose everything (R16, R19, R34): remote endpoints lose their paths. -/
def State.loseLinks (s : State) : State :=
  let eps := s.remoteEps.filter fun ep => s.hasPath ep
  let s := (s.onFlp Flp.fresh).onDlk Dlk.fresh
  (eps.foldl (fun s ep => s.pathLost ep) s).noteTargets.ringNoTime

/-- FBU, RGE and LCA lose everything (R19, R301, R307, R322): targets go to SAFE_OUT, injections and swaps are aborted. -/
def State.loseCtl (s : State) : State :=
  let targets := (s.rge.ctxs.filter fun e => e.2.remote).map fun e => (e.1, e.2.tgtAddr)
  let injects := s.rge.ctxs.flatMap fun e => e.2.injects.filterMap fun i => i.waiter
  let swaps := s.rge.ctxs.flatMap fun e => e.2.swaps.filterMap fun q => q.waiter
  let s := (((s.onFbu Fbu.fresh).onRge fun r => { r.fresh with ctlLost := true, lostTargets := targets }).onLca Lca.fresh)
  (s.finishAll stAborted 2 injects).finishAll stAborted 0 swaps

/-- A domain's contents go, and its consumers act (R19, R21). -/
def State.loseDomain (d : Nat) (report : Bool) (s : State) : State :=
  match d with
  | 2 => s.loseGeo
  | 3 => s.loseMap report
  | 4 => s.loseNav
  | 5 => s.loseLinks
  | 6 => s.loseCtl
  | _ => s

/-! ### Switching, failing and resetting a domain (R359, R362-R365) -/

/-- The domains that software may switch, reset or see fail alone. -/
def isSwitchable (d : Nat) : Bool := decide (2 ≤ d) && decide (d ≤ 6)

/-- A switch-off is refused (R359). -/
def State.switchRefused (s : State) (d : Nat) : Bool :=
  match d with
  | 2 => s.gle.enable || s.allChans.any fun n => (s.chan n).holding == .escapement
  | 3 => s.mpg.layers.any fun e => e.2.enable
  | 5 => s.flp.portEn != 0 || s.dlk.portEn != 0
  | 6 => s.rge.ctxs.any (fun e => e.2.enable) || s.lca.pols.any (fun e => e.2.mode != 0) ||
      s.lca.meters.any (fun e => e.2.mode != 0) || s.allChans.any fun n => (s.chan n).holding == .regulator
  | _ => false

/-- PRS_DOMAIN_EN of one domain. -/
def State.setDomainEn (d : Nat) (v : Bool) (s : State) : State :=
  s.onPrs fun p =>
    { p with domainEn := if v then p.domainEn ||| BitVec.ofNat 8 (2 ^ d) else p.domainEn &&& ~~~(BitVec.ofNat 8 (2 ^ d)) }

/-- One bit of a write of PRS_DOMAIN_EN (R359). -/
def State.switchDomain (d : Nat) (on : Bool) (s : State) : State :=
  if on = s.prs.domainEn.getLsbD d then s
  else if on then
    let s := s.setDomainEn d true
    if s.prs.inReset then s else s.setPower d true
  else if s.switchRefused d then s.prsFault 0
  else ((((s.setDomainEn d false).clearReady (readyBits d)).setPower d false).loseDomain d false).loseCounts d

/-- A write of PRS_DOMAIN_EN (R359, R375). -/
def State.domainEnWrite (v : Word) (s : State) : State := [2, 3, 4, 5, 6].foldl (fun s d => s.switchDomain d (bit v d)) s

def execDomainEnableWrite (dt : Nat) (value : Word) (s : State) : Answer :=
  .next ((s.elapse dt).when s.hostUp (State.domainEnWrite value))

/-- The ready bits of a domain that are set. -/
def State.readyOf (s : State) (d : Nat) : List Nat := (readyBits d).filter fun b => s.isReady b

/-- READY_LOST of the ready bits that a failure has cleared (R21, R78, R346). -/
def State.readyLost (bs : List Nat) (s : State) : State := bs.foldl (fun s b => (s.record 0x0003 b []).readyFault b) s

/-- A domain fails (R21, R362): its consumers act, PRS resets it once, and switches it off where it fails again within
10 s. -/
def State.failDomain (d : Nat) (s : State) : State :=
  let again := s.failedLately d
  let lost := s.readyOf d
  let s := (s.clearReady (readyBits d)).setPower d false
  let s := s.onPrs fun p => { p with cause := if again then p.cause else 10, failTick := Tbl.set none p.failTick d (some s.now) }
  let s := (s.readyLost lost).loseDomain d true
  if again then ((s.loseCounts d).setDomainEn d false).prsFault 4 else s.setPower d true

/-- A domain that can fail alone is on. -/
def State.canFail (s : State) (d : Nat) : Bool := isSwitchable d && s.powered d && !s.prs.inReset

def execDomainFailure (dt domain : Nat) (s : State) : Answer :=
  .next ((s.elapse dt).when (s.canFail domain) (State.failDomain domain))

/-- MAP fails (R21). -/
def execMapFailure (dt : Nat) (s : State) : Answer :=
  .next ((s.elapse dt).when (s.canFail 3) (State.failDomain 3))

/-- A reset of a domain by cause DOMAIN (R363, R364). -/
def State.resetDomain (d : Nat) (s : State) : State :=
  if s.powered d then (((s.clearReady (readyBits d)).setPower d false).loseDomain d true).setPower d true else s

/-- The domains of a mask. -/
def domainsOf (mask : Nat) : List Nat := [2, 3, 4, 5, 6].filter fun d => mask.testBit d

/-- A DOMAIN reset (R363). -/
def State.resetDomains (mask : Nat) (s : State) : State :=
  (domainsOf mask).foldl (fun s d => s.resetDomain d) (s.onPrs fun p => { p with cause := 9 })

/-- A write of PRS_RESET_CTL (R363, R365, R375). -/
def State.resetCtl (v : Word) (s : State) : State :=
  if bits v 24 8 ≠ 0xA5 then s.prsFault 5
  else if bit v 8 then s.plan 6 0
  else if s.prs.planned.isSome || s.prs.inReset || domainsOf (bits v 0 8) == [] then s
  else if bit v 5 then s.plan 9 (bits v 0 8)
  else s.resetDomains (bits v 0 8)

/-- PRS_RESET_CTL written with DIE (R363). -/
def execHostRequest (dt : Nat) (value : Word) (s : State) : Answer :=
  .next ((s.elapse dt).when (s.hostUp && bit value 8) (State.resetCtl value))

/-- PRS_RESET_CTL written without DIE (R363). -/
def execDomainResetRequest (dt : Nat) (value : Word) (s : State) : Answer :=
  .next ((s.elapse dt).when (s.hostUp && !bit value 8) (State.resetCtl value))

/-! ### Die resets (R363-R365) -/

/-- ICU at an FLR: slots and stacks empty (R338). -/
def Icu.flr (i : Icu) : Icu :=
  { i with targets := i.targets.foldl (fun t e => Tbl.set {} t e.1 { e.2 with slot := none, stack := [] }) [] }

/-- HRE after a die reset: an FLR keeps the link (R84, R364); two counts go on from power-on reset (R86). -/
def Hre.dieFresh (h : Hre) (keepLink : Bool) : Hre :=
  let c : Hre := { covDrop := h.covDrop, hostLostCount := h.hostLostCount }
  if keepLink then { c with linkUp := h.linkUp, linkSpeed := h.linkSpeed, linkWidth := h.linkWidth } else c

/-- A channel after a die reset (R258, R363): its settings in CH_HOLD and CH_DIAG, its fault bits and its indications go;
what protection and the keeper hold of it stands, as do its warded settings, and TRIPS counts since power-on reset. -/
def Channel.dieFresh (c : Channel) : Channel :=
  { c with holdEn := false, pullinMs := 30, holdDuty := 40, holdKhz := 16, offDiag := true, openOnMa := 5, faults := {}
           openOn := false, openOff := false, shortBat := false, sat := false, coil := none }

/-- LSB after a die reset (R258, R363): what a supply, protection or the keeper has set stands. -/
def Lsb.dieFresh (l : Lsb) (tick : Nat) : Lsb :=
  { l with waits := [], fault := {}, hostC := 0, hostCTick := tick, hostCStale := false
           chans := Tbl.mapped {} Channel.dieFresh l.chans }

/-- The blocks of every domain but AON lose everything and raise and report nothing from here on; the channels go to the
keeper or to SAFE first, and the power die keeps its state (R255, R358, R363). -/
def State.clearDie (keepLink : Bool) (s : State) : State :=
  let s := s.orphan
  let s := s.allChans.foldl (fun s n => s.keepOrSafe n) s
  let s := (s.onLsb fun l => l.dieFresh s.now).onHre fun h => h.dieFresh keepLink
  let s := s.onPrs fun p => { p with powered := 0x01 }
  let s := (((s.onGle Gle.fresh).onEsc fun _ => {}).onPse Pse.afterReset).onMpg fun m => m.fresh false
  let s := (s.gnssNoTime.ringNoTime.onGnb Gnb.fresh).onFlp Flp.fresh
  (((s.onDlk Dlk.fresh).onFbu Fbu.fresh).onRge Rge.fresh).onLca Lca.counts

/-- A die reset begins; but for an FLR it is a PCIe link-down (R83, R363, R364). -/
def State.dieReset (cause : Nat) (s : State) : State :=
  if s.prs.inReset then s
  else
    let s := (s.clearReady [2, 3, 4, 5, 6, 8, 9, 10, 11, 12, 13]).putReady 1 false
    let s := if cause ≠ 7 ∧ s.hre.linkUp = true then s.raise 51 else s
    let s := (s.setWard .closed).onPrs fun p =>
      { p with cause, resetCount := satAdd 0xFFFF p.resetCount 1, planned := none, inReset := true, resetTick := s.tbu.wall, beatEn := false }
    let s := s.record 0x0002 0 [(0, w32 cause)]
    let s := if cause = 7 then s.onIcu Icu.flr else s
    s.clearDie (cause == 7)

/-- Some field port is RUNNING (R365). -/
def State.anyRunning (s : State) : Bool := (List.range 4).any fun p => (s.port p).state == .running

/-- A planned reset is due (R365): a beat instant after its second FENCE beat, or 100 µs after the request where no field
port runs. -/
def State.plannedDue (s : State) (p : Planned) : Bool :=
  if s.anyRunning then decide (3 ≤ p.fences) || (decide (2 ≤ p.fences) && decide (s.flp.beatTick + msTicks ≤ s.now))
  else decide (p.tick + 100 * usTicks ≤ s.now)

/-- The planned reset begins. -/
def State.beginPlanned (p : Planned) (s : State) : State :=
  let s := s.onPrs fun r => { r with planned := none }
  if p.cause = 9 then s.resetDomains p.domains else s.dieReset p.cause

def execPlannedResetBegin (dt : Nat) (s : State) : Answer :=
  let s := s.elapse dt
  .next (match s.prs.planned with
    | some p => s.when (s.plannedDue p) (State.beginPlanned p)
    | none => s)

/-- The internal reset of 100 µs has run, and the clock is there: the domains come up (R363). -/
def execInternalResetRelease (dt : Nat) (s : State) : Answer :=
  let s := s.elapse dt
  .next (s.when (s.prs.inReset && !s.prs.clockLost && decide (s.prs.resetTick + 100 * usTicks ≤ s.tbu.wall)) fun s =>
    s.onPrs fun p => { p with inReset := false, powered := p.domainEn })

/-- ROOT_CLOCK (R24, R43, R363): ticks hold, the time pulse stops until ENABLE is written again, the balance enters
FREERUN. -/
def State.rootClock (s : State) : State :=
  let s := s.enterFreerun.onTbu fun t =>
    { t with pllLocked := false, tpEnable := t.tpEnable && !t.tpRunning, tpRunning := false, tpActive := false }
  (s.onPrs fun p => { p with clockLost := true, beatRun := false, beatLevel := false }).dieReset 2

def execRootClock (dt : Nat) (s : State) : Answer :=
  .next ((s.elapse dt).when (s.prs.running && s.tbu.pllLocked) State.rootClock)

/-- CORE_SUPPLY (R363). -/
def execCoreSupply (dt : Nat) (s : State) : Answer := .next ((s.elapse dt).when s.prs.running (State.dieReset 3))

/-- A new temperature of the digital die; THERMAL_WARN where it reaches 135 °C (R363). -/
def State.dieTemp (celsius : Int) (s : State) : State :=
  let was := s.prs.dieC
  let s := s.onPrs fun p => { p with dieC := celsius }
  if 135 ≤ celsius ∧ was < 135 then s.prsFault 3 else s

def execThermalWarn (dt : Nat) (celsius : Int) (s : State) : Answer :=
  .next ((s.elapse dt).when s.prs.running (State.dieTemp celsius))

/-- THERMAL: 150 °C or more (R363). -/
def execThermal (dt : Nat) (celsius : Int) (s : State) : Answer :=
  .next ((s.elapse dt).when (s.prs.running && decide (150 ≤ celsius)) fun s => (s.dieTemp celsius).dieReset 4)

/-! ### Power-on (R24, R28, R29, R256, R353, R363) -/

/-- The MRAM at a power-on reset: the record in flight leaves a torn slot, the power-cycle count rises. -/
def State.nvAtPower (s : State) : Nv :=
  { s.nv with
    pcycle := s.nv.pcycle + 1
    torn := match s.evr.inFlight with
      | some r => recSlot r.index :: s.nv.torn
      | none => s.nv.torn }

/-- The block after a power-on reset: what is outside it, what the MRAM holds, and reset values. -/
def State.powerOn (cause : Nat) (s : State) : State :=
  let nv := s.nvAtPower
  { pending := s.pending
    sys := { part := s.sys.part, uid := s.sys.uid }
    nv
    out := s.out
    prs := { powerCause := cause, cause, keyRaw := s.prs.keyRaw, keyTick := 0, dieC := s.prs.dieC }
    tbu := { wall := s.tbu.wall, optime := nv.optime, pcycle := nv.pcycle }
    mpg := { freeCount := s.mpg.freeCount }
    flp := { freeCount := s.flp.freeCount }
    gnb := { freeCount := s.gnb.freeCount }
    lsb := { bankCut := s.lsb.bankCut, pgndLost := s.lsb.pgndLost, vbat := s.lsb.vbat, reversed := s.lsb.reversed,
             keeperDead := s.lsb.keeperDead, moduleC := s.lsb.moduleC, overCut := s.lsb.overCut, underCut := s.lsb.underCut
             freeCount := s.lsb.freeCount }
    fbu := s.fbu.fresh }

/-- POWER_ON: POR_N low, or a supply below its brown-out level (R363). -/
def execPowerOn (dt : Nat) (s : State) : Answer := .next ((s.elapse dt).powerOn 1)

/-- POR_N is released: PRS runs, every domain is on, SVC_J is sampled (R358, R371). -/
def State.release (svcJ : Bool) (s : State) : State :=
  s.onPrs fun p => { p with running := true, svcJ, porTick := s.tbu.wall, powered := 0xFF }

def execPorNRelease (dt : Nat) (svcJ : Bool) (s : State) : Answer :=
  .next ((s.elapse dt).when (!s.prs.running) (State.release svcJ))

/-- An AON fault stands or recurs (R362): 10 ms after the die reset has run, within 10 s of it. -/
def Prs.aonRecurs (p : Prs) (tick : Nat) : Bool :=
  match p.aonFaultTick with
  | some t => decide (t + 100 * usTicks ≤ tick) && decide (tick ≤ t + 100 * usTicks + 10 * secTicks)
  | none => false

/-- AON_FAIL acts as a power-on reset (R362, R363). -/
def State.aonFail (s : State) : State := (s.powerOn 11).release s.prs.svcJ

def execAonFail (dt : Nat) (s : State) : Answer :=
  let s := s.elapse dt
  .next (s.when (s.prs.running && s.prs.aonRecurs s.now) State.aonFail)

/-- A fault in AON, HST or PWR (R362): a die reset, or AON_FAIL where an AON fault recurs. -/
def State.supervisor (d : Nat) (s : State) : State :=
  if d = 0 ∧ s.prs.aonRecurs s.now = true then s.aonFail
  else
    (s.onPrs fun p =>
      { p with failTick := Tbl.set none p.failTick d (some s.now), aonFaultTick := if d = 0 then some s.now else p.aonFaultTick }).dieReset 5

def execSupervisor (dt domain : Nat) (s : State) : Answer :=
  .next ((s.elapse dt).when (s.prs.running && (domain == 0 || domain == 1 || domain == 7)) (State.supervisor domain))

/-- The power-fail warning (R28, R353, R366): EVR completes the record in flight and persists operating time. -/
def State.powerFail (s : State) : State :=
  let s := s.onPrs fun p => { p with pfw := true }
  let s := (match s.evr.inFlight with
    | some r => (s.commitRec r).nextStaged
    | none => s).persistOptime
  s.raise 487

def execPowerFailWarning (dt : Nat) (s : State) : Answer :=
  .next ((s.elapse dt).when (s.prs.running && !s.prs.pfw) State.powerFail)

/-- VIO recovers (R366). -/
def execPowerFailRecover (dt : Nat) (s : State) : Answer :=
  .next ((s.elapse dt).when s.prs.pfw fun s => (s.onPrs fun p => { p with pfw := false }).raise 487)

/-! ### Readiness (R360, R361) -/

/-- A function of PRS_READY but a port can work. -/
def State.canReady (s : State) (b : Nat) : Bool :=
  (decide (b = 0) || decide (b = 1) || (decide (2 ≤ b) && decide (b ≤ 6))) && s.prs.running && s.powered (readyDomain b) &&
    !s.isReady b && !s.prs.inReset && (decide (b = 0) || s.tbu.pllLocked) && (decide (b ≠ 1) || s.hre.linkUp) &&
    (decide (b ≠ 6) || decide (0 < Config.gnssAntennas s.part))

/-- LSB is ready: the channels follow their holders. -/
def State.lsbStarts (s : State) : State := s.allChans.foldl (fun s n => s.chanBack n) s

/-- GNB is ready: the bias of each antenna comes on, and PSE's model gives the baseline (R161, R180, R195). -/
def State.gnbStarts (s : State) : State :=
  let s := (List.range (Config.gnssAntennas s.part)).foldl
    (fun s a => if Tbl.get true s.gnb.biasEn a then s.setBias a .ok else s) s
  (s.onGnb fun g => { g with baselineCfg := min 4095 s.pse.model.baseline }).armCheck

/-- A function's ready bit sets (R361), and what waits for it starts. -/
def State.functionReady (b : Nat) (s : State) : State :=
  let s := s.setReady b true
  match b with
  | 0 => s.onPrs fun p => { p with sealTick := s.now, sealFails := 0 }
  | 1 => s.onHre fun h => { h with devHbTick := s.now }
  | 2 => s.lsbStarts
  | 3 => (if s.rge.ctlLost then s.ctlLoss else s).noteTargets
  | 5 => s.poseCheck
  | 6 => s.gnbStarts
  | _ => s

def execFunctionReady (dt bit : Nat) (s : State) : Answer :=
  .next ((s.elapse dt).when ((s.elapse dt).canReady bit) (State.functionReady bit))

end Sys2Proof.Machine
end

