-- ==== Sys2Proof/Machine/Registers.lean ====
section
/-! DEFINITION. A write of any register of BAR0 (R8-R10, R19, R370, R388-R390): the registers that have a row of their own
take the same operation as that row's command. -/

namespace Sys2Proof.Machine

/-- The register of an array that an offset falls on, else what follows. -/
def onArr (o base n : Nat) (f : Nat → State → State) (g : State → State) (s : State) : State :=
  match arr o base n with
  | some k => f k s
  | none => g s

/-- An offset where no register stands takes no write (R390). -/
def nothing (s : State) : State := s

/-! ### AON -/

/-- SYS (R393). -/
def State.writeSys (o : Nat) (v : Word) (s : State) : State :=
  match o with
  | 0x20 => s.onSys fun y => { y with scratch := v }
  | _ => s

/-- PRS_SEAL_CFG (R370, R373): ENABLE is warded. -/
def State.sealCfg (v : Word) (s : State) : State :=
  let ok := s.wardAllows false
  let s' := s.warded [(bit v 0 != s.nv.sealEnable, ok)]
  if ok && bit v 0 != s.nv.sealEnable then
    (s'.onNv fun n => { n with sealEnable := bit v 0 }).onPrs fun p =>
      if bit v 0 then { p with sealTick := s.now, sealFails := 0, sealOff := none } else { p with sealOff := some s.cycle }
  else s'

/-- PRS (R375). -/
def State.writePrs (o : Nat) (v : Word) (s : State) : State :=
  match o with
  | 0x8 => s.onPrs fun p => { p with fault := w1c p.fault s.cycle v }
  | 0x10 => s.resetCtl v
  | 0x14 => s.domainEnWrite v
  | 0x20 => s.onPrs fun p => { p with beatEn := bit v 0, dropOnSafe := bit v 1 }
  | 0x28 => s.sealCfg v
  | _ => s

/-- TBU (R49). -/
def State.writeTbu (o : Nat) (v : Word) (s : State) : State :=
  match o with
  | 0x18 => s.onTbu fun t => { t with status := w1c t.status s.cycle v }
  | 0x20 => s.onTbu fun t => { t with holdLimit := nearest 1 3600 (bits v 0 12) }
  | 0x24 => s.onTbu fun t => { t with stepThresh := nearest 1 10000 (bits v 0 14), slewMax := nearest 1 1000 (bits v 16 10) }
  | 0x28 => s.onTbu fun t => { t with rate := bits v 0 16, accel := bits v 16 16 }
  | 0x30 => s.tpCfgWrite v
  | _ => s

/-- EXTINT edges (R329, R340). -/
def State.extCfg (v : Word) (s : State) : State :=
  s.onIcu fun i => { i with extEdge := (List.range 8).foldl (fun t k => Tbl.set 0 t k (min 2 (bits v (2 * k) 2))) i.extEdge }

/-- ICU_MASK: 32 sources (R340). -/
def State.maskWrite (w : Nat) (v : Word) (s : State) : State :=
  (List.range 32).foldl (fun s b => s.onSrc (32 * w + b) fun c => { c with masked := bit v b }) s

/-- ICU_SRC_COAL (R328, R340). -/
def State.coalWrite (n : Nat) (v : Word) (s : State) : State :=
  s.onSrc n fun c => { c with count := max 1 (bits v 0 8), timeUs := bits v 8 16 }

/-- ICU (R340). -/
def State.writeIcu (o : Nat) (v : Word) (s : State) : State :=
  match o with
  | 0x4 => s.onIcu fun i => { i with fault := w1c i.fault s.cycle v }
  | 0x10 => s.swi v
  | 0x20 => s.extCfg v
  | _ =>
    if 0x200 ≤ o ∧ o < 0x400 then
      match o % 0x20 with
      | 0x0 => s.recommit (State.tgtCfgWrite ((o - 0x200) / 0x20) v)
      | 0x8 => s.recommit (State.eoi ((o - 0x200) / 0x20))
      | _ => s
    else
      onArr o 0x80 16 (fun w => State.recommit (State.pendWrite w v)) (onArr o 0x100 16 (fun w => State.recommit (State.maskWrite w v))
        (onArr o 0x800 512 (fun n => State.recommit (State.srcCfgWrite n v)) (onArr o 0x1000 512 (fun n => State.coalWrite n v) nothing))) s

/-- EVR_TRIG_EN (R346, R357, R370): warded; the classes that are always recorded read 1. -/
def State.trigWrite (v : Word) (s : State) : State :=
  let new := (v.toNat % 65536) ||| 0x1C03
  let ok := s.wardAllows false
  let s' := s.warded [(new != s.evr.trigEn, ok)]
  if ok then s'.onEvr fun e => { e with trigEn := new } else s'

/-- EVR_SNAP_OFS (R347, R357, R370): warded. -/
def State.snapOfs (k : Nat) (v : Word) (s : State) : State :=
  let new : Nat × Bool := (4 * bits v 2 18, bit v 31)
  let ok := s.wardAllows false
  let s' := s.warded [(decide (new ≠ Tbl.get (0, false) s.evr.work k), ok)]
  if ok then s'.onEvr fun e => { e with work := Tbl.set (0, false) e.work k new } else s'

/-- EVR (R357). -/
def State.writeEvr (o : Nat) (v : Word) (s : State) : State :=
  match o with
  | 0x10 => s.onEvr fun e => { e with fault := w1c e.fault s.cycle v }
  | 0x20 => s.trigWrite v
  | 0x24 => s.snapSel v
  | 0x28 => s.snapCommit v
  | _ => onArr o 0x100 48 (fun k => State.snapOfs k v) nothing s

/-! ### HST -/

/-- HRE_HOSTLOST_CFG (R82, R86): warded, values outside taken as the nearer limit. -/
def State.hostLostCfg (v : Word) (s : State) : State :=
  let t := nearest 50 10000 (bits v 0 14)
  let l := min 300 (bits v 17 9)
  let ok := s.wardAllows false
  let s' := s.warded [(t != s.hre.lostTimeMs, ok), (bit v 16 != s.hre.policySafe, ok), (l != s.hre.continueLimit, ok)]
  if ok then s'.onHre fun h => { h with lostTimeMs := t, policySafe := bit v 16, continueLimit := l } else s'

/-- The low or the high half of a 64-bit register. -/
def setLo (old : Nat) (v : Word) (mask : Nat) : Nat := old / 2 ^ 32 * 2 ^ 32 + (v.toNat / mask * mask)
def setHi (old : Nat) (v : Word) : Nat := v.toNat * 2 ^ 32 + old % 2 ^ 32

/-- One ring's registers (R58, R86): the base and the shadow stand while the ring is enabled. -/
def State.ringWrite (n o : Nat) (v : Word) (s : State) : State :=
  let free := !(s.ring n).isEnabled
  let set (f : Ring → Ring) : State := if free then s.onRing n f else s
  match o with
  | 0x0 => set fun r => { r with base := setLo r.base v 4096 }
  | 0x4 => set fun r => { r with base := setHi r.base v }
  | 0x8 => if bit v 8 then s.ringEnable n v else s.ringDisable n v
  | 0xC => set fun r => { r with shadow := setLo r.shadow v 4 }
  | 0x10 => set fun r => { r with shadow := setHi r.shadow v }
  | 0x14 => if n < 16 then s.onRing n fun r => { r with seqStart := v } else s
  | _ => s

/-- The MSI-X table (R51, R337), as the Base Specification lays it out. -/
def State.msixWrite (o : Nat) (v : Word) (s : State) : State :=
  let n := o / 16
  let set (f : MsixEntry → MsixEntry) : State := s.onHre fun h => { h with msix := Tbl.modify {} h.msix n f }
  if o < 0x100 then
    match o % 16 with
    | 0 => set fun e => { e with addr := setLo e.addr v 4 }
    | 4 => set fun e => { e with addr := setHi e.addr v }
    | 8 => set fun e => { e with data := v }
    | _ => if bit v 0 then set fun e => { e with masked := true } else s.unmask n
  else s

/-- HRE (R86). -/
def State.writeHre (o : Nat) (v : Word) (s : State) : State :=
  match o with
  | 0x4 => s.onHre fun h => { h with fault := w1c h.fault s.cycle v }
  | 0x10 => s.hostActivity
  | 0x20 => s.hostLostCfg v
  | 0x24 => if bit v 0 && s.hre.hostState == .safeHold then s.resume else s
  | _ =>
    if 0x400 ≤ o ∧ o < 0x800 then s.ringWrite ((o - 0x400) / 0x20) (o % 0x20) v
    else if 0x1000 ≤ o ∧ o < 0x2000 then s.msixWrite (o - 0x1000) v
    else onArr o 0x200 15 (fun k s => s.onHre fun h =>
      { h with routes := Tbl.set {} h.routes k { ring := bits v 0 4, enable := bit v 8 || k == 0 } }) nothing s

/-! ### GEO -/

/-- GLE (R116). -/
def State.writeGle (o : Nat) (v : Word) (s : State) : State :=
  match o with
  | 0x0 => s.gleCtrl v
  | 0x8 => s.onGle fun g => { g with fault := w1c g.fault s.cycle v }
  | 0x10 => (s.onGle fun g => { g with poseLimit := max 1 (bits v 0 16) }).poseCheck
  | 0x14 => (s.onGle fun g => { g with probeSteps := nearest 1 4 (bits v 0 3), rateMin := nearest 1 200 (bits v 16 8) }).refreshLoad
  | _ => s

/-- ESC (R117). -/
def State.writeEsc (o : Nat) (v : Word) (s : State) : State :=
  match o with
  | 0x0 => s.onEsc fun e => { e with leadUs := nearest 1000 50000 (bits v 0 16) }
  | 0x10 => s.onEsc fun e => { e with fault := w1c e.fault s.cycle v }
  | _ => s

/-- PSE (R177). -/
def State.writePse (o : Nat) (v : Word) (s : State) : State :=
  match o with
  | 0x4 => s.onPse fun p => { p with fault := w1c p.fault s.cycle v }
  | 0x10 => s.onPse fun p =>
    { p with gate := nearest 2 15 (bits v 0 4), rejectN := max 1 (bits v 4 4), excludeS := max 1 (bits v 8 8), cogMin := bits v 16 16 }
  | 0x14 => s.onPse fun p => { p with posGrowth := bits v 0 16, hdgGrowth := bits v 16 16 }
  | _ =>
    onArr o 0x20 4 (fun k s => s.onPse fun p => { p with speedSrcs := Tbl.modify {} p.speedSrcs k fun c =>
      { c with channel := bits v 0 4, enable := bit v 4, signed := bit v 5, rel := nearest 1 1000 (bits v 8 10), floor := bits v 18 8 } })
      (onArr o 0x30 4 (fun k s => s.onPse fun p => { p with speedSrcs := Tbl.modify {} p.speedSrcs k fun c => { c with scale := v.toNat } })
        nothing) s

/-! ### MAP -/

/-- MPG_DOMAIN_ID (R153, R370): warded, and needs SVC_J. -/
def State.domainId (v : Word) (s : State) : State :=
  let new := bits v 0 14
  let ok := s.wardAllows true
  let s' := s.warded [(new != s.mpg.domainId, ok)]
  if ok then s'.onMpg fun m => { m with domainId := new } else s'

/-- MPG (R153). -/
def State.writeMpg (o : Nat) (v : Word) (s : State) : State :=
  match o with
  | 0x4 => s.onMpg fun m => { m with fault := w1c m.fault s.cycle v }
  | 0x10 => s.domainId v
  | 0x14 => s.onMpg fun m => { m with reversalAngle := bits v 0 16 }
  | 0x18 => s.onMpg fun m => { m with segTol := max 1 (bits v 0 8), segMax := nearest 10 4000 (bits v 8 12) }
  | 0x1C => s.onMpg fun m => { m with aheadMs := nearest 100 10000 (bits v 0 16), wbInterval := nearest 1 600 (bits v 16 10) }
  | _ => onArr o 0x100 32 (fun l => State.layerCfg l v) nothing s

/-! ### NAV -/

/-- BIAS_EN of an antenna (R180). -/
def State.biasWrite (a : Nat) (v : Bool) (s : State) : State :=
  if Tbl.get true s.gnb.biasEn a = v then s
  else
    let s := s.onGnb fun g => { g with biasEn := Tbl.set true g.biasEn a v }
    if s.isReady 6 then s.setBias a (if v then .ok else .off) else s

/-- GNB_NOTCH (R194): a notch that may not engage is released. -/
def State.notchWrite (n : Nat) (v : Word) (s : State) : State :=
  let on := (s.notch n).active
  let s := s.onNotch n fun c => { c with enable := bit v 0 }
  if !bit v 0 && on then (s.onNotch n fun c => { c with active := false, depthDb := 0, offsetKhz := 0 }).raise 164 else s

/-- GNB (R181, R203). -/
def State.writeGnb (o : Nat) (v : Word) (s : State) : State :=
  let na := Config.gnssAntennas s.part
  if na = 0 then s
  else match o with
  | 0x4 => s.onGnb fun g => { g with fault := w1c g.fault s.cycle v }
  | 0x10 => s.onGnb fun g =>
    { g with sysEn := bits v 0 5, bandL1 := bit v 8, bandL5 := bit v 9, measRate := min 5 (bits v 12 3), sbasCorr := bit v 16,
             elevMask := min 90 (bits v 17 7), ephMaxAge := nearest 1 24 (bits v 24 8) }
  | 0x14 => (List.range na).foldl (fun s a => s.biasWrite a (bit v a)) s
  | 0x20 => (s.onGnb fun g => { g with burstEn := bit v 0, burstMs := nearest 20 200 (bits v 1 8), burstSpeed := bits v 16 16 }).armCheck
  | 0x24 => s.onGnb fun g =>
    { g with resGate := nearest 3 15 (bits v 0 4), clkTol := max 1 (bits v 4 12), driftTol := max 1 (bits v 16 8),
             agcTol := max 1 (bits v 24 4) }
  | 0x28 => s.onGnb fun g =>
    { g with isbTol := max 1 (bits v 0 12), isbHold := max 1 (bits v 16 8), notchThresh := nearest 6 40 (bits v 24 8) }
  | 0x2C => s.onGnb fun g => { g with hdgMinSignals := nearest 4 15 (bits v 0 4), hdgMinCn0 := bits v 4 8 }
  | 0x34 => s.onGnb fun g => { g with measDiv := bits v 0 6, navEn := bit v 6, navFailedEn := bit v 7 }
  | _ => onArr o 0x40 8 (fun n s => if s.bandExists (n / 2) then s.notchWrite n v else s) nothing s

/-! ### LNK -/

/-- A PHY latency register (R236). -/
def Port.lat (v : Word) (p : Port) : Port := { p with txNs := bits v 0 16, rxNs := bits v 16 16 }

/-- FLP (R236). -/
def State.writeFlp (o : Nat) (v : Word) (s : State) : State :=
  let np := Config.fieldPorts s.part
  if np = 0 then s
  else match o with
  | 0x0 => s.flpCtrl v
  | 0x4 => if s.flp.portEn = 0 then s.onFlp fun f => { f with etherType := bits v 0 16 } else s
  | 0x8 => s.onFlp fun f =>
    { f with timeout := nearest 2 255 (bits v 0 8), recover := max 1 (bits v 8 8), ackWait := max 1 (bits v 16 8), retry := bits v 24 3 }
  | 0xC => s.onFlp fun f => { f with fault := w1c f.fault s.cycle v }
  | _ => onArr o 0x20 4 (fun p s => if p < np then s.onPort p (Port.lat v) else s) nothing s

/-- DLK (R237). -/
def State.writeDlk (o : Nat) (v : Word) (s : State) : State :=
  let nq := Config.deviceLinks s.part
  if nq = 0 then s
  else match o with
  | 0x0 => s.dlkCtrl v
  | 0x4 => if s.dlk.portEn = 0 then s.onDlk fun d => { d with etherType := bits v 0 16 } else s
  | 0xC => s.onDlk fun d => { d with fault := w1c d.fault s.cycle v }
  | _ => onArr o 0x20 2 (fun q s => if q < nq then s.onDport q (Port.lat v) else s) nothing s

/-! ### PWR -/

/-- LSB_AMBIENT (R248, R258, R370): AMB_SRC is warded, HOST_C is not. -/
def State.ambientWrite (v : Word) (s : State) : State :=
  let ok := s.wardAllows false
  let s' := s.warded [(bit v 8 != s.nv.ambHost, ok)]
  let s' := if ok then s'.onNv fun n => { n with ambHost := bit v 8 } else s'
  s'.onLsb fun l => { l with hostC := sbits v 0 8, hostCTick := s.now, hostCStale := false }

/-- The fields of LSB_CH_CFG but WIRE as a write carries them (R258). -/
def ChNv.config (v : Word) (c : ChNv) : ChNv :=
  { c with curveMode := bit v 0, safeOn := bit v 1, keep10ms := min 200 (bits v 2 8), inrushMs := min 200 (bits v 10 8),
           retries := bits v 18 3, insul125 := bit v 21 }

/-- LSB_CH_CFG (R258, R370): all warded, WIRE needs SVC_J. -/
def State.chanCfg (n : Nat) (v : Word) (s : State) : State :=
  let old := s.chNv n
  let ok := s.wardAllows false
  let okWire := s.wardAllows true
  let s' := s.warded [(decide (old.config v ≠ old), ok), (bits v 22 3 != old.wire, okWire)]
  let new := if ok then old.config v else old
  let new := if okWire then { new with wire := bits v 22 3 } else new
  (s'.onNv fun m => { m with channels := Tbl.set {} m.channels n new }).follow n true

/-- LSB_CH_LATCH (R258, R370): warded. -/
def State.chanLatch (n : Nat) (v : Word) (s : State) : State :=
  let ma := min (s.inrushLimit n) (bits v 0 16)
  let blank := min 1000 (bits v 16 10)
  let ok := s.wardAllows false
  let s' := s.warded [(ma != s.latchMa n, ok), (blank != (s.chNv n).blankMs, ok)]
  if ok then
    s'.onNv fun m => { m with channels := Tbl.modify {} m.channels n fun c => { c with latchMa := some ma, blankMs := blank } }
  else s'

/-- LSB (R258). -/
def State.writeLsb (o : Nat) (v : Word) (s : State) : State :=
  let nc := Config.loadChannels s.part
  let per (f : Nat → State → State) (n : Nat) (s : State) : State := if n < nc then f n s else s
  match o with
  | 0x4 => s.onLsb fun l => { l with fault := w1c l.fault s.cycle v }
  | 0xC => s.ambientWrite v
  | 0x10 => s.lsbClear v
  | _ =>
    onArr o 0x100 32 (per fun n => State.chanCfg n v) (onArr o 0x180 32 (per fun n => State.chanLatch n v)
      (onArr o 0x200 32 (per fun n s => s.onChan n fun c =>
          { c with holdEn := bit v 0, pullinMs := max 1 (bits v 1 8), holdDuty := nearest 10 100 (bits v 9 7),
                   holdKhz := nearest 2 20 (bits v 16 5) })
        (onArr o 0x280 32 (per fun n s => s.onChan n fun c =>
            { c with offDiag := bit v 0, openOnMa := bits v 1 8, openOff := c.openOff && bit v 0, shortBat := c.shortBat && !bit v 0 })
          (onArr o 0x400 32 (per fun n s => s.onChan n fun c => { c with faults := w1c c.faults s.cycle v }) nothing)))) s

/-! ### CTL -/

/-- FBU_REP_CFG (R273, R282): another mode starts with an empty accumulator. -/
def State.repCfg (r : Nat) (v : Word) (s : State) : State :=
  let s := s.repIntegrate
  let ch := s.fch (bits v 4 4)
  let input := if bit v 8 then ch.levelB else ch.levelA
  s.onRep r fun p =>
    let same := p.mode == bits v 0 2
    { p with mode := bits v 0 2, inv := bit v 2, overRate := w1c p.overRate s.cycle v, src := bits v 4 5, ppm := max 1 (bits v 16 16),
             acc := if same then p.acc else 0, stopped := p.stopped && same, pulses := if same then p.pulses else 0,
             level := if bits v 0 2 = 1 then input != bit v 2 else p.level && same,
             poseTick := if same then p.poseTick else s.now }

/-- FBU (R282). -/
def State.writeFbu (o : Nat) (v : Word) (s : State) : State :=
  match o with
  | 0x4 => s.onFbu fun b => { b with fault := w1c b.fault s.cycle v }
  | 0x60 => s.onFbu fun b =>
    { b with cmpRoute := (List.range 4).foldl (fun t k => Tbl.set 0 t k (bits v (8 * k) 5)) b.cmpRoute }
  | _ =>
    onArr o 0x20 8 (fun k s => s.auxiSel k (bits v 0 4)) (onArr o 0x40 8 (fun k s => s.auxoSel k (bits v 0 4))
      (onArr o 0x100 16 (fun n => State.chCfg n v) (onArr o 0x140 16 (fun n s => s.onFch n fun c =>
          { c with refMode := if bits v 0 2 = 3 then 0 else bits v 0 2, missing := max 1 (bits v 2 2), teeth := bits v 16 16 })
        (onArr o 0x180 16 (fun n s => s.onFch n fun c =>
            { c with avg := bits v 0 4, stillMs := nearest 10 4000 (bits v 4 12), rptMs := bits v 16 8 })
          (onArr o 0x340 16 (fun n s => s.onFch n fun c => { c with faults := w1c c.faults s.cycle v })
            (onArr o 0x400 32 (fun m => State.cmpWrite m false v) (onArr o 0x480 32 (fun m => State.cmpWrite m true v)
              (onArr o 0x500 4 (fun j => State.probeCfg j v) (onArr o 0x540 4 (fun r => State.repCfg r v)
                (onArr o 0x550 4 (fun r s => s.onRep r fun p => { p with scale := v.toNat })
                  (onArr o 0x600 16 (fun k => State.capCfg k v)
                    (onArr o 0x700 16 (fun a s => s.onAin a fun c =>
                        { c with current := bit v 0, avgLog2 := min 6 (bits v 1 3), rptMs := bits v 8 8 })
                      (onArr o 0x740 16 (fun a s => s.onAin a fun c => { c with lowLim := bits v 0 16, highLim := bits v 16 16 })
                        nothing))))))))))))) s

/-- A context register that stands while the context is enabled: a write is ignored and sets CFG_IGNORED (R292). -/
def State.ctxHeld (c : Nat) (f : Ctx → Ctx) (s : State) : State :=
  if (s.ctx c).enable then s.ctxFault c 5 else s.onCtx c f

/-- CTX_TARGET (R288, R309): REMOTE is refused while a channel is bound; the self-test context has no target. -/
def State.ctxTarget (c : Nat) (v : Word) (s : State) : State :=
  let x := s.ctx c
  if c = 0 then s
  else if bit v 18 && x.bound.isSome && !x.remote then
    (s.ctxHeld c fun x => { x with tgtAddr := bits v 0 18 }).ctxFault c 5
  else (s.ctxHeld c fun x => { x with tgtAddr := bits v 0 18, remote := bit v 18 }).noteTarget c

/-- OUT_MAX or OUT_MIN: a write that leaves OUT_MIN > OUT_MAX is ignored (R292). -/
def State.ctxLimit (c : Nat) (f : Ctx → Ctx) (s : State) : State :=
  let x := f (s.ctx c)
  if x.outMax < x.outMin then s.ctxFault c 5 else s.onCtx c f

/-- CTX_SAFE (R292, R307, R370): warded; a disabled bound context drives it at once. -/
def State.ctxSafe (c : Nat) (v : Word) (s : State) : State :=
  let new := sbits v 0 24
  let ok := s.wardAllows false
  let s' := s.warded [(new != s.safeOut c, ok)]
  if ok then (s'.onNv fun n => { n with safeOut := Tbl.set 0 n.safeOut c new }).driveSafe c else s'

/-- One context's registers (R309). -/
def State.ctxWrite (c o : Nat) (v : Word) (s : State) : State :=
  match o with
  | 0x0 => s.ctxCfg c v
  | 0x4 => s.ctxHeld c fun x => { x with srcAddr := bits v 0 18, srcKind := if c = 0 then x.srcKind else bits v 18 3 }
  | 0x8 => s.ctxTarget c v
  | 0xC => s.ctxHeld c fun x => { x with sampleOfs := bits v 0 12, outPhase := nearest 2 4000 (bits v 12 12) }
  | 0x10 => s.ctxHeld c fun x => { x with flightUs := min 1000 (bits v 0 10) }
  | 0x14 => s.ctxLimit c fun x => { x with outMax := sbits v 0 24 }
  | 0x18 => s.ctxLimit c fun x => { x with outMin := sbits v 0 24 }
  | 0x1C => s.ctxSafe c v
  | 0x20 => s.onCtx c fun x => { x with setpoint := sbits v 0 24 }
  | 0x24 => s.onCtx c fun x => { x with spScale := v.toNat }
  | 0x28 => s.onCtx c fun x => { x with fbShift := bits v 0 6, fbOffset := sbits v 16 16 }
  | 0x2C => s.onCtx c fun x => { x with lossMin := sbits v 0 24 }
  | 0x30 => s.onCtx c fun x => { x with moveMin := bits v 0 24, frozenN := max 1 (bits v 24 8) }
  | 0x3C => s.onCtx c fun x => { x with faults := w1c x.faults s.cycle v }
  | _ => s

/-- RGE (R309). -/
def State.writeRge (o : Nat) (v : Word) (s : State) : State :=
  match o with
  | 0x4 => s.onRge fun r => { r with fault := w1c r.fault s.cycle v }
  | 0x14 => s.onRge fun r => { r with statusMs := bits v 0 16 }
  | 0x20 => s.onRge fun r => { r with selContext := bits v 0 7, selShadow := bit v 7 }
  | _ =>
    if 0x1000 ≤ o ∧ o < 0x3000 then
      let c := (o - 0x1000) / 0x40
      if s.ctxExists c then s.ctxWrite c (o % 0x40) v else s
    else s

/-- LCA (R325). -/
def State.writeLca (o : Nat) (v : Word) (s : State) : State :=
  match o with
  | 0x4 => s.onLca fun l => { l with fault := w1c l.fault s.cycle v }
  | 0x10 => s.onLca fun l => { l with applyRate := max 1 (bits v 0 5) }
  | 0x40 => s.onLca fun l => { l with viewEp := bits v 0 18, viewLocal := bit v 18 }
  | _ => s

/-! ### BAR0 -/

/-- A write at a BAR0 offset by block (R388). -/
def State.regWrite (o : Nat) (v : Word) (s : State) : State :=
  if o < 0x1000 then s.writeSys o v
  else if o < 0x2000 then s.writePrs (o - 0x1000) v
  else if o < 0x4000 then s.writeTbu (o - 0x2000) v
  else if o < 0x6000 then s.writeIcu (o - 0x4000) v
  else if o < 0x8000 then s.writeEvr (o - 0x6000) v
  else if o < 0x10000 then s.writeHre (o - 0x8000) v
  else if o < 0x14000 then s.writeGle (o - 0x10000) v
  else if o < 0x18000 then s.writeEsc (o - 0x14000) v
  else if o < 0x20000 then s.writeMpg (o - 0x18000) v
  else if o < 0x24000 then s.writePse (o - 0x20000) v
  else if o < 0x30000 then s.writeGnb (o - 0x24000) v
  else if o < 0x34000 then s.writeFlp (o - 0x30000) v
  else if o < 0x38000 then s.writeDlk (o - 0x34000) v
  else if o < 0x3C000 then s.writeLsb (o - 0x38000) v
  else if o < 0x40000 then s.writeFbu (o - 0x3C000) v
  else if o < 0x48000 then s.writeRge (o - 0x40000) v
  else if o < 0x50000 then s.writeLca (o - 0x48000) v
  else s

/-- A write of BAR0: aligned, with all byte enables, while the link is up and the block's domain is on (R19, R83, R389). -/
def execRegisterWrite (dt offset : Nat) (value : Word) (allBytes : Bool) (s : State) : Answer :=
  .next ((s.elapse dt).when (allBytes && offset % 4 == 0 && s.hostTo (offDomain offset)) (State.regWrite offset value))

end Sys2Proof.Machine
end

