-- ==== Sys2Proof/Machine/Dispatch.lean ====
section
/-! DEFINITION. One arm per command: its meaning, applied to the state with the command taken off the queue. -/

namespace Sys2Proof.Machine

def exec (i : Instr) (s : State) : Host.Outcome State Fault Refusal :=
  match i with
  | .nop dt ring => Sys2Proof.Machine.execNop dt ring s
  | .fence dt ring => Sys2Proof.Machine.execFence dt ring s
  | .fenceDone dt ring => Sys2Proof.Machine.execFenceDone dt ring s
  | .fenceTimeout dt ring => Sys2Proof.Machine.execFenceTimeout dt ring s
  | .endpointLoad dt ring buf => Sys2Proof.Machine.execEndpointLoad dt ring buf s
  | .sectionSet dt ring buf => Sys2Proof.Machine.execSectionSet dt ring buf s
  | .productSet dt ring => Sys2Proof.Machine.execProductSet dt ring s
  | .arenaGrant dt ring => Sys2Proof.Machine.execArenaGrant dt ring s
  | .arenaQuota dt ring => Sys2Proof.Machine.execArenaQuota dt ring s
  | .tileImport dt ring buf => Sys2Proof.Machine.execTileImport dt ring buf s
  | .tileExport dt ring destOk => Sys2Proof.Machine.execTileExport dt ring destOk s
  | .tileRelease dt ring => Sys2Proof.Machine.execTileRelease dt ring s
  | .targetMark dt ring buf => Sys2Proof.Machine.execTargetMark dt ring buf s
  | .passAdvance dt ring => Sys2Proof.Machine.execPassAdvance dt ring s
  | .extFix dt ring => Sys2Proof.Machine.execExtFix dt ring s
  | .ephemerisLoad dt ring buf => Sys2Proof.Machine.execEphemerisLoad dt ring buf s
  | .geometrySet dt ring => Sys2Proof.Machine.execGeometrySet dt ring s
  | .bankLoad dt ring => Sys2Proof.Machine.execBankLoad dt ring s
  | .bankSwap dt ring => Sys2Proof.Machine.execBankSwap dt ring s
  | .injectStart dt ring => Sys2Proof.Machine.execInjectStart dt ring s
  | .traceArm dt ring => Sys2Proof.Machine.execTraceArm dt ring s
  | .directSwitch dt ring buf => Sys2Proof.Machine.execDirectSwitch dt ring buf s
  | .directSwitchExecute dt ring => Sys2Proof.Machine.execDirectSwitchExecute dt ring s
  | .nodeWrite dt ring => Sys2Proof.Machine.execNodeWrite dt ring s
  | .nodeWriteResend dt ring => Sys2Proof.Machine.execNodeWriteResend dt ring s
  | .nodeWriteTimeout dt ring => Sys2Proof.Machine.execNodeWriteTimeout dt ring s
  | .calPolicy dt ring => Sys2Proof.Machine.execCalPolicy dt ring s
  | .timeSet dt ring => Sys2Proof.Machine.execTimeSet dt ring s
  | .timeSetRelease dt ring => Sys2Proof.Machine.execTimeSetRelease dt ring s
  | .wardOpen dt ring => Sys2Proof.Machine.execWardOpen dt ring s
  | .wardClose dt ring => Sys2Proof.Machine.execWardClose dt ring s
  | .recordRead dt ring destOk => Sys2Proof.Machine.execRecordRead dt ring destOk s
  | .doorbell dt ring index => Sys2Proof.Machine.execDoorbell dt ring index s
  | .descriptorFetch dt ring desc => Sys2Proof.Machine.execDescriptorFetch dt ring desc s
  | .descFetchFail dt ring => Sys2Proof.Machine.execDescFetchFail dt ring s
  | .notBeforeReached dt ring => Sys2Proof.Machine.execNotBeforeReached dt ring s
  | .heldDescriptorReady dt ring => Sys2Proof.Machine.execHeldDescriptorReady dt ring s
  | .fenceAfterRelease dt ring => Sys2Proof.Machine.execFenceAfterRelease dt ring s
  | .backlogDrain dt ring => Sys2Proof.Machine.execBacklogDrain dt ring s
  | .reportWriteFail dt ring => Sys2Proof.Machine.execReportWriteFail dt ring s
  | .shadowWrite dt ring => Sys2Proof.Machine.execShadowWrite dt ring s
  | .ringEnable dt ring value => Sys2Proof.Machine.execRingEnable dt ring value s
  | .ringDisable dt ring value => Sys2Proof.Machine.execRingDisable dt ring value s
  | .ringDrained dt ring => Sys2Proof.Machine.execRingDrained dt ring s
  | .hostHbWrite dt value => Sys2Proof.Machine.execHostHbWrite dt value s
  | .devHbTick dt => Sys2Proof.Machine.execDevHbTick dt s
  | .hostLost dt => Sys2Proof.Machine.execHostLost dt s
  | .continueLimitExpiry dt => Sys2Proof.Machine.execContinueLimitExpiry dt s
  | .resume dt value => Sys2Proof.Machine.execResume dt value s
  | .pcieLinkDown dt => Sys2Proof.Machine.execPcieLinkDown dt s
  | .pcieLinkUp dt speed width => Sys2Proof.Machine.execPcieLinkUp dt speed width s
  | .flr dt => Sys2Proof.Machine.execFlr dt s
  | .perst dt => Sys2Proof.Machine.execPerst dt s
  | .tickLoRead dt => Sys2Proof.Machine.execTickLoRead dt s
  | .optimeLoRead dt => Sys2Proof.Machine.execOptimeLoRead dt s
  | .masterOffsetLoRead dt => Sys2Proof.Machine.execMasterOffsetLoRead dt s
  | .pllLock dt => Sys2Proof.Machine.execPllLock dt s
  | .secondInstant dt => Sys2Proof.Machine.execSecondInstant dt s
  | .tpEnableWrite dt value => Sys2Proof.Machine.execTpEnableWrite dt value s
  | .slewDone dt => Sys2Proof.Machine.execSlewDone dt s
  | .holdLimit dt => Sys2Proof.Machine.execHoldLimit dt s
  | .suspectRunTimeout dt => Sys2Proof.Machine.execSuspectRunTimeout dt s
  | .optimeTick dt => Sys2Proof.Machine.execOptimeTick dt s
  | .optimePersist dt => Sys2Proof.Machine.execOptimePersist dt s
  | .poseEpoch dt => Sys2Proof.Machine.execPoseEpoch dt s
  | .exclusionExpiry dt source => Sys2Proof.Machine.execExclusionExpiry dt source s
  | .gleEnableWrite dt value => Sys2Proof.Machine.execGleEnableWrite dt value s
  | .probeEvaluation dt ep => Sys2Proof.Machine.execProbeEvaluation dt ep s
  | .overflowMigrate dt ep => Sys2Proof.Machine.execOverflowMigrate dt ep s
  | .escSlotExecute dt ep => Sys2Proof.Machine.execEscSlotExecute dt ep s
  | .escDispatch dt ep => Sys2Proof.Machine.execEscDispatch dt ep s
  | .pwmGridEdge dt channel => Sys2Proof.Machine.execPwmGridEdge dt channel s
  | .valveEffect dt ep => Sys2Proof.Machine.execValveEffect dt ep s
  | .effectiveSwitch dt ep => Sys2Proof.Machine.execEffectiveSwitch dt ep s
  | .segmentMaxExpiry dt ep => Sys2Proof.Machine.execSegmentMaxExpiry dt ep s
  | .tileFetchDone dt layer tx ty read => Sys2Proof.Machine.execTileFetchDone dt layer tx ty read s
  | .fetchRetry dt layer tx ty read => Sys2Proof.Machine.execFetchRetry dt layer tx ty read s
  | .writebackDue dt layer tx ty evict destOk => Sys2Proof.Machine.execWritebackDue dt layer tx ty evict destOk s
  | .unbackedDrop dt => Sys2Proof.Machine.execUnbackedDrop dt s
  | .mergeQueueDrain dt => Sys2Proof.Machine.execMergeQueueDrain dt s
  | .layerCfgWrite dt layer value => Sys2Proof.Machine.execLayerCfgWrite dt layer value s
  | .mapFailure dt => Sys2Proof.Machine.execMapFailure dt s
  | .gnssMeasEpoch dt m => Sys2Proof.Machine.execGnssMeasEpoch dt m s
  | .navMessage dt m => Sys2Proof.Machine.execNavMessage dt m s
  | .interferenceClear dt band => Sys2Proof.Machine.execInterferenceClear dt band s
  | .isbHoldExpiry dt system => Sys2Proof.Machine.execIsbHoldExpiry dt system s
  | .notchEngage dt notch offsetKhz depthDb aboveDb => Sys2Proof.Machine.execNotchEngage dt notch offsetKhz depthDb aboveDb s
  | .notchRelease dt notch => Sys2Proof.Machine.execNotchRelease dt notch s
  | .antOpen dt antenna milliamp => Sys2Proof.Machine.execAntOpen dt antenna milliamp s
  | .antShort dt antenna milliamp => Sys2Proof.Machine.execAntShort dt antenna milliamp s
  | .antBiasRetry dt antenna milliamp => Sys2Proof.Machine.execAntBiasRetry dt antenna milliamp s
  | .burstStart dt => Sys2Proof.Machine.execBurstStart dt s
  | .burstWindow dt m => Sys2Proof.Machine.execBurstWindow dt m s
  | .burstExit dt => Sys2Proof.Machine.execBurstExit dt s
  | .portLinkChange dt link port word => Sys2Proof.Machine.execPortLinkChange dt link port word s
  | .beatSend dt => Sys2Proof.Machine.execBeatSend dt s
  | .commandFrameSend dt port node => Sys2Proof.Machine.execCommandFrameSend dt port node s
  | .ackWaitExpiry dt port node => Sys2Proof.Machine.execAckWaitExpiry dt port node s
  | .unacked dt port node => Sys2Proof.Machine.execUnacked dt port node s
  | .nodeReport dt port r => Sys2Proof.Machine.execNodeReport dt port r s
  | .nodeLost dt port node => Sys2Proof.Machine.execNodeLost dt port node s
  | .nodeRelease dt port node => Sys2Proof.Machine.execNodeRelease dt port node s
  | .dupNodeClear dt port node => Sys2Proof.Machine.execDupNodeClear dt port node s
  | .fieldRingChange dt pair closed => Sys2Proof.Machine.execFieldRingChange dt pair closed s
  | .delayReq dt link port h t1 t2 t3 => Sys2Proof.Machine.execDelayReq dt link port h t1 t2 t3 s
  | .writeResp dt port h status data => Sys2Proof.Machine.execWriteResp dt port h status data s
  | .heartbeatSend dt => Sys2Proof.Machine.execHeartbeatSend dt s
  | .heartbeatReceive dt port h => Sys2Proof.Machine.execHeartbeatReceive dt port h s
  | .dupIdClear dt => Sys2Proof.Machine.execDupIdClear dt s
  | .siblingLost dt identity => Sys2Proof.Machine.execSiblingLost dt identity s
  | .classPresenceElection dt => Sys2Proof.Machine.execClassPresenceElection dt s
  | .tebeciaRingChange dt closed => Sys2Proof.Machine.execTebeciaRingChange dt closed s
  | .poseFrameReceive dt port p => Sys2Proof.Machine.execPoseFrameReceive dt port p s
  | .coverageFrameSend dt => Sys2Proof.Machine.execCoverageFrameSend dt s
  | .coverageFrameReceive dt port c => Sys2Proof.Machine.execCoverageFrameReceive dt port c s
  | .hardShortTrip dt channel milliamp => Sys2Proof.Machine.execHardShortTrip dt channel milliamp s
  | .limitTrip dt channel current => Sys2Proof.Machine.execLimitTrip dt channel current s
  | .latchTrip dt channel current => Sys2Proof.Machine.execLatchTrip dt channel current s
  | .overtempTrip dt channel celsius => Sys2Proof.Machine.execOvertempTrip dt channel celsius s
  | .wireModelUpdate dt channel milliamps celsius => Sys2Proof.Machine.execWireModelUpdate dt channel milliamps celsius s
  | .curveRetry dt channel => Sys2Proof.Machine.execCurveRetry dt channel s
  | .retryRestore dt channel => Sys2Proof.Machine.execRetryRestore dt channel s
  | .inrushEnd dt channel => Sys2Proof.Machine.execInrushEnd dt channel s
  | .pullinEnd dt channel => Sys2Proof.Machine.execPullinEnd dt channel s
  | .bankOverload dt bank load => Sys2Proof.Machine.execBankOverload dt bank load s
  | .bankDip dt sag => Sys2Proof.Machine.execBankDip dt sag s
  | .openLoadIndication dt channel kind probe => Sys2Proof.Machine.execOpenLoadIndication dt channel kind probe s
  | .bankCutoff dt supply vbat10mV => Sys2Proof.Machine.execBankCutoff dt supply vbat10mV s
  | .bankReturn dt supply vbat => Sys2Proof.Machine.execBankReturn dt supply vbat s
  | .reverseBattery dt bank vbat10mV => Sys2Proof.Machine.execReverseBattery dt bank vbat10mV s
  | .ambientStale dt => Sys2Proof.Machine.execAmbientStale dt s
  | .keeperExpiry dt channel => Sys2Proof.Machine.execKeeperExpiry dt channel s
  | .keeperTrip dt load => Sys2Proof.Machine.execKeeperTrip dt load s
  | .keeperSupplyLoss dt vbat => Sys2Proof.Machine.execKeeperSupplyLoss dt vbat s
  | .lsbClearWrite dt value => Sys2Proof.Machine.execLsbClearWrite dt value s
  | .feedbackEdge dt channel inputB levelA levelB => Sys2Proof.Machine.execFeedbackEdge dt channel inputB levelA levelB s
  | .standstill dt channel => Sys2Proof.Machine.execStandstill dt channel s
  | .fbuModeWrite dt channel value => Sys2Proof.Machine.execFbuModeWrite dt channel value s
  | .sincosSample dt channel sin cos => Sys2Proof.Machine.execSincosSample dt channel sin cos s
  | .cmpWrite dt comparator toCfg value => Sys2Proof.Machine.execCmpWrite dt comparator toCfg value s
  | .probeEnableWrite dt probe value => Sys2Proof.Machine.execProbeEnableWrite dt probe value s
  | .probeLatch dt probe rising => Sys2Proof.Machine.execProbeLatch dt probe rising s
  | .captureEdge dt input level => Sys2Proof.Machine.execCaptureEdge dt input level s
  | .capDataRead dt timer => Sys2Proof.Machine.execCapDataRead dt timer s
  | .capCfgWrite dt timer value => Sys2Proof.Machine.execCapCfgWrite dt timer value s
  | .auxSelWrite dt out ball value => Sys2Proof.Machine.execAuxSelWrite dt out ball value s
  | .repeaterPulse dt repeater => Sys2Proof.Machine.execRepeaterPulse dt repeater s
  | .repeaterSourceFail dt repeater => Sys2Proof.Machine.execRepeaterSourceFail dt repeater s
  | .ainSample dt input microvolt => Sys2Proof.Machine.execAinSample dt input microvolt s
  | .feedbackSample dt ain index => Sys2Proof.Machine.execFeedbackSample dt ain index s
  | .regSample dt context => Sys2Proof.Machine.execRegSample dt context s
  | .regOutput dt context => Sys2Proof.Machine.execRegOutput dt context s
  | .ctxEnableWrite dt context value => Sys2Proof.Machine.execCtxEnableWrite dt context value s
  | .ctxDisableWrite dt context value => Sys2Proof.Machine.execCtxDisableWrite dt context value s
  | .traceBlock dt quarter destOk => Sys2Proof.Machine.execTraceBlock dt quarter destOk s
  | .ctlLoss dt => Sys2Proof.Machine.execCtlLoss dt s
  | .coilSample dt channel codes => Sys2Proof.Machine.execCoilSample dt channel codes s
  | .flowStep dt product => Sys2Proof.Machine.execFlowStep dt product s
  | .meterUpdate dt context => Sys2Proof.Machine.execMeterUpdate dt context s
  | .coalesceTimeout dt source => Sys2Proof.Machine.execCoalesceTimeout dt source s
  | .extintEdge dt k rising heldCycles => Sys2Proof.Machine.execExtintEdge dt k rising heldCycles s
  | .icuCommit dt target => Sys2Proof.Machine.execIcuCommit dt target s
  | .tgtClaimRead dt target => Sys2Proof.Machine.execTgtClaimRead dt target s
  | .tgtEoiWrite dt target value => Sys2Proof.Machine.execTgtEoiWrite dt target value s
  | .icuSwiWrite dt value => Sys2Proof.Machine.execIcuSwiWrite dt value s
  | .icuPendWrite dt w value => Sys2Proof.Machine.execIcuPendWrite dt w value s
  | .srcTargetWrite dt source value => Sys2Proof.Machine.execSrcTargetWrite dt source value s
  | .tgtParkWrite dt target value => Sys2Proof.Machine.execTgtParkWrite dt target value s
  | .parkGraceExpiry dt source => Sys2Proof.Machine.execParkGraceExpiry dt source s
  | .msixUnmask dt entry => Sys2Proof.Machine.execMsixUnmask dt entry s
  | .recordCommit dt readBackOk => Sys2Proof.Machine.execRecordCommit dt readBackOk s
  | .evrPowerUpScan dt => Sys2Proof.Machine.execEvrPowerUpScan dt s
  | .snapSelWrite dt value => Sys2Proof.Machine.execSnapSelWrite dt value s
  | .snapCommitWrite dt value => Sys2Proof.Machine.execSnapCommitWrite dt value s
  | .domainEnableWrite dt value => Sys2Proof.Machine.execDomainEnableWrite dt value s
  | .domainFailure dt domain => Sys2Proof.Machine.execDomainFailure dt domain s
  | .functionReady dt bit => Sys2Proof.Machine.execFunctionReady dt bit s
  | .powerOn dt => Sys2Proof.Machine.execPowerOn dt s
  | .porNRelease dt svcJ => Sys2Proof.Machine.execPorNRelease dt svcJ s
  | .rootClock dt => Sys2Proof.Machine.execRootClock dt s
  | .coreSupply dt => Sys2Proof.Machine.execCoreSupply dt s
  | .thermalWarn dt celsius => Sys2Proof.Machine.execThermalWarn dt celsius s
  | .thermal dt celsius => Sys2Proof.Machine.execThermal dt celsius s
  | .supervisor dt domain => Sys2Proof.Machine.execSupervisor dt domain s
  | .aonFail dt => Sys2Proof.Machine.execAonFail dt s
  | .hostRequest dt value => Sys2Proof.Machine.execHostRequest dt value s
  | .domainResetRequest dt value => Sys2Proof.Machine.execDomainResetRequest dt value s
  | .plannedResetBegin dt => Sys2Proof.Machine.execPlannedResetBegin dt s
  | .internalResetRelease dt => Sys2Proof.Machine.execInternalResetRelease dt s
  | .powerFailWarning dt => Sys2Proof.Machine.execPowerFailWarning dt s
  | .powerFailRecover dt => Sys2Proof.Machine.execPowerFailRecover dt s
  | .beatOutToggle dt => Sys2Proof.Machine.execBeatOutToggle dt s
  | .beatCtlWrite dt value => Sys2Proof.Machine.execBeatCtlWrite dt value s
  | .keySwChange dt pressed => Sys2Proof.Machine.execKeySwChange dt pressed s
  | .keyPressTimer dt => Sys2Proof.Machine.execKeyPressTimer dt s
  | .keyTimeout dt => Sys2Proof.Machine.execKeyTimeout dt s
  | .wardExpiry dt => Sys2Proof.Machine.execWardExpiry dt s
  | .sealCheck dt follows => Sys2Proof.Machine.execSealCheck dt follows s
  | .registerWrite dt offset value allBytes => Sys2Proof.Machine.execRegisterWrite dt offset value allBytes s
  | .tpPulseEnd dt => Sys2Proof.Machine.execTpPulseEnd dt s
  | .comparePulseEnd dt comparator => Sys2Proof.Machine.execComparePulseEnd dt comparator s
  | .channelPwmEdge dt channel => Sys2Proof.Machine.execChannelPwmEdge dt channel s
  | .antBiasRecover dt antenna milliamp => Sys2Proof.Machine.execAntBiasRecover dt antenna milliamp s
  | .linkDelayMeasure dt port => Sys2Proof.Machine.execLinkDelayMeasure dt port s
  | .delayResp dt port h t1 t2 t3 t4 => Sys2Proof.Machine.execDelayResp dt port h t1 t2 t3 t4 s

end Sys2Proof.Machine
end

