-- ==== Sys2Proof/WellFormed.lean ====
section
/-! DEFINITION. The well-formed commands: operands within the ranges their fields have on the largest member of the
family (R2, R53, R258, R282, R309, R340). A command that is not well-formed names nothing the block has; its meaning
then changes nothing but the time. -/

namespace Sys2Proof

/-- An endpoint number: a remote address, or 262,144 + n for the local endpoint L_n (R5). -/
def epOk (ep : Nat) : Bool := decide (ep < 262144 + 32)

/-- A submission ring (R53). -/
def ringOk (ring : Nat) : Bool := decide (ring < 16)

/-- A submission ring, or 32 for a command that no ring waits for any more (R83). -/
def ringOrDead (ring : Nat) : Bool := decide (ring < 16) || decide (ring = 32)

/-- A node of a field port (R207). -/
def nodeOk (port node : Nat) : Bool := decide (port < 4) && decide (node < 256)

/-- A 64-bit value. -/
def u64 (v : Nat) : Bool := decide (v < 2 ^ 64)

/-- The operands lie within their ranges. -/
def Instr.wf : Instr → Bool
  | .nop _ ring => ringOk ring
  | .fence _ ring => ringOk ring
  | .fenceDone _ ring => ringOk ring
  | .fenceTimeout _ ring => ringOk ring
  | .endpointLoad _ ring _ => ringOk ring
  | .sectionSet _ ring _ => ringOk ring
  | .productSet _ ring => ringOk ring
  | .arenaGrant _ ring => ringOk ring
  | .arenaQuota _ ring => ringOk ring
  | .tileImport _ ring _ => ringOk ring
  | .tileExport _ ring _ => ringOk ring
  | .tileRelease _ ring => ringOk ring
  | .targetMark _ ring _ => ringOk ring
  | .passAdvance _ ring => ringOk ring
  | .extFix _ ring => ringOk ring
  | .ephemerisLoad _ ring _ => ringOk ring
  | .geometrySet _ ring => ringOk ring
  | .bankLoad _ ring => ringOk ring
  | .bankSwap _ ring => ringOk ring
  | .injectStart _ ring => ringOk ring
  | .traceArm _ ring => ringOk ring
  | .directSwitch _ ring _ => ringOk ring
  | .directSwitchExecute _ ring => ringOrDead ring
  | .nodeWrite _ ring => ringOk ring
  | .nodeWriteResend _ ring => ringOrDead ring
  | .nodeWriteTimeout _ ring => ringOrDead ring
  | .calPolicy _ ring => ringOk ring
  | .timeSet _ ring => ringOk ring
  | .timeSetRelease _ ring => ringOk ring
  | .wardOpen _ ring => ringOk ring
  | .wardClose _ ring => ringOk ring
  | .recordRead _ ring _ => ringOk ring
  | .doorbell _ ring _ => decide (ring < 32)
  | .descriptorFetch _ ring _ => ringOk ring
  | .descFetchFail _ ring => ringOk ring
  | .notBeforeReached _ ring => ringOk ring
  | .heldDescriptorReady _ ring => ringOk ring
  | .fenceAfterRelease _ ring => ringOk ring
  | .backlogDrain _ ring => decide (16 ≤ ring) && decide (ring < 32)
  | .reportWriteFail _ ring => decide (16 ≤ ring) && decide (ring < 32)
  | .shadowWrite _ ring => decide (ring < 32)
  | .ringEnable _ ring _ => decide (ring < 32)
  | .ringDisable _ ring _ => decide (ring < 32)
  | .ringDrained _ ring => ringOk ring
  | .hostHbWrite _ _ => true
  | .devHbTick _ => true
  | .hostLost _ => true
  | .continueLimitExpiry _ => true
  | .resume _ _ => true
  | .pcieLinkDown _ => true
  | .pcieLinkUp _ speed width => decide (1 ≤ speed) && decide (speed < 16) && decide (1 ≤ width) && decide (width < 64)
  | .flr _ => true
  | .perst _ => true
  | .tickLoRead _ => true
  | .optimeLoRead _ => true
  | .masterOffsetLoRead _ => true
  | .pllLock _ => true
  | .secondInstant _ => true
  | .tpEnableWrite _ _ => true
  | .slewDone _ => true
  | .holdLimit _ => true
  | .suspectRunTimeout _ => true
  | .optimeTick _ => true
  | .optimePersist _ => true
  | .poseEpoch _ => true
  | .exclusionExpiry _ source => decide (source < 15)
  | .gleEnableWrite _ _ => true
  | .probeEvaluation _ ep => epOk ep
  | .overflowMigrate _ ep => epOk ep
  | .escSlotExecute _ ep => epOk ep
  | .escDispatch _ ep => epOk ep
  | .pwmGridEdge _ channel => decide (channel < 32)
  | .valveEffect _ ep => epOk ep
  | .effectiveSwitch _ ep => epOk ep
  | .segmentMaxExpiry _ ep => epOk ep
  | .tileFetchDone _ layer _ _ _ => decide (layer < 32)
  | .fetchRetry _ layer _ _ _ => decide (layer < 32)
  | .writebackDue _ layer _ _ _ _ => decide (layer < 32)
  | .unbackedDrop _ => true
  | .mergeQueueDrain _ => true
  | .layerCfgWrite _ layer _ => decide (layer < 32)
  | .mapFailure _ => true
  | .gnssMeasEpoch _ _ => true
  | .navMessage _ m => decide (m.channel < 192)
  | .interferenceClear _ band => decide (band < 4)
  | .isbHoldExpiry _ system => decide (system < 5)
  | .notchEngage _ notch _ _ _ => decide (notch < 8)
  | .notchRelease _ notch => decide (notch < 8)
  | .antOpen _ antenna _ => decide (antenna < 2)
  | .antShort _ antenna _ => decide (antenna < 2)
  | .antBiasRetry _ antenna _ => decide (antenna < 2)
  | .burstStart _ => true
  | .burstWindow _ _ => true
  | .burstExit _ => true
  | .portLinkChange _ link port _ => decide (link = 0) && decide (port < 4) || decide (link = 1) && decide (port < 2)
  | .beatSend _ => true
  | .commandFrameSend _ port node => nodeOk port node
  | .ackWaitExpiry _ port node => nodeOk port node
  | .unacked _ port node => nodeOk port node
  | .nodeReport _ port _ => decide (port < 4)
  | .nodeLost _ port node => nodeOk port node
  | .nodeRelease _ port node => nodeOk port node
  | .dupNodeClear _ port node => nodeOk port node
  | .fieldRingChange _ pair _ => decide (pair < 2)
  | .delayReq _ link port _ t1 t2 t3 =>
    decide (link < 2) && decide (port < (if link = 0 then 4 else 2)) && u64 t1 && u64 t2 && u64 t3
  | .writeResp _ port _ _ _ => decide (port < 4)
  | .heartbeatSend _ => true
  | .heartbeatReceive _ port _ => decide (port < 2)
  | .dupIdClear _ => true
  | .siblingLost _ identity => decide (identity < 16384)
  | .classPresenceElection _ => true
  | .tebeciaRingChange _ _ => true
  | .poseFrameReceive _ port _ => decide (port < 2)
  | .coverageFrameSend _ => true
  | .coverageFrameReceive _ port _ => decide (port < 2)
  | .hardShortTrip _ channel _ => decide (channel < 32)
  | .limitTrip _ channel _ => decide (channel < 32)
  | .latchTrip _ channel _ => decide (channel < 32)
  | .overtempTrip _ channel _ => decide (channel < 32)
  | .wireModelUpdate _ channel _ _ => decide (channel < 32)
  | .curveRetry _ channel => decide (channel < 32)
  | .retryRestore _ channel => decide (channel < 32)
  | .inrushEnd _ channel => decide (channel < 32)
  | .pullinEnd _ channel => decide (channel < 32)
  | .bankOverload _ bank _ => decide (bank < 2)
  | .bankDip _ sag => decide (sag.bank < 2)
  | .openLoadIndication _ channel kind _ => decide (channel < 32) && decide (kind < 3)
  | .bankCutoff _ _ _ => true
  | .bankReturn _ _ _ => true
  | .reverseBattery _ bank _ => decide (bank < 2)
  | .ambientStale _ => true
  | .keeperExpiry _ channel => decide (channel < 32)
  | .keeperTrip _ load => decide (load.channel < 32)
  | .keeperSupplyLoss _ vbat => decide (vbat.bank < 2)
  | .lsbClearWrite _ _ => true
  | .feedbackEdge _ channel _ _ _ => decide (channel < 16)
  | .standstill _ channel => decide (channel < 16)
  | .fbuModeWrite _ channel _ => decide (channel < 16)
  | .sincosSample _ channel sin cos =>
    decide (channel < 4) && decide (-2048 ≤ sin) && decide (sin < 2048) && decide (-2048 ≤ cos) && decide (cos < 2048)
  | .cmpWrite _ comparator _ _ => decide (comparator < 32)
  | .probeEnableWrite _ probe _ => decide (probe < 4)
  | .probeLatch _ probe _ => decide (probe < 4)
  | .captureEdge _ input _ => decide (input.channel < 16)
  | .capDataRead _ timer => decide (timer < 16)
  | .capCfgWrite _ timer _ => decide (timer < 16)
  | .auxSelWrite _ _ ball _ => decide (ball < 8)
  | .repeaterPulse _ repeater => decide (repeater < 4)
  | .repeaterSourceFail _ repeater => decide (repeater < 4)
  | .ainSample _ input _ => decide (input < 16)
  | .feedbackSample _ _ index => decide (index < 16)
  | .regSample _ context => decide (context < 128)
  | .regOutput _ context => decide (context < 128)
  | .ctxEnableWrite _ context _ => decide (context < 128)
  | .ctxDisableWrite _ context _ => decide (context < 128)
  | .traceBlock _ quarter _ => decide (quarter < 4)
  | .ctlLoss _ => true
  | .coilSample _ channel _ => decide (channel < 32)
  | .flowStep _ product => decide (1 ≤ product) && decide (product < 64)
  | .meterUpdate _ context => decide (context < 128)
  | .coalesceTimeout _ source => decide (source < 512)
  | .extintEdge _ k _ _ => decide (k < 8)
  | .icuCommit _ target => decide (target < 16)
  | .tgtClaimRead _ target => decide (target < 16)
  | .tgtEoiWrite _ target _ => decide (target < 16)
  | .icuSwiWrite _ _ => true
  | .icuPendWrite _ w _ => decide (w < 16)
  | .srcTargetWrite _ source _ => decide (source < 512)
  | .tgtParkWrite _ target _ => decide (target < 16)
  | .parkGraceExpiry _ source => decide (source < 512)
  | .msixUnmask _ entry => decide (entry < 16)
  | .recordCommit _ _ => true
  | .evrPowerUpScan _ => true
  | .snapSelWrite _ _ => true
  | .snapCommitWrite _ _ => true
  | .domainEnableWrite _ _ => true
  | .domainFailure _ domain => decide (1 ≤ domain) && decide (domain < 8)
  | .functionReady _ bit => decide (bit < 14)
  | .powerOn _ => true
  | .porNRelease _ _ => true
  | .rootClock _ => true
  | .coreSupply _ => true
  | .thermalWarn _ _ => true
  | .thermal _ _ => true
  | .supervisor _ domain => decide (domain < 8)
  | .aonFail _ => true
  | .hostRequest _ _ => true
  | .domainResetRequest _ _ => true
  | .plannedResetBegin _ => true
  | .internalResetRelease _ => true
  | .powerFailWarning _ => true
  | .powerFailRecover _ => true
  | .beatOutToggle _ => true
  | .beatCtlWrite _ _ => true
  | .keySwChange _ _ => true
  | .keyPressTimer _ => true
  | .keyTimeout _ => true
  | .wardExpiry _ => true
  | .sealCheck _ _ => true
  | .registerWrite _ offset _ _ => decide (offset < 0x100000)
  | .tpPulseEnd _ => true
  | .comparePulseEnd _ comparator => decide (comparator < 32)
  | .channelPwmEdge _ channel => decide (channel < 32)
  | .antBiasRecover _ antenna _ => decide (antenna < 2)
  | .linkDelayMeasure _ port => decide (port < 2)
  | .delayResp _ port _ t1 t2 t3 t4 => decide (port < 2) && u64 t1 && u64 t2 && u64 t3 && u64 t4

end Sys2Proof
end

