-- ==== Sys2Proof/Safety.lean ====
section
/-! DEFINITION. What a sound state of the block is, and the terms the claims use. -/

namespace Sys2Proof.Machine

/-- A queue whose commands are all well formed. -/
def State.wfPending (s : State) : Bool := s.pending.all Instr.wf

/-! ### Descriptors -/

/-- Descriptor `d` heads submission ring `ring` and may start: the ring takes descriptors, `d` is its first one that has not
started, it carries opcode `op`, and R68 holds nothing against it. -/
def State.headRuns (s : State) (ring op : Nat) (d : Slot) : Prop :=
  ring < 16 ∧ s.ringRuns ring = true ∧ (s.ring ring).head = some d ∧ d.stage = .startable ∧ d.opcode = op ∧
    s.judge ring d = .stage .startable

/-- No check of a list fails (R72). -/
def checksPass (cs : List (Bool × Nat)) : Prop := ∀ c ∈ cs, c.1 = true

/-- `o` is the lowest offset among the checks that fail (R72). -/
def failsAt (cs : List (Bool × Nat)) (o : Nat) : Prop :=
  (∃ c ∈ cs, c.1 = false ∧ c.2 = o) ∧ ∀ c ∈ cs, c.1 = false → o ≤ c.2

/-- A report ring takes `n` more reports at once: enabled, no backlog, `n` slots free (R53, R76). -/
def State.ringTakes (s : State) (ring n : Nat) : Prop :=
  (s.ring ring).isEnabled = true ∧ (s.ring ring).backlog = [] ∧ (s.ring ring).used + n ≤ (s.ring ring).size

/-- Reports of an opcode are routed to a ring that takes `n` more at once (R75). -/
def State.routeTakes (s : State) (op n : Nat) : Prop :=
  (s.route op).enable = true ∧ s.ringTakes (16 + (s.route op).ring) n

/-! ### Resets (R358, R363, R364) -/

/-- `t` is `u` after a die reset by a cause: every domain but AON is off and in reset, its blocks hold their reset values
but for what counts since power-on reset, the ward is closed, and the time base, the identity and the cause of the last power-up stand. An FLR keeps the link. -/
def State.DieReset (cause : Nat) (u t : State) : Prop :=
  t.prs.inReset = true ∧ t.prs.cause = cause ∧ t.prs.resetCount = satAdd 0xFFFF u.prs.resetCount 1 ∧
    t.prs.resetTick = u.tbu.wall ∧ t.prs.powered = 0x01#8 ∧ t.prs.planned = none ∧ t.prs.ward = .closed ∧
    t.prs.beatEn = false ∧ t.prs.powerCause = u.prs.powerCause ∧
    (∀ k, k ≠ 0 → k ≠ 7 → t.isReady k = false) ∧
    t.hre = { u.hre with covDrop := t.hre.covDrop }.dieFresh (cause == 7) ∧
    t.gle = t.gle.fresh ∧ t.esc = {} ∧ t.pse = u.pse.afterReset ∧ t.gnb = u.gnb.fresh ∧ t.lca = u.lca.counts ∧
    t.lsb = t.lsb.dieFresh t.lsb.hostCTick ∧ t.tbu.tick = u.tbu.tick ∧ t.tbu.wall = u.tbu.wall ∧
    t.tbu.optime = u.tbu.optime ∧ t.sys = u.sys ∧ t.nv.pcycle = u.nv.pcycle ∧ t.pending = u.pending

/-! ### Feedback (R259, R260) -/

/-- The direction in which an accepted edge counts, true for reverse; none for an edge that does not count. `claimed`: the
channel's DIR ball is claimed. -/
def Fch.edgeDir (c : Fch) (claimed inputB a b : Bool) : Option Bool :=
  match c.mode with
  | 1 => if inputB = false ∧ a ≠ c.fallEdge then some (if claimed then b else c.dirFix) else none
  | 2 => if inputB = false ∧ a ≠ c.fallEdge then some (b != c.dirInv) else none
  | 3 =>
    if c.quadX = 2 ∨ inputB = false ∧ (c.quadX = 1 ∨ b = false) then
      some ((if inputB then a != b else a == b) != c.dirInv)
    else none
  | _ => none

/-! ### Load channels (R247, R249) -/

/-- `t` is `u` after a trip of channel `n` with fault bit `b`: off, counted, out until CLEAR, or cooling while MODE = CURVE
leaves retries; what its holder commands stands, and so does every other channel; its endpoint or its context learns of it. -/
def State.Tripped (n b : Nat) (u t : State) : Prop :=
  (t.chan n).out = false ∧ (t.chan n).offTick = u.now ∧ (t.chan n).tripTick = some u.now ∧ (t.chan n).faults.w.getLsbD b = true ∧
    (t.chan n).trips = count32 (u.chan n).trips ∧ (t.chan n).cmd = (u.chan n).cmd ∧ (t.chan n).holding = (u.chan n).holding ∧
    (t.chan n).retriesUsed = (u.chan n).retriesUsed ∧
    (t.chan n).prot =
      (if (u.chNv n).curveMode = true ∧ (u.chan n).retriesUsed < (u.chNv n).retries then .tripped else .latched) ∧
    (∀ j, j ≠ n → t.chan j = u.chan j) ∧
    t = { u with lsb := { u.lsb with chans := t.lsb.chans }, gle := t.gle, rge := t.rge, evr := t.evr, nv := t.nv, icu := t.icu,
                 hre := t.hre, out := t.out }

/-! ### The record store (R341, R349, R350) -/

/-- The store and the sequencer fit together: the store is in its canonical form, each held record stands in the slot of
its index, which is below the next index, and the record in flight has the index before the next one and an empty slot. -/
structure RecInv (n : Nv) (flight : Option Rec) : Prop where
  wf : Tbl.wf none n.records = true
  place : ∀ k r, Tbl.get none n.records k = some r → k = recSlot r.index ∧ r.index < n.nextIndex
  flight : ∀ r, flight = some r → r.index + 1 = n.nextIndex ∧ Tbl.get none n.records (recSlot r.index) = none

/-- The record store of a state is sound. -/
def State.RecordsSound (s : State) : Prop := RecInv s.nv s.evr.inFlight

/-- What of a record its CRC covers: all but REPEAT and LAST_REP, and the model's own account of FOLD reports (R345,
R350). -/
def Rec.content (r : Rec) : Rec := { r with rpt := 0, lastRep := 0, foldTick := none }

end Sys2Proof.Machine
end

