-- ==== Sys2Proof/Certificates/Slice0/Obligations.lean ====
section
/-! DEFINITION. The statements for the provers, family by family; each docstring names the rules it formalises. In every
statement `u` is the state after the time `dt` has passed, and `b` that state once the head of its ring has been judged
again (R68); a next state written as a record update names all it changes. -/

open Sys2Proof Sys2Proof.Machine

/-! ### The queue -/

/-- A step is the meaning of the command at the front of the queue, on the state with the queue's rest; on an empty queue
the block idles (the model's choice, assumption log 2). -/
def Obligations.StepRunsFrontCommand : Prop :=
  (∀ (c : Instr) (rest : List Instr) (s : State), s.pending = c :: rest → step s = exec c { s with pending := rest }) ∧
  (∀ s : State, s.pending = [] → step s = .next s)

/-! ### Where commands complete -/

/-- Where the commands of MPG, GNB and the links complete, under conditions on the state and the operands alone, and what each
leaves then (R122, R126, R129, R131-R151, R178-R201, R205-R233); the statements on these chapters below say more of each. -/
def Obligations.MapGnssAndLinkCommandsComplete : Prop :=
  ∀ (dt : Nat) (s : State),
    let u := s.elapse dt
    (∀ ring d, u.headRuns ring 0x06 d → checksPass (u.arenaGrantChecks d.desc) →
      ∃ v : State, exec (.arenaGrant dt ring) s = .next (v.finishHead ring 0x00 u.mpg.grants.length u.arenaSize) ∧
        v.mpg.grants = u.mpg.grants ++
          [{ addr := dfield d.desc 16 8, size := dfield d.desc 24 4, pool := dfield d.desc 28 1, offset := u.arenaSize }]) ∧
    (∀ ring d, u.headRuns ring 0x07 d →
      checksPass ([flagCheck d.desc 0x02, (decide (dfield d.desc 16 1 ≤ 31), 16)] ++ zeroBytes d.desc 17 3 ++ zeroBytes d.desc 24 40) →
      ∃ v : State, exec (.arenaQuota dt ring) s = .next (v.finishHead ring 0x00 (v.layer (dfield d.desc 16 1)).use 0) ∧
        (v.layer (dfield d.desc 16 1)).quota = dfield d.desc 20 4) ∧
    (∀ ring raw d, u.headRuns ring 0x08 d → checksPass (tileImportChecks d.desc) → dFlag d.desc 5 = true →
      let bs := (slices (raw.take (dfield d.desc 24 4)) 48 (dLength d.desc))
      let ds := bs.map fun e => parseDelta e.2
      checksPass (bs.flatMap fun e => u.deltaChecks e.2 e.1) → u.mergeCount + (ds.filter u.deltaWaits).length ≤ 4096 →
      exec (.tileImport dt ring (.data raw)) s =
        .next ((ds.foldl (fun s d => s.applyDelta d false) (u.settle ring)).finishHead ring 0x00 0 0)) ∧
    (∀ ring d, u.headRuns ring 0x09 d → checksPass (u.tileExportChecks d.desc) → (∀ k ∈ rectKeys d.desc, u.unsettled k = false) →
      ∃ v : State, exec (.tileExport dt ring true) s =
        .next (v.finishHead ring 0x00 ((rectKeys d.desc).filter fun k => (u.tile k).place == .resident).length u.mpg.covSeq.toNat)) ∧
    (∀ ring d, u.headRuns ring 0x0A d → checksPass (u.tileReleaseChecks d.desc) → Tbl.wf {} u.mpg.tiles = true →
      ∃ v : State, exec (.tileRelease dt ring) s = .next (v.finishHead ring 0x00 (u.releaseKeys d.desc).length 0) ∧
        ∀ k ∈ u.releaseKeys d.desc, v.tile k = {}) ∧
    (∀ ring buf d, u.headRuns ring 0x0B d → dFlag d.desc 3 = false →
      let b := dBytes d.desc 16 48
      let l := wordAt b 0 1
      let rs := slices (b.drop 4) 12 (min 3 (dLength d.desc))
      let ms := rs.map fun e => parseMark e.2
      checksPass ([flagCheck d.desc 0x02, (inRange 1 3 (dLength d.desc), 2), (u.targetLayer l, 16)] ++ zeroBytes d.desc 17 3 ++
        (rs.flatMap fun e => markChecks e.2 (20 + e.1)) ++ zeroBytes d.desc 56 8) →
      (∀ m ∈ ms, ∀ k ∈ tilesOf l (m.cells (cellMm (u.layer l).cell)), (u.tile k).place ≠ .away) →
      exec (.targetMark dt ring buf) s = .next ((ms.foldl (fun s m => s.applyMark l m) (u.settle ring)).finishHead ring 0x00 0 0)) ∧
    (∀ ring d, u.headRuns ring 0x19 d →
      checksPass ([flagCheck d.desc 0x02] ++ ((List.range 32).map fun l =>
        (!(dfield d.desc 16 4).testBit l || ((u.layer l).enable && (u.layer l).kind == 0), 16 + l / 8)) ++ zeroBytes d.desc 20 44) →
      ∃ v : State, exec (.passAdvance dt ring) s = .next (v.startHead ring []) ∧
        v.mpg.passWaits = u.mpg.passWaits ++ [{ ring, index := d.index, mask := dfield d.desc 16 4 }]) ∧
    (∀ l tx ty ep mg ps cs,
      let k := tileKey l tx ty
      let y := u.layer (keyLayer k)
      let r : TileRead := .tile (keyLayer k) (y.kind + 4 * y.cell) true ep mg ps cs
      u.fetches k = true →
      ((u.tile k).failTick = none →
        ∃ t : State, exec (.tileFetchDone dt l tx ty r) s = .next t ∧ (t.tile k).place = .resident ∧ (t.tile k).merged = mg) ∧
      (∀ f, (u.tile k).failTick = some f → f + 20000000 ≤ u.now →
        ∃ t : State, exec (.fetchRetry dt l tx ty r) s = .next t ∧ (t.tile k).place = .resident ∧ (t.tile k).failTick = none)) ∧
    (∀ l tx ty f h,
      let k := tileKey l tx ty
      let x := u.tile k
      u.isReady 5 = true → x.place = .resident → x.frame = some f → x.header = some h → x.unbacked = false → x.dirty = true →
      x.dirtyTick + u.mpg.wbInterval * 20000000 ≤ u.now →
      ∃ t : State, exec (.writebackDue dt l tx ty false true) s = .next t ∧ (t.tile k).dirty = false ∧
        HostWrite.header (u.arenaAddr (unitOffset 4 h)) (u.headerOf k x) ∈ t.out.host) ∧
    (∀ k, u.isReady 5 = true → u.wantsRoom = true → u.oldestUnbacked none = some k →
      ∃ t : State, exec (.unbackedDrop dt) s = .next t ∧ t.mpg.tileDrop = count32 u.mpg.tileDrop) ∧
    (∀ a c w k, u.isReady 5 = true → u.drainable u.mpg.mergeQ = some (a, w, c) → w.keys = [k] → (u.tile k).place = .resident →
      ∃ t : State, exec (.mergeQueueDrain dt) s = .next t ∧ t.mpg.mergeQ = a ++ c ∧ t.tile k = (u.deltaInto w k).tile k) ∧
    (∀ ring bs d, u.headRuns ring 0x0D d →
      checksPass ([flagCheck d.desc 0x0A, (dFlag d.desc 3, 1),
        (inRange 1 512 (dLength d.desc) && lengthFits d.desc (128 * dLength d.desc), 2)] ++ indirectChecks d.desc) →
      checksPass ((slices bs 128 (dLength d.desc)).flatMap fun r => ephChecks r.2 r.1) →
      ∃ (v : State) (w : EphWait), exec (.ephemerisLoad dt ring (.data bs)) s = .next (v.startHead ring []) ∧
        v.gnb.ephWait = u.gnb.ephWait ++ [w] ∧ w.ring = ring ∧ w.index = d.index) ∧
    (∀ m,
      let e := u.now / measTicks u.gnb.measRate * measTicks u.gnb.measRate
      u.isReady 6 = true →
      (u.gnb.burst = false → u.gnb.newEpoch e = true →
        ∃ t : State, exec (.gnssMeasEpoch dt m) s = .next t ∧ t.gnb.measCount = u.gnb.measCount + 1 ∧ t.gnb.lastMeasTick = some e) ∧
      (u.gnb.burst = true → u.windowEpoch ≤ u.now → u.gnb.newEpoch u.windowEpoch = true →
        ∃ t : State, exec (.burstWindow dt m) s = .next t ∧ t.gnb.measCount = u.gnb.measCount + 1 ∧
          t.gnb.lastMeasTick = some u.windowEpoch)) ∧
    (∀ m k, u.isReady 6 = true → u.antExists 0 = true → m.channel < 96 → u.track m.channel = some k →
      ∃ t : State, exec (.navMessage dt m) s = .next t ∧
        Tbl.get 0 t.gnb.msgCount m.channel = Tbl.get 0 u.gnb.msgCount m.channel + 1) ∧
    (∀ k, u.isReady 6 = true → u.gnb.burst = false → u.burstAllowed = true → u.gnb.armed = u.applyArmed → u.gnb.allowedSince = some k →
      k + 400000000 ≤ u.now / 200000000 * 200000000 →
      ∃ t : State, exec (.burstStart dt) s = .next t ∧ t.gnb.burst = true ∧ t.gnb.ambiguities = []) ∧
    (u.isReady 6 = true → u.gnb.burst = true → u.burstAllowed = false → u.gnb.armed = u.applyArmed →
      ∃ t : State, exec (.burstExit dt) s = .next t ∧ t.gnb.burst = false ∧ t.gnb.resumeTick = u.now + 4000000) ∧
    (∀ m, u.isReady 6 = true → (Tbl.get {} u.gnb.bands m).interfered = true → (Tbl.get {} u.gnb.bands m).failTick + 400000000 ≤ u.now →
      ∃ t : State, exec (.interferenceClear dt m) s = .next t ∧ (Tbl.get {} t.gnb.bands m).interfered = false) ∧
    (∀ k, Tbl.get 0 u.gnb.isbUntil k ≤ u.now →
      ∃ t : State, exec (.isbHoldExpiry dt k) s = .next t ∧ Tbl.get 0 t.gnb.isbUntil k = 0) ∧
    (∀ n off depth above, u.isReady 6 = true → u.bandExists (n / 2) = true → (u.notch n).enable = true → u.gnb.notchThresh < above →
      (u.notch (n ^^^ 1)).active = false →
      ∃ t : State, exec (.notchEngage dt n off depth above) s = .next t ∧ (t.notch n).active = true ∧ (t.notch n).offsetKhz = off) ∧
    (∀ n, u.isReady 6 = true → (u.notch n).active = true → (u.notch n).overTick + 200000000 ≤ u.now →
      ∃ t : State, exec (.notchRelease dt n) s = .next t ∧ (t.notch n).active = false) ∧
    (∀ a ma,
      (u.bias a = .ok → ma < 2 → ∃ t : State, exec (.antOpen dt a ma) s = .next t ∧ t.bias a = .opened) ∧
      (u.bias a = .ok → 60 < ma → ∃ t : State, exec (.antShort dt a ma) s = .next t ∧ t.bias a = .short) ∧
      (u.bias a = .opened → 2 ≤ ma → ma ≤ 60 → ∃ t : State, exec (.antBiasRecover dt a ma) s = .next t ∧ t.bias a = .ok) ∧
      (u.bias a = .short → Tbl.get 0 u.gnb.shortTick a + 200000000 ≤ u.now → 2 ≤ ma → ma ≤ 60 →
        ∃ t : State, exec (.antBiasRetry dt a ma) s = .next t ∧ t.bias a = .ok)) ∧
    (∀ p w, u.powered 5 = true →
      (p < Config.fieldPorts u.part → ∃ t : State, exec (.portLinkChange dt 0 p w) s = .next t ∧ (t.port p).linked = (w == .up)) ∧
      (p < Config.deviceLinks u.part → ∃ t : State, exec (.portLinkChange dt 1 p w) s = .next t ∧ (t.dport p).linked = (w == .up))) ∧
    (u.flp.beatTick < u.now / 200000 * 200000 → u.beating (u.now / 200000 * 200000) ≠ [] →
      ∃ t : State, exec (.beatSend dt) s = .next t ∧ t.flp.beatTick = u.now / 200000 * 200000 ∧
        ∀ p ∈ u.beating (u.now / 200000 * 200000), (t.port p).beatCount = (u.port p).beatCount + 1) ∧
    (∀ p h t1 t2 t3 t4, u.dportHears p = true → h.head.isBad u.dlk.etherType = false → h.origin ≠ u.mpg.domainId →
      (∃ t : State, exec (.delayReq dt 1 p h t1 t2 t3) s = .next t ∧ t.dlk.seqOf 0x25 = u.dlk.seqOf 0x25 + 1) ∧
      ((u.dport p).reqT1 = some t1 → ∃ t : State, exec (.delayResp dt p h t1 t2 t3 t4) s = .next t ∧ (t.dport p).reqT1 = none)) ∧
    (∀ p, u.dportHears p = true →
      ∃ t : State, exec (.linkDelayMeasure dt p) s = .next t ∧ t.dlk.seqOf 0x24 = u.dlk.seqOf 0x24 + 1) ∧
    (∀ pair c, 2 * pair + 1 < Config.fieldPorts u.part → u.inRing (2 * pair) = true → u.portUp (2 * pair) = true →
      u.portUp (2 * pair + 1) = true →
      ∃ t : State, exec (.fieldRingChange dt pair c) s = .next t ∧ (t.port (2 * pair)).ringClosed = c) ∧
    (∀ c, u.powered 5 = true → u.dportRuns 0 = true → u.dportRuns 1 = true →
      ∃ t : State, exec (.tebeciaRingChange dt c) s = .next t ∧ t.dlk.ringClosed = c) ∧
    (∀ p n, u.frameDue p n = true →
      ∃ t : State, exec (.commandFrameSend dt p n) s = .next t ∧ (t.node p n).seq = ((u.node p n).seq + 1) % 65536) ∧
    (∀ p n f c, u.portExists p = true → u.portRuns p = true → (u.node p n).sent = f :: c → u.ackDue f = true →
      ∃ t : State, exec (.ackWaitExpiry dt p n) s = .next t ∧
        (t.node p n).sent = (f :: c).map fun g => { g with sentTick := u.now, retries := g.retries + 1 }) ∧
    (∀ p n, u.portExists p = true → 0 < (u.lateRecs (u.node p n)).1 →
      ∃ t : State, exec (.unacked dt p n) s = .next t ∧
        (t.port p).unacked = satAdd 0xFFFFFFFF (u.port p).unacked (u.lateRecs (u.node p n)).1) ∧
    (∀ q r, q < Config.fieldPorts u.part → u.portUp q = true → r.node < 256 → r.head.isBad u.flp.etherType = false →
      r.seq ∉ (u.node (u.nodePort q) r.node).repSeqs →
      ∃ t : State, exec (.nodeReport dt q r) s = .next t ∧ (t.node (u.nodePort q) r.node).present = true ∧
        (t.node (u.nodePort q) r.node).lastReportTick = u.now) ∧
    (∀ p n, u.powered 5 = true → (u.node p n).present = true → beatOf (u.node p n).lastReportTick + 4 ≤ beatOf u.now →
      ∃ t : State, exec (.nodeLost dt p n) s = .next t ∧ (t.node p n).present = false) ∧
    (∀ p n, u.portExists p = true → u.portRuns p = true → (u.node p n).present = true → (u.node p n).safe = true →
      u.flp.recover ≤ (u.node p n).safeBeats →
      ∃ t : State, exec (.nodeRelease dt p n) s = .next t ∧ (t.node p n).safeBeats = 0) ∧
    (∀ p n, u.powered 5 = true → (u.node p n).dup = true →
      100 ≤ (u.node p n).singleBeats - b2n (beatOf (u.node p n).lastReportTick == beatOf u.now) →
      ∃ t : State, exec (.dupNodeClear dt p n) s = .next t ∧ (t.node p n).dup = false) ∧
    (∀ ring d, u.headRuns ring 0x14 d → checksPass (nodeWriteChecks d.desc) → touchesWarded d.desc = false →
      ∃ (v : State) (w : WritePend), exec (.nodeWrite dt ring) s = .next (v.startHead ring []) ∧ v.flp.writes = u.flp.writes ++ [w] ∧
        w.ring = ring ∧ w.index = d.index ∧ w.addr = dfield d.desc 18 2) ∧
    (∀ ring w rest,
      (takeWrite (fun w => w.ring == ring && decide (w.lastTick + 400000 ≤ u.now) && !w.isOver u.now) u.flp.writes = some (w, rest) →
        u.powered 5 = true →
        ∃ t : State, exec (.nodeWriteResend dt ring) s = .next t ∧ t.flp.writes = rest ++ [{ w with lastTick := u.now }]) ∧
      (takeWrite (fun w => w.ring == ring && w.isOver u.now) u.flp.writes = some (w, rest) →
        ∃ v : State, exec (.nodeWriteTimeout dt ring) s = .next (v.finishAt ring w.index 0x08 1 0) ∧ v.flp.writes = rest)) ∧
    (∀ q head token data w rest, q < Config.fieldPorts u.part → u.portUp q = true → head.isBad u.flp.etherType = false →
      takeWrite (fun w => w.port == u.nodePort q && w.token == token) u.flp.writes = some (w, rest) → w.op = 1 →
      ∃ v : State, exec (.writeResp dt q ⟨head, token⟩ 0 data) s = .next (v.finishAt w.ring w.index 0x00 (wordAt data 0 4) (wordAt data 4 4)) ∧
        v.flp.writes = rest) ∧
    (∀ r, u.powered 5 = true → u.classPresence = true → topRank u.candidates = some r →
      ∃ t : State, exec (.classPresenceElection dt) s = .next t ∧ t.dlk.masterId = r.identity) ∧
    (u.powered 5 = true → u.dportRuns 0 = true ∨ u.dportRuns 1 = true → u.dlk.hbTick < u.now / 200000 * 200000 →
      ∃ t : State, exec (.heartbeatSend dt) s = .next t ∧ t.dlk.hbTick = u.now / 200000 * 200000 ∧
        t.dlk.seqOf 0x21 = u.dlk.seqOf 0x21 + 1) ∧
    (∀ q h p c, u.dportHears q = true →
      let fresh (type : Nat) (f : TebHead) : Prop :=
        f.head.isBad u.dlk.etherType = false ∧ f.origin ≠ u.mpg.domainId ∧ ∀ l, u.dlk.lastSeq type f = some l → precedes l f.seq = true
      (fresh 0x21 h.teb → u.slotOf h.teb.origin ≠ none ∨ u.freeSlot ≠ none →
        ∃ (t : State) (y : Sibling), exec (.heartbeatReceive dt q h) s = .next t ∧ t.sibling h.teb.origin = some y ∧ y.lastTick = u.now) ∧
      (fresh 0x22 p.teb → ∃ t : State, exec (.poseFrameReceive dt q p) s = .next t ∧ t.dlk.lastSeq 0x22 p.teb = some p.teb.seq) ∧
      (fresh 0x23 c.teb → ∃ t : State, exec (.coverageFrameReceive dt q c) s = .next t ∧ t.dlk.lastSeq 0x23 c.teb = some c.teb.seq)) ∧
    (u.powered 5 = true → u.dlk.dupId = true → u.dlk.dupTick + 200000000 ≤ u.now →
      ∃ t : State, exec (.dupIdClear dt) s = .next t ∧ t.dlk.dupId = false) ∧
    (∀ k i y, u.slotOf k = some i → u.sibling k = some y → u.powered 5 = true → y.lastTick + 1000000 ≤ u.now →
      ∃ t : State, exec (.siblingLost dt k) s = .next t ∧ Tbl.get none t.dlk.siblings i = none) ∧
    (u.powered 5 = true → u.dlk.outQ ≠ [] → u.dlk.outTick + 200000 ≤ u.now → u.dportRuns 0 = true → u.dlk.dupId = false →
      ∃ t : State, exec (.coverageFrameSend dt) s = .next t ∧ t.dlk.outQ = u.dlk.outQ.drop 30)

/-- Where the commands of the load switches, the escapement, the lookahead and the pose complete, under conditions on the state
and the operands alone, and what each leaves then (R15, R16, R92-R114, R127, R155-R175, R240-R256); the statements on these
chapters below say more of each. -/
def Obligations.LoadGroundAndPoseCommandsComplete : Prop :=
  ∀ (dt : Nat) (s : State),
    let u := s.elapse dt
    (∀ n ma, u.canTrip n = true → (u.chan n).keepTick = none → u.hardShort n < ma →
      ∃ t : State, exec (.hardShortTrip dt n ma) s = .next t ∧ State.Tripped n 0 u t) ∧
    (∀ n ma held, u.canTrip n = true → (u.chan n).keepTick = none → (u.chan n).inrush = false →
      (u.inrushLimit n ≤ ma → 200 ≤ held → (u.chan n).inrushTick + (u.chNv n).inrushMs * 200000 + 40000 ≤ u.now →
        ∃ t : State, exec (.limitTrip dt n ⟨ma, held⟩) s = .next t ∧ State.Tripped n 1 u t) ∧
      ((u.chNv n).curveMode = false → u.latchMa n ≤ ma → 1000 * (u.chNv n).blankMs ≤ held →
        (u.chan n).inrushTick + (u.chNv n).inrushMs * 200000 + (u.chNv n).blankMs * 200000 ≤ u.now →
        ∃ t : State, exec (.latchTrip dt n ⟨ma, held⟩) s = .next t ∧ State.Tripped n 2 u t)) ∧
    (∀ n c, u.chanExists n = true → (u.chan n).prot = .armed → (u.chan n).keepTick = none → 175 ≤ c →
      ∃ t : State, exec (.overtempTrip dt n c) s = .next t ∧ State.Tripped n 4 u t) ∧
    (∀ n k ma held, u.canTrip n = true → (u.chan n).keepTick = some k → 3 * u.continuousMa n ≤ 2 * ma → 10000 ≤ held →
      ∃ t : State, exec (.keeperTrip dt ⟨n, ma, held⟩) s = .next t ∧ (t.chan n).out = false ∧ (t.chan n).prot = .latched) ∧
    (∀ ma held dieC, u.bankOn 0 = true → 150 ≤ dieC →
      ∃ t : State, exec (.bankOverload dt 0 ⟨ma, held, dieC⟩) s = .next t ∧
        ∀ n, n ∈ u.bankChans 0 → u.canTrip n = true → (u.chan n).keepTick = none → u.overLimit n (Tbl.get 0 ma n) = true →
          (t.chan n).out = false ∧ (t.chan n).prot ≠ .armed) ∧
    (∀ n ms c mc, u.chanExists n = true → u.powered 7 = true → (u.chan n).wireTick + 200000 ≤ u.now →
      ∃ t : State, exec (.wireModelUpdate dt n ms ⟨c, mc⟩) s = .next t ∧ t.lsb.moduleC = mc ∧ (t.chan n).tempC = c) ∧
    (∀ n, (u.chan n).prot = .tripped → 2 * ((u.chan n).theta : Int) ≤ u.thetaRoom n → (u.chan n).tempC ≤ 150 → u.holderOn n = true →
      (u.chan n).keepTick = none → u.supplied (u.bankOf n) = true →
      ∃ t : State, exec (.curveRetry dt n) s = .next t ∧ (t.chan n).prot = .armed ∧
        (t.chan n).retriesUsed = (u.chan n).retriesUsed + 1) ∧
    (∀ n, (u.chan n).prot = .armed → (u.chan n).out = true → (u.chan n).retriesUsed ≠ 0 → (u.chan n).onTick + 12000000000 ≤ u.now →
      ∃ t : State, exec (.retryRestore dt n) s = .next t ∧ (t.chan n).retriesUsed = 0) ∧
    (∀ n, (u.chan n).inrush = true → (u.chan n).inrushTick + (u.chNv n).inrushMs * 200000 ≤ u.now →
      ∃ t : State, exec (.inrushEnd dt n) s = .next t ∧ (t.chan n).inrush = false) ∧
    (∀ n, (u.chan n).pullin = true → (u.chan n).out = true → (u.chan n).pullinTick + (u.chan n).pullinTime * 200000 ≤ u.now →
      ∃ t : State, exec (.pullinEnd dt n) s = .next t ∧ (t.chan n).hold = true) ∧
    (∀ n d p, u.chanExists n = true → (u.chan n).cmd = .pwm d p → 1 ≤ p → (u.chan n).pwmTick + p * 200 ≤ u.now →
      ∃ t : State, exec (.channelPwmEdge dt n) s = .next t ∧ (t.chan n).pwmTick ≤ u.now ∧ u.now < (t.chan n).pwmTick + p * 200) ∧
    (u.nv.ambHost = true → u.lsb.hostCStale = false → u.powered 7 = true → u.lsb.hostCTick + 2000000000 ≤ u.now →
      ∃ t : State, exec (.ambientStale dt) s = .next t ∧ t.lsb.hostCStale = true) ∧
    (∀ p v, u.supplyExists p = true → cutLevel p v = true → u.lsb.isCut p = false →
      ∃ t : State, exec (.bankCutoff dt p v) s = .next t ∧ t.lsb.isCut p = true) ∧
    (∀ p v stable, u.supplyExists p = true → u.lsb.isCut p = true → 10 ≤ stable → 650 < v → v < 3600 →
      ∃ t : State, exec (.bankReturn dt p ⟨v, stable⟩) s = .next t ∧ t.lsb.isCut p = false) ∧
    (∀ v, v < -100 → ∃ t : State, exec (.reverseBattery dt 0 v) s = .next t ∧ Tbl.get false t.lsb.reversed 0 = true) ∧
    (∀ v mean held, u.bankOn 0 = true → 2 * v < mean → 10 ≤ held →
      ∃ t : State, exec (.bankDip dt ⟨0, v, mean, held⟩) s = .next t ∧ t.lsb.fault = setFlag u.lsb.fault u.cycle 3) ∧
    (∀ n v vbat held, u.chanExists n = true → u.powered 7 = true → u.canIndicate n 0 = true → v < 10 * (u.chan n).openOnMa →
      u.indicatesLong n 0 held = true → (u.chan n).indication 0 = false →
      ∃ t : State, exec (.openLoadIndication dt n 0 ⟨v, vbat, held⟩) s = .next t ∧ (t.chan n).indication 0 = true) ∧
    (∀ n k, (u.chan n).keepTick = some k → k + (u.chNv n).keep10ms * 2000000 ≤ u.tbu.wall →
      ∃ t : State, exec (.keeperExpiry dt n) s = .next t ∧ (t.chan n).keepTick = none ∧ (t.chan n).inSafe = true) ∧
    (∀ v, v < 400 → ∃ t : State, exec (.keeperSupplyLoss dt ⟨0, v⟩) s = .next t ∧ Tbl.get false t.lsb.keeperDead 0 = true) ∧
    (∀ ring buf d, u.headRuns ring 0x13 d → dFlag d.desc 3 = false →
      checksPass ([flagCheck d.desc 0x02, (inRange 1 5 (dLength d.desc), 2), (decide (dfield d.desc 16 8 ≤ u.now + 2 ^ 32), 16)] ++
        (((slices (dBytes d.desc 24 40) 8 (min 5 (dLength d.desc))).flatMap fun e => (u.settle ring).switchChecks e.2 (24 + e.1)) ++
          channelsOnce 24 (slices (dBytes d.desc 24 40) 8 (min 5 (dLength d.desc))) [])) →
      ∃ (v : State) (w : SwWait), exec (.directSwitch dt ring buf) s = .next (v.startHead ring []) ∧ v.lsb.waits = u.lsb.waits ++ [w] ∧
        w.index = d.index) ∧
    (∀ ring w, u.lsb.earliestWait ring = some w → w.tick ≤ u.now → u.firstDenied [] w.entries = none →
      ∃ v : State, exec (.directSwitchExecute dt ring) s = .next (v.finishAt w.ring w.index 0x00 w.entries.length 0) ∧
        v.lsb.waits = u.lsb.waits.erase w) ∧
    (∀ ep e, ((u.dyn ep).onEv = some e ∧ e.on = true ∧ (u.dyn ep).offEv = none) →
      (e.far = true → e.tick ≤ u.now + 520000000 →
        ∃ t : State, exec (.overflowMigrate dt ep) s = .next t ∧ (t.dyn ep).onEv = some { e with far := false }) ∧
      (ep < localBase → e.dispatched = false → e.tick ≤ u.now + e.leadUs * 200 →
        ∃ t : State, exec (.escDispatch dt ep) s = .next t ∧ ∃ x, (t.dyn ep).onEv = some x ∧ x.dispatched = true ∧ x.tick = e.tick) ∧
      (isLocalEp ep = true → e.tick ≤ u.now → (u.dyn ep).probe ≠ none → (u.dyn ep).owesOff = false →
        ∃ t : State, exec (.escSlotExecute dt ep) s = .next t ∧ (t.dyn ep).heldOn = true ∧ (t.dyn ep).onEv = none)) ∧
    (∀ ep v rest,
      (takeEffect ep u.now u.gle.valveQ = some (v, rest) →
        ∃ t : State, exec (.valveEffect dt ep) s = .next t ∧ t.gle.valveQ = rest ∧ (t.dyn v.ep).inDemand = v.on) ∧
      (takeEffect ep (min u.now u.pse.cur.tick) u.gle.effQ = some (v, rest) → v.rateOnly = false →
        ∃ t : State, exec (.effectiveSwitch dt ep) s = .next t ∧ t.gle.effQ = rest ∧ (t.dyn v.ep).effOn = v.on)) ∧
    (∀ ep p, u.isReady 5 = true → u.strip ep = some p → p.waiting = false → 0 < u.mpg.segMax →
      p.startTick + u.mpg.segMax * 200000 ≤ u.pse.cur.tick →
      ∃ t : State, exec (.segmentMaxExpiry dt ep) s = .next t ∧ t.mpg.covSeq = u.mpg.covSeq + 1) ∧
    (∀ n, let ep := localBase + n
      let p := u.product (u.entry ep).product
      (u.dyn ep).pwmRun = true → p.pwmPeriod ≠ 0 → (u.dyn ep).pwmOpen = false → (u.dyn ep).duty ≠ 0 →
      gridPasses (p.pwmPeriod * 2000) (phaseOf p (u.entry ep).phaseGroup * 2000) ((u.dyn ep).pwmOpenTick + 1) u.now = true →
      ∃ t : State, exec (.pwmGridEdge dt n) s = .next t ∧ (t.dyn ep).pwmOpen = true ∧ (t.dyn ep).pwmDuty = (u.dyn ep).duty) ∧
    (∀ ep p, u.probeDue ep = true → u.served ep = true → (u.dyn ep).probe = some p → p.held = none → (u.dyn ep).staged = none →
      (u.dyn ep).stagedDelays = none → (u.dyn ep).onEv = none → (u.dyn ep).offEv = none → (u.dyn ep).heldOn = false →
      (u.delayCal (2 * ep)).staged = none → (u.delayCal (2 * ep + 1)).staged = none → u.gle.poseOk = false →
      ∃ (t : State) (q : Probe), exec (.probeEvaluation dt ep) s = .next t ∧ (t.dyn ep).probe = some q ∧
        q.next = (p.next + max 1 (u.spacing ep 1) + 1999) / 2000 * 2000) ∧
    (∀ ring buf d, u.headRuns ring 0x03 d → dFlag d.desc 3 = false → dFlag d.desc 5 = false → checksPass (loadDirectChecks d.desc) →
      dLength d.desc = 1 →
      let ep := epOf (dfield d.desc 16 4) (dFlag d.desc 4)
      let en := parseEntry (dBytes d.desc 24 16)
      u.escDenied ep en = false → (u.dyn ep).staged = none → (u.dyn ep).stagedDelays = none → (u.dyn ep).onEv = none →
      (u.dyn ep).offEv = none → (u.dyn ep).heldOn = false → en ≠ (u.entry ep).withDelays en.onDelay en.offDelay →
      ∃ v : State, exec (.endpointLoad dt ring buf) s = .next (v.finishHead ring 0x00 0 0) ∧ v.entry ep = en) ∧
    (∀ ring buf d, u.headRuns ring 0x04 d → dFlag d.desc 3 = false → dLength d.desc = 1 →
      checksPass ([flagCheck d.desc 0x02, (inRange 1 10 1, 2), (decide (dfield d.desc 16 8 ≤ u.now + 2 ^ 32), 16)] ++
        sectionChecks (dBytes d.desc 24 4) 24) →
      let e := parseSection (dBytes d.desc 24 4)
      (∀ m ∈ u.sectionMembers e.section_, (u.entry m).mode ≠ .latched) →
      ∃ v : State, exec (.sectionSet dt ring buf) s = .next (v.finishHead ring 0x00 0 0) ∧ (v.section_ e.section_).state = e.state) ∧
    (∀ ring d, u.headRuns ring 0x05 d → checksPass ((u.settle ring).productChecks d.desc) →
      ∃ v : State, exec (.productSet dt ring) s = .next (v.finishHead ring 0x00 0 0) ∧
        v.product (dfield d.desc 16 1) = parseProduct d.desc) ∧
    (u.isReady 4 = true → (∀ k, u.pse.epochTick = some k → k < u.now / 1000000 * 1000000) →
      ∃ t : State, exec (.poseEpoch dt) s = .next t ∧ t.pse.epochTick = some t.pse.cur.tick ∧ t.pse.modelWaits = []) ∧
    (∀ j k, (u.psrc j).excludedUntil = some k → k ≤ u.now →
      ∃ t : State, exec (.exclusionExpiry dt j) s = .next t ∧ (t.psrc j).excludedUntil = none) ∧
    (∀ ring d, u.headRuns ring 0x0C d → checksPass ((u.settle ring).extFixChecks d.desc) → dfield d.desc 16 8 = 0 →
      u.pse.histFloor ≤ u.now →
      ∃ (v : State) (detail : Nat), exec (.extFix dt ring) s = .next (v.finishHead ring 0x00 detail 0)) ∧
    (∀ ring d, u.headRuns ring 0x0E d → dfield d.desc 16 1 = 1 → checksPass (originChecks d.desc) → u.originFree = true →
      ∃ v : State, exec (.geometrySet dt ring) s = .next (v.finishHead ring 0x00 0 0) ∧ v.pse.originSet = true ∧
        v.pse.originLat = dsfield d.desc 20 4)

/-! ### Rings (03_host_rings.md) -/

/-- NOP completes with OK, or with BAD_PARAM at the lowest offending byte; FENCE starts, noting for each ring of its mask the producer index, or its own index for its own
ring; it completes with OK once all it notes is done, and with ABORTED and the mask outstanding when its time-out passes
first (R65, R69). -/
def Obligations.NopAndFenceRun : Prop :=
  (∀ (dt ring : Nat) (s : State) (d : Slot),
    (s.elapse dt).headRuns ring 0x01 d →
    (checksPass (flagCheck d.desc 0x02 :: zeroBytes d.desc 16 48) →
      exec (.nop dt ring) s = .next (((s.elapse dt).settle ring).finishHead ring 0x00 0 0)) ∧
    (∀ o, failsAt (flagCheck d.desc 0x02 :: zeroBytes d.desc 16 48) o →
      exec (.nop dt ring) s = .next (((s.elapse dt).settle ring).finishHead ring 0x07 o 0))) ∧
  (∀ (dt ring : Nat) (s : State) (d : Slot),
    (s.elapse dt).headRuns ring 0x02 d →
    checksPass (flagCheck d.desc 0x02 :: (zeroBytes d.desc 18 2 ++ zeroBytes d.desc 24 40)) →
    ∃ marks : List (Nat × Word),
      exec (.fence dt ring) s = .next (((s.elapse dt).settle ring).startHead ring marks) ∧
      ∀ (n : Nat) (i : Word), (n, i) ∈ marks ↔
        n < 16 ∧ (dfield d.desc 16 2).testBit n = true ∧
          i = if n = ring then d.index else (((s.elapse dt).settle ring).ring n).prod) ∧
  (∀ (dt ring : Nat) (s : State) (d : Slot),
    (s.elapse dt).runningFence ring = some d → (∀ m ∈ d.marks, (s.elapse dt).markDone m = true) →
    exec (.fenceDone dt ring) s = .next ((s.elapse dt).finishAt ring d.index 0x00 0 0)) ∧
  (∀ (dt ring : Nat) (s : State) (d : Slot),
    (s.elapse dt).runningFence ring = some d → (∃ m ∈ d.marks, (s.elapse dt).markDone m = false) →
    dfield d.desc 20 4 ≠ 0 → d.startTick + dfield d.desc 20 4 * 200 ≤ (s.elapse dt).now →
    exec (.fenceTimeout dt ring) s =
      .next ((s.elapse dt).finishAt ring d.index 0x08
        (((d.marks.filter fun m => !(s.elapse dt).markDone m).map fun m => 2 ^ m.1).sum) 0))

/-- A NOP alone on its ring: its slot goes, and its COMPLETION (R71) is the newest write to host memory, in the next slot
of the report ring its ring names, with that ring's next sequence number (R53, R70, R74); nothing else of the block moves
but the report ring's interrupt source. -/
def Obligations.NopCompletionIsReported : Prop :=
  ∀ (dt ring : Nat) (s : State) (d : Slot),
    let u := s.elapse dt
    let c := 16 + (u.ring ring).complRing
    u.headRuns ring 0x01 d → (u.ring ring).slots = [d] → d.fetchFailSeq = none →
    checksPass (flagCheck d.desc 0x02 :: zeroBytes d.desc 16 48) →
    (u.ring ring).complMode = 0 → u.ringTakes c 1 →
    ∃ t : State, exec (.nop dt ring) s = .next t ∧
      (t.ring ring).slots = [] ∧ (t.ring c).prod = (u.ring c).prod + 1 ∧ (t.ring c).seq = (u.ring c).seq + 1 ∧
      t.out.host = HostWrite.report c ((u.ring c).base + 64 * ((u.ring c).prod.toNat % (u.ring c).size))
        { opcode := 0x40, flags := b2n (u.ring c).dropped, seq := (u.ring c).seq, tick := u.now,
          payload := [fld 16 1 ring, fld 17 1 0, fld 18 1 0x01, fld 20 4 (dSeq d.desc).toNat, fld 24 4 0, fld 28 4 0,
            fld 32 8 u.now, fld 40 8 u.cal] } :: u.out.host ∧
      (∀ n, n ≠ ring → n ≠ c → t.ring n = u.ring n) ∧ (∀ n, n ≠ c → t.src n = u.src n) ∧
      t = { u with out := t.out, hre := { u.hre with rings := t.hre.rings }, icu := { u.icu with srcs := t.icu.srcs } }

/-- Completions are written in ring order: of a ring's slots exactly those before the first one that has not finished
leave, and their COMPLETIONs are written in that order (R66). -/
def Obligations.CompletionsInRingOrder : Prop :=
  ∀ (ring : Nat) (s : State) (done rest : List Slot),
    let c := 16 + (s.ring ring).complRing
    ring < 16 → (s.ring ring).slots = done ++ rest → (∀ d ∈ done, d.stage = .finished) →
    (∀ d ∈ rest.head?, d.stage ≠ .finished) → (s.ring ring).complMode = 0 → s.ringTakes c done.length →
    ((s.flush ring).ring ring).slots = rest ∧
    ∃ ws : List HostWrite, (s.flush ring).out.host = ws ++ s.out.host ∧
      ws.reverse.map (fun w => match w with | .report _ _ r => r.payload | _ => []) =
        done.map fun d => (completionReport ring d).payload

/-- A fetched descriptor whose SEQ is the expected one advances CONS and the expected SEQ and joins its ring; another
puts the ring into its error state and completes with SEQ_GAP; a failed fetch raises DESC_FETCH and leaves CONS; and a head
held by NOT_BEFORE, by readiness or by FENCE_AFTER is judged again when its hold ends and starts being startable (R57, R63,
R68, R396). -/
def Obligations.DescriptorsAreFetchedAndHeld : Prop :=
  (∀ (dt ring : Nat) (desc : DescBits) (s : State),
    let u := s.elapse dt
    let r := u.ring ring
    u.canFetch ring = true → dSeq desc = r.seq →
    ∃ v : State, exec (.descriptorFetch dt ring desc) s = .next (v.settle ring) ∧
      v.ring ring = { r with cons := r.cons + 1, seq := r.seq + 1,
                             slots := r.slots ++ [{ desc, index := r.cons, fetchTick := u.now }] } ∧
      (∀ n, n ≠ ring → v.ring n = u.ring n) ∧ v = { u with hre := { u.hre with rings := v.hre.rings } }) ∧
  (∀ (dt ring : Nat) (desc : DescBits) (s : State),
    let u := s.elapse dt
    let r := u.ring ring
    u.canFetch ring = true → dSeq desc ≠ r.seq →
    ∃ v : State, exec (.descriptorFetch dt ring desc) s = .next (((v.raise ring).faultReport 0x0101 ring ring r.seq.toNat (dSeq desc).toNat).settle ring) ∧
      (v.ring ring).mode = .error ∧ (v.ring ring).cons = r.cons + 1 ∧ (v.ring ring).seq = r.seq ∧
      (∃ x : Slot, (v.ring ring).slots = r.slots ++ [x] ∧ x.stage = .finished ∧ x.status = 0x05 ∧ x.detail = r.seq.toNat ∧ x.desc = desc) ∧
      v.hre.fault = setFlag u.hre.fault u.cycle 0 ∧ (∀ n, n ≠ ring → v.ring n = u.ring n) ∧ v = { u with hre := v.hre }) ∧
  (∀ (dt ring : Nat) (s : State),
    let u := s.elapse dt
    let r := u.ring ring
    u.canFetch ring = true →
    ∃ v : State, exec (.descFetchFail dt ring) s =
        .next ((((v.raise 53).raise ring).faultReport 0x0103 ring 53 r.seq.toNat r.cons.toNat).settle ring) ∧
      (v.ring ring).mode = .error ∧ (v.ring ring).cons = r.cons ∧ (v.ring ring).seq = r.seq ∧
      (∃ x : Slot, (v.ring ring).slots = r.slots ++ [x] ∧ x.stage = .finished ∧ x.status = 0x09 ∧ x.fetchFailSeq = some r.seq) ∧
      v.hre.fault = setFlag u.hre.fault u.cycle 1 ∧ (∀ n, n ≠ ring → v.ring n = u.ring n) ∧ v = { u with hre := v.hre }) ∧
  (∀ (dt ring : Nat) (s : State) (d : Slot),
    let u := s.elapse dt
    ring < 16 → (u.ring ring).head = some d → u.judge ring { d with stage := .queued } = .stage .startable →
    (d.stage = .heldNotBefore ∧ dNotBefore d.desc ≤ u.now →
      ∃ t : State, exec (.notBeforeReached dt ring) s = .next t ∧ (t.ring ring).head = some { d with stage := .startable }) ∧
    (d.stage = .heldNotReady ∧ (∃ k, readyBitOf d.desc = some k ∧ u.isReady k = true) →
      ∃ t : State, exec (.heldDescriptorReady dt ring) s = .next t ∧ (t.ring ring).head = some { d with stage := .startable }) ∧
    (d.stage = .heldFence ∧ (u.ring ring).fenced = false →
      ∃ t : State, exec (.fenceAfterRelease dt ring) s = .next t ∧ (t.ring ring).head = some { d with stage := .startable }))

/-- What holds the head of a ring, in the order of R68: an opcode the table lacks and an absent resource complete it at
once; then NOT_BEFORE, too far ahead or not yet come; then readiness; then FENCE_AFTER before it; then a running
descriptor of the ring for the same function (R66, the model's reading, assumption log 156). -/
def Obligations.HeadIsJudgedInOrder : Prop :=
  ∀ (s : State) (ring : Nat) (d : Slot),
    (readyBitOf d.desc = none → s.judge ring d = .ends 0x06 d.opcode) ∧
    (∀ k, readyBitOf d.desc = some k →
      (∀ o, s.absentOffset d.desc = some o → s.judge ring d = .ends 0x07 o) ∧
      (s.absentOffset d.desc = none →
        (d.fetchTick + 2 ^ 32 < dNotBefore d.desc → s.judge ring d = .ends 0x07 8) ∧
        (dNotBefore d.desc ≤ d.fetchTick + 2 ^ 32 →
          (s.now < dNotBefore d.desc → s.judge ring d = .stage .heldNotBefore) ∧
          (dNotBefore d.desc ≤ s.now →
            (s.isReady k = false → s.judge ring d =
              if dFlag d.desc 0 then .ends 0x01 k else .stage .heldNotReady) ∧
            (s.isReady k = true → s.judge ring d =
              if (s.ring ring).fenced then .stage .heldFence
              else if (s.ring ring).ordered k then .stage .queued else .stage .startable)))))

/-- A doorbell moves PROD of a submission ring or CONS of a report ring, or is refused with RQ_BAD and its source (R54,
R56); the device writes a changed index to the shadow (R55); reports of a backlog leave in order (R76); a failed report
write frees its slot and its sequence number and counts a drop (R76, R85). -/
def Obligations.DoorbellsAndReportRings : Prop :=
  (∀ (dt ring : Nat) (index : Word) (s : State),
    let u := s.elapse dt
    u.hostUp = true → ring < 32 → (u.ring ring).refuses (decide (16 ≤ ring)) index = false →
    ∃ t : State, exec (.doorbell dt ring index) s = .next t ∧
      t.ring ring = (if ring < 16 then { u.ring ring with prod := index } else { u.ring ring with cons := index }) ∧
      (∀ n, n ≠ ring → t.ring n = u.ring n) ∧ t.hre.timerArmed = true ∧ t.hre.timerTick = u.now ∧
      t = { u with hre := t.hre, icu := t.icu }) ∧
  (∀ (dt ring : Nat) (index : Word) (s : State),
    let u := s.elapse dt
    u.hostUp = true → ring < 32 → (u.ring ring).refuses (decide (16 ≤ ring)) index = true →
    ∃ t : State, exec (.doorbell dt ring index) s = .next t ∧ (∀ n, t.ring n = u.ring n) ∧
      t.hre.fault = setFlag u.hre.fault u.cycle 2 ∧ t = { u with hre := t.hre, icu := t.icu }) ∧
  (∀ (dt ring : Nat) (s : State),
    let u := s.elapse dt
    let r := u.ring ring
    ring < 32 → u.hostUp = true → r.mode ≠ .disabled → r.shadow ≠ 0 → r.ownIndex ring ≠ r.shadowVal →
    r.isIdle = true ∨ r.shadowTick + 200 ≤ u.now →
    ∃ t : State, exec (.shadowWrite dt ring) s = .next t ∧
      t.out.host = HostWrite.shadow ring r.shadow (if ring < 16 then r.cons else r.prod) :: u.out.host ∧
      (t.ring ring).shadowVal = (if ring < 16 then r.cons else r.prod) ∧ (∀ n, n ≠ ring → t.ring n = u.ring n) ∧
      t = { u with out := { u.out with host := t.out.host }, hre := { u.hre with rings := t.hre.rings } }) ∧
  (∀ (dt ring : Nat) (s : State) (rp : Report) (rest : List Report),
    let u := s.elapse dt
    let r := u.ring ring
    16 ≤ ring → ring < 32 → r.isEnabled = true → r.backlog = rp :: rest → r.used < r.size →
    ∃ (t : State) (newer : List HostWrite), exec (.backlogDrain dt ring) s = .next t ∧
      t.out.host = newer ++ HostWrite.report ring (r.slotAddr r.prod) { rp with seq := r.seq } :: u.out.host ∧
      (t.ring ring).backlog.length ≤ rest.length ∧ (∀ n, n ≠ ring → t.ring n = u.ring n) ∧
      t = { u with out := { u.out with host := t.out.host }, hre := { u.hre with rings := t.hre.rings }, icu := t.icu }) ∧
  (∀ (dt ring : Nat) (s : State) (rp : Report) (rest : List HostWrite),
    let u := s.elapse dt
    let r := u.ring ring
    16 ≤ ring → ring < 32 → r.isEnabled = true → r.prod ≠ r.cons → takeReport ring u.out.host = some (rp, rest) →
    ∃ t : State, exec (.reportWriteFail dt ring) s = .next t ∧ t.out.host = rest ∧
      t.ring ring = { r with seq := r.seq - 1, prod := r.prod - 1, dropped := true } ∧
      Tbl.get 0 t.hre.rqDrop (ring - 16) = count32 (Tbl.get 0 u.hre.rqDrop (ring - 16)) ∧
      (∀ n, n ≠ ring → t.ring n = u.ring n) ∧ t.hre.fault.w.getLsbD 1 = true ∧
      t = { u with out := { u.out with host := rest }, hre := t.hre, icu := t.icu })

/-- Enabling a disabled ring takes its size and starts both indexes at 0 and the sequence at its start value (R58, R86);
disabling a submission ring aborts a held head, lets started descriptors end, and reaches DISABLED once none is left (R59);
disabling a report ring drops its backlog (R59). -/
def Obligations.RingsAreEnabledAndDisabled : Prop :=
  (∀ (dt ring : Nat) (v : Word) (s : State),
    let u := s.elapse dt
    u.hostUp = true → ring < 32 → bit v 8 = true → (u.ring ring).mode = .disabled →
    ∃ t : State, exec (.ringEnable dt ring v) s = .next t ∧
      (t.ring ring).mode = .enabled ∧ (t.ring ring).prod = 0 ∧ (t.ring ring).cons = 0 ∧
      (t.ring ring).seq = (u.ring ring).seqStart ∧ (t.ring ring).log2 = nearest 6 16 (bits v 0 5) ∧
      (t.ring ring).slots = [] ∧ (t.ring ring).backlog = [] ∧ (t.ring ring).base = (u.ring ring).base ∧
      (ring < 16 → (t.ring ring).complRing = bits v 9 4 ∧ (t.ring ring).complMode = bits v 13 1) ∧
      t = { u with hre := { u.hre with rings := t.hre.rings, rqDrop := t.hre.rqDrop } }) ∧
  (∀ (dt ring : Nat) (v : Word) (s : State),
    let u := s.elapse dt
    u.hostUp = true → ring < 16 → bit v 8 = false → (u.ring ring).mode = .enabled → (u.ring ring).slots = [] →
    ∃ t : State, exec (.ringDisable dt ring v) s = .next t ∧ (t.ring ring).mode = .disabled ∧
      (∀ n, n ≠ ring → t.ring n = u.ring n) ∧ t = { u with hre := { u.hre with rings := t.hre.rings } }) ∧
  (∀ (dt ring : Nat) (v : Word) (s : State) (d : Slot),
    let u := s.elapse dt
    u.hostUp = true → ring < 16 → bit v 8 = false → (u.ring ring).mode = .enabled → (u.ring ring).slots = [d] →
    d.stage = .started →
    ∃ t : State, exec (.ringDisable dt ring v) s = .next t ∧ (t.ring ring).mode = .draining ∧ (t.ring ring).slots = [d] ∧
      (∀ n, n ≠ ring → t.ring n = u.ring n)) ∧
  (∀ (dt ring : Nat) (v : Word) (s : State),
    let u := s.elapse dt
    u.hostUp = true → 16 ≤ ring → ring < 32 → bit v 8 = false → (u.ring ring).mode = .enabled →
    ∃ t : State, exec (.ringDisable dt ring v) s = .next t ∧ (t.ring ring).mode = .disabled ∧ (t.ring ring).backlog = [] ∧
      (∀ n, n ≠ ring → t.ring n = u.ring n) ∧ t = { u with hre := t.hre, icu := t.icu }) ∧
  (∀ (dt ring : Nat) (s : State),
    let u := s.elapse dt
    (u.ring ring).mode = .draining → (u.ring ring).slots = [] →
    ∃ t : State, exec (.ringDrained dt ring) s = .next t ∧ t.ring ring = { u.ring ring with mode := .disabled } ∧
      (∀ n, n ≠ ring → t.ring n = u.ring n) ∧ t = { u with hre := { u.hre with rings := t.hre.rings } })

/-! ### Time (02_time_and_order.md) -/

/-- A read of TICK_LO, OPTIME_LO or MASTER_OFFSET_LO latches the words that stand beside it (R26, R391). A write reaches a
register only aligned, with all byte enables and its domain on (R19, R389): SCRATCH takes it (R393), a fault register clears
where it is 1 (R8), but for a flag set in the same BUS cycle (R9); a warded one keeps its value while the ward does not allow it, and counts that (R8, R370); the registers
that have commands of their own do what those do. -/
def Obligations.RegistersAreReadAndWritten : Prop :=
  (∀ (dt : Nat) (s : State),
    let u := s.elapse dt
    u.hostUp = true →
    (∃ t : State, exec (.tickLoRead dt) s = .next t ∧ t.out.readData = BitVec.ofNat 32 u.now ∧ t.tbu.shTick = u.now ∧
      t.tbu.shCal = u.cal ∧ t.tbu.shUnc = BitVec.ofNat 32 (u.tbu.uncAt u.now) ∧
      bits t.tbu.shState 0 8 = u.tbu.tqual u.now % 256 ∧ sbits t.tbu.shState 8 16 = fromTwos 16 (toTwos 16 u.tbu.utcOffset) ∧
      bit t.tbu.shState 24 = u.tbu.utcValid ∧
      t = { u with out := { u.out with readData := t.out.readData },
                   tbu := { u.tbu with shTick := t.tbu.shTick, shCal := t.tbu.shCal, shUnc := t.tbu.shUnc, shState := t.tbu.shState } }) ∧
    (∃ t : State, exec (.optimeLoRead dt) s = .next t ∧ t.out.readData = BitVec.ofNat 32 u.tbu.optime ∧
      t.tbu.optimeHi = u.tbu.optime / 2 ^ 32 ∧
      t = { u with out := { u.out with readData := t.out.readData }, tbu := { u.tbu with optimeHi := t.tbu.optimeHi } }) ∧
    (u.powered 5 = true → Config.deviceLinks u.part ≠ 0 →
      ∃ t : State, exec (.masterOffsetLoRead dt) s = .next t ∧ t.out.readData = BitVec.ofInt 32 u.dlk.masterOffset ∧
        t.dlk.masterHi = BitVec.ofNat 32 (toTwos 64 u.dlk.masterOffset / 2 ^ 32) ∧
        t = { u with out := { u.out with readData := t.out.readData }, dlk := { u.dlk with masterHi := t.dlk.masterHi } })) ∧
  (∀ (dt o : Nat) (v : Word) (all : Bool) (s : State),
    let u := s.elapse dt
    u.hostTo (offDomain o) = false ∨ all = false ∨ o % 4 ≠ 0 → exec (.registerWrite dt o v all) s = .next u) ∧
  (∀ (dt : Nat) (v : Word) (s : State),
    let u := s.elapse dt
    (u.hostTo 0 = true →
      exec (.registerWrite dt 0x20 v true) s = .next { u with sys := { u.sys with scratch := v } } ∧
      exec (.registerWrite dt 0x1008 v true) s = .next { u with prs := { u.prs with fault := w1c u.prs.fault u.cycle v } } ∧
      exec (.registerWrite dt 0x4004 v true) s = .next { u with icu := { u.icu with fault := w1c u.icu.fault u.cycle v } } ∧
      exec (.registerWrite dt 0x6010 v true) s = .next { u with evr := { u.evr with fault := w1c u.evr.fault u.cycle v } }) ∧
    (u.hostTo 1 = true →
      exec (.registerWrite dt 0x8004 v true) s = .next { u with hre := { u.hre with fault := w1c u.hre.fault u.cycle v } }) ∧
    (u.hostTo 2 = true →
      exec (.registerWrite dt 0x10008 v true) s = .next { u with gle := { u.gle with fault := w1c u.gle.fault u.cycle v } } ∧
      exec (.registerWrite dt 0x14010 v true) s = .next { u with esc := { u.esc with fault := w1c u.esc.fault u.cycle v } } ∧
      exec (.registerWrite dt 0x20004 v true) s = .next { u with pse := { u.pse with fault := w1c u.pse.fault u.cycle v } }) ∧
    (u.hostTo 3 = true →
      exec (.registerWrite dt 0x18004 v true) s = .next { u with mpg := { u.mpg with fault := w1c u.mpg.fault u.cycle v } }) ∧
    (u.hostTo 4 = true → Config.gnssAntennas u.part ≠ 0 →
      exec (.registerWrite dt 0x24004 v true) s = .next { u with gnb := { u.gnb with fault := w1c u.gnb.fault u.cycle v } }) ∧
    (u.hostTo 5 = true →
      (Config.fieldPorts u.part ≠ 0 →
        exec (.registerWrite dt 0x3000C v true) s = .next { u with flp := { u.flp with fault := w1c u.flp.fault u.cycle v } }) ∧
      (Config.deviceLinks u.part ≠ 0 →
        exec (.registerWrite dt 0x3400C v true) s = .next { u with dlk := { u.dlk with fault := w1c u.dlk.fault u.cycle v } })) ∧
    (u.hostTo 6 = true →
      exec (.registerWrite dt 0x3C004 v true) s = .next { u with fbu := { u.fbu with fault := w1c u.fbu.fault u.cycle v } } ∧
      exec (.registerWrite dt 0x40004 v true) s = .next { u with rge := { u.rge with fault := w1c u.rge.fault u.cycle v } } ∧
      exec (.registerWrite dt 0x48004 v true) s = .next { u with lca := { u.lca with fault := w1c u.lca.fault u.cycle v } }) ∧
    (u.hostTo 7 = true →
      exec (.registerWrite dt 0x38004 v true) s = .next { u with lsb := { u.lsb with fault := w1c u.lsb.fault u.cycle v } }) ∧
    (u.hostTo 0 = true →
      let new := (v.toNat % 65536) ||| 0x1C03
      (u.wardAllows false = false → new ≠ u.evr.trigEn →
        ∃ t : State, exec (.registerWrite dt 0x6020 v true) s = .next t ∧ t.prs.wardRefused = satAdd 0xFFFF u.prs.wardRefused 1 ∧
          bit t.prs.fault.w 1 = true ∧
          t = { u with prs := { u.prs with wardRefused := t.prs.wardRefused, fault := t.prs.fault }, icu := t.icu }) ∧
      (u.wardAllows false = true → new ≠ u.evr.trigEn →
        ∃ t : State, exec (.registerWrite dt 0x6020 v true) s = .next t ∧ t.prs.wardAccepted = u.prs.wardAccepted + 1 ∧
          t = { u with evr := { u.evr with trigEn := new },
                       prs := { u.prs with wardAccepted := t.prs.wardAccepted, wardUndo := t.prs.wardUndo } }) ∧
      (new = u.evr.trigEn → exec (.registerWrite dt 0x6020 v true) s = .next u))) ∧
  (∀ (f : Flags) (c i : Nat) (v : Word),
    (f.cyc ≠ c → (w1c f c v).w = f.w &&& ~~~v) ∧ (i < 32 → (w1c (setFlag f c i) c v).w.getLsbD i = true)) ∧
  (∀ (dt n : Nat) (v : Word) (s : State),
    exec (.registerWrite dt 0x10000 v true) s = exec (.gleEnableWrite dt v) s ∧
    exec (.registerWrite dt 0x38010 v true) s = exec (.lsbClearWrite dt v) s ∧
    (n < 32 → exec (.registerWrite dt (0x18100 + 4 * n) v true) s = exec (.layerCfgWrite dt n v) s ∧
      exec (.registerWrite dt (0x3C400 + 4 * n) v true) s = exec (.cmpWrite dt n false v) s ∧
      exec (.registerWrite dt (0x3C480 + 4 * n) v true) s = exec (.cmpWrite dt n true v) s))

/-- Device ticks count TMR cycles once the PLL has locked (R24, R25); operating time counts one every 0.1 s of device
ticks and goes to the MRAM every second (R28); TP_OUT returns to rest WIDTH_MS after its edge (R44). -/
def Obligations.ClocksAndCountsRun : Prop :=
  (∀ (dt : Nat) (s : State), (s.elapse dt).tbu.tick = if s.tbu.pllLocked then s.tbu.tick + dt else s.tbu.tick) ∧
  (∀ (dt : Nat) (s : State),
    let u := s.elapse dt
    u.prs.running = true →
    exec (.pllLock dt) s =
      .next { u with tbu := { u.tbu with pllLocked := true }, prs := { u.prs with clockLost := false } }) ∧
  (∀ (dt : Nat) (s : State),
    let u := s.elapse dt
    u.prs.running = true → u.tbu.optimeTick + 20000000 ≤ u.tbu.tick →
    exec (.optimeTick dt) s =
      .next { u with tbu := { u.tbu with optime := (u.tbu.optime + 1) % 2 ^ 40, optimeTick := u.tbu.optimeTick + 20000000 } }) ∧
  (∀ (dt : Nat) (s : State),
    let u := s.elapse dt
    u.prs.running = true → u.evr.persistTick + 200000000 ≤ u.tbu.tick →
    exec (.optimePersist dt) s =
      .next { u with nv := { u.nv with optime := u.tbu.optime }, evr := { u.evr with persistTick := u.tbu.tick } }) ∧
  (∀ (dt : Nat) (s : State),
    let u := s.elapse dt
    u.tbu.tpActive = true → u.tbu.tpEdge + u.tbu.tpWidth * 200000 ≤ u.tbu.tick →
    exec (.tpPulseEnd dt) s = .next { u with tbu := { u.tbu with tpActive := false } })

/-- A second instant with no step waiting emits a pulse (R43, R395); with a step within 500 ms waiting it moves calendar
time by the error first (R37); TP_ENABLE takes a 1, and a write while TP_OUT runs
changes nothing else and counts as ignored (R43); a slew due ends, holdover over HOLD_LIMIT enters FREERUN, and a
suspect run without a solution for 2 s is discarded (R34, R37, R40, R41). -/
def Obligations.BalanceFollowsItsRules : Prop :=
  (∀ (dt : Nat) (s : State),
    let u := s.elapse dt
    u.tbu.instantDue u.now = true → u.tbu.pend = none → ¬ (u.tbu.bal = .locked ∧ u.tbu.source = 1) →
    ∃ t : State, exec (.secondInstant dt) s = .next t ∧ t.tbu.lastInstant = some u.now ∧ t.tbu.lastEmitted = some u.now ∧
      t.tbu.ppsStepNext = false ∧ t.tbu.bal = u.tbu.bal ∧ t.tbu.calBase = u.tbu.calBase ∧ t.tbu.calTick = u.tbu.calTick ∧
      (u.tbu.tpRunning = true ∨ u.tbu.tpEnable = true →
        t.tbu.tpRunning = true ∧ t.tbu.tpCount = (if u.tbu.tpRunning then u.tbu.tpCount + 1 else 1) ∧ t.tbu.tpActive = true ∧
          t.tbu.tpEdge = u.now) ∧
      t = { u with tbu := t.tbu, icu := t.icu }) ∧
  (∀ (dt : Nat) (s : State) (p : PendStep),
    let u := s.elapse dt
    u.tbu.instantDue u.now = true → u.tbu.pend = some p → p.first = false → p.d.natAbs ≤ 500000000 →
    u.tbu.calValid = true →
    ∃ t : State, exec (.secondInstant dt) s = .next t ∧ t.tbu.pend = none ∧ t.tbu.calAt u.now = u.tbu.calAt u.now - p.d ∧
      t.tbu.stepTick = some u.now ∧ t.tbu.bal = .locked ∧ t.tbu.source = p.source ∧ t.tbu.lastEmitted = some u.now) ∧
  (∀ (dt : Nat) (v : Word) (s : State),
    let u := s.elapse dt
    u.hostUp = true → bit v 0 = true → u.tbu.tpRunning = false →
    exec (.tpEnableWrite dt v) s = .next { u with tbu := { u.tbu with tpEnable := true, tpPol := bit v 1, tpWidth := nearest 1 500 (bits v 2 9) } }) ∧
  (∀ (dt : Nat) (v : Word) (s : State),
    let u := s.elapse dt
    u.hostUp = true → bit v 0 = true → u.tbu.tpRunning = true →
    exec (.tpEnableWrite dt v) s =
      .next { u with tbu := { u.tbu with tpEnable := true, status := setFlag u.tbu.status u.cycle 4 } }) ∧
  (∀ (dt e : Nat) (s : State),
    let u := s.elapse dt
    u.tbu.slewEnd = some e → e ≤ u.now →
    ∃ t : State, exec (.slewDone dt) s = .next t ∧ t.tbu.slew = 0 ∧ t.tbu.slewEnd = none ∧ t.tbu.calAt e = u.tbu.calAt e ∧
      t.tbu.bal = u.tbu.bal ∧ t = { u with tbu := t.tbu, icu := t.icu, hre := t.hre, out := t.out }) ∧
  (∀ (dt : Nat) (s : State),
    let u := s.elapse dt
    u.tbu.bal = .holdover → u.tbu.lossTick + u.tbu.holdLimit * 200000000 ≤ u.now →
    ∃ t : State, exec (.holdLimit dt) s = .next t ∧ t.tbu = { u.tbu with bal := .freerun, status := setFlag u.tbu.status u.cycle 2 } ∧
      t = { u with tbu := t.tbu, icu := t.icu, hre := t.hre, out := t.out }) ∧
  (∀ (dt : Nat) (s : State) (r : SuspectRun),
    let u := s.elapse dt
    u.tbu.suspect = some r → r.lastTick + 400000000 ≤ u.now →
    ∃ t : State, exec (.suspectRunTimeout dt) s = .next t ∧ t.tbu = { u.tbu with suspect := none } ∧
      t = { u with tbu := t.tbu, icu := t.icu, hre := t.hre, out := t.out })

/-- TIME_SET by the cases of R46: FORCE takes the balance for the host and steers; without it a forced balance or a valid
GNSS source turns it away with ABORTED, DETAIL 2 or 1, and else it steers as source HOST; RELEASE gives the balance back, drops a
forced step that has not been taken (the model's choice, assumption log 154) and completes with OK. Steering (R37): with no calendar time the time set waits as the first step; an error up to STEP_THRESH
locks the balance to the source and slews against the error; a larger one waits as a step. -/
def Obligations.TimeSetFollowsItsCases : Prop :=
  (∀ (dt ring : Nat) (s : State) (d : Slot),
    let u := s.elapse dt
    let b := u.settle ring
    let off := dsfield d.desc 16 8 - 5 * ((if dfield d.desc 24 8 = 0 then u.now else dfield d.desc 24 8 : Nat) : Int)
    u.headRuns ring 0x16 d → checksPass (b.timeSetChecks d.desc) →
    (dFlag d.desc 2 = true → dFlag d.desc 4 = false →
      ∃ v : State, exec (.timeSet dt ring) s =
          .next (v.steer 4 off (dfield d.desc 32 4) (timeSetUtc d.desc) false (some (ring, d.index))) ∧
        v.tbu = { u.tbu with hostForced := true } ∧ ∃ x ∈ (v.ring ring).slots, x.index = d.index ∧ x.stage = .started) ∧
    (dFlag d.desc 2 = false → dFlag d.desc 4 = false → u.tbu.hostForced = true →
      exec (.timeSet dt ring) s = .next (b.finishHead ring 0x08 2 0)) ∧
    (dFlag d.desc 2 = false → dFlag d.desc 4 = false → u.tbu.hostForced = false → u.tbu.gnssValid = true →
      exec (.timeSet dt ring) s = .next (b.finishHead ring 0x08 1 0)) ∧
    (dFlag d.desc 2 = false → dFlag d.desc 4 = false → u.tbu.hostForced = false → u.tbu.gnssValid = false →
      ∃ v : State, exec (.timeSet dt ring) s =
          .next (v.steer 1 off (dfield d.desc 32 4) (timeSetUtc d.desc) false (some (ring, d.index))) ∧
        v.tbu = u.tbu ∧ ∃ x ∈ (v.ring ring).slots, x.index = d.index ∧ x.stage = .started) ∧
    (dFlag d.desc 2 = false → dFlag d.desc 4 = true → u.tbu.hostForced = false →
      exec (.timeSetRelease dt ring) s = .next (b.finishHead ring 0x00 0 0)) ∧
    (dFlag d.desc 2 = false → dFlag d.desc 4 = true → u.tbu.hostForced = true →
      ∃ v : State, exec (.timeSetRelease dt ring) s = .next (v.finishHead ring 0x00 0 0) ∧ v.tbu.hostForced = false ∧ v.tbu.noTest = true ∧
        (u.tbu.bal = .locked → v.tbu.bal = .holdover) ∧
        (∀ p, u.tbu.pend = some p → v.tbu.pend = if p.source = 4 then none else some p) ∧
        v = { b with tbu := v.tbu, icu := v.icu, hre := v.hre, out := v.out })) ∧
  (∀ (source unc : Nat) (off : Int) (utc : Option Int) (w : Option (Nat × Word)) (s : State),
    s.tbu.pend = none →
    (s.tbu.calValid = false →
      s.steer source off unc utc false w =
        { s with tbu := { s.tbu with pend := some { d := off, source, unc, first := true, utc, waiters := w.toList } } }) ∧
    (s.tbu.calValid = true →
      let err := s.tbu.calAt s.now - (off + 5 * s.now)
      (s.tbu.stepThresh * 1000 < err.natAbs →
        s.steer source off unc utc false w =
          { s with tbu := { s.tbu with pend := some { d := err, source, unc, first := false, utc, waiters := w.toList } } }) ∧
      (err.natAbs ≤ s.tbu.stepThresh * 1000 →
        let t := s.steer source off unc utc false w
        t.tbu.bal = .locked ∧ t.tbu.source = source ∧ t.tbu.srcUnc = unc ∧ t.tbu.pend = none ∧ t.tbu.calAt s.now = s.tbu.calAt s.now ∧
          (0 < err → t.tbu.slew < 0 ∧ t.tbu.slewEnd.isSome = true) ∧ (err < 0 → 0 < t.tbu.slew ∧ t.tbu.slewEnd.isSome = true) ∧
          (err = 0 → s.tbu.slewEnd = none → t.tbu.slewEnd = none))))

/-! ### Host presence and the PCIe link (03_host_rings.md) -/

/-- Host activity restarts the host-lost timer and brings HOST_STATE back; HRE_DEV_HB counts every millisecond; the timer
running out is LOST_CONTINUE or LOST_SAFE by policy, CONTINUE_LIMIT ends the first in LOST_SAFE, and RESUME leaves SAFE_HOLD
(R79-R81). -/
def Obligations.HostPresenceMoves : Prop :=
  (∀ (dt : Nat) (v : Word) (s : State),
    let u := s.elapse dt
    u.hostUp = true →
    ∃ t : State, exec (.hostHbWrite dt v) s = .next t ∧
      t.hre = { u.hre with timerArmed := true, timerTick := u.now,
                           hostState := match u.hre.hostState with
                             | .unarmed => .present
                             | .lostContinue => .present
                             | .lostSafe => .safeHold
                             | .present => .present
                             | .safeHold => .safeHold } ∧
      t.icu = (if u.hre.hostState = .lostContinue ∨ u.hre.hostState = .lostSafe then (u.raise 49).icu else u.icu) ∧
      t = { u with hre := t.hre, icu := t.icu }) ∧
  (∀ (dt : Nat) (s : State),
    let u := s.elapse dt
    u.isReady 1 = true → u.hre.devHbTick + 200000 ≤ u.now →
    exec (.devHbTick dt) s =
      .next { u with hre := { u.hre with devHb := u.hre.devHb + 1, devHbTick := u.hre.devHbTick + 200000 } }) ∧
  (∀ (dt : Nat) (s : State),
    let u := s.elapse dt
    u.hre.timerArmed = true → u.hre.hostState = .present → u.hre.policySafe = false →
    u.hre.timerTick + u.hre.lostTimeMs * 200000 ≤ u.now →
    ∃ t : State, exec (.hostLost dt) s = .next t ∧ t.hre.hostState = .lostContinue ∧ t.hre.continueTick = u.now ∧
      t.hre.hostLostCount = count32 u.hre.hostLostCount ∧ t.hre.fault.w.getLsbD 4 = true ∧ t.lsb = u.lsb ∧ t.gle = u.gle ∧
      t = { u with hre := t.hre, icu := t.icu, out := t.out, evr := t.evr, nv := t.nv }) ∧
  (∀ (dt : Nat) (s : State),
    let u := s.elapse dt
    u.hre.timerArmed = true → (u.hre.hostState = .safeHold ∨ u.hre.hostState = .present ∧ u.hre.policySafe = true) →
    u.hre.timerTick + u.hre.lostTimeMs * 200000 ≤ u.now →
    ∃ v : State, exec (.hostLost dt) s = .next v.safeAction ∧ v.hre.hostState = .lostSafe ∧
      v.hre.hostLostCount = count32 u.hre.hostLostCount ∧ v.hre.fault.w.getLsbD 4 = true ∧
      v = { u with hre := v.hre, icu := v.icu, out := v.out, evr := v.evr, nv := v.nv }) ∧
  (∀ (dt : Nat) (s : State),
    let u := s.elapse dt
    u.hre.hostState = .lostContinue → u.hre.continueTick + u.hre.continueLimit * 20000000 ≤ u.now →
    exec (.continueLimitExpiry dt) s = .next (State.safeAction { u with hre := { u.hre with hostState := .lostSafe } })) ∧
  (∀ (dt : Nat) (v : Word) (s : State),
    let u := s.elapse dt
    u.hostUp = true → bit v 0 = true → u.hre.hostState = .safeHold →
    ∃ t : State, exec (.resume dt v) s = .next t ∧ t.hre.hostState = .present ∧ t.lsb.chans = u.lsb.chans)

/-- PCIe link-down disables every ring and the MSI-X table, sets its fault flag and clears HRE's ready bit; link-up sets
them again; a Function Level Reset is requested as a planned die reset with cause FLR; PERST_N is noted as cause PERST and
is a link-down (R59, R83, R84, R360, R363, R365). -/
def Obligations.PcieLinkMoves : Prop :=
  (∀ (dt : Nat) (s : State),
    let u := s.elapse dt
    u.hre.linkUp = true →
    ∃ t : State, exec (.pcieLinkDown dt) s = .next t ∧ t.hre.linkUp = false ∧ (∀ n, (t.ring n).mode = .disabled) ∧
      t.hre.msixEnable = false ∧ t.hre.fault.w.getLsbD 5 = true ∧ t.isReady 1 = false ∧ t.hre.hostState = u.hre.hostState ∧
      t.hre.lostTimeMs = u.hre.lostTimeMs ∧ t.gle = u.gle ∧ t.lsb.chans = u.lsb.chans ∧ t.nv = u.nv) ∧
  (∀ (dt speed width : Nat) (s : State),
    let u := s.elapse dt
    u.prs.running = true → u.powered 1 = true → u.prs.inReset = false → u.hre.linkUp = false → u.isReady 1 = false →
    ∃ t : State, exec (.pcieLinkUp dt speed width) s = .next t ∧
      t.hre = { u.hre with linkUp := true, linkSpeed := speed % 8, linkWidth := width % 16, devHbTick := u.now } ∧
      t.isReady 1 = true ∧ (∀ k, k ≠ 1 → t.isReady k = u.isReady k) ∧ t = { u with hre := t.hre, prs := t.prs, icu := t.icu }) ∧
  (∀ (dt : Nat) (s : State),
    let u := s.elapse dt
    u.hostUp = true → u.prs.planned = none → u.prs.inReset = false →
    exec (.flr dt) s = .next { u with prs := { u.prs with planned := some { cause := 7, domains := 0, tick := u.now } } }) ∧
  (∀ (dt : Nat) (s : State),
    let u := s.elapse dt
    u.prs.running = true → u.hre.linkUp = true →
    ∃ t : State, exec (.perst dt) s = .next t ∧ t.prs.cause = 8 ∧ t.hre.linkUp = false ∧ t.isReady 1 = false ∧
      (∀ n, (t.ring n).mode = .disabled))

/-! ### Ward, seal, BEAT_OUT (15_power_reset_presence.md) -/

/-- WARD_OPEN arms a closed ward and reports its state; CLOSE closes it; a key press of 50 ms and its release open an
armed ward; without one the arming ends after 30 s with its fault flag, and an open ward closes after 120 s (R368, R369). -/
def Obligations.WardMoves : Prop :=
  (∀ (dt ring : Nat) (s : State) (d : Slot),
    let u := s.elapse dt
    let b := u.settle ring
    u.headRuns ring 0x17 d → dfield d.desc 16 1 = 0 → checksPass (wardChecks d.desc) →
    (u.prs.ward = .closed →
      ∃ v : State, exec (.wardOpen dt ring) s = .next (v.finishHead ring 0x00 v.prs.ward.code 0) ∧
        v.prs = { u.prs with ward := .armed, press := .idle, wardTick := u.now } ∧
        v = { b with prs := v.prs, icu := (b.raise 485).icu }) ∧
    (u.prs.ward ≠ .closed → exec (.wardOpen dt ring) s = .next (b.finishHead ring 0x00 u.prs.ward.code 0))) ∧
  (∀ (dt ring : Nat) (s : State) (d : Slot),
    let u := s.elapse dt
    u.headRuns ring 0x17 d → dfield d.desc 16 1 = 1 → checksPass (wardChecks d.desc) →
    ∃ v : State, exec (.wardClose dt ring) s = .next (v.finishHead ring 0x00 0 0) ∧ v.prs.ward = .closed ∧
      v.prs.svcJ = u.prs.svcJ ∧ v.prs.wardTick = u.prs.wardTick) ∧
  (∀ (dt : Nat) (pressed : Bool) (s : State),
    let u := s.elapse dt
    pressed ≠ u.prs.keyRaw →
    ∃ t : State, exec (.keySwChange dt pressed) s = .next t ∧ t.prs.keyRaw = pressed ∧ t.prs.keyTick = u.now ∧
      (pressed = true → t.prs.press = if u.prs.ward = .armed then .pressed else .idle) ∧
      (pressed = false → u.prs.press = .pressed → u.prs.keyTick + 10000000 ≤ u.now → t.prs.press = .released) ∧
      (pressed = false → u.prs.press = .pressed → u.now < u.prs.keyTick + 10000000 → t.prs.press = .idle) ∧
      t = { u with prs := { u.prs with keyRaw := pressed, keyTick := u.now, press := t.prs.press } }) ∧
  (∀ (dt : Nat) (s : State),
    let u := s.elapse dt
    u.prs.keyTick + 10000000 ≤ u.now →
    (u.prs.ward = .armed ∧ u.prs.press = .released ∧ (u.prs.keyTick + 10000000) / 2 ≤ (u.prs.wardTick + 6000000000) / 2 →
      ∃ t : State, exec (.keyPressTimer dt) s = .next t ∧ t.prs.ward = .opened ∧ t.prs.wardTick = u.prs.keyTick + 10000000 ∧
        t.prs.wardAccepted = 0 ∧ t.prs.keyFiltered = u.prs.keyRaw) ∧
    (u.prs.ward ≠ .armed ∨ u.prs.press ≠ .released →
      exec (.keyPressTimer dt) s =
        .next { u with prs := { u.prs with keyFiltered := u.prs.keyRaw,
                                           press := if u.prs.press = .pressed then .held else u.prs.press } })) ∧
  (∀ (dt : Nat) (s : State),
    let u := s.elapse dt
    u.prs.ward = .armed → u.prs.press ≠ .released → u.prs.wardTick + 6000000000 ≤ u.now →
    ∃ t : State, exec (.keyTimeout dt) s = .next t ∧
      t.prs = { u.prs with ward := .closed, press := .idle, fault := setFlag u.prs.fault u.cycle 2 } ∧
      t = { u with prs := t.prs, icu := t.icu }) ∧
  (∀ (dt : Nat) (s : State),
    let u := s.elapse dt
    u.prs.ward = .opened → u.prs.wardTick + 24000000000 ≤ u.now →
    ∃ t : State, exec (.wardExpiry dt) s = .next t ∧ t.prs = { u.prs with ward := .closed, press := .idle } ∧
      t = { u with prs := t.prs, icu := t.icu, evr := t.evr, nv := t.nv, hre := t.hre, out := t.out })

/-- The seal is broken by the third check in a row that does not follow, once; a check that follows starts the count again
(R373). BEAT_OUT toggles at each half period that it is allowed in and rests low otherwise; PRS_BEAT_CTL takes its two bits
(R367, R375). -/
def Obligations.SealAndBeat : Prop :=
  (∀ (dt : Nat) (s : State),
    let u := s.elapse dt
    u.isReady 0 = true → u.nv.sealEnable = true → u.prs.sealTick + 2000000 ≤ u.now →
    exec (.sealCheck dt true) s = .next { u with prs := { u.prs with sealTick := u.now, sealFails := 0 } } ∧
    (u.prs.sealFails = 2 →
      ∃ t : State, exec (.sealCheck dt false) s = .next t ∧ t.nv.sealBroken = true ∧
        t.prs = { u.prs with sealTick := u.now, sealFails := 3 } ∧
        t = { u with prs := t.prs, nv := t.nv, evr := t.evr, icu := t.icu, hre := t.hre, out := t.out }) ∧
    (u.prs.sealFails ≠ 2 →
      exec (.sealCheck dt false) s =
        .next { u with prs := { u.prs with sealTick := u.now, sealFails := min 3 (u.prs.sealFails + 1) } })) ∧
  (∀ (dt : Nat) (s : State),
    let u := s.elapse dt
    u.tbu.pllLocked = true → u.prs.beatTick < u.now / 100000 * 100000 →
    exec (.beatOutToggle dt) s =
      .next { u with prs := { u.prs with beatTick := u.now / 100000 * 100000, beatRun := u.beatAllowed,
                                         beatLevel := u.beatAllowed && !u.prs.beatLevel } }) ∧
  (∀ (dt : Nat) (v : Word) (s : State),
    let u := s.elapse dt
    u.hostUp = true →
    exec (.beatCtlWrite dt v) s = .next { u with prs := { u.prs with beatEn := bit v 0, dropOnSafe := bit v 1 } }) ∧
  (∀ s : State, s.beatAllowed = true ↔
    s.prs.beatEn = true ∧ s.isReady 2 = true ∧ s.prs.planned = none ∧ s.prs.inReset = false ∧
      ¬ (s.prs.dropOnSafe = true ∧ s.hostSafe = true))

/-! ### Power and resets -/

/-- The die resets by cause: root clock, core supply, die temperature and supervisor (R362, R363); losing the root clock
also unlocks the PLL, stops the time pulse and leaves the balance in FREERUN (R24, R34, R43). A temperature of 135 °C is a
warning only. -/
def Obligations.DieResetsByCause : Prop :=
  (∀ (dt : Nat) (s : State),
    let u := s.elapse dt
    u.prs.running = true → u.prs.inReset = false →
    (u.tbu.pllLocked = true →
      ∃ t : State, exec (.rootClock dt) s = .next t ∧ State.DieReset 2 u t ∧ t.tbu.pllLocked = false ∧ t.tbu.tpRunning = false ∧
        t.tbu.bal = .freerun ∧ t.prs.clockLost = true) ∧
    (∃ t : State, exec (.coreSupply dt) s = .next t ∧ State.DieReset 3 u t ∧ t.tbu.pllLocked = u.tbu.pllLocked) ∧
    (∀ c : Int, 150 ≤ c → ∃ t : State, exec (.thermal dt c) s = .next t ∧ State.DieReset 4 u t ∧ t.prs.dieC = c) ∧
    (∀ n, n = 0 ∨ n = 1 ∨ n = 7 → ¬ (n = 0 ∧ u.prs.aonRecurs u.now = true) →
      ∃ t : State, exec (.supervisor dt n) s = .next t ∧ State.DieReset 5 u t ∧
        t.prs.aonFaultTick = if n = 0 then some u.now else u.prs.aonFaultTick)) ∧
  (∀ (dt : Nat) (c : Int) (s : State),
    let u := s.elapse dt
    u.prs.running = true →
    ∃ t : State, exec (.thermalWarn dt c) s = .next t ∧
      t.prs = { u.prs with dieC := c, fault := if 135 ≤ c ∧ u.prs.dieC < 135 then setFlag u.prs.fault u.cycle 3 else u.prs.fault } ∧
      t = { u with prs := t.prs, icu := t.icu })

/-- A power-on reset leaves what is outside the block and in the MRAM, counts a power cycle, and starts ticks at 0 (R25,
R29, R342, R363); POR_N's release starts PRS with every domain on and SVC_J sampled (R358, R371); an AON fault that recurs
is one too (R362). -/
def Obligations.PowerOnAndRelease : Prop :=
  (∀ (dt : Nat) (s : State),
    let u := s.elapse dt
    ∃ t : State, exec (.powerOn dt) s = .next t ∧ t.tbu.tick = 0 ∧ t.tbu.calValid = false ∧ t.tbu.optime = u.nv.optime ∧
      t.tbu.pcycle = u.nv.pcycle + 1 ∧ t.prs.running = false ∧ t.prs.cause = 1 ∧ t.prs.powered = 0x01#8 ∧
      t.nv = { u.nv with pcycle := u.nv.pcycle + 1, torn := t.nv.torn } ∧ t.sys.part = u.sys.part ∧ t.sys.uid = u.sys.uid ∧
      t.sys.scratch = 0 ∧ t.pending = u.pending ∧ t.out = u.out ∧ t.icu = {} ∧ t.evr = {} ∧ t.hre = {} ∧ t.gle = {} ∧ t.esc = {} ∧
      t.pse = {} ∧ t.gnb = { freeCount := u.gnb.freeCount } ∧ t.rge = {} ∧ t.lca = {}) ∧
  (∀ (dt : Nat) (svcJ : Bool) (s : State),
    let u := s.elapse dt
    u.prs.running = false →
    exec (.porNRelease dt svcJ) s =
      .next { u with prs := { u.prs with running := true, svcJ, porTick := u.tbu.wall, powered := 0xFF#8 } }) ∧
  (∀ (dt : Nat) (s : State),
    let u := s.elapse dt
    u.prs.running = true → u.prs.aonRecurs u.now = true →
    ∃ t : State, exec (.aonFail dt) s = .next t ∧ t.tbu.tick = 0 ∧ t.prs.running = true ∧ t.prs.cause = 11 ∧
      t.prs.powered = 0xFF#8 ∧ t.prs.svcJ = u.prs.svcJ ∧ t.nv.pcycle = u.nv.pcycle + 1 ∧ t.nv.records = u.nv.records ∧
      t.hre = {} ∧ t.gle = {} ∧ t.icu = {})

/-- Resets that the host asks for: a die reset is planned (R365), a key other than 0xA5 sets its fault flag, a DOMAIN reset
loses the domain's contents and powers it again (R363, R364); a planned die reset begins 100 µs after its request where no
field port runs (R365); after the internal 100 µs the enabled domains come up (R363). -/
def Obligations.RequestedResets : Prop :=
  (∀ (dt : Nat) (v : Word) (s : State),
    let u := s.elapse dt
    u.hostUp = true → bit v 8 = true → bits v 24 8 = 0xA5 → u.prs.planned = none → u.prs.inReset = false →
    exec (.hostRequest dt v) s = .next { u with prs := { u.prs with planned := some { cause := 6, domains := 0, tick := u.now } } }) ∧
  (∀ (dt : Nat) (v : Word) (s : State),
    let u := s.elapse dt
    u.hostUp = true → bits v 24 8 ≠ 0xA5 →
    (bit v 8 = true → ∃ t : State, exec (.hostRequest dt v) s = .next t ∧ t.prs = { u.prs with fault := setFlag u.prs.fault u.cycle 5 } ∧
      t = { u with prs := t.prs, icu := t.icu }) ∧
    (bit v 8 = false → ∃ t : State, exec (.domainResetRequest dt v) s = .next t ∧ t.prs = { u.prs with fault := setFlag u.prs.fault u.cycle 5 } ∧
      t = { u with prs := t.prs, icu := t.icu })) ∧
  (∀ (dt : Nat) (v : Word) (s : State),
    let u := s.elapse dt
    u.hostUp = true → bits v 24 8 = 0xA5 → bit v 8 = false → bits v 0 8 = 2 ^ 4 → u.prs.planned = none →
    u.prs.inReset = false → u.powered 4 = true →
    ∃ t : State, exec (.domainResetRequest dt v) s = .next t ∧ t.gnb = u.gnb.fresh ∧ t.powered 4 = true ∧ t.isReady 6 = false ∧
      t.prs.cause = 9 ∧ t.tbu.gnssValid = false ∧ t.lsb = u.lsb ∧ t.gle = u.gle ∧ t.mpg = u.mpg) ∧
  (∀ (dt : Nat) (v : Word) (s : State),
    let u := s.elapse dt
    u.hostUp = true → bits v 24 8 = 0xA5 → bit v 8 = false → bits v 0 8 = 2 ^ 5 → u.prs.planned = none → u.prs.inReset = false →
    exec (.domainResetRequest dt v) s =
      .next { u with prs := { u.prs with planned := some { cause := 9, domains := 2 ^ 5, tick := u.now } } }) ∧
  (∀ (dt : Nat) (s : State) (p : Planned),
    let u := s.elapse dt
    u.prs.planned = some p → p.cause ≠ 9 → u.anyRunning = false → p.tick + 20000 ≤ u.now → u.prs.inReset = false →
    ∃ t : State, exec (.plannedResetBegin dt) s = .next t ∧ State.DieReset p.cause u t) ∧
  (∀ (dt : Nat) (s : State),
    let u := s.elapse dt
    u.prs.inReset = true → u.prs.clockLost = false → u.prs.resetTick + 20000 ≤ u.tbu.wall →
    exec (.internalResetRelease dt) s = .next { u with prs := { u.prs with inReset := false, powered := u.prs.domainEn } })

/-- A function's ready bit sets (R361); a write of PRS_DOMAIN_EN switches a domain off, whose contents go, and on again
(R19, R359); a failing domain is reset once, and switched off where it fails again within 10 s (R21, R362); MAP is one of
them; the power-fail warning persists operating time and is taken back when VIO recovers (R28, R353, R366). -/
def Obligations.DomainsAndReadiness : Prop :=
  (∀ (dt k : Nat) (s : State),
    let u := s.elapse dt
    k = 0 ∨ k = 1 ∨ k = 4 → u.prs.running = true → u.powered (readyDomain k) = true → u.isReady k = false → u.prs.inReset = false →
    (k = 0 ∨ u.tbu.pllLocked = true) → (k ≠ 1 ∨ u.hre.linkUp = true) →
    ∃ t : State, exec (.functionReady dt k) s = .next t ∧ t.isReady k = true ∧ (∀ j, j ≠ k → t.isReady j = u.isReady j) ∧
      t = { u with prs := t.prs, icu := t.icu, hre := { u.hre with devHbTick := t.hre.devHbTick } }) ∧
  (∀ (dt k : Nat) (s : State),
    let u := s.elapse dt
    k = 2 ∨ k = 3 ∨ k = 5 ∨ k = 6 ∧ 0 < Config.gnssAntennas u.part → u.prs.running = true → u.powered (readyDomain k) = true →
    u.isReady k = false → u.prs.inReset = false → u.tbu.pllLocked = true →
    ∃ t : State, exec (.functionReady dt k) s = .next t ∧ t.isReady k = true) ∧
  (∀ (dt : Nat) (v : Word) (s : State),
    let u := s.elapse dt
    u.hostUp = true → u.prs.inReset = false → (∀ k, k ∈ [2, 3, 5, 6] → bit v k = u.prs.domainEn.getLsbD k) →
    (bit v 4 = false → u.prs.domainEn.getLsbD 4 = true →
      ∃ t : State, exec (.domainEnableWrite dt v) s = .next t ∧ t.powered 4 = false ∧ t.prs.domainEn.getLsbD 4 = false ∧
        t.gnb = { everFixed := u.gnb.everFixed, freeCount := u.gnb.freeCount } ∧ t.isReady 6 = false ∧ (∀ k, k ≠ 4 → t.powered k = u.powered k) ∧ t.lsb = u.lsb ∧ t.mpg = u.mpg) ∧
    (bit v 4 = true → u.prs.domainEn.getLsbD 4 = false →
      ∃ t : State, exec (.domainEnableWrite dt v) s = .next t ∧ t.powered 4 = true ∧ t.prs.domainEn.getLsbD 4 = true ∧
        (∀ k, k ≠ 4 → t.powered k = u.powered k) ∧ t = { u with prs := t.prs })) ∧
  (∀ (dt d : Nat) (s : State),
    let u := s.elapse dt
    d = 3 ∨ d = 4 → u.canFail d = true →
    (∃ t : State, exec (.domainFailure dt d) s = .next t ∧ (d = 3 → t.mpg.tiles = [] ∧ t.mpg.grants = [] ∧ t.mpg.layers = []) ∧
      (d = 4 → t.gnb = if u.failedLately 4 then { everFixed := u.gnb.everFixed, freeCount := u.gnb.freeCount } else u.gnb.fresh) ∧
      (∀ k ∈ readyBits d, t.isReady k = false) ∧ t.prs.cause = (if u.failedLately d then u.prs.cause else 10) ∧
      t.powered d = !u.failedLately d ∧ (u.failedLately d = true → t.prs.domainEn.getLsbD d = false ∧ t.prs.fault.w.getLsbD 4 = true)) ∧
    (d = 3 → ∃ t : State, exec (.mapFailure dt) s = .next t ∧ exec (.domainFailure dt 3) s = .next t)) ∧
  (∀ (dt : Nat) (s : State),
    let u := s.elapse dt
    u.prs.running = true → u.prs.pfw = false → u.evr.inFlight = none →
    ∃ t : State, exec (.powerFailWarning dt) s = .next t ∧ t.nv.optime = u.tbu.optime ∧
      t = { u with prs := { u.prs with pfw := true }, nv := { u.nv with optime := u.tbu.optime }, icu := t.icu }) ∧
  (∀ (dt : Nat) (s : State),
    let u := s.elapse dt
    u.prs.pfw = true →
    ∃ t : State, exec (.powerFailRecover dt) s = .next t ∧ t = { u with prs := { u.prs with pfw := false }, icu := t.icu })

/-! ### Interrupts (13_interrupts.md) -/

/-- A target with an empty slot that is not parked commits the candidate of highest priority, the lowest source number among
equals, with its priority and events; the message goes out through its MSI-X entry, or is held while that is masked (R330,
R337). Nothing else of the block changes. -/
def Obligations.CommitPicksBestCandidate : Prop :=
  ∀ (dt t : Nat) (s : State),
    let u := s.elapse dt
    t < 16 → (u.target t).slot = none → (u.target t).parked = false → (∃ n, u.candidate t n = true) →
    ∃ (w : State) (n : Nat), exec (.icuCommit dt t) s = .next w ∧ u.candidate t n = true ∧
      (∀ m, u.candidate t m = true →
        (u.src m).priority ≤ (u.src n).priority ∧ ((u.src m).priority = (u.src n).priority → n ≤ m)) ∧
      (∃ c : Commit, w.target t = { u.target t with slot := some c } ∧ c.source = n ∧ c.priority = (u.src n).priority ∧
        c.events = (u.src n).events ∧ c.cycle = u.cycle) ∧
      (∀ k, k ≠ t → w.target k = u.target k) ∧
      (u.hre.msixEnable = true → u.hre.linkUp = true →
        let e := Tbl.get {} u.hre.msix t
        (e.masked = false → u.hre.msixFuncMask = false →
          w.out.msix = (t, e.addr, e.data) :: u.out.msix ∧ w.hre.pba = u.hre.pba) ∧
        (e.masked = true ∨ u.hre.msixFuncMask = true → w.out.msix = u.out.msix ∧ w.hre.pba = setBit u.hre.pba t)) ∧
      w = { u with icu := { u.icu with targets := w.icu.targets }, out := { u.out with msix := w.out.msix },
                   hre := { u.hre with pba := w.hre.pba } }

/-- A read of TGT_CLAIM answers the slot, pushes its priority, and clears the claimed source, but for an event and a set of its
pending bit in the same BUS cycle (R334); an empty slot answers NONE and counts (R331). TGT_EOI pops the stack; on an empty one
it is ignored and EOI_ERR sets (R332). Unmasking an MSI-X entry sends the message it held (R337). -/
def Obligations.ClaimEndAndUnmask : Prop :=
  (∀ (dt t : Nat) (s : State) (c : Commit),
    let u := s.elapse dt
    u.hostUp = true → t < 16 → (u.target t).slot = some c →
    ∃ w : State, exec (.tgtClaimRead dt t) s = .next w ∧
      bits w.out.readData 0 9 = c.source % 512 ∧ bits w.out.readData 16 8 = c.events % 256 ∧
      bits w.out.readData 24 4 = c.priority % 16 ∧ bit w.out.readData 31 = false ∧
      w.target t = { u.target t with slot := none, stack := c.priority :: (u.target t).stack } ∧
      ((∀ k, (u.src c.source).lastTick = some k → k / 2 ≠ u.cycle) →
        ((u.src c.source).setCycle ≠ some u.cycle →
          w.src c.source = { u.src c.source with pending := false, events := 0, windowTick := none, windowCount := 0,
                                                 windowDone := false, moved := false }) ∧
        ((u.src c.source).setCycle = some u.cycle → (w.src c.source).pending = true ∧ (w.src c.source).events = 1)) ∧
      (∀ k, (u.src c.source).lastTick = some k → k / 2 = u.cycle →
        (w.src c.source).events = 1 ∧ ((u.src c.source).count = 1 → (w.src c.source).pending = true)) ∧
      (∀ k, k ≠ t → w.target k = u.target k) ∧ (∀ n, n ≠ c.source → w.src n = u.src n) ∧
      w = { u with icu := { u.icu with srcs := w.icu.srcs, targets := w.icu.targets }, out := { u.out with readData := w.out.readData } }) ∧
  (∀ (dt t : Nat) (s : State),
    let u := s.elapse dt
    u.hostUp = true → t < 16 → (u.target t).slot = none →
    ∃ w : State, exec (.tgtClaimRead dt t) s = .next w ∧ w.out.readData = 0x80000000#32 ∧
      w.target t = { u.target t with spurious := count32 (u.target t).spurious } ∧ (∀ k, k ≠ t → w.target k = u.target k) ∧
      w = { u with icu := { u.icu with targets := w.icu.targets }, out := { u.out with readData := w.out.readData } }) ∧
  (∀ (dt t : Nat) (v : Word) (s : State),
    let u := s.elapse dt
    u.hostUp = true → t < 16 → u.committing = [] →
    (∀ p rest, (u.target t).stack = p :: rest →
      ∃ w : State, exec (.tgtEoiWrite dt t v) s = .next w ∧ w.target t = { u.target t with stack := rest } ∧
        (∀ k, k ≠ t → w.target k = u.target k) ∧ w = { u with icu := { u.icu with targets := w.icu.targets } }) ∧
    ((u.target t).stack = [] →
      exec (.tgtEoiWrite dt t v) s = .next { u with icu := { u.icu with fault := setFlag u.icu.fault u.cycle 0 } })) ∧
  (∀ (dt k : Nat) (s : State),
    let u := s.elapse dt
    u.hostUp = true → k < 16 → u.hre.msixFuncMask = false →
    ∃ w : State, exec (.msixUnmask dt k) s = .next w ∧
      Tbl.get {} w.hre.msix k = { Tbl.get {} u.hre.msix k with masked := false } ∧ bit w.hre.pba k = false ∧
      w.out.msix = (if bit u.hre.pba k then
          (k, (Tbl.get {} u.hre.msix k).addr, (Tbl.get {} u.hre.msix k).data) :: u.out.msix else u.out.msix) ∧
      w = { u with hre := { u.hre with msixEnable := true, msix := w.hre.msix, pba := w.hre.pba },
                   out := { u.out with msix := w.out.msix } })

/-- What makes a source pending or moves it: software events and forced pending bits (R329), an external edge that is
claimed and active (R329), the coalescing time (R328), the source's own configuration (R335), a target's park (R336) and its
grace. Every other source stands. A MASK write in the BUS cycle of a commit prevents it (R333, R334). -/
def Obligations.SourcesAreRaisedAndRouted : Prop :=
  (∀ (dt : Nat) (v : Word) (s : State),
    let u := s.elapse dt
    u.hostUp = true →
    ∃ w : State, exec (.icuSwiWrite dt v) s = .next w ∧
      (∀ n, w.src n = if 504 ≤ n ∧ n < 512 ∧ bit v (n - 504) = true ∧ u.powered 0 = true then (u.src n).event u.now else u.src n) ∧
      w = { u with icu := { u.icu with srcs := w.icu.srcs } }) ∧
  (∀ (dt k : Nat) (v : Word) (s : State),
    let u := s.elapse dt
    u.hostUp = true → k < 16 → u.committing = [] →
    ∃ w : State, exec (.icuPendWrite dt k v) s = .next w ∧
      (∀ n, (w.src n).pending = ((u.src n).pending || (decide (n / 32 = k) && bit v (n % 32)))) ∧
      (∀ n, (w.src n).events = (u.src n).events ∧ (w.src n).priority = (u.src n).priority) ∧
      w = { u with icu := { u.icu with srcs := w.icu.srcs } }) ∧
  (∀ (dt k held : Nat) (rising : Bool) (s : State),
    let u := s.elapse dt
    k < 8 → Tbl.get 0 u.fbu.auxi k = 1 → (Tbl.get 0 u.icu.extEdge k = 2 ∨ Tbl.get 0 u.icu.extEdge k = if rising then 0 else 1) →
    (u.src (496 + k)).filter ≤ held →
    ∃ w : State, exec (.extintEdge dt k rising held) s = .next w ∧
      (w.src (496 + k)).events = min 255 ((u.src (496 + k)).events + 1) ∧ (w.src (496 + k)).lastTick = some u.now ∧
      ((u.src (496 + k)).count = 1 → (u.src (496 + k)).windowDone = false → (w.src (496 + k)).pending = true) ∧
      (∀ n, n ≠ 496 + k → w.src n = u.src n) ∧ w = { u with icu := { u.icu with srcs := w.icu.srcs } }) ∧
  (∀ (dt n k : Nat) (s : State),
    let u := s.elapse dt
    (u.src n).windowTick = some k → (u.src n).timeUs ≠ 0 → k + (u.src n).timeUs * 200 ≤ u.now →
    ∃ w : State, exec (.coalesceTimeout dt n) s = .next w ∧ (w.src n).pending = true ∧ (w.src n).windowTick = none ∧
      (w.src n).windowCount = 0 ∧ (w.src n).events = (u.src n).events ∧ (∀ m, m ≠ n → w.src m = u.src m) ∧
      w = { u with icu := { u.icu with srcs := w.icu.srcs } }) ∧
  (∀ (dt n : Nat) (v : Word) (s : State),
    let u := s.elapse dt
    u.hostUp = true → n < 512 → u.committing = [] →
    ∃ w : State, exec (.srcTargetWrite dt n v) s = .next w ∧
      w.src n = { u.src n with priority := bits v 0 4, target := bits v 4 4, filter := bits v 8 8,
                               moved := (u.src n).moved && (u.src n).target == bits v 4 4 } ∧
      (∀ m, m ≠ n → w.src m = u.src m) ∧ w = { u with icu := { u.icu with srcs := w.icu.srcs } }) ∧
  (∀ (dt t : Nat) (v : Word) (s : State),
    let u := s.elapse dt
    u.hostUp = true → t < 16 → u.committing = [] →
    ∃ w : State, exec (.tgtParkWrite dt t v) s = .next w ∧
      w.target t = { u.target t with threshold := bits v 0 4, parked := bit v 4, fbEn := bit v 5, fallback := bits v 6 4,
                                     graceUs := bits v 16 16,
                                     parkTick := if bit v 4 && !(u.target t).parked then u.now else (u.target t).parkTick } ∧
      (∀ k, k ≠ t → w.target k = u.target k) ∧
      (∀ n, w.src n = { u.src n with moved := (u.src n).moved && (bit v 4 || (u.src n).target != t) }) ∧
      w = { u with icu := { u.icu with srcs := w.icu.srcs, targets := w.icu.targets } }) ∧
  (∀ (dt n : Nat) (s : State),
    let u := s.elapse dt
    let c := u.src n
    let g := u.target c.target
    c.pending = true → u.committed n = false → g.parked = true → g.fbEn = true → g.fallback ≠ c.target →
    g.parkTick + g.graceUs * 200 ≤ u.now → c.pendTick + g.graceUs * 200 ≤ u.now →
    ∃ w : State, exec (.parkGraceExpiry dt n) s = .next w ∧ w.src n = { c with moved := true } ∧
      ((u.target g.fallback).parked = false → w.effTarget n = g.fallback) ∧ (∀ m, m ≠ n → w.src m = u.src m) ∧
      w = { u with icu := { u.icu with srcs := w.icu.srcs } }) ∧
  (∀ (dt t k : Nat) (v : Word) (s : State) (c : Commit),
    let u := s.elapse dt
    u.hostTo 0 = true → k < 16 → t < 16 → (u.target t).slot = some c → c.cycle = u.cycle → c.source / 32 = k →
    bit v (c.source % 32) = true →
    ∃ w : State, exec (.registerWrite dt (0x4100 + 4 * k) v true) s = .next w ∧ (w.src c.source).masked = true ∧
      (w.src c.source).pending = (u.src c.source).pending ∧ ∀ d, (w.target t).slot = some d → d.source ≠ c.source)

/-- An event on a source: within FILTER BUS cycles of the last accepted one it is merged into it; else it counts, saturating
at 255, and it makes the source pending at once unless a window of COUNT events holds it (R327, R328). -/
def Obligations.EventsAreFilteredAndCoalesced : Prop :=
  ∀ (c : Src) (tick : Nat),
    (∀ k, c.lastTick = some k → tick / 2 < k / 2 + c.filter → c.event tick = c) ∧
    ((∀ k, c.lastTick = some k → k / 2 + c.filter ≤ tick / 2) →
      (c.event tick).events = min 255 (c.events + 1) ∧ (c.event tick).lastTick = some tick ∧
      (c.windowDone = false → c.windowCount + 1 < c.count →
        (c.event tick).pending = c.pending ∧ (c.event tick).windowCount = c.windowCount + 1) ∧
      (c.windowDone = false → c.count ≤ c.windowCount + 1 →
        (c.event tick).pending = true ∧ (c.event tick).windowDone = true ∧ (c.event tick).windowTick = none))

/-! ### The event recorder (14_event_recorder.md) -/

/-- The sequencer commits the record in flight, whose slot then holds it, or leaves its slot invalid where the read-back
fails (R345, R352, R356); the next staged entry takes the next index (R349). The power-up scan: the next index follows the
highest valid one, and POWER_UP with the reset cause is the first record (R353, R363). A write of EVR_SNAP_SEL loads the working
copy from the class's set, and EVR_SNAP_COMMIT under the open ward makes it the class's set with the next generation (R347, R357,
R370). -/
def Obligations.RecordsAreCommitted : Prop :=
  (∀ (dt : Nat) (s : State) (r : Rec),
    let u := s.elapse dt
    u.evr.inFlight = some r → u.evr.staged = [] → u.evr.foldWait = [] →
    (∃ t : State, exec (.recordCommit dt true) s = .next t ∧
      Tbl.get none t.nv.records (recSlot r.index) = some r ∧
      (∀ k, k ≠ recSlot r.index → Tbl.get none t.nv.records k = Tbl.get none u.nv.records k) ∧
      t.evr.inFlight = none ∧ t.evr.lastCommitted = some r.index ∧ t.nv.nextIndex = u.nv.nextIndex ∧
      t.nv.permFull = (u.nv.permFull || r.index == 2047) ∧ t = { u with evr := t.evr, nv := t.nv, icu := t.icu, hre := t.hre, out := t.out }) ∧
    (∃ t : State, exec (.recordCommit dt false) s = .next t ∧ t.nv.records = u.nv.records ∧
      t.nv.torn = recSlot r.index :: u.nv.torn ∧ t.evr.inFlight = none ∧ t.evr.fault = setFlag u.evr.fault u.cycle 3 ∧
      t = { u with evr := t.evr, nv := t.nv, icu := t.icu })) ∧
  (∀ (dt : Nat) (s : State) (r q : Rec) (rest : List Rec),
    let u := s.elapse dt
    u.evr.inFlight = some r → u.evr.staged = q :: rest → u.evr.lostSince = 0 →
    ∃ t : State, exec (.recordCommit dt true) s = .next t ∧ t.evr.inFlight = some { q with index := u.nv.nextIndex } ∧
      t.evr.staged = rest ∧ t.nv.nextIndex = u.nv.nextIndex + 1) ∧
  (∀ (dt : Nat) (s : State),
    let u := s.elapse dt
    u.prs.running = true → u.evr.scanned = false → u.evr.inFlight = none →
    ∃ (t : State) (r : Rec), exec (.evrPowerUpScan dt) s = .next t ∧ t.evr.scanned = true ∧ t.evr.inFlight = some r ∧ r.code = 0x0001 ∧
      r.snap.head? = some (BitVec.ofNat 32 u.prs.powerCause) ∧ r.index = nextOf u.nv.records ∧ t.nv.nextIndex = r.index + 1 ∧
      (∀ k q, Tbl.get none u.nv.records k = some q → q.index < r.index) ∧
      (u.nv.torn ≠ [] → t.evr.fault.w.getLsbD 1 = true) ∧ t = { u with evr := t.evr, nv := t.nv, icu := t.icu }) ∧
  (∀ (dt : Nat) (v : Word) (s : State),
    let u := s.elapse dt
    u.hostUp = true →
    exec (.snapSelWrite dt v) s =
      .next { u with evr := { u.evr with snapSel := bits v 0 4, work := (Tbl.get {} u.nv.snapSets (bits v 0 4)).entries } }) ∧
  (∀ (dt : Nat) (v : Word) (s : State),
    let u := s.elapse dt
    u.hostUp = true → bit v 0 = true →
    (u.prs.ward = .opened → u.now / 2 < (u.prs.wardTick + 24000000000) / 2 →
      ∃ t : State, exec (.snapCommitWrite dt v) s = .next t ∧
        Tbl.get {} t.nv.snapSets u.evr.snapSel =
          { entries := u.evr.work, gen := ((Tbl.get {} u.nv.snapSets u.evr.snapSel).gen + 1) % 65536 } ∧
        (∀ k, k ≠ u.evr.snapSel → Tbl.get {} t.nv.snapSets k = Tbl.get {} u.nv.snapSets k) ∧
        t.prs.wardAccepted = u.prs.wardAccepted + 1 ∧ t = { u with evr := t.evr, nv := t.nv, icu := t.icu, hre := t.hre, out := t.out, prs := t.prs }) ∧
    (u.prs.ward ≠ .opened →
      ∃ t : State, exec (.snapCommitWrite dt v) s = .next t ∧ t.prs.wardRefused = satAdd 0xFFFF u.prs.wardRefused 1 ∧
        t.prs.fault = setFlag u.prs.fault u.cycle 1 ∧ t = { u with prs := t.prs, icu := t.icu }))

/-- An accepted event that does not fold goes to the idle sequencer with the next index, waits in the queue of 32, or is lost
and counted (R349, R351); events of one BUS cycle stand in the order of CODE and SOURCE (R349); an event of a class that is neither always recorded nor enabled is not taken (R346). -/
def Obligations.EventsAreStagedOrLost : Prop :=
  ∀ (code source : Nat) (fixed : List (Nat × Word)) (s : State),
    (classAlways (code / 256) = false → s.evr.trigEn.testBit (code / 256) = false → s.record code source fixed = s) ∧
    (classAlways (code / 256) = true ∨ s.evr.trigEn.testBit (code / 256) = true → s.tryFold code source = none →
      (s.evr.inFlight = none → s.evr.staged = [] → s.evr.scanned = true →
        ∃ r : Rec, (s.record code source fixed).evr.inFlight = some r ∧ r.code = code ∧ r.source = source ∧
          r.index = s.nv.nextIndex ∧ r.calNs = s.cal ∧ r.optime = s.tbu.optime ∧ r.pcycle = s.tbu.pcycle ∧
          (s.record code source fixed).nv.nextIndex = s.nv.nextIndex + 1) ∧
      (¬ (s.evr.inFlight = none ∧ s.evr.staged = [] ∧ s.evr.scanned = true) →
        (∀ q ∈ s.evr.inFlight.toList ++ s.evr.staged, q.tick / 2 ≠ s.cycle) → s.evr.staged.length < 32 →
        ∃ r : Rec, (s.record code source fixed).evr.staged = s.evr.staged ++ [r] ∧ r.code = code ∧ r.source = source ∧
          (s.record code source fixed).nv = s.nv) ∧
      (∀ f, s.evr.inFlight = some f → f.tick / 2 = s.cycle → code < f.code →
        ∃ r : Rec, (s.record code source fixed).evr.inFlight = some r ∧ r.code = code ∧ r.source = source ∧ r.index = f.index) ∧
      ((∀ q ∈ s.evr.inFlight.toList ++ s.evr.staged, q.tick / 2 ≠ s.cycle) → s.evr.staged.length = 32 →
        (s.record code source fixed).evr.lost = count32 s.evr.lost ∧ (s.record code source fixed).evr.lostSince = count32 s.evr.lostSince ∧
          (s.record code source fixed).nv = { s.nv with lifeLost := count32 s.nv.lifeLost } ∧
          (s.record code source fixed).evr.staged = s.evr.staged)) ∧
    (∀ (r : Rec) (l : List Rec), (insertRec r l).Perm (r :: l) ∧
      (l.Pairwise (fun a b => b.goesBefore a = false) → (insertRec r l).Pairwise (fun a b => b.goesBefore a = false)))

/-- RECORD_READ copies the valid records of its range in index order, each to the next 256 bytes of its buffer, and
completes with their number; a buffer that cannot be written ends it with DMA_ERROR (R355). -/
def Obligations.RecordReadCopiesInOrder : Prop :=
  ∀ (dt ring : Nat) (s : State) (d : Slot),
    let u := s.elapse dt
    let b := u.settle ring
    u.headRuns ring 0x18 d → checksPass (recordReadChecks d.desc) →
    (∃ v : State, exec (.recordRead dt ring true) s =
        .next (v.finishHead ring 0x00 (b.recTaken d.desc).length (b.recNext d.desc)) ∧
      v.out.host = ((b.recTaken d.desc).zipIdx.map fun e => HostWrite.record (dfield d.desc 24 8 + 256 * e.2) e.1).reverse ++ b.out.host ∧
      v = { b with out := { b.out with host := v.out.host } }) ∧
    (∀ r ∈ b.recTaken d.desc, r.index < b.recLimit ∧ b.recFirst d.desc ≤ r.index ∧ ∃ k, (k, some r) ∈ b.nv.records) ∧
    (b.recTaken d.desc).length ≤ dfield d.desc 20 2 ∧
    exec (.recordRead dt ring false) s = .next (b.dmaError.finishHead ring 0x09 0 0)

/-! ### Feedback inputs (10_feedback.md) -/

/-- An accepted edge that counts moves position by one, or by the missing teeth too at a reference under MISSING, in the
direction of its mode (R259, R260, R262); a first edge in a direction has its interval discarded (R268), and a later one sets
SPEED by R266. A reference compares its counts with TEETH (R263). A too fast edge and a double change in quadrature are
ignored and noted (R259, R261). In recovery, the second clean edge takes over without a step (R265). -/
def Obligations.FeedbackEdgesCount : Prop :=
  ∀ (dt n : Nat) (inputB a b : Bool) (s : State),
    let u := s.elapse dt
    let c := u.fch n
    let last := if inputB then c.lastB else c.lastA
    let ticks := u.now - c.edgeTick
    u.isReady 3 = true → n < 16 → (if inputB then b ≠ c.levelB else a ≠ c.levelA) → c.mode ≠ 0 →
    ∃ t : State, exec (.feedbackEdge dt n inputB a b) s = .next t ∧
      (∀ k, k ≠ n → t.fch k = u.fch k) ∧ (∀ m, m / 2 ≠ n → t.fcmp m = u.fcmp m) ∧
      t = { u with fbu := { u.fbu with chans := t.fbu.chans, cmps := t.fbu.cmps, reps := t.fbu.reps, caps := t.fbu.caps, fault := t.fbu.fault },
                   icu := t.icu, hre := t.hre, out := t.out } ∧
      (t.fch n).levelA = a ∧
      (c.mode = 3 ∧ a ≠ c.levelA ∧ b ≠ c.levelB →
        (t.fch n).pos = c.pos ∧ (t.fch n).faults.w.getLsbD 1 = true ∧ (t.fch n).edgeTick = c.edgeTick) ∧
      (¬ (c.mode = 3 ∧ a ≠ c.levelA ∧ b ≠ c.levelB) →
        (∀ k, last = some k → u.now < k + 4 * c.minEdge →
          (t.fch n).pos = c.pos ∧ (t.fch n).edgeTick = c.edgeTick ∧ (t.fch n).edgeFast = count32 c.edgeFast ∧
            (t.fch n).faults.w.getLsbD 0 = true) ∧
        ((∀ k, last = some k → k + 4 * c.minEdge ≤ u.now) →
          (c.edgeDir (u.dirClaimed c) inputB a b = none → (t.fch n).pos = c.pos ∧ (t.fch n).edgeTick = c.edgeTick) ∧
          (∀ rev, c.edgeDir (u.dirClaimed c) inputB a b = some rev →
            (t.fch n).edgeTick = u.now ∧ (t.fch n).still = false ∧
            (c.mode = 1 ∧ c.dirSel ≠ 0 ∧ u.dirClaimed c = false → (t.fch n).faults.w.getLsbD 5 = true) ∧
            (c.scSource = true → (t.fch n).pos = c.pos ∧
              ((t.fch n).scSource = true ↔ c.cleanEdges + 1 < 2)) ∧
            (c.scSource = false → c.extra = none → c.refMode ≠ 2 → (t.fch n).reverse = rev ∧
              ((c.run = 0 ∨ c.reverse ≠ rev) →
                (t.fch n).pos = wrap32 (c.pos + if rev then -1 else 1) ∧ (t.fch n).lastSpeed = 0 ∧ (t.fch n).run = 1) ∧
              (c.run ≠ 0 → c.reverse = rev → c.isGap ticks = false →
                (t.fch n).pos = wrap32 (c.pos + if rev then -1 else 1) ∧ (t.fch n).lastSpeed = (c.timed ticks 1).lastSpeed ∧
                  (t.fch n).rev = c.rev) ∧
              (c.run ≠ 0 → c.reverse = rev → c.isGap ticks = true →
                (t.fch n).pos = wrap32 (c.pos + if rev then -((c.missing + 1 : Nat) : Int) else ((c.missing + 1 : Nat) : Int)) ∧
                  (t.fch n).angle = 0 ∧ (t.fch n).rev = wrap32 (c.rev + if rev then -1 else 1) ∧
                  (c.teeth ≠ 0 → c.refSeen = true → c.skipCompare = false →
                    (c.sinceRef + c.missing + 1 = c.teeth → (t.fch n).sync = true ∧ (t.fch n).idxErr = c.idxErr) ∧
                    (c.sinceRef + c.missing + 1 ≠ c.teeth → (t.fch n).sync = false ∧ (t.fch n).faults.w.getLsbD 2 = true ∧
                      (t.fch n).idxErr = ((c.sinceRef + c.missing + 1 : Nat) : Int) - c.teeth)))))))

/-- Standstill comes STILL_MS after the last edge and zeroes SPEED (R267); a change of MODE restarts a channel and leaves its
counters (R259); a sin/cos sample whose magnitude is out of its window sets SC_AMPL and invalidates the tracks, and the pulse
train counts again; 100 good ones make them valid, with FINE the angle (R264), and while they drive position it follows their
whole periods (R265); a periodic FEEDBACK_SAMPLE goes out with the payload of R280. -/
def Obligations.FeedbackChannelsRest : Prop :=
  (∀ (dt n : Nat) (s : State),
    let u := s.elapse dt
    let c := u.fch n
    u.isReady 3 = true → n < 16 → c.mode ≠ 0 → c.still = false → c.edgeTick + c.stillMs * 200000 ≤ u.now →
    ∃ t : State, exec (.standstill dt n) s = .next t ∧ (t.fch n).still = true ∧ t.fchSpeed n = 0 ∧ (t.fch n).run = 0 ∧
      (∀ k, k ≠ n → t.fch k = u.fch k) ∧
      (c.extra = none →
        t.fch n = { c with still := true, intervals := [], lastInterval := none, lastSpeed := 0, run := 0, skipCompare := true } ∧
        t = { u with fbu := { u.fbu with chans := t.fbu.chans }, icu := (u.raise 411).icu })) ∧
  (∀ (dt n : Nat) (v : Word) (s : State),
    let u := s.elapse dt
    let c := u.fch n
    u.hostTo 6 = true → n < 16 →
    ∃ t : State, exec (.fbuModeWrite dt n v) s = .next t ∧ (t.fch n).mode = bits v 0 2 ∧ (t.fch n).quadX = min 2 (bits v 2 2) ∧
      (t.fch n).fallEdge = bit v 4 ∧ (t.fch n).dirInv = bit v 5 ∧ (t.fch n).dirFix = bit v 6 ∧ (t.fch n).dirSel = bits v 7 3 ∧
      (t.fch n).scEn = (bit v 10 && decide (n < 4)) ∧ (t.fch n).minEdge = nearest 1 65000 (bits v 16 16) ∧
      (t.fch n).edgeFast = c.edgeFast ∧ (t.fch n).rev = c.rev ∧ (t.fch n).idxErr = c.idxErr ∧ (t.fch n).faults = c.faults ∧
      (bits v 0 2 ≠ c.mode → (t.fch n).pos = 0 ∧ (t.fch n).sync = false ∧ (t.fch n).still = true ∧ (t.fch n).run = 0) ∧
      (bits v 0 2 = c.mode → (t.fch n).pos = c.pos ∧ (t.fch n).sync = c.sync ∧ (t.fch n).still = c.still) ∧
      (∀ k, k ≠ n → t.fch k = u.fch k) ∧ t = { u with fbu := { u.fbu with chans := t.fbu.chans }, icu := t.icu }) ∧
  (∀ (dt n : Nat) (sin cos : Int) (s : State),
    let u := s.elapse dt
    let c := u.fch n
    let m := sin * sin + cos * cos
    let lead := (c.scSample (scAngleOf sin cos) u.now).scLead
    u.isReady 3 = true → n < 4 → c.scEn = true → u.now % 200 = 0 → c.scTick ≠ some u.now →
    ∃ t : State, exec (.sincosSample dt n sin cos) s = .next t ∧ (∀ k, k ≠ n → t.fch k = u.fch k) ∧
      (m < 512 * 512 ∨ 1536 * 1536 < m →
        (t.fch n).scValid = false ∧ (t.fch n).scGood = 0 ∧ (t.fch n).scSource = false ∧ (t.fch n).pos = c.pos ∧
        (t.fch n).faults = setFlag c.faults u.cycle 3 ∧
        t = { u with fbu := { u.fbu with chans := t.fbu.chans }, icu := (u.raise (352 + n)).icu }) ∧
      (512 * 512 ≤ m → m ≤ 1536 * 1536 →
        (t.fch n).fine = scAngleOf sin cos ∧ (t.fch n).scGood = min 100 (c.scGood + 1) ∧
        ((t.fch n).scValid = true ↔ c.scValid = true ∨ 99 ≤ c.scGood) ∧
        (c.scValid = false → c.scGood < 99 → (t.fch n).pos = c.pos ∧ (t.fch n).scSource = c.scSource) ∧
        (c.scValid = true → c.mode ≠ 0 → c.scSource = true →
          (t.fch n).scSource = true ∧ (lead = 0 → (t.fch n).pos = c.pos) ∧ (lead ≠ 0 → (t.fch n).pos = wrap32 (c.pos + lead))))) ∧
  (∀ (dt n : Nat) (s : State),
    let u := s.elapse dt
    let c := u.fch n
    let r := u.route 0x46
    u.isReady 3 = true → n < 16 → u.routeTakes 0x46 1 →
    (c.rptMs ≠ 0 → u.now % (200000 * c.rptMs) = 0 →
      ∃ t : State, exec (.feedbackSample dt false n) s = .next t ∧
        (∃ rp : Report, t.out.host = HostWrite.report (16 + r.ring) ((u.ring (16 + r.ring)).slotAddr (u.ring (16 + r.ring)).prod) rp :: u.out.host ∧
          rp.opcode = 0x46 ∧ rp.tick = u.now ∧
          rp.payload = [fld 16 1 n, fld 17 1 0,
            fld 18 1 (b2n c.sync + 2 * b2n c.reverse + 4 * b2n c.still + 8 * b2n c.scSource + 16 * b2n (c.faults.w != 0#32)),
            fld 19 1 0, sfld 20 4 c.pos, sfld 24 4 (u.fchSpeed n), sfld 28 4 c.rev, fld 32 2 c.angle,
            fld 34 2 (if c.scValid then c.fine else 0), sfld 36 2 c.idxErr, fld 40 8 c.edgeTick, fld 48 8 u.cal]) ∧
        t = { u with hre := { u.hre with rings := t.hre.rings }, icu := t.icu, out := { u.out with host := t.out.host } }) ∧
    ((u.ain n).rptMs ≠ 0 → u.now % (200000 * (u.ain n).rptMs) = 0 →
      ∃ t : State, exec (.feedbackSample dt true n) s = .next t ∧
        (∃ rp : Report, t.out.host = HostWrite.report (16 + r.ring) ((u.ring (16 + r.ring)).slotAddr (u.ring (16 + r.ring)).prod) rp :: u.out.host ∧
          rp.opcode = 0x46 ∧ rp.tick = u.now ∧ rp.payload = [fld 16 1 (n + 16), fld 38 2 (u.ain n).value, fld 48 8 u.cal]) ∧
        t = { u with hre := { u.hre with rings := t.hre.rings }, icu := t.icu, out := { u.out with host := t.out.host } }))

/-- A written comparator value takes effect in the TMR cycle after the write; it is tested for lying behind (R272), and fires at
once if so under IMMEDIATE; a move of position
across a value in its direction fires its armed comparator, which takes its ACTION, and disarms it unless STEP moves its
value (R271); a PULSE output falls after its width. -/
def Obligations.ComparatorsFire : Prop :=
  (∀ (dt m : Nat) (toCfg : Bool) (v : Word) (s : State),
    let u := (s.elapse dt).elapse 1
    let w := if toCfg then (u.fcmp m).config v else { u.fcmp m with value := v.toInt }
    let d := wrap32 (w.value - (u.fch (m / 2)).pos)
    let behind := if (u.fch (m / 2)).reverse then 0 ≤ d else d ≤ 0
    (s.elapse dt).hostTo 6 = true → m < 32 →
    ∃ t : State, exec (.cmpWrite dt m toCfg v) s = .next t ∧ (∀ k, k ≠ m → t.fcmp k = u.fcmp k) ∧ (∀ k, t.fch k = u.fch k) ∧
      t = { u with fbu := { u.fbu with cmps := t.fbu.cmps }, icu := t.icu, hre := t.hre, out := t.out } ∧
      ((toCfg = true ∧ bit v 0 = false) ∨ ¬ behind →
        t.fcmp m = w ∧ t = { u with fbu := { u.fbu with cmps := t.fbu.cmps } }) ∧
      (toCfg = false ∨ bit v 0 = true → behind → ¬ (w.arm = true ∧ w.immediate = true) →
        t.fcmp m = { w with behind := true } ∧ t = { u with fbu := { u.fbu with cmps := t.fbu.cmps } }) ∧
      (toCfg = false ∨ bit v 0 = true → behind → w.arm = true → w.immediate = true →
        (t.fcmp m).fired = true ∧ (t.fcmp m).behind = true ∧ (w.step = 0 → (t.fcmp m).arm = false))) ∧
  (∀ (v : Word) (c : Cmp),
    (c.config v).value = c.value ∧ (c.config v).arm = bit v 0 ∧ (c.config v).down = bit v 1 ∧ (c.config v).immediate = bit v 2 ∧
      (c.config v).action = bits v 3 2 ∧ ((c.config v).fired = true ↔ c.fired = true ∧ bit v 5 = false) ∧
      ((c.config v).behind = true ↔ c.behind = true ∧ bit v 6 = false) ∧ (c.config v).pulseUs = max 1 (bits v 7 9) ∧
      (c.config v).step = sbits v 16 16) ∧
  (∀ (n m : Nat) (new : Int) (s : State),
    let c := s.fcmp m
    m / 2 = n →
    (c.crossed (s.fch n).pos new = true →
      ((s.moveTo n new).fcmp m).fired = true ∧
      (c.step = 0 → ((s.moveTo n new).fcmp m).arm = false ∧ ((s.moveTo n new).fcmp m).value = c.value ∧
        ((s.moveTo n new).fcmp m).level = (match c.action with | 0 => true | 1 => true | 2 => false | _ => !c.level))) ∧
    (c.crossed (s.fch n).pos new = false → (s.moveTo n new).fcmp m = c)) ∧
  (∀ (dt m k : Nat) (s : State),
    let u := s.elapse dt
    (u.fcmp m).pulseTick = some k → k + (u.fcmp m).pulseUs * 200 ≤ u.now →
    ∃ t : State, exec (.comparePulseEnd dt m) s = .next t ∧ t.fcmp m = { u.fcmp m with level := false, pulseTick := none } ∧
      (∀ j, j ≠ m → t.fcmp j = u.fcmp j) ∧ t = { u with fbu := { u.fbu with cmps := t.fbu.cmps } })

/-- Claims of shared balls and capture timers succeed while the resource is free, else CLAIM_DENIED names it and the first
owner stands (R276, R277). An output ball carries the comparator routed to it, TP_OUT or BEAT_OUT (R271, R278). A probe arms
with its ball and timer and latches position and tick (R270); capture entries queue, are lost when 8 wait, and a read takes the
oldest (R279). -/
def Obligations.CapturesAndClaims : Prop :=
  (∀ (dt k : Nat) (v : Word) (s : State),
    let u := s.elapse dt
    let old := Tbl.get 0 u.fbu.auxi k
    let f := bits v 0 4
    u.hostTo 6 = true → k < 8 → f ≤ 2 → f ≠ old →
    (old = 0 ∨ f = 0 →
      ∃ t : State, exec (.auxSelWrite dt false k v) s = .next t ∧ Tbl.get 0 t.fbu.auxi k = f ∧
        (∀ j, j ≠ k → Tbl.get 0 t.fbu.auxi j = Tbl.get 0 u.fbu.auxi j) ∧ t = { u with fbu := { u.fbu with auxi := t.fbu.auxi } }) ∧
    (old ≠ 0 → f ≠ 0 → exec (.auxSelWrite dt false k v) s = .next (u.claimRefused k))) ∧
  (∀ (dt k : Nat) (v : Word) (s : State),
    let u := s.elapse dt
    let old := Tbl.get 0 u.fbu.auxo k
    let f := bits v 0 4
    u.hostTo 6 = true → k < 8 → f ≤ 10 → f ≠ old →
    (f = 0 ∨ old = 0 ∧ (∀ e ∈ u.fbu.auxo, e.2 ≠ f) →
      ∃ t : State, exec (.auxSelWrite dt true k v) s = .next t ∧ Tbl.get 0 t.fbu.auxo k = f ∧
        (u.isReady 3 = true →
          (f = 9 → t.auxoLevel k = (u.tbu.tpActive != u.tbu.tpPol)) ∧ (f = 10 → t.auxoLevel k = u.prs.beatLevel) ∧
          (∀ i, i < 4 → f = i + 1 → t.auxoLevel k = (u.fcmp (Tbl.get 0 u.fbu.cmpRoute i)).level)) ∧
        (∀ j, j ≠ k → Tbl.get 0 t.fbu.auxo j = Tbl.get 0 u.fbu.auxo j) ∧ t = { u with fbu := { u.fbu with auxo := t.fbu.auxo } }) ∧
    (f ≠ 0 → old ≠ 0 → exec (.auxSelWrite dt true k v) s = .next (u.claimRefused (8 + k))) ∧
    (f ≠ 0 → old = 0 → (∃ e ∈ u.fbu.auxo, e.2 = f) → exec (.auxSelWrite dt true k v) s = .next (u.claimRefused (32 + f)))) ∧
  (∀ (r : Nat) (s : State),
    s.claimRefused r = { s with fbu := { s.fbu with fault := setFlag s.fbu.fault s.cycle 0, claimLast := r,
                                                    claimCount := satAdd 0xFFFF s.fbu.claimCount 1 }, icu := (s.raise 409).icu }) ∧
  (∀ (dt j : Nat) (v : Word) (s : State),
    let u := s.elapse dt
    let k := bits v 8 4
    u.hostTo 6 = true → j < 4 → bit v 0 = true → (u.fprobe j).enable = false →
    (∀ i, (u.cap i).probeOwner ≠ some j) →
    (Tbl.get 0 u.fbu.auxi j ≠ 1 → (u.cap k).enable = false → (u.cap k).probeOwner = none →
      ∃ t : State, exec (.probeEnableWrite dt j v) s = .next t ∧
        t.fprobe j = { enable := true, polarity := bits v 1 2, oneShot := bit v 3, src := bits v 4 4, timer := k } ∧
        t.cap k = { u.cap k with probeOwner := some j } ∧ (∀ i, i ≠ k → t.cap i = u.cap i) ∧ (∀ i, i ≠ j → t.fprobe i = u.fprobe i) ∧
        t = { u with fbu := { u.fbu with probes := t.fbu.probes, caps := t.fbu.caps } }) ∧
    (Tbl.get 0 u.fbu.auxi j = 1 ∨ (u.cap k).enable = true ∨ (u.cap k).probeOwner ≠ none →
      ∃ t : State, exec (.probeEnableWrite dt j v) s = .next t ∧ (t.fprobe j).enable = false ∧ (∀ i, t.cap i = u.cap i) ∧
        t.fbu.fault = setFlag u.fbu.fault u.cycle 0 ∧ t.fbu.claimLast = (if Tbl.get 0 u.fbu.auxi j = 1 then j else 16 + k) ∧
        t = { u with fbu := { u.fbu with probes := t.fbu.probes, fault := t.fbu.fault, claimLast := t.fbu.claimLast,
                                         claimCount := t.fbu.claimCount }, icu := t.icu })) ∧
  (∀ (dt j : Nat) (rising : Bool) (s : State),
    let u := s.elapse dt
    let p := u.fprobe j
    u.isReady 3 = true → j < 4 → p.enable = true → takesEdge p.polarity rising = true → Tbl.get 0 u.fbu.auxi j = 2 →
    ((u.cap p.timer).fifo.length < 8 →
      ∃ t : State, exec (.probeLatch dt j rising) s = .next t ∧
        (t.cap p.timer).fifo = (u.cap p.timer).fifo ++
          [{ tick := u.now, rising, pos := some (u.fch p.src).pos, fine := if (u.fch p.src).scOk then some (u.fch p.src).fine else none }] ∧
        (t.fprobe j).enable = !p.oneShot ∧
        (∀ n, t.fch n = u.fch n) ∧ (∀ i, i ≠ p.timer → t.cap i = u.cap i) ∧
        t = { u with fbu := { u.fbu with probes := t.fbu.probes, caps := t.fbu.caps }, icu := t.icu, hre := t.hre, out := t.out }) ∧
    (8 ≤ (u.cap p.timer).fifo.length →
      exec (.probeLatch dt j rising) s =
        .next { u with fbu := { u.fbu with fault := setFlag u.fbu.fault u.cycle 1 }, icu := (u.raise 410).icu })) ∧
  (∀ (dt n : Nat) (inputB level : Bool) (s : State),
    let u := s.elapse dt
    u.isReady 3 = true → n < 16 →
    ∃ t : State, exec (.captureEdge dt ⟨n, inputB⟩ level) s = .next t ∧
      t = { u with fbu := { u.fbu with caps := t.fbu.caps, fault := t.fbu.fault }, icu := t.icu } ∧
      ∀ k, let c := u.cap k
        let meets := k < 16 ∧ c.input = n + (if inputB then 16 else 0) ∧ c.level ≠ level
        let takes := c.enable = true ∧ takesEdge c.polarity level = true
        (¬ meets → t.cap k = c) ∧
        (meets → ¬ takes → t.cap k = { c with level }) ∧
        (meets → takes → c.fifo.length < 8 → t.cap k = { c with level, fifo := c.fifo ++ [{ tick := u.now, rising := level }] }) ∧
        (meets → takes → 8 ≤ c.fifo.length → t.cap k = { c with level } ∧ t.fbu.fault.w.getLsbD 1 = true)) ∧
  (∀ (dt k : Nat) (s : State) (e : CapEntry) (rest : List CapEntry),
    let u := s.elapse dt
    u.hostTo 6 = true → k < 16 → (u.cap k).fifo = e :: rest →
    ∃ t : State, exec (.capDataRead dt k) s = .next t ∧ t.out.readData = e.data ∧ t.cap k = { u.cap k with fifo := rest } ∧
      (∀ i, i ≠ k → t.cap i = u.cap i) ∧
      t = { u with fbu := { u.fbu with caps := t.fbu.caps }, out := { u.out with readData := t.out.readData } }) ∧
  (∀ (dt k : Nat) (v : Word) (s : State),
    let u := s.elapse dt
    u.hostTo 6 = true → k < 16 →
    ∃ t : State, exec (.capCfgWrite dt k v) s = .next t ∧ (t.cap k).input = bits v 1 5 ∧ (t.cap k).polarity = bits v 6 2 ∧
      (t.cap k).fifo = (u.cap k).fifo ∧ (t.cap k).probeOwner = (u.cap k).probeOwner ∧ (∀ i, i ≠ k → t.cap i = u.cap i) ∧
      (bit v 0 = false → (t.cap k).enable = false ∧ t = { u with fbu := { u.fbu with caps := t.fbu.caps } }) ∧
      (bit v 0 = true → (u.cap k).probeOwner = none →
        (t.cap k).enable = true ∧ t = { u with fbu := { u.fbu with caps := t.fbu.caps } }) ∧
      (bit v 0 = true → (u.cap k).probeOwner ≠ none →
        (t.cap k).enable = (u.cap k).enable ∧ t.fbu.fault = setFlag u.fbu.fault u.cycle 0 ∧ t.fbu.claimLast = 16 + k))

/-- A synthesising repeater emits one pulse for each 1,000,000 of its accumulator, evenly spaced and at most 20 kHz, high for half
the spacing (R273); where its source fails it stops, rests low and drops its accumulator (R274). An analogue input's VALUE is
the mean of its last codes, and LOW and HIGH set outside the limits and clear after ten means inside (R275). -/
def Obligations.RepeatersAndInputs : Prop :=
  (∀ (dt r : Nat) (s : State),
    let u := s.elapse dt
    let p := u.rep r
    let gap := max 10000 (if u.repRate16 p = 0 then 0 else 65536 * 200000000 / u.repRate16 p)
    u.isReady 3 = true → r < 4 → p.stopped = false → u.repSource p = true → (p.pulses = 0 ∨ p.pulseTick + gap ≤ u.now) →
    (p.mode = 2 → 1000000 ≤ p.acc →
      ∃ t : State, exec (.repeaterPulse dt r) s = .next t ∧
        t.rep r = { p with high := gap / 2, acc := p.acc - 1000000, pulseTick := u.now, pulses := p.pulses + 1 } ∧ (∀ k, k ≠ r → t.rep k = u.rep k) ∧
        t = { u with fbu := { u.fbu with reps := t.fbu.reps } }) ∧
    (p.mode = 3 → 1000000 ≤ p.acc + u.poseDistance p →
      ∃ t : State, exec (.repeaterPulse dt r) s = .next t ∧
        t.rep r = { p with high := gap / 2, acc := p.acc + u.poseDistance p - 1000000, poseTick := u.now, pulseTick := u.now, pulses := p.pulses + 1 } ∧
        (∀ k, k ≠ r → t.rep k = u.rep k) ∧ t = { u with fbu := { u.fbu with reps := t.fbu.reps } })) ∧
  (∀ (dt r : Nat) (s : State),
    let u := s.elapse dt
    let p := u.rep r
    u.isReady 3 = true → r < 4 → p.stopped = false →
    (p.mode = 2 ∧ ((u.fch (p.src % 16)).mode = 0 ∨ p.scale = 0) ∨ p.mode = 3 ∧ (u.isReady 4 = false ∨ u.pse.valid = false)) →
    ∃ t : State, exec (.repeaterSourceFail dt r) s = .next t ∧ t.rep r = { p with stopped := true, acc := 0, level := false } ∧
      (∀ k, k ≠ r → t.rep k = u.rep k) ∧
      t = { u with fbu := { u.fbu with reps := t.fbu.reps, fault := setFlag u.fbu.fault u.cycle 2 }, icu := (u.raise (388 + r)).icu }) ∧
  (∀ (dt a v : Nat) (s : State),
    let u := s.elapse dt
    let c := u.ain a
    let x := ((c.code v :: c.samples).take 64).take (2 ^ c.avgLog2)
    u.isReady 3 = true → a < 16 → u.now % 20000 = 0 →
    ∃ t : State, exec (.ainSample dt a v) s = .next t ∧ (t.ain a).value = x.sum / max 1 x.length ∧
      ((t.ain a).value < c.lowLim → (t.ain a).low = true) ∧ (c.highLim < (t.ain a).value → (t.ain a).high = true) ∧
      (c.lowLim ≤ (t.ain a).value → (t.ain a).value ≤ c.highLim →
        (9 ≤ c.inside → (t.ain a).low = false ∧ (t.ain a).high = false) ∧
        (c.inside < 9 → (t.ain a).low = c.low ∧ (t.ain a).high = c.high)) ∧
      (t.icu = if ((t.ain a).low = true ∧ c.low = false) ∨ ((t.ain a).high = true ∧ c.high = false) then (u.raise (392 + a)).icu else u.icu) ∧
      (∀ k, k ≠ a → t.ain k = u.ain k) ∧ t = { u with fbu := { u.fbu with ains := t.fbu.ains }, icu := t.icu })

/-! ### The regulator engine (11_regulators.md) -/

/-- A sample of a context without a swap or an injection waiting latches setpoint and feedback, computes error and
feedforward, and gives the output of its state by R290: idle and SAFE give SAFE_OUT, LOST_HOLD the output it had, LOST_FF the
clamped table, CLOSED the law on its history or its preset. The first sample after ENABLE starts in CLOSED (R292), and the safe
action holds a product's context that is idle at SAFE_OUT in LOST_HOLD and LOST_FF too (R81). A source that cannot be lost never
is; a REMOTE whose node is absent or away is, and answers by LOSS_MODE (R298, R299). -/
def Obligations.RegulatorSampleComputes : Prop :=
  ∀ (dt c k : Nat) (s : State),
    let u := s.elapse dt
    let x := u.ctx c
    let halt := u.idleCtx c && u.hostSafe
    u.isReady 3 = true → c ≤ Config.regContexts u.part → x.enable = true → x.latest u.now = some k → x.sampleTick < k →
    x.swaps = [] → x.inject = none → x.injects = [] →
    ∃ t : State, exec (.regSample dt c) s = .next t ∧
      (∀ j, j ≠ c → t.ctx j = u.ctx j) ∧
      t = { u with rge := t.rge, lca := t.lca, flp := t.flp, icu := t.icu, hre := t.hre, out := t.out, evr := t.evr, nv := t.nv } ∧
      (let y := t.ctx c
       y.samples = x.samples + 1 ∧ y.starting = false ∧ y.sampleTick = k ∧ y.w = 0 ∧ y.bankSel = x.bankSel ∧ y.raw = u.rawOf c ∧ y.r = u.setpointOf c ∧
       y.f = sat24 (shiftRight (y.raw * x.active.fbScale) x.fbShift) ∧ y.e = sat24 (y.r - y.f) ∧
       y.ff = (if x.ffEn then tableAt y.r x.active.pts else 0) ∧ y.idle = u.idleCtx c ∧
       (x.state = .closed ∨ x.starting = true →
         (u.idleCtx c = true → y.state = .closed ∧ y.y = u.safeOut c ∧ y.presetNext = true) ∧
         (u.idleCtx c = false →
           (u.srcKindOf c = 0 ∨ u.srcKindOf c = 4 → y.state = .closed) ∧
           (u.srcKindOf c = 3 → u.remoteExists x.srcAddr = false ∨ (u.targetNode x.srcAddr).present = false →
             y.faults.w.getLsbD 0 = true ∧ y.lostCount = satAdd 0xFFFF x.lostCount 1 ∧ y.cause = 2 ∧
             (x.lossMode = 0 → y.state = .lostHold ∧ y.y = x.y ∧ y.eHist = x.eHist ∧ y.hHist = x.hHist) ∧
             (x.lossMode = 1 → y.state = .lostFf ∧ y.y = min (max (tableAt y.r x.active.pts) x.outMin) x.outMax) ∧
             (2 ≤ x.lossMode → y.state = .safe ∧ y.enable = false ∧ y.y = u.safeOut c)) ∧
           (y.state = .closed →
             (x.presetY = false → x.presetNext = false →
               let n := x.active.order
               y.v = sat24 (Int.fdiv (x.active.b.headD 0 * y.e + dot (x.active.b.tail.take n) x.eHist -
                 dot (x.active.a.take n) x.hHist + 2 ^ 27) (2 ^ 28)) ∧
               y.eHist = (y.e :: x.eHist).take 3 ∧ y.hHist = (sat24 (y.y - y.ff) :: x.hHist).take 3) ∧
             (x.presetY = true → y.v = sat24 (x.y - y.ff) ∧ y.eHist = [y.e, y.e, y.e]) ∧
             (x.presetY = false → x.presetNext = true → y.v = x.hPrev ∧ y.eHist = [y.e, y.e, y.e]) ∧
             y.y = min (max (y.v + y.ff) x.outMin) x.outMax ∧ y.hPrev = sat24 (y.y - y.ff) ∧
             y.clampHi = decide (x.outMax < y.v + y.ff) ∧ y.clampLo = decide (y.v + y.ff < x.outMin)))) ∧
       (x.state = .lostHold → x.starting = false → y.state = .lostHold →
         y.y = (if halt then u.safeOut c else x.y) ∧ y.eHist = x.eHist ∧ y.hHist = x.hHist) ∧
       (x.state = .lostFf → x.starting = false → y.state = .lostFf →
         y.y = (if halt then u.safeOut c else min (max (tableAt y.r x.active.pts) x.outMin) x.outMax) ∧ y.eHist = x.eHist ∧ y.hHist = x.hHist) ∧
       (x.state = .lostFf → x.starting = false → y.state = .safe → y.enable = false ∧ y.y = u.safeOut c))

/-- The output of a bound context reaches its channel at its phase, as a duty from the next PWM opening or as a current
(R284, R288). While CTL is lost, bound channels and remote targets are given SAFE_OUT once (R307). -/
def Obligations.RegulatorOutputsArrive : Prop :=
  (∀ (dt c k n : Nat) (y : Int) (s : State),
    let u := s.elapse dt
    let x := u.ctx c
    let h := u.chan n
    x.outs = [(k, y)] → k ≤ u.now → x.bound = some n → h.holding = .regulator → h.keepTick = none → h.inSafe = false →
    ∃ t : State, exec (.regOutput dt c) s = .next t ∧ t.ctx c = { x with outs := [] } ∧ (∀ j, j ≠ c → t.ctx j = u.ctx j) ∧
      t = { u with rge := { u.rge with ctxs := t.rge.ctxs }, lsb := t.lsb } ∧
      (∀ a b, h.bindCurrent = false → h.cmd = .pwm a b →
        t.chan n = { h with nextDuty := some (divHalfUp (max 0 y * 1000) 8388608).toNat } ∧
        ∀ j, j ≠ n → t.chan j = u.chan j) ∧
      (h.bindCurrent = true → (t.chan n).cmd = .current (divHalfUp (max 0 y * 10000) 8388608).toNat h.bindArg)) ∧
  (∀ (dt c : Nat) (s : State),
    let u := s.elapse dt
    let x := u.ctx c
    (∃ o ∈ x.outs, o.1 ≤ u.now) → x.bound = none →
    ∃ t : State, exec (.regOutput dt c) s = .next t ∧ t.ctx c = { x with outs := x.outs.filter fun o => !decide (o.1 ≤ u.now) } ∧
      (∀ j, j ≠ c → t.ctx j = u.ctx j) ∧ t = { u with rge := { u.rge with ctxs := t.rge.ctxs } }) ∧
  (∀ (dt : Nat) (s : State),
    let u := s.elapse dt
    u.rge.ctlLost = true →
    ∃ t : State, exec (.ctlLoss dt) s = .next t ∧ t.rge = { u.rge with ctlLost := false, lostTargets := [] } ∧
      (∀ n, (u.chan n).holding ≠ .regulator → t.chan n = u.chan n) ∧
      (∀ n a b, n < Config.loadChannels u.part → (u.chan n).holding = .regulator → (u.chan n).keepTick = none →
        (u.chan n).inSafe = false → (u.chan n).bindCurrent = false → (u.chan n).cmd = .pwm a b →
        (t.chan n).nextDuty = some (divHalfUp (max 0 (u.safeOut (u.chan n).context) * 1000) 8388608).toNat) ∧
      (u.rge.lostTargets = [] → t.flp = u.flp) ∧ t = { u with rge := t.rge, lsb := t.lsb, flp := t.flp })

/-- Setting ENABLE starts a context whose timeline, deadline and tags fit, with a preset from SAFE_OUT and CLOSED from its next
sample instant, and is refused otherwise with the flag of each that does not fit (R285, R289, R292); clearing it drives SAFE_OUT from the next output phase. PERIOD stands
while ENABLE is set; the other fields of CTX_CFG apply (R292). -/
def Obligations.ContextsAreEnabledAndDisabled : Prop :=
  (∀ (dt c : Nat) (v : Word) (s : State),
    let u := s.elapse dt
    let x := u.ctx c
    let cfg : Ctx := { x with period := min 5 (bits v 1 3), spProduct := bits v 4 2 == 1, product := bits v 6 6, ffEn := bit v 12,
                              idleZero := bit v 13, lossMode := min 2 (bits v 14 2) }
    let u' : State := { u with rge := { u.rge with ctxs := Tbl.set {} u.rge.ctxs c cfg } }
    u.hostTo 6 = true → c ≤ Config.regContexts u.part → bit v 0 = true → x.enable = false →
    ∃ t : State, exec (.ctxEnableWrite dt c v) s = .next t ∧ (∀ j, j ≠ c → t.ctx j = u.ctx j) ∧
      (cfg.tagsFit = false ∨ u'.timelineFits c = false →
        t.ctx c = { cfg with faults := if cfg.tagsFit then x.faults else setFlag x.faults u.cycle 5 } ∧
        t.rge.fault = (if u'.timelineFits c then u.rge.fault else setFlag u.rge.fault u.cycle 0) ∧
        t = { u with rge := { u.rge with ctxs := t.rge.ctxs, fault := t.rge.fault }, icu := t.icu } ∧
        (cfg.tagsFit = true → t.icu = (u.raise 416).icu) ∧ (u'.timelineFits c = true → t.icu = (u.raise (416 + c / 4)).icu)) ∧
      (cfg.tagsFit = true → u'.timelineFits c = true →
        (t.ctx c).enable = true ∧ (t.ctx c).state = .disabled ∧ (t.ctx c).starting = true ∧ (t.ctx c).y = u.safeOut c ∧ (t.ctx c).presetY = true ∧
        (t.ctx c).samples = 0 ∧ (t.ctx c).period = cfg.period ∧ (t.ctx c).bankSel = x.bankSel ∧
        t = { u with rge := t.rge, lsb := t.lsb, icu := t.icu, hre := t.hre, out := t.out } ∧ (x.bound = none → t.lsb = u.lsb))) ∧
  (∀ (dt c : Nat) (v : Word) (s : State),
    let u := s.elapse dt
    let x := u.ctx c
    u.hostTo 6 = true → c ≤ Config.regContexts u.part → bit v 0 = true → x.enable = true →
    ∃ t : State, exec (.ctxEnableWrite dt c v) s = .next t ∧ (∀ j, j ≠ c → t.ctx j = u.ctx j) ∧
      (t.ctx c).enable = true ∧ (t.ctx c).state = x.state ∧ (t.ctx c).period = x.period ∧ (t.ctx c).product = bits v 6 6 ∧
      (t.ctx c).lossMode = min 2 (bits v 14 2) ∧
      (t.ctx c).faults = (if min 5 (bits v 1 3) = x.period then x.faults else setFlag x.faults u.cycle 5) ∧
      t = { u with rge := { u.rge with ctxs := t.rge.ctxs }, icu := t.icu }) ∧
  (∀ (dt c : Nat) (v : Word) (s : State),
    let u := s.elapse dt
    let x := u.ctx c
    u.hostTo 6 = true → c ≤ Config.regContexts u.part → bit v 0 = false → x.enable = true → x.injects = [] → x.swaps = [] →
    ∃ t : State, exec (.ctxDisableWrite dt c v) s = .next t ∧ (∀ j, j ≠ c → t.ctx j = u.ctx j) ∧
      (t.ctx c).enable = false ∧ (t.ctx c).state = .disabled ∧ (t.ctx c).y = u.safeOut c ∧ (t.ctx c).inject = none ∧
      (x.inject ≠ none → (t.ctx c).faults.w.getLsbD 3 = true) ∧
      (∀ n, x.remote = false → x.bound = some n → 
        (t.ctx c).outs = (x.outs.filter fun o => decide (o.1 < x.nextOutput u.now)) ++ [(x.nextOutput u.now, u.safeOut c)]) ∧
      t = { u with rge := t.rge, flp := t.flp, icu := t.icu, hre := t.hre, out := t.out })

/-- BANK_LOAD writes one part of the shadow bank and leaves the active one (R293, R294); BANK_SWAP exchanges the banks of a
context that is not enabled at once and waits for the sample of one that is (R295); INJECT_START needs CLOSED and waits for
its sample (R301); TRACE_ARM claims a free quarter or is denied, STOP ends the capture (R303); a finished capture is copied,
oldest first, its quarter is free and TRACE_BLOCK says so (R304). -/
def Obligations.BanksInjectionsAndTraces : Prop :=
  (∀ (dt ring : Nat) (s : State) (d : Slot),
    let u := s.elapse dt
    let b := u.settle ring
    let c := dfield d.desc 16 1
    let x := u.ctx c
    u.headRuns ring 0x0F d → checksPass (bankLoadChecks d.desc) → x.calStaged = false →
    ∃ v : State, exec (.bankLoad dt ring) s = .next (v.finishHead ring 0x00 0 0) ∧
      (∀ j, j ≠ c → v.ctx j = u.ctx j) ∧ (v.ctx c).active = x.active ∧ (v.ctx c).hostOwnsShadow = true ∧
      (dfield d.desc 17 1 = 0 →
        (v.ctx c).shadow = { x.shadow with order := dfield d.desc 18 1, fbScale := dfield d.desc 20 4,
                                           b := (List.range 4).map fun i => dsfield d.desc (24 + 4 * i) 4,
                                           a := (List.range 3).map fun i => dsfield d.desc (40 + 4 * i) 4 }) ∧
      (dfield d.desc 17 1 = 1 →
        (v.ctx c).shadow = { x.shadow with pts := (List.range 7).map fun i =>
          (dsfield d.desc (20 + 6 * i) 3, dsfield d.desc (23 + 6 * i) 3) }) ∧
      (v.ctx c).y = x.y ∧ (v.ctx c).state = x.state ∧ v = { b with rge := { u.rge with ctxs := v.rge.ctxs } }) ∧
  (∀ (dt ring c : Nat) (s : State) (d : Slot),
    let u := s.elapse dt
    let b := u.settle ring
    let x := u.ctx c
    u.headRuns ring 0x10 d → checksPass (b.bankSwapChecks d.desc) → (∀ j, (dfield d.desc 16 16).testBit j = decide (j = c)) →
    x.calStaged = false → x.swaps = [] →
    ∃ t : State, exec (.bankSwap dt ring) s = .next t ∧ (∀ j, j ≠ c → t.ctx j = u.ctx j) ∧
      (x.enable = false → (t.ctx c).bankSel = (!x.bankSel) ∧ (t.ctx c).swaps = [] ∧ (t.ctx c).hostOwnsShadow = false) ∧
      (x.enable = true → (t.ctx c).bankSel = x.bankSel ∧
        (t.ctx c).swaps = [{ mode := dfield d.desc 32 1, tick := max (dfield d.desc 40 8) u.now, byHost := true,
                             waiter := some (ring, d.index) }] ∧
        ∃ e ∈ (t.ring ring).slots, e.index = d.index ∧ e.stage = .started) ∧
      (t.ctx c).bank0 = x.bank0 ∧ (t.ctx c).bank1 = x.bank1 ∧ (t.ctx c).y = x.y ∧
      t = { b with rge := t.rge, lca := t.lca, hre := t.hre, icu := t.icu, out := t.out }) ∧
  (∀ (dt ring : Nat) (s : State) (d : Slot),
    let u := s.elapse dt
    let b := u.settle ring
    let c := dfield d.desc 16 1
    let x := u.ctx c
    u.headRuns ring 0x11 d → checksPass (b.injectChecks d.desc) →
    (x.state ≠ .closed → exec (.injectStart dt ring) s = .next (b.finishHead ring 0x08 2 0)) ∧
    (x.state = .closed →
      ∃ v : State, exec (.injectStart dt ring) s = .next (v.startHead ring []) ∧
        (∃ i : Inject, v.ctx c = { x with injects := x.injects ++ [i] } ∧
          i = { point := dfield d.desc 17 1, wave := dfield d.desc 18 1, log := (dfield d.desc 19 1).testBit 0,
                amp := dsfield d.desc 20 3, duration := dfield d.desc 24 4, p1 := dfield d.desc 28 2, p2 := dfield d.desc 30 2,
                tick := dfield d.desc 32 8, waiter := some (ring, d.index), lfsr := 2 ^ dfield d.desc 28 2 - 1 }) ∧
        (∀ j, j ≠ c → v.ctx j = u.ctx j) ∧ v = { b with rge := { u.rge with ctxs := v.rge.ctxs } })) ∧
  (∀ (dt ring : Nat) (s : State) (d : Slot),
    let u := s.elapse dt
    let b := u.settle ring
    let q := dfield d.desc 17 1
    u.headRuns ring 0x12 d → checksPass (traceArmChecks d.desc) →
    (dFlag d.desc 4 = false → (u.trace q).busy = true → exec (.traceArm dt ring) s = .next (b.finishHead ring 0x02 q 0)) ∧
    (dFlag d.desc 4 = false → (u.trace q).busy = false →
      ∃ v : State, exec (.traceArm dt ring) s = .next (v.finishHead ring 0x00 q 0) ∧
        v.trace q = { busy := true, context := dfield d.desc 16 1, nodes := dfield d.desc 18 1, trigger := dfield d.desc 19 1,
                      decim := dfield d.desc 20 2, pre := dfield d.desc 22 2, samples := dfield d.desc 24 4,
                      atTick := dfield d.desc 32 8, dest := dfield d.desc 40 8 } ∧
        (∀ j, j ≠ q → v.trace j = u.trace j) ∧ v = { b with rge := { u.rge with traces := v.rge.traces } }) ∧
    (dFlag d.desc 4 = true → (u.trace q).busy = true → (u.trace q).ended = false →
      ∃ v : State, exec (.traceArm dt ring) s = .next (v.finishHead ring 0x00 q 0) ∧
        v.trace q = { u.trace q with ended := true, status := 1 } ∧ (∀ j, j ≠ q → v.trace j = u.trace j) ∧
        v = { b with rge := { u.rge with traces := v.rge.traces } })) ∧
  (∀ (dt q : Nat) (s : State),
    let u := s.elapse dt
    let t0 := u.trace q
    let r := u.route 0x48
    u.isReady 3 = true → q < 4 → t0.busy = true → t0.ended = true → t0.kept ≠ [] → u.routeTakes 0x48 1 →
    ∃ t : State, exec (.traceBlock dt q true) s = .next t ∧ t.trace q = {} ∧ (∀ j, j ≠ q → t.trace j = u.trace j) ∧
      (∃ rp : Report, t.out.host =
          HostWrite.report (16 + r.ring) ((u.ring (16 + r.ring)).slotAddr (u.ring (16 + r.ring)).prod) rp ::
            HostWrite.words t0.dest t0.kept.reverse.flatten :: u.out.host ∧
        rp.opcode = 0x48 ∧ rp.tick = u.now ∧
        rp.payload = [fld 16 1 t0.context, fld 17 1 q, fld 18 1 t0.nodes, fld 19 1 t0.status, fld 20 4 t0.kept.length,
          fld 24 4 (t0.trigIndex.getD 0xFFFFFFFF), fld 28 2 t0.decim, fld 32 8 t0.trigTick,
          fld 40 4 (4 * t0.kept.length * nodeCount t0.nodes), fld 48 8 u.cal]) ∧
      t = { u with rge := { u.rge with traces := t.rge.traces }, out := { u.out with host := t.out.host },
                   hre := { u.hre with rings := t.hre.rings }, icu := t.icu })

/-! ### Live calibration (12_live_calibration.md) -/

/-- CAL_POLICY stores its policy and OFF drops what its scope had learned (R321); a coil search whose codes hold a minimum gives
a sample and one that finds none counts (R311), and a sample moves the estimate or is rejected (R313); a step outside the
conditions of R312 gives nothing; a meter update within 0.2 % of FB_SCALE stages nothing, and a larger one under APPLY stages
the active bank with FB_SCALE changed and asks for a swap, which comes at once in a
context that is not enabled (R295, R319, R320). -/
def Obligations.CalibrationLearns : Prop :=
  (∀ (dt ring : Nat) (s : State) (d : Slot),
    let u := s.elapse dt
    let b := u.settle ring
    u.headRuns ring 0x15 d →
    (dfield d.desc 16 1 = 0 → checksPass (delayPolicyChecks d.desc) → dfield d.desc 18 1 ≠ 0 →
      ∃ v : State, exec (.calPolicy dt ring) s = .next (v.finishHead ring 0x00 0 0) ∧
        v.delayPol (dfield d.desc 17 1) =
          { mode := dfield d.desc 18 1, sources := dfield d.desc 19 1, deadband := dfield d.desc 20 2, stepMax := dfield d.desc 22 2,
            maxDev := dfield d.desc 24 2, minSamples := dfield d.desc 26 1, avgShift := dfield d.desc 27 1,
            outlier := dfield d.desc 28 2, coilLag := dsfield d.desc 30 2, respContext := dfield d.desc 32 1,
            stepMin := dfield d.desc 33 1, respLag := dsfield d.desc 34 2 } ∧
        (∀ p, p ≠ dfield d.desc 17 1 → v.delayPol p = u.delayPol p) ∧ v = { b with lca := { u.lca with pols := v.lca.pols } }) ∧
    (dfield d.desc 16 1 = 0 → checksPass (delayPolicyChecks d.desc) → dfield d.desc 18 1 = 0 →
      ∃ v : State, exec (.calPolicy dt ring) s = .next (v.finishHead ring 0x00 0 0) ∧ (v.delayPol (dfield d.desc 17 1)).mode = 0 ∧
        (∀ ep kind, kind < 2 → (u.entry ep).product = dfield d.desc 17 1 →
          (v.delayCal (2 * ep + kind)).staged = none) ∧ v.gle = u.gle ∧ v.nv = u.nv) ∧
    (dfield d.desc 16 1 = 1 → checksPass (b.meterPolicyChecks d.desc) → dfield d.desc 18 1 ≠ 0 →
      ∃ v : State, exec (.calPolicy dt ring) s = .next (v.finishHead ring 0x00 0 0) ∧
        (let c := dfield d.desc 17 1
         let m := v.meterPol c
         m.mode = dfield d.desc 18 1 ∧ m.swapMode = dfield d.desc 21 1 ∧ m.factorMax = dfield d.desc 22 2 ∧
           m.updateS = dfield d.desc 26 2 ∧ m.rhoRef = (if dfield d.desc 19 1 = 1 then none else some (dfield d.desc 28 4)) ∧
           m.base = (u.ctx c).active.fbScale ∧ m.history = [(u.tbu.optime, (u.ctx c).active.fbScale)] ∧
           (∀ k, k ≠ c → v.meterPol k = u.meterPol k)) ∧ v = { b with lca := { u.lca with meters := v.lca.meters } })) ∧
  (∀ (dt n t0 : Nat) (codes : List Nat) (s : State),
    let u := s.elapse dt
    let ep := localBase + n
    let p := u.polOf ep
    let m := coilMinimum codes (u.coilWindow ep)
    u.chanExists n = true → (u.chan n).coil = some t0 → t0 + 10 * (codes.length - 1) * 200 ≤ u.now →
    (m ≠ none ∨ t0 + u.coilWindow ep * 200 ≤ u.now) →
    ∃ t : State, exec (.coilSample dt n codes) s = .next t ∧ t.chan n = { u.chan n with coil := none } ∧
      (∀ j, j ≠ n → t.chan j = u.chan j) ∧ t = { u with lsb := t.lsb, lca := t.lca, icu := t.icu, hre := t.hre, out := t.out } ∧
      ((u.chan n).out = false ∨ u.polUses p 0 = false → t.lca = u.lca) ∧
      ((u.chan n).out = true → u.polUses p 0 = true →
        (m = none → u.fullConduction n 0 = true → t.lca.notDetected = count32 u.lca.notDetected) ∧
        (∀ v, m = some v → u.fullConduction n v = true →
          t.lca.samples = count32 u.lca.samples ∧
          (p.outlier * 10 < (v + p.coilLag - u.delayEst ep 0).natAbs →
            t.lca.rejected = count32 u.lca.rejected ∧ (t.delayCal (2 * ep)).est = some (u.delayEst ep 0)) ∧
          ((v + p.coilLag - u.delayEst ep 0).natAbs ≤ p.outlier * 10 →
            t.lca.rejected = u.lca.rejected ∧
            (t.delayCal (2 * ep)).est =
              some (u.delayEst ep 0 + Int.tdiv (v + p.coilLag - u.delayEst ep 0) (2 ^ p.avgShift : Nat)))))) ∧
  (∀ (dt product k : Nat) (s : State),
    let u := s.elapse dt
    u.isReady 3 = true → u.flowDue product = some k →
    ∃ t : State, exec (.flowStep dt product) s = .next t ∧ Tbl.get 0 t.lca.flowDone product = k + 1 ∧
      t = { u with lca := t.lca, icu := t.icu, hre := t.hre, out := t.out } ∧
      (u.flowAllowed product k (u.delayPol product) = false → t.lca = { u.lca with flowDone := t.lca.flowDone })) ∧
  (∀ (dt c : Nat) (s : State),
    let u := s.elapse dt
    let m := u.meterPol c
    let fb := u.fbScale c
    let target : Int := (fb * m.rhoRef.getD 0 * m.count / m.sum : Nat)
    u.meterDue c = true → m.sum ≠ 0 → (u.ctx c).enable = true ∨ (u.ctx c).swaps = [] →
    ∃ t : State, exec (.meterUpdate dt c) s = .next t ∧ (t.meterPol c).sum = 0 ∧ (t.meterPol c).count = 0 ∧
      (t.meterPol c).startTick = u.now ∧ (∀ j, j ≠ c → t.meterPol j = u.meterPol j ∧ t.ctx j = u.ctx j) ∧
      (1000 * (target - fb).natAbs ≤ 2 * fb → t.rge = u.rge ∧ (t.meterPol c).staged = none) ∧
      (2 * fb < 1000 * (target - fb).natAbs → m.mode = 1 → t.rge = u.rge ∧ (t.meterPol c).staged = none) ∧
      (2 * fb < 1000 * (target - fb).natAbs → m.mode ≠ 1 → (u.ctx c).enable = false →
        ∃ w : Nat, (t.meterPol c).staged = none ∧ (t.ctx c).bankSel = (!(u.ctx c).bankSel) ∧ (t.ctx c).swaps = [] ∧
          (t.ctx c).active = { (u.ctx c).active with fbScale := w } ∧ (t.ctx c).calStaged = false ∧
          t.lca.applied = count32 u.lca.applied) ∧
      (2 * fb < 1000 * (target - fb).natAbs → m.mode ≠ 1 → (u.ctx c).enable = true →
        ∃ w : Nat, (t.meterPol c).staged = some w ∧ (t.ctx c).active = (u.ctx c).active ∧
          (t.ctx c).shadow = { (u.ctx c).active with fbScale := w } ∧ (t.ctx c).calStaged = true ∧
          (t.ctx c).swaps = (u.ctx c).swaps ++ [{ mode := m.swapMode, tick := u.now, byHost := false }]) ∧
      ((u.ctx c).enable = true → t.evr = u.evr ∧ t.nv = u.nv) ∧
      t = { u with lca := t.lca, rge := t.rge, icu := t.icu, hre := t.hre, out := t.out, evr := t.evr, nv := t.nv })

/-! ### Load channels (09_load_switches.md) -/

/-- The trips of R247: each switches its channel off, sets its bit, counts, and latches or cools by MODE (R249); HARD_SHORT and
LIMIT in CURVE mode raise the wire model's rise to its limit (R248). A trip in the keeper's hold latches out and raises KEEPER
(R255). LIMIT takes 200 µs and LATCH_TRIP BLANK_MS outside the inrush window, the keeper's trip 10 ms. A bank overload, by its
current for 1 ms or its die's heat, cuts exactly the channels over their own limit, or warns (R250). -/
def Obligations.ChannelsTrip : Prop :=
  (∀ (dt n ma held : Nat) (s : State),
    let u := s.elapse dt
    let past (ticks : Nat) : Prop :=
      (u.chan n).inrush = false ∧ (u.chan n).inrushTick + (u.chNv n).inrushMs * 200000 + ticks ≤ u.now
    u.canTrip n = true → (u.chan n).keepTick = none →
    (u.hardShort n < ma →
      ∃ t : State, exec (.hardShortTrip dt n ma) s = .next t ∧ State.Tripped n 0 u t ∧
        (t.chan n).theta = if (u.chNv n).curveMode then max (u.chan n).theta (u.thetaRoom n).toNat else (u.chan n).theta) ∧
    (past 40000 → u.inrushLimit n ≤ ma → 200 ≤ held →
      ∃ t : State, exec (.limitTrip dt n ⟨ma, held⟩) s = .next t ∧ State.Tripped n 1 u t ∧
        (t.chan n).theta = if (u.chNv n).curveMode then max (u.chan n).theta (u.thetaRoom n).toNat else (u.chan n).theta) ∧
    ((u.chNv n).curveMode = false → past ((u.chNv n).blankMs * 200000) → u.latchMa n ≤ ma → 1000 * (u.chNv n).blankMs ≤ held →
      ∃ t : State, exec (.latchTrip dt n ⟨ma, held⟩) s = .next t ∧ State.Tripped n 2 u t ∧ (t.chan n).prot = .latched) ∧
    ((u.chan n).inrush = true → exec (.limitTrip dt n ⟨ma, held⟩) s = .next u ∧ exec (.latchTrip dt n ⟨ma, held⟩) s = .next u)) ∧
  (∀ (dt n : Nat) (c : Int) (s : State),
    let u := s.elapse dt
    u.chanExists n = true → (u.chan n).prot = .armed → (u.chan n).keepTick = none → 175 ≤ c →
    ∃ t : State, exec (.overtempTrip dt n c) s = .next t ∧ State.Tripped n 4 u t ∧ (t.chan n).tempC = c ∧ (t.chan n).hot = true) ∧
  (∀ (dt n k ma held : Nat) (s : State),
    let u := s.elapse dt
    u.canTrip n = true → (u.chan n).keepTick = some k → 3 * u.continuousMa n ≤ 2 * ma → 10000 ≤ held →
    ∃ t : State, exec (.keeperTrip dt ⟨n, ma, held⟩) s = .next t ∧ (t.chan n).out = false ∧ (t.chan n).prot = .latched ∧
      (t.chan n).keepTripped = true ∧ (t.chan n).trips = count32 (u.chan n).trips ∧ (t.chan n).faults.w.getLsbD 6 = true ∧
      t.lsb.fault.w.getLsbD 5 = true ∧ (∀ j, j ≠ n → t.chan j = u.chan j)) ∧
  (∀ (dt b held : Nat) (dieC : Int) (ma : List (Nat × Nat)) (s : State),
    let u := s.elapse dt
    let beyond (n : Nat) : Prop := n ∈ u.bankChans b ∧ u.canTrip n = true ∧ (u.chan n).keepTick = none ∧ u.overLimit n (Tbl.get 0 ma n) = true
    u.bankOn b = true → b = 0 ∨ b = 1 ∧ Config.loadChannels u.part = 32 →
    (if b = 0 then 100000 else 200000) < ((u.bankChans b).map fun n => Tbl.get 0 ma n).sum ∧ 1000 ≤ held ∨ 150 ≤ dieC →
    ∃ t : State, exec (.bankOverload dt b ⟨ma, held, dieC⟩) s = .next t ∧
      (∀ n, beyond n → (t.chan n).out = false ∧ (t.chan n).prot ≠ .armed ∧ (t.chan n).faults.w.getLsbD 5 = true ∧
        (t.chan n).trips = count32 (u.chan n).trips) ∧
      (∀ n, ¬ beyond n → t.chan n = { u.chan n with sense := (t.chan n).sense, sat := (t.chan n).sat }) ∧
      ((∀ n, ¬ beyond n) → t.lsb.fault = setFlag u.lsb.fault u.cycle 4 ∧ t = { u with lsb := t.lsb, icu := (u.raise 324).icu }) ∧
      ((∃ n, beyond n) → t.lsb.fault = u.lsb.fault))

/-- The wire model integrates each millisecond and trips at its limit in CURVE mode (R247, R248); a cooled channel that its
holder commands on retries, using one retry (R249), and 60 s of running on restore them; inrush and pull-in end at their
times (R244, R245); PWM opens at its period's edge for its duty (R242), where a duty that waited takes effect (R288); a HOST_C
not written for 10 s gives way to the module temperature (R248). -/
def Obligations.ChannelsRunOnTheirClocks : Prop :=
  (∀ (dt n : Nat) (ms : List Int) (c mc : Int) (s : State),
    let u := s.elapse dt
    let mean := u.meanSensed n ms
    let theta := thetaNext (u.chNv n).wire (u.chan n).theta mean
    let sense := (ms.getLast?.map fun m => u.senseCode n m.toNat).getD (u.chan n).sense
    let u' : State := { u with lsb := { u.lsb with moduleC := mc } }
    u.chanExists n = true → u.powered 7 = true → (u.chan n).wireTick + 200000 ≤ u.now →
    ∃ t : State, exec (.wireModelUpdate dt n ms ⟨c, mc⟩) s = .next t ∧ t.lsb.moduleC = mc ∧ (t.chan n).tempC = c ∧
      (t.chan n).wireTick = (u.chan n).wireTick + 200000 ∧ (t.chan n).sense = sense ∧
      (t.chan n).theta = (if (u.chan n).keepTick = none then theta else (u.chan n).theta) ∧
      (t.chan n).hot = ((u.chan n).hot && decide (150 < c)) ∧ (∀ j, j ≠ n → t.chan j = u.chan j) ∧
      ((u.chan n).hot = false → (u.chan n).keepTick = none → (u.chNv n).curveMode = true → u.canTrip n = true →
        u'.thetaRoom n ≤ theta → State.Tripped n 3 u' t) ∧
      ((u.chan n).hot = false →
        (u.chan n).keepTick ≠ none ∨ (u.chNv n).curveMode = false ∨ u.canTrip n = false ∨ (theta : Int) < u'.thetaRoom n →
        t.chan n = { u.chan n with theta := (t.chan n).theta, tempC := c, sense, sat := (u.chan n).isShort u.now mean,
                                   wireTick := (t.chan n).wireTick } ∧
          t = { u' with lsb := { u'.lsb with chans := t.lsb.chans } })) ∧
  (∀ (dt n : Nat) (s : State),
    let u := s.elapse dt
    let c := u.chan n
    c.prot = .tripped → 2 * (c.theta : Int) ≤ u.thetaRoom n → c.tempC ≤ 150 → u.holderOn n = true → c.keepTick = none →
    u.supplied (u.bankOf n) = true →
    ∃ t : State, exec (.curveRetry dt n) s = .next t ∧ (t.chan n).prot = .armed ∧ (t.chan n).retriesUsed = c.retriesUsed + 1 ∧
      (∀ j, j ≠ n → t.chan j = u.chan j) ∧ t = { u with lsb := { u.lsb with chans := t.lsb.chans }, gle := t.gle, rge := t.rge, icu := t.icu } ∧
      (c.inSafe = false → c.hot = false → c.holding = .direct → c.cmd = .on → c.out = false → u.bankOn (u.bankOf n) = true →
        Tbl.get false u.lsb.reversed (u.bankOf n) = false →
        (t.chan n).out = true ∧ (t.chan n).inrushTick = u.now ∧ (t.chan n).inrush = ((u.chNv n).inrushMs != 0))) ∧
  (∀ (dt n : Nat) (s : State),
    let u := s.elapse dt
    let c := u.chan n
    (c.prot = .armed → c.out = true → c.retriesUsed ≠ 0 → c.onTick + 12000000000 ≤ u.now →
      ∃ t : State, exec (.retryRestore dt n) s = .next t ∧ t.chan n = { c with retriesUsed := 0 } ∧
        (∀ j, j ≠ n → t.chan j = u.chan j) ∧ t = { u with lsb := { u.lsb with chans := t.lsb.chans } }) ∧
    (c.inrush = true → c.inrushTick + (u.chNv n).inrushMs * 200000 ≤ u.now →
      ∃ t : State, exec (.inrushEnd dt n) s = .next t ∧ t.chan n = { c with inrush := false } ∧
        (∀ j, j ≠ n → t.chan j = u.chan j) ∧ t = { u with lsb := { u.lsb with chans := t.lsb.chans } }) ∧
    (c.pullin = true → c.out = true → c.pullinTick + c.pullinTime * 200000 ≤ u.now →
      ∃ t : State, exec (.pullinEnd dt n) s = .next t ∧ t.chan n = { c with pullin := false, hold := true } ∧
        (∀ j, j ≠ n → t.chan j = u.chan j) ∧ t = { u with lsb := { u.lsb with chans := t.lsb.chans } })) ∧
  (∀ (dt n d p : Nat) (s : State),
    let u := s.elapse dt
    let c := u.chan n
    u.chanExists n = true → c.cmd = .pwm d p → 1 ≤ p →
    ∃ t : State, exec (.channelPwmEdge dt n) s = .next t ∧
      (c.pwmTick + p * 200 ≤ u.now →
        (t.chan n).cmd = .pwm (c.nextDuty.getD d) p ∧ (t.chan n).nextDuty = none ∧
        (t.chan n).pwmTick ≤ u.now ∧ u.now < (t.chan n).pwmTick + p * 200 ∧ ((t.chan n).pwmTick - c.pwmTick) % (p * 200) = 0) ∧
      (u.now < c.pwmTick + p * 200 →
        (t.chan n).cmd = c.cmd ∧ (t.chan n).nextDuty = c.nextDuty ∧ (t.chan n).pwmTick = c.pwmTick) ∧
      (u.chanLive n = true → c.keepTick = none → c.inSafe = false → c.holding ≠ .escapement →
        Tbl.get false u.lsb.reversed (u.bankOf n) = false → (t.chan n).out = (t.chan n).level u.now) ∧
      (∀ j, j ≠ n → t.chan j = u.chan j) ∧ t = { u with lsb := { u.lsb with chans := t.lsb.chans } }) ∧
  (∀ (dt : Nat) (s : State),
    let u := s.elapse dt
    u.nv.ambHost = true → u.lsb.hostCStale = false → u.powered 7 = true → u.lsb.hostCTick + 2000000000 ≤ u.now →
    ∃ t : State, exec (.ambientStale dt) s = .next t ∧ t.ambient = u.lsb.moduleC ∧
      t = { u with lsb := { u.lsb with hostCStale := true, fault := setFlag u.lsb.fault u.cycle 7 }, icu := (u.raise 327).icu })

/-- A supply cut-off turns its channels off; a supply that has been stable for 10 ms returns once each cut has met its return
level, and gives them what their holder commands, with inrush (R240, R253);
latched channels stay latched. A reversed supply is cut and drives every channel of its bank on (R254). A dip is marked and
cuts nothing (R250); open-load indications never trip (R252). A keeper's hold that runs out sends its channel to SAFE and
raises KEEPER; a keeper whose supply falls below 4.0 V ends the holds of its bank for good (R253, R255, R256). -/
def Obligations.SuppliesCutAndReturn : Prop :=
  (∀ (dt : Nat) (p : Supply) (v : Int) (s : State),
    let u := s.elapse dt
    u.supplyExists p = true → cutLevel p v = true → u.lsb.isCut p = false →
    ∃ t : State, exec (.bankCutoff dt p v) s = .next t ∧ t.lsb.isCut p = true ∧ t.lsb.fault = setFlag u.lsb.fault u.cycle (supplyCode p) ∧
      (∀ n, n ∈ u.supplyChans p → u.chanLive n = true → Tbl.get false u.lsb.reversed (u.bankOf n) = false → (t.chan n).out = false) ∧
      (∀ n, n ∉ u.supplyChans p → t.chan n = u.chan n) ∧
      (∀ n, (t.chan n).prot = (u.chan n).prot ∧ (t.chan n).cmd = (u.chan n).cmd ∧ (t.chan n).keepTick = (u.chan n).keepTick ∧
        (t.chan n).theta = (u.chan n).theta)) ∧
  (∀ (dt b stable : Nat) (p : Supply) (v : Int) (s : State),
    let u := s.elapse dt
    u.supplyExists p = true → u.lsb.isCut p = true → p = .bankA ∧ b = 0 ∨ p = .bankB ∧ b = 1 → 10 ≤ stable →
    v < 600 ∨ 3900 < v ∨ Tbl.get false u.lsb.overCut b = true ∧ 3600 ≤ v ∨ Tbl.get false u.lsb.underCut b = true ∧ v ≤ 650 →
    ∃ t : State, exec (.bankReturn dt p ⟨v, stable⟩) s = .next t ∧ t.lsb.isCut p = true ∧ (∀ n, t.chan n = u.chan n) ∧
      t = { u with lsb := t.lsb }) ∧
  (∀ (dt stable : Nat) (p : Supply) (v : Int) (s : State),
    let u := s.elapse dt
    u.supplyExists p = true → u.lsb.isCut p = true → 10 ≤ stable →
    (∀ b, p = .bankA ∧ b = 0 ∨ p = .bankB ∧ b = 1 →
      600 ≤ v ∧ v ≤ 3900 ∧ (Tbl.get false u.lsb.overCut b = true → v < 3600) ∧ (Tbl.get false u.lsb.underCut b = true → 650 < v)) →
    ∃ t : State, exec (.bankReturn dt p ⟨v, stable⟩) s = .next t ∧ t.lsb.isCut p = false ∧
      (∀ n, (t.chan n).prot = (u.chan n).prot ∧ (t.chan n).cmd = (u.chan n).cmd ∧ (t.chan n).keepTick = (u.chan n).keepTick) ∧
      (∀ n, n ∉ u.supplyChans p → t.chan n = u.chan n) ∧
      (∀ n, n ∈ u.supplyChans p → (u.chan n).prot = .armed → (u.chan n).hot = false → (u.chan n).keepTick = none →
        (u.chan n).inSafe = false → (u.chan n).holding = .direct → (u.chan n).cmd = .on → (u.chan n).out = false → t.bankOn (u.bankOf n) = true →
        Tbl.get false t.lsb.reversed (u.bankOf n) = false →
        (t.chan n).out = true ∧ (t.chan n).inrush = ((u.chNv n).inrushMs != 0) ∧ (t.chan n).inrushTick = u.now)) ∧
  (∀ (dt b : Nat) (v : Int) (s : State),
    let u := s.elapse dt
    v < -100 → b = 0 ∨ b = 1 ∧ Config.loadChannels u.part = 32 →
    ∃ t : State, exec (.reverseBattery dt b v) s = .next t ∧ Tbl.get false t.lsb.bankCut b = true ∧
      Tbl.get false t.lsb.reversed b = true ∧ (∀ n, n ∈ u.bankChans b → (t.chan n).out = true ∧ (t.chan n).sense = 0) ∧
      (∀ n, n ∉ u.bankChans b → t.chan n = u.chan n)) ∧
  (∀ (dt b held : Nat) (v mean : Int) (s : State),
    let u := s.elapse dt
    u.bankOn b = true → b = 0 ∨ b = 1 ∧ Config.loadChannels u.part = 32 → 2 * v < mean → 10 ≤ held →
    ∃ t : State, exec (.bankDip dt ⟨b, v, mean, held⟩) s = .next t ∧
      t.lsb = { u.lsb with vbat := Tbl.set 0 u.lsb.vbat b v, fault := setFlag u.lsb.fault u.cycle 3 } ∧
      t = { u with lsb := t.lsb, evr := t.evr, nv := t.nv, icu := t.icu, hre := t.hre, out := t.out }) ∧
  (∀ (dt n kind held : Nat) (value vbat : Int) (s : State),
    let u := s.elapse dt
    let c := u.chan n
    let meets : Prop := (kind = 0 → value < 10 * c.openOnMa) ∧ (kind = 1 → 6 * vbat < 10 * value) ∧ (kind = 2 → vbat - 200 < value)
    u.chanExists n = true → u.powered 7 = true → kind ≤ 2 → u.canIndicate n kind = true →
    (meets → u.indicatesLong n kind held = true → c.indication kind = false →
      ∃ t : State, exec (.openLoadIndication dt n kind ⟨value, vbat, held⟩) s = .next t ∧ (t.chan n).indication kind = true ∧
        (t.chan n).faults = setFlag c.faults u.cycle (if kind = 2 then 9 else 8) ∧ (t.chan n).out = c.out ∧ (t.chan n).prot = c.prot ∧
        (t.chan n).trips = c.trips ∧ (∀ j, j ≠ n → t.chan j = u.chan j) ∧
        t = { u with lsb := { u.lsb with chans := t.lsb.chans, vbat := t.lsb.vbat }, icu := (u.raise (288 + n)).icu }) ∧
    (¬ meets → ∃ t : State, exec (.openLoadIndication dt n kind ⟨value, vbat, held⟩) s = .next t ∧ (t.chan n).indication kind = false ∧
      (t.chan n).faults = c.faults ∧ (t.chan n).out = c.out ∧ (∀ j, j ≠ n → t.chan j = u.chan j) ∧
      t = { u with lsb := { u.lsb with chans := t.lsb.chans, vbat := t.lsb.vbat } })) ∧
  (∀ (dt n k : Nat) (s : State),
    let u := s.elapse dt
    (u.chan n).keepTick = some k → k + (u.chNv n).keep10ms * 2000000 ≤ u.tbu.wall →
    ∃ t : State, exec (.keeperExpiry dt n) s = .next t ∧ (t.chan n).keepTick = none ∧ (t.chan n).inSafe = true ∧
      t.lsb.fault = setFlag u.lsb.fault u.cycle 5 ∧ (t.chan n).holding = (u.chan n).holding ∧ (t.chan n).context = (u.chan n).context ∧
      ((u.chan n).prot = .armed → (u.chan n).hot = false → u.supplied (u.bankOf n) = true → Tbl.get false u.lsb.reversed (u.bankOf n) = false →
        (t.chan n).out = (u.chNv n).safeOn) ∧
      (∀ j, j ≠ n → t.chan j = u.chan j) ∧ t = { u with lsb := t.lsb, icu := (u.raise 325).icu }) ∧
  (∀ (dt b : Nat) (v : Int) (s : State),
    let u := s.elapse dt
    b = 0 ∨ b = 1 ∧ Config.loadChannels u.part = 32 → v < 400 →
    ∃ t : State, exec (.keeperSupplyLoss dt ⟨b, v⟩) s = .next t ∧ Tbl.get false t.lsb.keeperDead b = true ∧
      Tbl.get false t.lsb.bankCut b = true ∧
      (∀ n, n ∈ u.bankChans b → (u.chan n).keepTick ≠ none → (t.chan n).keepTick = none ∧ (t.chan n).inSafe = true) ∧
      (∀ n, n ∉ u.bankChans b → t.chan n = u.chan n) ∧
      ((∃ n, n ∈ u.bankChans b ∧ (u.chan n).keepTick ≠ none) → t.lsb.fault.w.getLsbD 5 = true) ∧
      (Tbl.get false u.lsb.bankCut b = true → (∀ n, (u.chan n).keepTick = none → t.chan n = u.chan n) ∧
        t = { u with lsb := t.lsb, icu := t.icu }))

/-- A DIRECT_SWITCH whose buffer names an absent channel or context ends at the head of its ring, whatever holds it (R68); one
whose fields pass waits for its tick (R241, R243); then all its entries apply or, where one is refused,
none (R242, R243). What one entry does: OFF, ON, PWM and CURRENT command the output, BIND hands the channel to its context,
CLEAR re-arms it (R242), unless a new trip falls in its cycle (R9, R243). A write of LSB_CLEAR is CLEAR of the channels it names
(R258). -/
def Obligations.DirectSwitchActs : Prop :=
  (∀ (dt ring o : Nat) (buf : HostRead) (s : State),
    let u := s.elapse dt
    ring < 16 → u.headAbsent ring buf = some o → exec (.directSwitch dt ring buf) s = .next (u.endHead ring 0x07 o)) ∧
  (∀ (dt ring : Nat) (buf : HostRead) (s : State) (d : Slot),
    let u := s.elapse dt
    let b := u.settle ring
    let n := dLength d.desc
    u.headRuns ring 0x13 d →
    (dFlag d.desc 3 = false →
      checksPass ([flagCheck d.desc 0x02, (inRange 1 5 n, 2), (decide (dfield d.desc 16 8 ≤ b.now + 2 ^ 32), 16)] ++
        (((slices (dBytes d.desc 24 40) 8 (min 5 n)).flatMap fun e => b.switchChecks e.2 (24 + e.1)) ++
          channelsOnce 24 (slices (dBytes d.desc 24 40) 8 (min 5 n)) [])) →
      ∃ v : State, exec (.directSwitch dt ring buf) s = .next (v.startHead ring []) ∧
        v.lsb.waits = u.lsb.waits ++ [{ ring, index := d.index,
                                        tick := if dfield d.desc 16 8 ≤ u.now then (u.now / 2000 + 1) * 2000 else dfield d.desc 16 8,
                                        entries := (slices (dBytes d.desc 24 40) 8 (min 5 n)).map fun e => parseSwitch e.2 }] ∧
        v = { b with lsb := { u.lsb with waits := v.lsb.waits } }) ∧
    (dFlag d.desc 3 = true →
      checksPass ([flagCheck d.desc 0x0A, (inRange 1 (Config.loadChannels u.part) n && lengthFits d.desc (8 + 8 * n), 2)] ++
        indirectChecks d.desc) →
      (buf = .error → exec (.directSwitch dt ring buf) s = .next (b.dmaError.finishHead ring 0x09 0 0)) ∧
      (∀ bs, buf = .data bs →
        checksPass ((decide (wordAt bs 0 8 ≤ b.now + 2 ^ 32), 0) ::
          (((slices (bs.drop 8) 8 n).flatMap fun e => b.switchChecks e.2 (8 + e.1)) ++ channelsOnce 8 (slices (bs.drop 8) 8 n) [])) →
        ∃ v : State, exec (.directSwitch dt ring buf) s = .next (v.startHead ring []) ∧
          v.lsb.waits = u.lsb.waits ++ [{ ring, index := d.index,
                                          tick := if wordAt bs 0 8 ≤ u.now then (u.now / 2000 + 1) * 2000 else wordAt bs 0 8,
                                          entries := (slices (bs.drop 8) 8 n).map fun e => parseSwitch e.2 }] ∧
          v = { b with lsb := { u.lsb with waits := v.lsb.waits } }))) ∧
  (∀ (dt ring : Nat) (s : State) (w : SwWait),
    let u := s.elapse dt
    u.lsb.earliestWait ring = some w → w.tick ≤ u.now →
    (∀ e, u.firstDenied [] w.entries = some e →
      ∃ v : State, exec (.directSwitchExecute dt ring) s = .next (v.finishAt w.ring w.index 0x02 e.channel 0) ∧
        v = { u with lsb := { u.lsb with waits := u.lsb.waits.erase w, fault := setFlag u.lsb.fault u.cycle 6 }, icu := (u.raise 326).icu }) ∧
    (u.firstDenied [] w.entries = none →
      ∃ v : State, exec (.directSwitchExecute dt ring) s = .next (v.finishAt w.ring w.index 0x00 w.entries.length 0) ∧
        v.lsb.waits = u.lsb.waits.erase w ∧ (∀ n, (∀ e ∈ w.entries, e.channel ≠ n) → v.chan n = u.chan n) ∧
        v = { u with lsb := v.lsb, gle := v.gle, rge := v.rge, icu := v.icu })) ∧
  (∀ (e : SwEntry) (s : State),
    let c := s.chan e.channel
    let t := s.applySwitch e
    (∀ n, n ≠ e.channel → t.chan n = s.chan n) ∧
    (e.op ≤ 3 → e.op ≠ 0 ∨ c.holding ≠ .regulator →
      (t.chan e.channel).cmd = (match e.op with
        | 0 => ChCmd.off
        | 1 => .on
        | 2 => .pwm e.value e.value2
        | _ => .current e.value e.value2) ∧
      (t.chan e.channel).keepTick = none ∧ (t.chan e.channel).inSafe = false ∧ t.rge = s.rge ∧ t.gle = s.gle ∧
      (t.chanLive e.channel = true → c.holding = .direct → Tbl.get false s.lsb.reversed (s.bankOf e.channel) = false →
        (t.chan e.channel).out = (t.chan e.channel).level s.now)) ∧
    (e.op = 0 → c.holding = .regulator →
      (t.chan e.channel).cmd = .off ∧ (t.chan e.channel).holding = .direct ∧ (t.ctx c.context).bound = none) ∧
    (e.op = 4 → (t.chan e.channel).holding = .regulator ∧ (t.chan e.channel).context = e.context ∧
      (t.ctx e.context).bound = some e.channel ∧
      (t.chan e.channel).cmd = boundCmd (e.value == 1) e.value2 (t.ctxOut e.context)) ∧
    (e.op = 6 → c.tripTick = some s.now → t = s) ∧
    (e.op = 6 → c.tripTick ≠ some s.now → c.keepTick = none → c.inSafe = false →
      (t.chan e.channel).prot = .armed ∧ (t.chan e.channel).retriesUsed = 0 ∧ (t.chan e.channel).cmd = c.cmd)) ∧
  (∀ (dt : Nat) (v : Word) (s : State),
    let u := s.elapse dt
    u.hostTo 7 = true →
    ∃ t : State, exec (.lsbClearWrite dt v) s = .next t ∧
      (∀ n, n < Config.loadChannels u.part → bit v n = true → (u.chan n).keepTick = none → (u.chan n).inSafe = false →
        (u.chan n).tripTick.map (fun k => k / 2) ≠ some u.cycle → (t.chan n).prot = .armed ∧ (t.chan n).retriesUsed = 0) ∧
      (∀ n, bit v n = false ∨ Config.loadChannels u.part ≤ n ∨ (u.chan n).tripTick.map (fun k => k / 2) = some u.cycle →
        t.chan n = u.chan n) ∧
      t = { u with lsb := { u.lsb with chans := t.lsb.chans }, gle := t.gle, rge := t.rge, icu := t.icu })

/-! ### The escapement (04_endpoints_lookahead.md) -/

/-- How an event joins those pending (R109, R110): a dispatched one is final, a third is not stored, opposites at or before an
undispatched one cancel, an OFF takes the place of an ON that only changes the duty, and after a dispatched or an executed
opposite MIN_DWELL is kept. Far events need a free place and move to the wheel within 2.6 s (R109); a remote event is
dispatched or dropped, and an event executes at its tick (R111). -/
def Obligations.EscapementEventsRun : Prop :=
  (∀ (d : EpDyn) (now dwell : Nat) (free retime : Bool) (e : PEvent),
    let same := if e.on then d.onEv else d.offEv
    let other := if e.on then d.offEv else d.onEv
    let near (t : Nat) : Prop := t ≤ now + 524288000
    (∀ a, same = some a → a.dispatched = true → (∀ b, other = some b → b.tick ≤ a.tick ∨ e.tick ≤ b.tick) →
      d.insert now dwell free retime e = (.ignored, d)) ∧
    (∀ a b, same = some a → other = some b → a.tick < b.tick → b.tick < e.tick →
      (retime = false → d.insert now dwell free retime e = (.full, d)) ∧
      (retime = true → a.dispatched = false → b.dispatched = false →
        d.insert now dwell free retime e = (.cancelled, { d with onEv := none, offEv := none }))) ∧
    (∀ a b, same = some a → other = some b → a.tick < b.tick → a.dispatched = false → b.dispatched = false →
      e.on ≠ d.heldOn → (if e.on then d.lastOff else d.lastOn) = none → e.tick + max 1 dwell ≤ b.tick → near e.tick →
      d.insert now dwell free retime e =
        (.stored, d.put { e with delay := a.delay, transport := a.transport, leadUs := a.leadUs, far := false })) ∧
    (∀ b, same = none → other = some b → b.tick < e.tick → near (max e.tick (b.tick + dwell)) →
      d.insert now dwell free retime e = (.stored, d.put { e with tick := max e.tick (b.tick + dwell), far := false })) ∧
    (∀ b, same = none → other = some b → e.tick ≤ b.tick →
      (b.dispatched = false → e.on = true ∨ d.heldOn = false →
        d.insert now dwell free retime e = (.cancelled, { d with onEv := none, offEv := none })) ∧
      (b.dispatched = false → e.on = false → d.heldOn = true → near e.tick →
        d.insert now dwell free retime e = (.stored, { d with onEv := none, offEv := some { e with far := false } })) ∧
      (b.dispatched = true → near (b.tick + max dwell 2000) →
        d.insert now dwell free retime e = (.stored, d.put { e with tick := b.tick + max dwell 2000, far := false }))) ∧
    (∀ k, same = none → other = none → e.on ≠ d.heldOn → (if e.on then d.lastOff else d.lastOn) = some k →
      near (max e.tick (k + dwell)) →
      d.insert now dwell free retime e = (.stored, d.put { e with tick := max e.tick (k + dwell), far := false })) ∧
    (same = none → other = none → e.on = d.heldOn → ¬ near e.tick →
      (free = true → d.insert now dwell free retime e = (.stored, d.put { e with far := true })) ∧
      (free = false → d.insert now dwell free retime e = (.far, d)))) ∧
  (∀ (dt ep : Nat) (s : State),
    let u := s.elapse dt
    let d := u.dyn ep
    let f (e : PEvent) : PEvent := if e.far = true ∧ e.tick ≤ u.now + 520000000 then { e with far := false } else e
    (∃ e ∈ d.events, e.far = true ∧ e.tick ≤ u.now + 520000000) →
    ∃ t : State, exec (.overflowMigrate dt ep) s = .next t ∧ t.dyn ep = { d with onEv := d.onEv.map f, offEv := d.offEv.map f } ∧
      (∀ k, k ≠ ep → t.dyn k = u.dyn k) ∧ t = { u with gle := { u.gle with dyn := t.gle.dyn } }) ∧
  (∀ (dt ep : Nat) (s : State) (e : PEvent),
    let u := s.elapse dt
    let d := u.dyn ep
    let p := ep / 65536
    let n := ep / 256 % 256
    let drops := u.portRuns p == false || u.nodeDrops p n
    ep < localBase → d.first (fun x => !x.dispatched) = some e → (if e.on then d.onEv else d.offEv) = some e →
    e.tick ≤ u.now + e.leadUs * 200 →
    ∃ t : State, exec (.escDispatch dt ep) s = .next t ∧
      (if e.on then (t.dyn ep).onEv else (t.dyn ep).offEv) = some { e with dispatched := true, dropped := drops } ∧
      (t.dyn ep).heldOn = d.heldOn ∧ (∀ k, k ≠ ep → t.dyn k = u.dyn k) ∧
      (drops = true → Tbl.get 0 t.esc.drop p = count32 (Tbl.get 0 u.esc.drop p) ∧ t.flp = u.flp) ∧
      (u.portRuns p = false → t.esc.fault = setFlag u.esc.fault u.cycle 1) ∧
      (drops = false → e.on = false →
        (t.node p n).waiting = (u.node p n).waiting ++
          [{ endpoint := ep % 256, kind := 2, tag := tagOf e.tick, value := 0, tick := e.tick, ep := some ep,
             effect := if (u.entry ep).feeder then none else some (e.groundEffect ep) }]) ∧
      (drops = false → e.on = true → e.duty = none →
        (t.node p n).waiting = (u.node p n).waiting ++
          [{ endpoint := ep % 256, kind := 1, tag := tagOf e.tick, value := 0, tick := e.tick, ep := some ep,
             effect := if (u.entry ep).feeder then none else some (e.groundEffect ep) }]) ∧
      t = { u with gle := { u.gle with dyn := t.gle.dyn }, esc := t.esc, flp := t.flp, icu := t.icu }) ∧
  (∀ (dt ep : Nat) (s : State) (e : PEvent),
    let u := s.elapse dt
    let d := u.dyn ep
    let n := ep - localBase
    d.first (fun x => decide (x.tick ≤ u.now) && (isLocalEp ep || x.dispatched)) = some e →
    (if e.on then d.onEv else d.offEv) = some e → d.probe ≠ none → d.owesOff = false →
    ∃ t : State, exec (.escSlotExecute dt ep) s = .next t ∧ (t.dyn ep).heldOn = e.on ∧
      (if e.on then (t.dyn ep).onEv else (t.dyn ep).offEv) = none ∧
      (if e.on then (t.dyn ep).offEv else (t.dyn ep).onEv) = (if e.on then d.offEv else d.onEv) ∧
      (if e.on then (t.dyn ep).lastOn else (t.dyn ep).lastOff) = some e.tick ∧
      (e.on = true → (t.dyn ep).rate = e.rate ∧ (t.dyn ep).duty = e.duty.getD 1000) ∧
      (t.dyn ep).effOn = d.effOn ∧ (t.dyn ep).inDemand = d.inDemand ∧ (∀ k, k ≠ ep → t.dyn k = u.dyn k) ∧
      t.gle.valveQ = (if u.hasPath ep = true ∧ (u.entry ep).feeder = false ∧ e.dropped = false then
        u.gle.valveQ ++ [{ ep, tick := e.tick + 2000 * e.delay, on := e.on, rate := e.rate, duty := e.duty.getD 1000, delay := e.delay,
                           exec := e.tick }]
        else u.gle.valveQ) ∧
      (¬ (u.hasPath ep = true ∧ (u.entry ep).feeder = false ∧ e.dropped = false) →
        t.gle.effQ = u.gle.effQ.filter fun v => !(v.ep == ep && v.exec == e.tick)) ∧
      (isLocalEp ep = true → u.hasPath ep = true → (u.entry ep).feeder = false → e.dropped = false → e.on = true →
        t.gle.effQ = (u.gle.effQ.filter fun w =>
          !(w.ep == ep && !w.on && decide ((e.groundEffect ep).tick ≤ w.tick))) ++ [e.groundEffect ep]) ∧
      (isLocalEp ep = false →
        t = { u with gle := { u.gle with dyn := t.gle.dyn, valveQ := t.gle.valveQ, effQ := t.gle.effQ } } ∧
        (u.hasPath ep = true → (u.entry ep).feeder = false → e.dropped = false → t.gle.effQ = u.gle.effQ)) ∧
      (isLocalEp ep = true →
        (∀ j, j ≠ n → t.chan j = u.chan j) ∧ t = { u with gle := { u.gle with dyn := t.gle.dyn, valveQ := t.gle.valveQ, effQ := t.gle.effQ }, lsb := t.lsb } ∧
        (e.duty = none → u.localPath n = true → Tbl.get false u.lsb.reversed (u.bankOf n) = false → (t.chan n).out = e.on)))

/-- A valve effect joins or leaves its product's demand (R16, R108); a switch reaches its effective time, with the coverage
layer an endpoint names (R15, R127); a segment is cut at SEG_MAX_MS (R127); local PWM follows its grid (R107). An evaluation
moves the probe to its next sample, and where R20 does not hold closes an endpoint that is on (R20, R102-R104). -/
def Obligations.EffectsAndProbesRun : Prop :=
  (∀ (dt ep : Nat) (s : State) (v : Effect) (rest : List Effect),
    let u := s.elapse dt
    takeEffect ep u.now u.gle.valveQ = some (v, rest) →
    ∃ t : State, exec (.valveEffect dt ep) s = .next t ∧ t.gle.valveQ = rest ∧ (t.dyn v.ep).inDemand = v.on ∧
      (v.on = true → (t.dyn v.ep).demandRate = v.rate ∧ (t.dyn v.ep).demandDuty = v.duty) ∧
      (t.dyn v.ep).heldOn = (u.dyn v.ep).heldOn ∧ (∀ k, k ≠ v.ep → t.dyn k = u.dyn k) ∧
      (∀ p, 1 ≤ p → p ≤ 63 → Tbl.get 0 t.gle.demand p = min 0xFFFFFFFF (t.demandOf p)) ∧
      t = { u with gle := t.gle, lca := t.lca, icu := t.icu }) ∧
  (∀ (dt ep : Nat) (s : State) (v : Effect) (rest : List Effect),
    let u := s.elapse dt
    takeEffect ep (min u.now u.pse.cur.tick) u.gle.effQ = some (v, rest) →
    ∃ t : State, exec (.effectiveSwitch dt ep) s = .next t ∧ t.gle.effQ = rest ∧
      (t.dyn v.ep).effOn = (if v.rateOnly then (u.dyn v.ep).effOn else v.on) ∧
      (v.rateOnly = false → v.on = true → (u.dyn v.ep).effOn = false → (t.dyn v.ep).effSec = (u.entry v.ep).section_) ∧
      (t.dyn v.ep).heldOn = (u.dyn v.ep).heldOn ∧ (∀ k, k ≠ v.ep → t.dyn k = u.dyn k) ∧
      (v.rateOnly = false → v.on = false → t.strip v.ep = none) ∧ (∀ k, k ≠ v.ep → t.strip k = u.strip k) ∧
      (v.rateOnly = true → t.gle.sections = u.gle.sections ∧ t.gle.dyn = u.gle.dyn ∧ (u.strip v.ep = none → t.mpg = u.mpg)) ∧
      (v.rateOnly = false → v.on = true → u.strip v.ep = none → u.coverageLayer v.ep = none → t.mpg = u.mpg) ∧
      (v.rateOnly = false → v.on = true → u.strip v.ep = none → u.validAt v.tick = false →
        (∀ q ∈ u.epochs, v.tick < q.tick → q.valid = false) → ∀ l, u.coverageLayer v.ep = some l →
        t.strip v.ep = some { layer := l, waiting := true, rate := v.rate }) ∧
      t = { u with gle := t.gle, mpg := t.mpg, gnb := t.gnb, dlk := t.dlk, hre := t.hre, icu := t.icu, out := t.out }) ∧
  (∀ (dt ep : Nat) (s : State) (p : Strip),
    let u := s.elapse dt
    let k := p.startTick + u.mpg.segMax * 200000
    u.isReady 5 = true → u.strip ep = some p → p.waiting = false → 0 < u.mpg.segMax → k ≤ u.pse.cur.tick →
    ∃ t : State, exec (.segmentMaxExpiry dt ep) s = .next t ∧
      (∃ q : Strip, t.strip ep = some q ∧ q.startTick = k ∧ q.first = false ∧ q.layer = p.layer ∧ q.rate = p.rate) ∧
      t.mpg.covSeq = u.mpg.covSeq + 1 ∧ (∀ j, j ≠ ep → t.strip j = u.strip j) ∧
      t = { u with mpg := t.mpg, dlk := t.dlk, hre := t.hre, icu := t.icu, out := t.out }) ∧
  (∀ (dt n : Nat) (s : State),
    let u := s.elapse dt
    let ep := localBase + n
    let d := u.dyn ep
    let p := u.product (u.entry ep).product
    let per := p.pwmPeriod * 2000
    let off := phaseOf p (u.entry ep).phaseGroup * 2000
    let on := dutyUnits d.pwmDuty p.pwmPeriod * 2000
    d.pwmRun = true → p.pwmPeriod ≠ 0 →
    ∃ t : State, exec (.pwmGridEdge dt n) s = .next t ∧
      (d.pwmOpen = true → d.pwmDuty ≠ 1000 → gridPasses per (off + on) (d.pwmOpenTick + on) u.now = true → (t.dyn ep).pwmOpen = false) ∧
      (d.pwmOpen = true → d.pwmDuty ≠ 1000 → gridPasses per (off + on) (d.pwmOpenTick + on) u.now = false → t = u) ∧
      (d.pwmOpen = false → gridPasses per off (d.pwmOpenTick + 1) u.now = true →
        (t.dyn ep).pwmOpen = (d.duty != 0) ∧ (t.dyn ep).pwmDuty = d.duty ∧ (t.dyn ep).pwmOpenTick = gridLast per off u.now) ∧
      (d.pwmOpen = false → gridPasses per off (d.pwmOpenTick + 1) u.now = false → t = u) ∧
      ((t.dyn ep).pwmOpen ≠ d.pwmOpen → (u.chan n).carried = false → u.localPath n = true → Tbl.get false u.lsb.reversed (u.bankOf n) = false →
        (t.chan n).out = (t.dyn ep).pwmOpen) ∧
      (t.dyn ep).heldOn = d.heldOn ∧ (∀ k, k ≠ ep → t.dyn k = u.dyn k) ∧ (∀ k, k ≠ n → t.chan k = u.chan k) ∧
      t = { u with gle := { u.gle with dyn := t.gle.dyn }, lsb := { u.lsb with chans := t.lsb.chans } }) ∧
  (∀ (dt ep : Nat) (s : State) (p : Probe),
    let u := s.elapse dt
    let d := u.dyn ep
    u.probeDue ep = true → u.served ep = true → d.probe = some p → p.held = none → d.staged = none → d.stagedDelays = none → d.onEv = none →
    d.offEv = none → (u.delayCal (2 * ep)).staged = none → (u.delayCal (2 * ep + 1)).staged = none → u.gle.poseOk = false →
    (d.heldOn = false →
      ∃ (t : State) (q : Probe), exec (.probeEvaluation dt ep) s = .next t ∧ (t.dyn ep).probe = some q ∧ q.held = none ∧
        q.next = (p.next + max 1 (u.spacing ep 1) + 1999) / 2000 * 2000 ∧
        q.due = q.next - (u.leadOf ep + u.spacing ep u.gle.probeSteps) ∧
        (∃ r : TestRes, q.last = some (p.next, r) ∧ r.on = false) ∧ t.dyn ep = { d with probe := some q } ∧
        (∀ k, k ≠ ep → t.dyn k = u.dyn k)) ∧
    (d.heldOn = true → (∀ s0 r0, p.last = some (s0, r0) → r0.on = true) → (u.entry ep).feeder = false →
      u.feedersOf (u.entry ep).section_ = [] → u.escOverflow < 16384 →
      ∃ (t : State) (e : PEvent), exec (.probeEvaluation dt ep) s = .next t ∧ (t.dyn ep).offEv = some e ∧ e.on = false ∧
        u.earliest ep ≤ e.tick ∧ (t.dyn ep).onEv = none ∧ (t.dyn ep).heldOn = true))

/-! ### Endpoints, sections, products (04_endpoints_lookahead.md) -/

/-- ENDPOINT_LOAD: an entry like the latest does nothing; any other comes into force at once for an endpoint that is off and
idle and waits for one that is on; a claim on a held channel is denied (R92, R95). SECTION_SET sets its sections (R96, R97),
PRODUCT_SET its product (R98), and GLE_CTRL.ENABLE starts or ends the probes (R102, R116). -/
def Obligations.EndpointsSectionsAndProducts : Prop :=
  (∀ (dt ring : Nat) (buf : HostRead) (s : State) (d : Slot),
    let u := s.elapse dt
    let b := u.settle ring
    let isLocal := dFlag d.desc 4
    let ep := epOf (dfield d.desc 16 4) isLocal
    let en := parseEntry (dBytes d.desc 24 16)
    let y := u.dyn ep
    u.headRuns ring 0x03 d →
    (dFlag d.desc 3 = false → checksPass (loadDirectChecks d.desc) → dLength d.desc = 1 →
      (u.escDenied ep en = true →
        exec (.endpointLoad dt ring buf) s = .next (b.claimDenied.finishHead ring 0x02 (ep - localBase) 0)) ∧
      (u.escDenied ep en = false → dFlag d.desc 5 = false →
        (en = u.latestEntry ep →
          ∃ v : State, exec (.endpointLoad dt ring buf) s = .next (v.finishHead ring 0x00 0 0) ∧ v = { b with gnb := v.gnb }) ∧
        (y.staged = none → y.stagedDelays = none → en ≠ (u.entry ep).withDelays en.onDelay en.offDelay →
          (y.onEv = none → y.offEv = none → y.heldOn = false →
            ∃ v : State, exec (.endpointLoad dt ring buf) s = .next (v.finishHead ring 0x00 0 0) ∧ v.entry ep = en ∧
              (∀ k, k ≠ ep → v.entry k = u.entry k) ∧
              (isLocal = true → en.mode ≠ .disabled → (v.chan (ep - localBase)).holding = .escapement) ∧
              (isLocal = true → en.mode = .disabled → (u.chan (ep - localBase)).holding = .escapement →
                (v.chan (ep - localBase)).holding = .direct)) ∧
          (y.heldOn = true →
            ∃ v : State, exec (.endpointLoad dt ring buf) s = .next (v.finishHead ring 0x00 0 0) ∧
              (v.dyn ep).staged = some en ∧ v.entry ep = u.entry ep ∧ (∀ k, k ≠ ep → v.entry k = u.entry k))))) ∧
    (dFlag d.desc 3 = true → checksPass (u.loadIndirectChecks d.desc) → buf = .error →
      exec (.endpointLoad dt ring buf) s = .next (b.dmaError.finishHead ring 0x09 0 0))) ∧
  (∀ (dt ring : Nat) (buf : HostRead) (s : State) (d : Slot),
    let u := s.elapse dt
    let b := u.settle ring
    let e := parseSection (dBytes d.desc 24 4)
    u.headRuns ring 0x04 d → dFlag d.desc 3 = false → dLength d.desc = 1 →
    checksPass ([flagCheck d.desc 0x02, (inRange 1 10 1, 2), (decide (dfield d.desc 16 8 ≤ b.now + 2 ^ 32), 16)] ++
      sectionChecks (dBytes d.desc 24 4) 24) →
    (∀ m ∈ u.sectionMembers e.section_, (u.entry m).mode ≠ .latched) →
    ∃ v : State, exec (.sectionSet dt ring buf) s = .next (v.finishHead ring 0x00 0 0) ∧
      v.section_ e.section_ = { u.section_ e.section_ with state := dfield d.desc 26 1, latch := (dfield d.desc 27 1).testBit 0 } ∧
      e.section_ = dfield d.desc 24 2 ∧ (∀ k, k ≠ e.section_ → v.section_ k = u.section_ k) ∧
      v = { b with gle := { u.gle with sections := v.gle.sections }, gnb := v.gnb }) ∧
  (∀ (dt ring : Nat) (s : State) (d : Slot),
    let u := s.elapse dt
    let b := u.settle ring
    u.headRuns ring 0x05 d → checksPass (b.productChecks d.desc) →
    ∃ v : State, exec (.productSet dt ring) s = .next (v.finishHead ring 0x00 0 0) ∧
      v.product (dfield d.desc 16 1) = parseProduct d.desc ∧ (∀ k, k ≠ dfield d.desc 16 1 → v.product k = u.product k) ∧
      (∀ p, 1 ≤ p → p ≤ 63 → Tbl.get 0 v.gle.demand p = min 0xFFFFFFFF (v.demandOf p)) ∧ (∀ k, v.entry k = u.entry k) ∧
      ((u.product (dfield d.desc 16 1)).enable = false ∨ (parseProduct d.desc).enable = true →
        (parseProduct d.desc).pwmPeriod ≠ 0 ∨ (∀ n, (u.dyn (localBase + n)).pwmRun = false) → ∀ k, v.dyn k = u.dyn k)) ∧
  (∀ (dt : Nat) (v : Word) (s : State),
    let u := s.elapse dt
    u.hostTo 2 = true →
    (bit v 0 = u.gle.enable → exec (.gleEnableWrite dt v) s = .next u) ∧
    (bit v 0 = true → u.gle.enable = false →
      ∃ t : State, exec (.gleEnableWrite dt v) s = .next t ∧ t.gle.enable = true ∧
        (∀ ep, (u.entry ep).evaluated = true →
          (let ahead := u.leadOf ep + u.spacing ep u.gle.probeSteps
           (t.dyn ep).probe = some { next := ceilSlot (u.now + ahead), due := ceilSlot (u.now + ahead) - ahead })) ∧
        (∀ ep, t.entry ep = u.entry ep ∧ (t.dyn ep).heldOn = (u.dyn ep).heldOn)) ∧
    (bit v 0 = false → u.gle.enable = true →
      ∃ t : State, exec (.gleEnableWrite dt v) s = .next t ∧ t.gle.enable = false ∧ (∀ ep, (t.dyn ep).probe = none) ∧
        (∀ ep, t.entry ep = u.entry ep ∧ (t.dyn ep).heldOn = (u.dyn ep).heldOn)))

/-! ### The pose (06_pose_geometry.md) -/

/-- A pose epoch publishes the pose of its tick, brings demand up to date and settles whether R20 holds (R20, R108, R154,
R174); an exclusion ends (R171); an EXT_FIX counts, and one older than the history is stale (R155, R175); GEOMETRY_SET's MODEL
waits for an epoch and its ORIGIN needs GLE and the layers off (R158, R161). -/
def Obligations.PoseIsPublished : Prop :=
  (∀ (dt : Nat) (s : State),
    let u := s.elapse dt
    let e := u.now / 1000000 * 1000000
    u.isReady 4 = true → (∀ k, u.pse.epochTick = some k → k < e) →
    ∃ t : State, exec (.poseEpoch dt) s = .next t ∧ t.pse.epochTick = some t.pse.cur.tick ∧ e ≤ t.pse.cur.tick ∧
      t.pse.epoch = BitVec.ofNat 32 (t.pse.cur.tick / 1000000) ∧ t.pse.modelWaits = [] ∧ t.pse.resetFlag = false ∧
      (u.pse.modelWaits = [] → t.pse.model = u.pse.model ∧ (u.pse.epochTick ≠ none → u.pse.cur ∈ t.pse.hist)) ∧
      (∀ w, u.pse.modelWaits.getLast? = some w → t.pse.model = w.model ∧ t.pse.hist = []) ∧
      t.gle.poseOk = (t.isReady 5 && t.pse.valid && decide (t.posUnc ≤ t.gle.poseLimit)) ∧
      (∀ p, 1 ≤ p → p ≤ 63 → Tbl.get 0 t.gle.demand p = min 0xFFFFFFFF (t.demandOf p))) ∧
  (∀ (dt k j : Nat) (s : State),
    let u := s.elapse dt
    (u.psrc j).excludedUntil = some k → k ≤ u.now →
    ∃ t : State, exec (.exclusionExpiry dt j) s = .next t ∧
      t.psrc j = { u.psrc j with excludedUntil := none, rejects := 0 } ∧ (∀ i, i ≠ j → t.psrc i = u.psrc i) ∧
      t = { u with pse := { u.pse with srcs := t.pse.srcs } }) ∧
  (∀ (dt ring : Nat) (s : State) (d : Slot),
    let u := s.elapse dt
    let b := u.settle ring
    let tick := if dfield d.desc 16 8 = 0 then u.now else dfield d.desc 16 8
    let c (o given : Nat) : Nat := if dfield d.desc o 2 = 0 then 5 else given
    u.headRuns ring 0x0C d → checksPass (b.extFixChecks d.desc) →
    (64000000 < u.now - tick ∨ tick < u.pse.histFloor →
      ∃ v : State, exec (.extFix dt ring) s = .next (v.finishHead ring 0x00 (c 44 1 + 16 * c 46 1 + 256 * c 48 1) 0) ∧
        v.pse = { u.pse with rejectCount := v.pse.rejectCount, fault := setFlag u.pse.fault u.cycle 3 } ∧
        v = { b with pse := v.pse, icu := (b.raise 135).icu }) ∧
    (u.now - tick ≤ 64000000 → u.pse.histFloor ≤ tick →
      ((dfield d.desc 50 1).testBit 1 = true → (u.pse.dueAt tick).vehModel = none →
        exec (.extFix dt ring) s = .next (b.finishHead ring 0x00 (c 44 4 + 16 * c 46 4 + 256 * c 48 4) 0)) ∧
      ∃ (v : State) (detail : Nat), exec (.extFix dt ring) s = .next (v.finishHead ring 0x00 detail 0) ∧
        v = { b with pse := v.pse, icu := v.icu, hre := v.hre, out := v.out, evr := v.evr, nv := v.nv })) ∧
  (∀ (dt ring : Nat) (s : State) (d : Slot),
    let u := s.elapse dt
    let b := u.settle ring
    u.headRuns ring 0x0E d →
    (dfield d.desc 16 1 = 0 → checksPass (b.modelChecks d.desc) →
      ∃ v : State, exec (.geometrySet dt ring) s = .next (v.startHead ring []) ∧
        v.pse.modelWaits = u.pse.modelWaits ++ [{ ring, index := d.index, model := parseModel d.desc }] ∧
        v = { b with pse := { u.pse with modelWaits := v.pse.modelWaits } }) ∧
    (dfield d.desc 16 1 = 1 → checksPass (originChecks d.desc) →
      (u.originFree = true →
        ∃ v : State, exec (.geometrySet dt ring) s = .next (v.finishHead ring 0x00 0 0) ∧ v.pse.originSet = true ∧
          v.pse.originLat = dsfield d.desc 20 4 ∧ v.pse.originLon = dsfield d.desc 24 4 ∧ v.pse.originHeight = dsfield d.desc 28 4 ∧
          v = { b with pse := { u.pse with originSet := true, originLat := v.pse.originLat, originLon := v.pse.originLon,
                                           originHeight := v.pse.originHeight } }) ∧
      (u.originFree = false → exec (.geometrySet dt ring) s = .next (b.finishHead ring 0x08 1 0))))

/-! ### Layers, frames and pools (05_map_pager.md) -/

/-- ARENA_GRANT puts its grant at the end of the arena (R131, R132); ARENA_QUOTA sets a quota, OVER where it is below the
frames in use (R133, R134); a layer is enabled with a root table, disabled when nothing uses it, and refused otherwise (R137,
R153); PASS_ADVANCE waits for a pose epoch, where its layers' pass epochs advance (R126); TARGET_MARK sets the cells its
squares name (R151); TILE_RELEASE discards tiles with their frames (R149). -/
def Obligations.LayersTakeFramesAndMarks : Prop :=
  (∀ (dt ring : Nat) (s : State) (d : Slot),
    let u := s.elapse dt
    let b := u.settle ring
    u.headRuns ring 0x06 d → checksPass (u.arenaGrantChecks d.desc) →
    ∃ v : State, exec (.arenaGrant dt ring) s = .next (v.finishHead ring 0x00 u.mpg.grants.length u.arenaSize) ∧
      v.mpg.grants = u.mpg.grants ++
        [{ addr := dfield d.desc 16 8, size := dfield d.desc 24 4, pool := dfield d.desc 28 1, offset := u.arenaSize }] ∧
      (Tbl.wf {} u.mpg.tiles = true → ∀ k, (u.tile k).unbacked = false → v.tile k = u.tile k) ∧
      (u.unbackedCount = 0 → v = { b with mpg := { u.mpg with grants := v.mpg.grants } })) ∧
  (∀ (dt ring : Nat) (s : State) (d : Slot),
    let u := s.elapse dt
    let b := u.settle ring
    let l := dfield d.desc 16 1
    let q := dfield d.desc 20 4
    let y := u.layer l
    u.headRuns ring 0x07 d →
    checksPass ([flagCheck d.desc 0x02, (decide (l ≤ 31), 16)] ++ zeroBytes d.desc 17 3 ++ zeroBytes d.desc 24 40) →
    ∃ v : State, exec (.arenaQuota dt ring) s = .next (v.finishHead ring 0x00 (v.layer l).use 0) ∧ (v.layer l).quota = q ∧
      (∀ k, k ≠ l → v.layer k = u.layer k) ∧ (Tbl.wf {} u.mpg.tiles = true → ∀ k, (u.tile k).unbacked = false → v.tile k = u.tile k) ∧
      v.mpg.grants = u.mpg.grants ∧
      (u.unbackedCount = 0 →
        v.layer l = { y with quota := q, isOver := decide (q < y.use) || (y.isOver && decide (q = y.use)) } ∧
        v = { b with mpg := { u.mpg with layers := v.mpg.layers, fault := v.mpg.fault }, icu := v.icu })) ∧
  (∀ (dt l : Nat) (w : Word) (s : State),
    let u := s.elapse dt
    let y := u.layer l
    let cfg (y : Layer) : Layer :=
      { y with share := bit w 6, samePass := bit w 7, autoPass := bit w 8, unknownMode := bit w 9, unknownValue := bits w 16 16 }
    u.hostTo 3 = true → l < 32 →
    ∃ t : State, exec (.layerCfgWrite dt l w) s = .next t ∧
      (y.enable = false ∨ bit w 5 = true ∨ u.canDisable l = false ∨ u.unbackedCount = 0 → ∀ k, k ≠ l → t.layer k = u.layer k) ∧
      (y.enable = false → bit w 5 = true → Tbl.wf {} u.mpg.layers = true → u.canEnable (bits w 0 2) (bits w 2 3) = true →
        (u.poolFree 5 ≠ 0 →
          ∃ r, t.layer l = { cfg y with kind := bits w 0 2, cell := bits w 2 3, enable := true, epoch := 0, startHeading := none,
                                        root := some r, advances := [] } ∧ t.mpg.tiles = u.mpg.tiles ∧ t.mpg.fault = u.mpg.fault) ∧
        (u.poolFree 5 = 0 → (t.layer l).enable = false ∧ bit t.mpg.fault.w 1 = true ∧ bit t.mpg.fault.w 8 = true)) ∧
      (y.enable = false → bit w 5 = true → Tbl.wf {} u.mpg.layers = true → u.canEnable (bits w 0 2) (bits w 2 3) = false →
        (t.layer l).enable = false ∧ bit t.mpg.fault.w 8 = true) ∧
      (y.enable = true → bit w 5 = true → t.layer l = cfg y) ∧
      (y.enable = true → bit w 5 = false →
        (u.canDisable l = true → (t.layer l).enable = false ∧ ∀ k, keyLayer k = l → t.tile k = {}) ∧
        (u.canDisable l = false → t.layer l = cfg y ∧ bit t.mpg.fault.w 8 = true ∧ t.mpg.tiles = u.mpg.tiles))) ∧
  (∀ (dt ring : Nat) (s : State) (d : Slot),
    let u := s.elapse dt
    let b := u.settle ring
    let mask := dfield d.desc 16 4
    u.headRuns ring 0x19 d →
    checksPass ([flagCheck d.desc 0x02] ++
      ((List.range 32).map fun l => (!mask.testBit l || ((u.layer l).enable && (u.layer l).kind == 0), 16 + l / 8)) ++
      zeroBytes d.desc 20 44) →
    exec (.passAdvance dt ring) s = .next
      (({ b with mpg := { u.mpg with passWaits := u.mpg.passWaits ++ [{ ring, index := d.index, mask }] } } : State).startHead ring [])) ∧
  (∀ (q : PoseState) (valid : Bool) (l : Nat) (s : State),
    ((s.advancePass q valid l).layer l).epoch = (s.layer l).epoch + 1 ∧
    (∀ k, k ≠ l → ((s.advancePass q valid l).layer k).epoch = (s.layer k).epoch)) ∧
  (∀ (dt ring : Nat) (buf : HostRead) (s : State) (d : Slot),
    let u := s.elapse dt
    let b := u.settle ring
    let bs := dBytes d.desc 16 48
    let l := wordAt bs 0 1
    let n := dLength d.desc
    let ms := (slices (bs.drop 4) 12 n).map fun e => parseMark e.2
    let cells (m : Mark) := m.cells (cellMm (u.layer l).cell)
    u.headRuns ring 0x0B d →
    (dFlag d.desc 3 = true →
      checksPass ([flagCheck d.desc 0x0A, (decide (1 ≤ n) && lengthFits d.desc (8 + 12 * n + 4 * (n % 2)), 2)] ++ indirectChecks d.desc) →
      (buf = .error → exec (.targetMark dt ring buf) s = .next (b.dmaError.finishHead ring 0x09 0 0)) ∧
      (∀ raw, buf = .data raw → u.targetLayer (wordAt raw 0 1) = true →
        checksPass (zeroBuf raw 1 7 1 ++ ((slices (raw.drop 8) 12 n).flatMap fun e => markChecks e.2 (8 + e.1)) ++
          (if n % 2 = 1 then zeroBuf raw (8 + 12 * n) 4 (8 + 12 * n) else [])) →
        let ns := (slices (raw.drop 8) 12 n).map fun e => parseMark e.2
        (∀ m ∈ ns, ∀ k ∈ tilesOf (wordAt raw 0 1) (m.cells (cellMm (u.layer (wordAt raw 0 1)).cell)), (u.tile k).place ≠ .away) →
        exec (.targetMark dt ring buf) s =
          .next ((ns.foldl (fun s m => s.applyMark (wordAt raw 0 1) m) b).finishHead ring 0x00 0 0))) ∧
    (dFlag d.desc 3 = false → u.targetLayer l = true →
    checksPass ([flagCheck d.desc 0x02, (inRange 1 3 n, 2)] ++ zeroBytes d.desc 17 3 ++
      ((slices (bs.drop 4) 12 (min 3 n)).flatMap fun e => markChecks e.2 (20 + e.1)) ++ zeroBytes d.desc 56 8) →
    ((∀ m ∈ ms, ∀ k ∈ tilesOf l (cells m), (u.tile k).place ≠ .away) →
      exec (.targetMark dt ring buf) s = .next ((ms.foldl (fun s m => s.applyMark l m) b).finishHead ring 0x00 0 0)) ∧
    (∀ m k, ms = [m] → tilesOf l (cells m) = [k] → (u.tile k).place = .absent → u.cacheFull (u.isCoarse k) = false →
      u.canCreate k = true →
      ∃ v : State, exec (.targetMark dt ring buf) s = .next (v.finishHead ring 0x00 0 0) ∧ (v.tile k).place = .resident ∧
        ∀ i, Tbl.get 0 (v.tile k).cells i = if i ∈ cellsIn k (cells m) then b2n (!m.clear) else 0) ∧
    ((∀ m ∈ ms, ∀ k ∈ tilesOf l (cells m), (u.tile k).place = .resident ∨ (u.tile k).place = .lost) →
    ∃ v : State, exec (.targetMark dt ring buf) s = .next (v.finishHead ring 0x00 0 0) ∧
      v = { b with mpg := { u.mpg with tiles := v.mpg.tiles, oor := v.mpg.oor, fault := v.mpg.fault }, icu := v.icu } ∧
      (∀ tx ty i, tileInRange tx = true → tileInRange ty = true → (u.tile (tileKey l tx ty)).place = .resident →
        Tbl.get 0 (v.tile (tileKey l tx ty)).cells i =
          ms.foldl (fun x m => if i ∈ cellsIn (tileKey l tx ty) (cells m) then b2n (!m.clear) else x)
            (Tbl.get 0 (u.tile (tileKey l tx ty)).cells i)) ∧
      (∀ k, (∀ m ∈ ms, k ∉ tilesOf l (cells m)) → v.tile k = u.tile k)))) ∧
  (∀ (dt ring : Nat) (s : State) (d : Slot),
    let u := s.elapse dt
    let l := dfield d.desc 16 1
    let ks := u.releaseKeys d.desc
    u.headRuns ring 0x0A d → checksPass (u.tileReleaseChecks d.desc) →
    ∃ v : State, exec (.tileRelease dt ring) s = .next (v.finishHead ring 0x00 ks.length 0) ∧
      (Tbl.wf {} u.mpg.tiles = true → (∀ k ∈ ks, v.tile k = {}) ∧
        ∀ k, k ∉ ks → (u.tile k).unbacked = false → v.tile k = u.tile k) ∧
      (u.unbackedCount = 0 → ks.Nodup →
        (v.layer l).use = (u.layer l).use - ks.countP fun k => (u.tile k).frame.isSome))

/-! ### Tiles (05_map_pager.md) -/

/-- TILE_IMPORT replaces or merges whole tiles and merges deltas, and TILE_EXPORT writes tiles out (R143-R145, R148); a fetch
brings a tile, fails until its retry, or brings one that is not used (R141); a due tile is written back, an evicted one leaves
(R139, R142); a 33rd unbacked tile drops the oldest (R135); a waiting delta is merged once its tile is there (R145). Own
coverage counts passes (R124). -/
def Obligations.TilesComeAndGo : Prop :=
  (∀ (dt ring : Nat) (buf : HostRead) (s : State) (d : Slot),
    let u := s.elapse dt
    let b := u.settle ring
    let n := dLength d.desc
    u.headRuns ring 0x08 d → checksPass (tileImportChecks d.desc) →
    (buf = .error → exec (.tileImport dt ring buf) s = .next (b.dmaError.finishHead ring 0x09 0 0)) ∧
    (∀ raw, buf = .data raw →
      let bs := raw.take (dfield d.desc 24 4)
      let l := wordAt bs 4 1
      let y := u.layer l
      let sz := 64 + tileBytes y.kind
      let ts := (slices bs sz n).map fun e => parseTile y.kind e.2
      let merge := dFlag d.desc 4
      let ds := (slices bs 48 n).map fun e => parseDelta e.2
      (dFlag d.desc 5 = true → checksPass ((slices bs 48 n).flatMap fun e => u.deltaChecks e.2 e.1) →
        u.mergeCount + (ds.filter u.deltaWaits).length ≤ 4096 →
        exec (.tileImport dt ring buf) s = .next ((ds.foldl (fun s d => s.applyDelta d false) b).finishHead ring 0x00 0 0)) ∧
      (dFlag d.desc 5 = false → l ≤ 31 → y.enable = true → (merge = true → y.kind = 0) → bs.length = n * sz →
        checksPass ((slices bs sz n).flatMap fun e => tileChecks l y e.2 e.1) →
        (∀ i w, ts = [i] → merge = false → (u.tile i.key).frame = none → (u.tile i.key).unbacked = false →
          u.frameCheck i.key = some w →
          exec (.tileImport dt ring buf) s = .next ((b.noteNoFrame w).finishHead ring 0x04 l 0)) ∧
        (∀ i, ts = [i] → merge = false → (u.tile i.key).place ≠ .resident → u.cacheFull (u.isCoarse i.key) = false →
          (u.tile i.key).frame.isSome = true ∨ u.frameCheck i.key = none ∧ (u.tile i.key).unbacked = false →
          ∃ v : State, exec (.tileImport dt ring buf) s = .next (v.finishHead ring 0x00 0 0) ∧ (v.tile i.key).frame.isSome = true ∧
            (v.tile i.key).place = .resident ∧ (v.tile i.key).pairs = i.pairs ∧
            (v.tile i.key).cells = (Tile.replace y u.now i {}).cells ∧ ∀ k, k ≠ i.key → v.tile k = u.tile k) ∧
        ((ts.map Imported.key).Nodup →
        (∀ i ∈ ts, (u.tile i.key).frame.isSome = true ∧ (u.tile i.key).place = .resident ∧ u.awaited i.key = false) →
        ∃ v : State, exec (.tileImport dt ring buf) s = .next (v.finishHead ring 0x00 0 0) ∧
          (merge = false → ∀ i ∈ ts, v.tile i.key = Tile.replace y u.now i (u.tile i.key)) ∧
          (merge = true → ∀ i ∈ ts, ∀ c,
            Tbl.get 0 (v.tile i.key).cells c =
              mergeCell y.epoch (Tbl.get 0 i.cells c) (Tbl.get 0 (y.refresh u.now (u.tile i.key)).cells c)) ∧
          (∀ k, (∀ i ∈ ts, i.key ≠ k) → v.tile k = u.tile k) ∧ v.mpg.grants = u.mpg.grants)))) ∧
  (∀ (dt ring : Nat) (destOk : Bool) (s : State) (d : Slot),
    let u := s.elapse dt
    let b := u.settle ring
    let l := dfield d.desc 16 1
    let sz := 64 + tileBytes (u.layer l).kind
    let ks := (rectKeys d.desc).filter fun k => (u.tile k).place == .resident
    u.headRuns ring 0x09 d → checksPass (u.tileExportChecks d.desc) → (∀ k ∈ rectKeys d.desc, u.unsettled k = false) →
    (destOk = false → exec (.tileExport dt ring destOk) s = .next (b.dmaError.finishHead ring 0x09 0 0)) ∧
    (destOk = true → (∀ k ∈ ks, u.awaited k = false) →
      ∃ (v : State) (more ws : List HostWrite),
        exec (.tileExport dt ring destOk) s = .next (v.finishHead ring 0x00 ks.length u.mpg.covSeq.toNat) ∧
        v.out.host = more ++ ws ++ b.out.host ∧
        (dFlag d.desc 4 = false → more = [] ∧ v = { b with mpg := { u.mpg with tiles := v.mpg.tiles, mergeQ := v.mpg.mergeQ }, out := v.out }) ∧
        (dFlag d.desc 4 = true → Tbl.wf {} u.mpg.tiles = true → ∀ k ∈ ks, v.tile k = {}) ∧
        ws.reverse = (List.range ks.length).flatMap fun j =>
          let k := ks.getD j 0
          let x := ((u.layer (keyLayer k)).refresh u.now (u.tile k)).used u.now
          [HostWrite.data (dfield d.desc 24 8 + sz * j + 64) (u.layer l).kind x.cells,
            HostWrite.header (dfield d.desc 24 8 + sz * j) (u.headerOf k x)])) ∧
  (∀ (dt l : Nat) (tx ty : Int) (read : TileRead) (s : State),
    let u := s.elapse dt
    let k := tileKey l tx ty
    let y := u.layer (keyLayer k)
    u.fetches k = true →
    ∀ retry : Bool, (retry = false → (u.tile k).failTick = none) →
    (retry = true → ∃ f, (u.tile k).failTick = some f ∧ f + 20000000 ≤ u.now) →
    ∃ t : State, (if retry then exec (.fetchRetry dt l tx ty read) s else exec (.tileFetchDone dt l tx ty read) s) = .next t ∧
      (read = .error →
        t.tile k = { u.tile k with failTick := some u.now } ∧ bit t.mpg.fault.w 6 = true ∧ ∀ j, j ≠ k → t.tile j = u.tile j) ∧
      (∀ la fo ok ep mg ps cs, read = .tile la fo ok ep mg ps cs →
        (ok = true ∧ la = keyLayer k ∧ fo = y.kind + 4 * y.cell →
          (t.tile k).place = .resident ∧ (t.tile k).lastEpoch = BitVec.ofNat 32 ep ∧ (t.tile k).merged = mg ∧
            (t.tile k).pairs = ps.take 8 ∧
            (t.tile k).cells = tblOf (cs.map fun c => (c.1 % 65536, c.2 % 2 ^ kindBits y.kind)) ∧ (t.tile k).dirty = false ∧
            (t.tile k).sought = false ∧ (t.tile k).frame = (u.tile k).frame ∧ t.mpg.fault = u.mpg.fault ∧
            (u.cacheFull (u.isCoarse k) = false → ∀ j, j ≠ k → t.tile j = u.tile j)) ∧
        (ok = false ∨ la ≠ keyLayer k ∨ fo ≠ y.kind + 4 * y.cell → bit t.mpg.fault.w 3 = true ∧
          ((u.mpg.tiles.filter fun e => e.2.place == .lost).length < 256 →
            (t.tile k).place = .lost ∧ (t.tile k).frame = (u.tile k).frame ∧ ∀ j, j ≠ k → t.tile j = u.tile j)))) ∧
  (∀ (dt l : Nat) (tx ty : Int) (evict destOk : Bool) (s : State) (f h : Nat),
    let u := s.elapse dt
    let k := tileKey l tx ty
    let x := u.tile k
    u.isReady 5 = true → x.place = .resident → x.frame = some f → x.header = some h → x.unbacked = false →
    evict = true ∧ u.evicts k = true ∨ evict = false ∧ x.dirty = true ∧ x.dirtyTick + u.mpg.wbInterval * 20000000 ≤ u.now →
    ∃ t : State, exec (.writebackDue dt l tx ty evict destOk) s = .next t ∧ (∀ j, j ≠ k → t.tile j = u.tile j) ∧
      (x.dirty = true → destOk = true →
        t.tile k = { x with place := if evict then .away else .resident, cells := if evict then [] else x.cells, dirty := false,
                            leafValid := true, folded := none, sought := !evict && x.sought } ∧
        HostWrite.data (u.arenaAddr (unitOffset (kindPool (u.layer (keyLayer k)).kind) f)) (u.layer (keyLayer k)).kind x.cells ∈ t.out.host ∧
        HostWrite.header (u.arenaAddr (unitOffset 4 h)) (u.headerOf k x) ∈ t.out.host ∧
        (x.leafValid = false →
          HostWrite.entry (u.arenaAddr (leafSlot (unitOffset 5 ((u.leaf k).getD 0)) k))
            (leafWord (unitOffset (kindPool (u.layer (keyLayer k)).kind) f) (unitOffset 4 h)) ∈ t.out.host)) ∧
      (x.dirty = true → destOk = false → t.tile k = { x with dirtyTick := u.now } ∧ bit t.mpg.fault.w 6 = true) ∧
      (x.dirty = false → t.tile k = { x with place := .away, cells := [], sought := false } ∧ t.out = u.out)) ∧
  (∀ (dt k : Nat) (s : State),
    let u := s.elapse dt
    u.isReady 5 = true → u.wantsRoom = true → u.oldestUnbacked none = some k →
    ∃ t : State, exec (.unbackedDrop dt) s = .next t ∧ t.mpg.tileDrop = count32 u.mpg.tileDrop ∧ bit t.mpg.fault.w 2 = true ∧
      ((u.mpg.tiles.filter fun e => e.2.place == .lost).length < 256 →
        (t.tile k).place = .lost ∧ (t.tile k).unbacked = false ∧ ∀ j, j ≠ k → t.tile j = u.tile j)) ∧
  (∀ (dt : Nat) (s : State) (a c : List MergeWait) (w : MergeWait),
    let u := s.elapse dt
    let stay := w.keys.filter fun k => (u.tile k).place == .away
    u.isReady 5 = true → u.drainable u.mpg.mergeQ = some (a, w, c) →
    ∃ t : State, exec (.mergeQueueDrain dt) s = .next t ∧
      ((∀ k ∈ w.keys, (u.tile k).place ≠ .absent) →
        t.mpg.mergeQ = a ++ (if stay = [] then [] else [{ w with keys := stay }]) ++ c ∧
        (∀ k, k ∉ w.keys → t.tile k = u.tile k) ∧ (∀ k ∈ stay, t.tile k = u.tile k)) ∧
      (∀ k, w.keys = [k] → (u.tile k).place = .resident → t.tile k = (u.deltaInto w k).tile k) ∧
      (∀ k, w.keys = [k] → (u.tile k).place = .absent → u.cacheFull (u.isCoarse k) = false →
        t.mpg.mergeQ = a ++ c ∧ (t.tile k).place = .resident)) ∧
  (∀ (d : Delta) (own : Bool) (k : Nat) (s : State),
    tilesOf d.layer (deltaCells d (cellMm (s.layer d.layer).cell)) = [k] →
    s.mustWait k = true →
      (s.applyDelta d own).mpg.mergeQ = s.mpg.mergeQ ++ [{ delta := d, keys := [k], own }] ∧
        (s.applyDelta d own).mpg.tiles = s.mpg.tiles) ∧
  (∀ (d : Delta) (k : Nat) (s : State),
    let y := s.layer d.layer
    let was := (y.refresh s.now (s.tile k)).cells
    (∀ c, Tbl.get 0 ((s.ownInto d k).tile k).cells c =
      if c ∈ cellsIn k (deltaCells d (cellMm y.cell)) then ownCell d.epoch (Tbl.get 0 was c) else Tbl.get 0 was c) ∧
    (∀ p, d.origin ≠ 0 → (s.tile k).pairs.find? (fun p => p.1 == d.origin) = some p → atOrBefore d.covSeq p.2 = true →
      s.mergeInto d k = s))

/-! ### GNSS (07_gnss_baseband.md) -/

/-- EPHEMERIS_LOAD's records wait for a measurement epoch, where each replaces that of its satellite and SOURCE or joins at
most 160 (R188, R191); an epoch, or the window of a burst, counts, applies them and checks bands, systems and baseline (R184,
R185, R192, R196, R198); a message counts when it fails its check, and its IOD ages records (R191, R200, R201); bursts start
2 s after they are allowed and end with that (R197, R198). -/
def Obligations.GnssEpochsRun : Prop :=
  (∀ (dt ring : Nat) (buf : HostRead) (s : State) (d : Slot),
    let u := s.elapse dt
    let b := u.settle ring
    let n := dLength d.desc
    u.headRuns ring 0x0D d →
    checksPass ([flagCheck d.desc 0x0A, (dFlag d.desc 3, 1), (inRange 1 512 n && lengthFits d.desc (128 * n), 2)] ++
      indirectChecks d.desc) →
    (buf = .error → exec (.ephemerisLoad dt ring buf) s = .next (b.dmaError.finishHead ring 0x09 0 0)) ∧
    (∀ bs, buf = .data bs → checksPass ((slices bs 128 n).flatMap fun r => ephChecks r.2 r.1) →
      ∃ (v : State) (w : EphWait), exec (.ephemerisLoad dt ring buf) s = .next (v.startHead ring []) ∧
        v = { b with gnb := { u.gnb with ephWait := u.gnb.ephWait ++ [w] } } ∧ w.ring = ring ∧ w.index = d.index ∧
        w.records = (((slices bs 128 n).filter fun r => wordAt r.2 0 1 == 1).map fun r => parseEph r.2) ∧
        w.assists = (((slices bs 128 n).filter fun r => !(wordAt r.2 0 1 == 1)).map fun r => parseAssist r.2))) ∧
  (∀ (es : List Eph) (a c : Nat) (e : Eph),
    (es.length ≤ 160 → (storeEph (es, a, c) e).1.length ≤ 160) ∧ e ∈ (storeEph (es, a, c) e).1 ∧
    (storeEph (es, a, c) e).2 = (a + 1, if es.any (fun x => x.same e) then c + 1 else c) ∧
    (es.any (fun x => x.same e) = false → es.length < 160 → (storeEph (es, a, c) e).1 = es ++ [e])) ∧
  (∀ (dt : Nat) (m : GnssEpoch) (window : Bool) (s : State),
    let u := s.elapse dt
    let p := measTicks u.gnb.measRate
    let e := if window then u.windowEpoch else u.now / p * p
    u.isReady 6 = true → u.gnb.burst = window → e ≤ u.now → u.gnb.newEpoch e = true →
    ∃ t : State, exec (if window then .burstWindow dt m else .gnssMeasEpoch dt m) s = .next t ∧
      t.gnb.lastMeasTick = some e ∧ t.gnb.measCount = u.gnb.measCount + 1 ∧ t.gnb.ephWait = [] ∧
      t.gnb.eph = u.gnb.ephWait.foldl (fun es w => (w.records.foldl storeEph (es, 0, 0)).1) u.gnb.eph ∧
      (t.gnb.fix = true → 4 ≤ t.gnb.signals ∧ t.gnb.fixTick = some e ∧ t.gnb.fixSinceReady = true) ∧
      (t.gnb.fix = false → t.gnb.signals = 0 ∧ t.gnb.timeOk = false ∧ t.gnb.fixSinceReady = u.gnb.fixSinceReady) ∧
      t.gnb.solFail = (if t.gnb.fix then u.gnb.solFail else count32 u.gnb.solFail) ∧
      (∀ b, b < 4 → u.bandExists b = true → b < m.agcGain.length →
        m.agcGain.getD b 0 + u.gnb.agcTol < (Tbl.get {} u.gnb.bands b).median →
        (Tbl.get {} t.gnb.bands b).interfered = true ∧ (Tbl.get {} t.gnb.bands b).failTick = e ∧ bit t.gnb.fault.w 2 = true) ∧
      (window = true → t.gnb.hdg = false ∧ t.gnb.baselineMeas = 0) ∧
      t.gle = u.gle ∧ t.mpg = u.mpg ∧ t.flp = u.flp ∧ t.dlk = u.dlk ∧ t.lsb = u.lsb ∧ t.prs = u.prs) ∧
  (∀ (ok : List GnssSignal) (a : Nat),
    (wantedTracks ok a).length ≤ 96 ∧ ∀ k ∈ wantedTracks ok 1, k ∈ wantedTracks ok 0) ∧
  (∀ (first k : Nat) (i : GnssInput) (s : State),
    let v := Config.gnssIsb i k
    let t := State.isbCheck first i s k
    (s.isbFails first k v = true →
      Tbl.get 0 t.gnb.isbUntil k = s.now + s.gnb.isbHold * 200000000 ∧ bit t.gnb.fault.w 5 = true ∧ t.gnb.isbRun = s.gnb.isbRun) ∧
    (s.isbFails first k v = false →
      (∃ r, Tbl.get none t.gnb.isbRun k = some r) ∧ t.gnb.isbUntil = s.gnb.isbUntil ∧ t.icu = s.icu)) ∧
  (∀ (ps : List (GnssSignal × GnssSignal)) (s : State),
    let b := Config.gnssBaseline s.gnb.baselineCfg ps
    let off := ((b.lengthMm : Int) - s.gnb.baselineCfg).natAbs
    let r := State.headingCheck false ps s
    s.antExists 1 = true → s.gnb.hdgMinSignals ≤ ps.length →
    (off ≤ 20 → r.1 = some b ∧ r.2.gnb.hdg = true ∧ r.2.gnb.hdgSignals = ps.length ∧ r.2.gnb.baselineFails = 0 ∧
      r.2.gnb.ambiguities = ps.map fun p => trackOf p.1) ∧
    (20 < off → r.1 = none ∧ r.2.gnb.hdg = false ∧ r.2.gnb.ambiguities = [] ∧
      (s.gnb.baselineFails = 2 → r.2.gnb.baselineFails = 0 ∧ bit r.2.gnb.fault.w 6 = true))) ∧
  (∀ (dt : Nat) (m : NavMessage) (k : Track) (s : State),
    let u := s.elapse dt
    let check := u.checkCode k m
    let hit (r : Eph) : Bool := r.system == k.system && r.sv == k.sv && r.source == sourceOf k.signal
    u.isReady 6 = true → u.antExists 0 = true → m.channel < 96 → u.track m.channel = some k →
    ∃ t : State, exec (.navMessage dt m) s = .next t ∧
      t.gnb.navFail = (if check = 1 then count32 u.gnb.navFail else u.gnb.navFail) ∧
      (check = 1 → bit t.gnb.fault.w 8 = true) ∧
      Tbl.get 0 t.gnb.msgCount m.channel = Tbl.get 0 u.gnb.msgCount m.channel + 1 ∧
      (check ≠ 0 → t = { u with gnb := { u.gnb with navFail := t.gnb.navFail, fault := t.gnb.fault, msgCount := t.gnb.msgCount,
                                                    lastBits := t.gnb.lastBits }, icu := t.icu, hre := t.hre, out := t.out }) ∧
      (∀ i, check = 0 → m.info = [.iod i] →
        Tbl.get none t.gnb.iods (ephKey k.system k.sv (sourceOf k.signal)) = some i ∧ t.tbu = u.tbu ∧
        t.gnb.eph = u.gnb.eph.map fun r =>
          if hit r then
            (if r.iod = i then { r with iodMisses := 0 }
            else { r with iodMisses := min 2 (r.iodMisses + 1), stale := r.stale || decide (1 ≤ r.iodMisses) })
          else r) ∧
      (∀ v, check = 0 → m.info = [.leapSecond v] → k.signal = 0x01 →
        t.tbu = { u.tbu with utcOffset := v, utcValid := true, utcFromGnss := true }) ∧
      t = { u with gnb := { u.gnb with navFail := t.gnb.navFail, fault := t.gnb.fault, eph := t.gnb.eph, iods := t.gnb.iods,
                                       msgCount := t.gnb.msgCount, lastBits := t.gnb.lastBits, klobuchar := t.gnb.klobuchar,
                                       utc := t.gnb.utc, galileoOffset := t.gnb.galileoOffset, beidouOffset := t.gnb.beidouOffset,
                                       sbas := t.gnb.sbas }, tbu := t.tbu, icu := t.icu, hre := t.hre, out := t.out }) ∧
  (∀ (dt k : Nat) (s : State),
    let u := s.elapse dt
    u.isReady 6 = true → u.gnb.burst = false → u.burstAllowed = true → u.gnb.armed = u.applyArmed →
    u.gnb.allowedSince = some k → k + 400000000 ≤ u.now / 200000000 * 200000000 →
    ∃ t : State, exec (.burstStart dt) s = .next t ∧
      t = { u with gnb := { u.gnb with burst := true, ambiguities := [], baselineMeas := 0, hdg := false, hdgSignals := 0 }, icu := t.icu }) ∧
  (∀ (dt : Nat) (s : State),
    let u := s.elapse dt
    u.isReady 6 = true → u.gnb.burst = true → u.burstAllowed = false → u.gnb.armed = u.applyArmed →
    ∃ t : State, exec (.burstExit dt) s = .next t ∧
      t = { u with gnb := { u.gnb with burst := false, resumeTick := u.now + 4000000, ambiguities := [], allowedSince := none },
                   icu := t.icu })

/-- A band is clear again 2 s after it last failed its check, a system after ISB_HOLD (R192); a notch engages on a peak over
the threshold that its band's other notch does not hold, and releases (R194); the bias of an antenna opens below 2 mA, is
short above 60 mA, is tried again every second and recovers between (R180). -/
def Obligations.BandsNotchesAndBias : Prop :=
  (∀ (dt m : Nat) (s : State),
    let u := s.elapse dt
    let c := Tbl.get {} u.gnb.bands m
    u.isReady 6 = true → c.interfered = true → c.failTick + 400000000 ≤ u.now →
    ∃ t : State, exec (.interferenceClear dt m) s = .next t ∧ Tbl.get {} t.gnb.bands m = { c with interfered := false } ∧
      (∀ k, k ≠ m → Tbl.get {} t.gnb.bands k = Tbl.get {} u.gnb.bands k) ∧
      t = { u with gnb := { u.gnb with bands := t.gnb.bands }, icu := (u.raise 165).icu }) ∧
  (∀ (dt k : Nat) (s : State),
    let u := s.elapse dt
    Tbl.get 0 u.gnb.isbUntil k ≤ u.now →
    ∃ t : State, exec (.isbHoldExpiry dt k) s = .next t ∧ Tbl.get 0 t.gnb.isbUntil k = 0 ∧
      (∀ j, j ≠ k → Tbl.get 0 t.gnb.isbUntil j = Tbl.get 0 u.gnb.isbUntil j) ∧
      t = { u with gnb := { u.gnb with isbUntil := t.gnb.isbUntil } }) ∧
  (∀ (dt n depth above : Nat) (off : Int) (s : State),
    let u := s.elapse dt
    let c := u.notch n
    u.isReady 6 = true → u.bandExists (n / 2) = true → c.enable = true → u.gnb.notchThresh < above →
    ((u.notch (n ^^^ 1)).active = true → (u.notch (n ^^^ 1)).offsetKhz ≠ off) →
    ∃ t : State, exec (.notchEngage dt n off depth above) s = .next t ∧
      t.notch n = { c with active := true, depthDb := max 40 depth, offsetKhz := off, overTick := u.now } ∧
      (∀ k, k ≠ n → t.notch k = u.notch k) ∧
      t = { u with gnb := { u.gnb with notches := t.gnb.notches }, icu := if c.active then u.icu else (u.raise 164).icu }) ∧
  (∀ (dt n : Nat) (s : State),
    let u := s.elapse dt
    u.isReady 6 = true → (u.notch n).active = true → (u.notch n).overTick + 200000000 ≤ u.now →
    ∃ t : State, exec (.notchRelease dt n) s = .next t ∧
      t.notch n = { u.notch n with active := false, depthDb := 0, offsetKhz := 0 } ∧ (∀ k, k ≠ n → t.notch k = u.notch k) ∧
      t = { u with gnb := { u.gnb with notches := t.gnb.notches }, icu := (u.raise 164).icu }) ∧
  (∀ (dt a ma : Nat) (s : State),
    let u := s.elapse dt
    let Moved (t : State) (w : Bias) (i : Option Nat) : Prop :=
      t.bias a = w ∧ (∀ k, k ≠ a → t.bias k = u.bias k) ∧ Tbl.get none t.gnb.biasMa a = i ∧
        (∀ k, k ≠ a → Tbl.get none t.gnb.biasMa k = Tbl.get none u.gnb.biasMa k) ∧ bit t.gnb.fault.w a = true ∧
        t = { u with gnb := { u.gnb with bias := t.gnb.bias, biasMa := t.gnb.biasMa, shortTick := t.gnb.shortTick, fault := t.gnb.fault },
                     icu := t.icu, evr := t.evr, nv := t.nv, hre := t.hre, out := t.out }
    a < 32 →
    (u.bias a = .ok → ma < 2 → ∃ t : State, exec (.antOpen dt a ma) s = .next t ∧ Moved t .opened (some ma) ∧ t.evr = u.evr) ∧
    (u.bias a = .ok → 2 ≤ ma → ma ≤ 60 →
      exec (.antOpen dt a ma) s = .next { u with gnb := { u.gnb with biasMa := Tbl.set none u.gnb.biasMa a (some ma) } }) ∧
    (u.bias a = .ok ∨ u.bias a = .opened → 60 < ma →
      ∃ t : State, exec (.antShort dt a ma) s = .next t ∧ Moved t .short none ∧ Tbl.get 0 t.gnb.shortTick a = u.now) ∧
    (u.bias a = .opened → 2 ≤ ma → ma ≤ 60 →
      ∃ t : State, exec (.antBiasRecover dt a ma) s = .next t ∧ Moved t .ok (some ma) ∧ t.evr = u.evr) ∧
    (u.bias a = .short → Tbl.get 0 u.gnb.shortTick a + 200000000 ≤ u.now →
      ∃ t : State, exec (.antBiasRetry dt a ma) s = .next t ∧ Tbl.get 0 t.gnb.shortTick a = u.now ∧ t.evr = u.evr ∧
        (2 ≤ ma → ma ≤ 60 → Moved t .ok (some ma)) ∧ (ma < 2 ∨ 60 < ma → t.gnb.bias = u.gnb.bias ∧ t.icu = u.icu)))

/-! ### Links (08_links.md) -/

/-- A port takes its in-band word: link, readiness, PSTATE (R204, R234, R361), with a new SESSION when it starts (R210).
BEATs and delay frames go out and delays are measured (R211, R213, R227); rings open and close (R208, R227). -/
def Obligations.PortsCarryFrames : Prop :=
  (∀ (dt p : Nat) (w : LinkWord) (s : State),
    let u := s.elapse dt
    let up := w == .up
    let bad := w == .wrongSpeed
    u.powered 5 = true →
    (p < Config.fieldPorts u.part →
      ∃ t : State, exec (.portLinkChange dt 0 p w) s = .next t ∧ (t.port p).linked = up ∧ (t.port p).speedBad = bad ∧
        (up = (u.port p).linked → bad = (u.port p).speedBad → t = u) ∧
        (up ≠ (u.port p).linked ∨ bad ≠ (u.port p).speedBad → t.isReady (8 + p) = up ∧ (t.port p).state = t.fieldState p) ∧
        (bad = true → (u.port p).speedBad = false → bit t.flp.fault.w 3 = true) ∧
        (∀ k, k ≠ p → (t.port k).linked = (u.port k).linked ∧ (t.port k).speedBad = (u.port k).speedBad) ∧
        t.dlk = u.dlk ∧ t.mpg = u.mpg ∧ t.pse = u.pse ∧ t.lsb = u.lsb) ∧
    (p < Config.deviceLinks u.part →
      ∃ t : State, exec (.portLinkChange dt 1 p w) s = .next t ∧ (t.dport p).linked = up ∧ (t.dport p).speedBad = bad ∧
        (up = (u.dport p).linked → bad = (u.dport p).speedBad → t = u) ∧
        (up ≠ (u.dport p).linked ∨ bad ≠ (u.dport p).speedBad → t.isReady (12 + p) = up ∧ (t.dport p).state = t.deviceState p) ∧
        (∀ k, k ≠ p → (t.dport k).linked = (u.dport k).linked ∧ (t.dport k).speedBad = (u.dport k).speedBad) ∧
        t.flp = u.flp ∧ t.mpg = u.mpg ∧ t.pse = u.pse ∧ t.lsb = u.lsb)) ∧
  (∀ (p : Nat) (s : State), (s.port p).lastSession < 65536 →
    ((s.newSession p).port p).session ≠ (s.port p).lastSession ∧ ((s.newSession p).port p).session < 65536 ∧
    ((s.newSession p).port p).lastSession = ((s.newSession p).port p).session) ∧
  (∀ (dt : Nat) (s : State),
    let u := s.elapse dt
    let b := u.now / 200000 * 200000
    let ps := u.beating b
    u.flp.beatTick < b → ps ≠ [] →
    ∃ (t : State) (ws : List Frame), exec (.beatSend dt) s = .next t ∧ t.flp.beatTick = b ∧ t.out.frames = ws ++ u.out.frames ∧
      (∀ p ∈ ps, (t.port p).beatCount = (u.port p).beatCount + 1) ∧
      (∀ p, p ∉ ps → t.port p = u.port p) ∧ (∀ f ∈ ws, f.link = 0 ∧ f.type = 1) ∧
      (∀ p ∈ ps, u.portUp p = true →
        ∃ f ∈ ws, f.port = p ∧ f.seq = (u.port p).beatCount.toNat % 65536 ∧ f.session = (u.port p).session ∧ fld 0 8 b ∈ f.body) ∧
      t = { u with flp := t.flp, out := t.out, prs := { u.prs with planned := t.prs.planned } }) ∧
  (∀ (dt p t1 t2 t3 : Nat) (h : TebHead) (s : State),
    let u := s.elapse dt
    p < Config.fieldPorts u.part → u.portUp p = true →
    (h.head.isBad u.flp.etherType = false →
      exec (.delayReq dt 0 p h t1 t2 t3) s = .next (u.sendFrame
        { link := 0, port := p, type := 5, seq := h.seq.toNat % 65536, session := (u.port p).session,
          body := delayBody t1 (t2 - 65536 * (u.port p).rxNs) (t3 + 65536 * (u.port p).txNs) })) ∧
    (h.head.isBad u.flp.etherType = true →
      ∃ t : State, exec (.delayReq dt 0 p h t1 t2 t3) s = .next t ∧
        t.port p = { u.port p with badFrame := count32 (u.port p).badFrame } ∧ bit t.flp.fault.w 2 = true ∧
        t = { u with flp := { u.flp with ports := t.flp.ports, fault := t.flp.fault }, icu := t.icu })) ∧
  (∀ (dt p t1 t2 t3 t4 : Nat) (h : TebHead) (s : State),
    let u := s.elapse dt
    let c := u.dport p
    u.dportHears p = true →
    (h.head.isBad u.dlk.etherType = false → h.origin ≠ u.mpg.domainId →
      (∃ t : State, exec (.delayReq dt 1 p h t1 t2 t3) s = .next t ∧
        t.out.frames = { link := 1, port := p, type := 0x25, node := u.mpg.domainId, seq := (u.dlk.seqOf 0x25).toNat, ttl := 1,
                         instanceId := u.dlk.instanceId, body := delayBody t1 (t2 - 65536 * c.rxNs) (t3 + 65536 * c.txNs) } :: u.out.frames ∧
        t.dlk.seqOf 0x25 = u.dlk.seqOf 0x25 + 1 ∧
        t = { u with dlk := { u.dlk with sendSeq := t.dlk.sendSeq }, out := { u.out with frames := t.out.frames } }) ∧
      (c.reqT1 = some t1 →
        ∃ t : State, exec (.delayResp dt p h t1 t2 t3 t4) s = .next t ∧
          t.dport p = { c with linkDelay := Int.fdiv ((((t4 - 65536 * c.rxNs : Nat) : Int) - t1) - ((t3 : Int) - t2)) 2, reqT1 := none } ∧
          (∀ j, j ≠ p → t.dport j = u.dport j) ∧ t = { u with dlk := { u.dlk with ports := t.dlk.ports } }) ∧
      (c.reqT1 ≠ some t1 → exec (.delayResp dt p h t1 t2 t3 t4) s = .next u)) ∧
    (h.head.isBad u.dlk.etherType = false → h.origin = u.mpg.domainId → h.instanceId ≠ u.dlk.instanceId →
      ∃ t : State, exec (.delayReq dt 1 p h t1 t2 t3) s = .next t ∧ exec (.delayResp dt p h t1 t2 t3 t4) s = .next t ∧
        t.dlk.dupId = true ∧ t.dlk.dupTick = u.now)) ∧
  (∀ (dt p : Nat) (s : State),
    let u := s.elapse dt
    let t1 := u.now * 327680 + 65536 * (u.dport p).txNs
    u.dportHears p = true →
    ∃ t : State, exec (.linkDelayMeasure dt p) s = .next t ∧
      t.dport p = { u.dport p with reqT1 := some t1 } ∧ (∀ j, j ≠ p → t.dport j = u.dport j) ∧
      t.dlk.seqOf 0x24 = u.dlk.seqOf 0x24 + 1 ∧
      t.out.frames = { link := 1, port := p, type := 0x24, node := u.mpg.domainId, seq := (u.dlk.seqOf 0x24).toNat, ttl := 1,
                       instanceId := u.dlk.instanceId, body := delayBody t1 0 0 } :: u.out.frames ∧
      t = { u with dlk := { u.dlk with ports := t.dlk.ports, sendSeq := t.dlk.sendSeq }, out := { u.out with frames := t.out.frames } }) ∧
  (∀ (dt pair : Nat) (closed : Bool) (s : State),
    let u := s.elapse dt
    let p := 2 * pair
    p + 1 < Config.fieldPorts u.part → u.inRing p = true → u.portUp p = true → u.portUp (p + 1) = true →
    (u.port p).ringClosed ≠ closed →
    ∃ t : State, exec (.fieldRingChange dt pair closed) s = .next t ∧ t.port p = { u.port p with ringClosed := closed } ∧
      (∀ k, k ≠ p → t.port k = u.port k) ∧
      t = { u with flp := { u.flp with ports := t.flp.ports }, icu := t.icu, hre := t.hre, out := t.out }) ∧
  (∀ (dt : Nat) (closed : Bool) (s : State),
    let u := s.elapse dt
    u.powered 5 = true → u.dportRuns 0 = true → u.dportRuns 1 = true → u.dlk.ringClosed ≠ closed →
    ∃ t : State, exec (.tebeciaRingChange dt closed) s = .next t ∧
      t = { u with dlk := { u.dlk with ringClosed := closed }, icu := t.icu, hre := t.hre, out := t.out })

/-- A node's waiting records leave in a frame of at most 180 and go again after ACK_WAIT (R215, R216, R218); a command not
acknowledged in 10 ms counts. A REPORT refreshes its node, acknowledges frames and, once safe, takes its endpoints out of
demand (R207, R208, R219, R221); a silent node is lost, a recovered one released, a DUP ends (R207, R221). -/
def Obligations.NodesAreCommanded : Prop :=
  (∀ (dt p n : Nat) (s : State),
    let u := s.elapse dt
    let d := u.node p n
    u.frameDue p n = true →
    ∃ (t : State) (f : SentFrame) (rest : List CmdRec), exec (.commandFrameSend dt p n) s = .next t ∧
      d.waiting = f.records ++ rest ∧ f.records ≠ [] ∧ f.records.length ≤ 180 ∧
      (180 < d.waiting.length → (f.records.getLast?.map fun r => r.kind) = some 3 → f.records.length ≠ 180) ∧
      f.seq = (d.seq + 1) % 65536 ∧ f.sentTick = u.now ∧ f.retries = 0 ∧
      t.node p n = { d with seq := f.seq, waiting := rest, sent := d.sent ++ [f] } ∧
      (∀ k, k ≠ 256 * p + n → Tbl.get {} t.flp.nodes k = Tbl.get {} u.flp.nodes k) ∧
      (u.portUp p = true → ∃ g ∈ t.out.frames, g.link = 0 ∧ g.port = p ∧ g.type = 2 ∧ g.node = n ∧ g.seq = f.seq ∧
        g.records = f.records.map CmdRec.fields) ∧
      t = { u with flp := { u.flp with nodes := t.flp.nodes }, out := { u.out with frames := t.out.frames } }) ∧
  (∀ (dt p n : Nat) (s : State) (a c : List SentFrame) (f : SentFrame),
    let u := s.elapse dt
    let d := u.node p n
    u.portExists p = true → u.portRuns p = true → d.sent = a ++ f :: c → (∀ g ∈ a, u.ackDue g = false) → u.ackDue f = true →
    ∃ t : State, exec (.ackWaitExpiry dt p n) s = .next t ∧
      t.node p n = { d with sent := a ++ (f :: c).map fun g => { g with sentTick := u.now, retries := g.retries + 1 } } ∧
      (∀ k, k ≠ 256 * p + n → Tbl.get {} t.flp.nodes k = Tbl.get {} u.flp.nodes k) ∧
      (u.portUp p = true → ∀ g ∈ f :: c, ∃ h ∈ t.out.frames, h.port = p ∧ h.type = 2 ∧ h.node = n ∧ h.seq = g.seq % 65536) ∧
      t = { u with flp := { u.flp with nodes := t.flp.nodes }, out := { u.out with frames := t.out.frames } }) ∧
  (∀ (dt p n : Nat) (s : State),
    let u := s.elapse dt
    let d := u.node p n
    let late (r : CmdRec) : Bool := r.lateAt u.now
    let k := (d.waiting.filter late).length + ((d.sent.map fun f => (f.records.filter late).length).foldl (· + ·) 0)
    u.portExists p = true → 0 < k →
    ∃ t : State, exec (.unacked dt p n) s = .next t ∧ t.port p = { u.port p with unacked := satAdd 0xFFFFFFFF (u.port p).unacked k } ∧
      bit t.flp.fault.w 0 = true ∧ (t.node p n).waiting = d.waiting.filter (fun r => !late r) ∧
      (∀ f ∈ (t.node p n).sent, ∀ r ∈ f.records, r.lateAt u.now = false) ∧
      (∀ j, j ≠ p → t.port j = u.port j) ∧
      t = { u with flp := { u.flp with nodes := t.flp.nodes, ports := t.flp.ports, fault := t.flp.fault }, icu := t.icu }) ∧
  (∀ (dt q : Nat) (r : NodeReport) (s : State),
    let u := s.elapse dt
    let p := u.nodePort q
    let d := u.node p r.node
    q < Config.fieldPorts u.part → u.portUp q = true → r.node < 256 →
    (r.head.isBad u.flp.etherType = true →
      ∃ t : State, exec (.nodeReport dt q r) s = .next t ∧ t.port q = { u.port q with badFrame := count32 (u.port q).badFrame } ∧
        bit t.flp.fault.w 2 = true ∧ t.flp.nodes = u.flp.nodes ∧
        t = { u with flp := { u.flp with ports := t.flp.ports, fault := t.flp.fault }, icu := t.icu }) ∧
    (r.head.isBad u.flp.etherType = false →
      (u.inRing p = true → r.seq ∈ d.repSeqs → exec (.nodeReport dt q r) s = .next u) ∧
      (u.inRing p = false ∨ r.seq ∉ d.repSeqs →
        ∃ t : State, exec (.nodeReport dt q r) s = .next t ∧
          (t.node p r.node).present = true ∧ (t.node p r.node).safe = r.safe ∧ (t.node p r.node).syncOk = r.syncOk ∧
          (t.node p r.node).hop = r.hop ∧ (t.node p r.node).endpoints = r.endpoints ∧ (t.node p r.node).lastBeat = r.beatSeen ∧
          (t.node p r.node).lastReportTick = u.now ∧ (t.node p r.node).repSeqs = (r.seq :: d.repSeqs).take 8 ∧ (t.node p r.node).ackSeq = r.ackSeq ∧
          (t.node p r.node).sent = d.sent.filter (fun f => precedes16 r.ackSeq f.seq) ∧
          (d.seen = true → beatOf d.lastReportTick = beatOf u.now → d.hop ≠ r.hop →
            (t.node p r.node).dup = true ∧ bit t.flp.fault.w 1 = true) ∧
          (r.safe = true → d.safe = false → ∀ ep ∈ u.nodeEps p r.node, (t.dyn ep).inDemand = false) ∧
          (∀ k, k ≠ 256 * p + r.node → Tbl.get {} t.flp.nodes k = Tbl.get {} u.flp.nodes k) ∧
          t = { u with flp := t.flp, gle := t.gle, rge := t.rge, lca := t.lca, icu := t.icu, hre := t.hre, out := t.out }))) ∧
  (∀ (dt p n : Nat) (s : State),
    let u := s.elapse dt
    let d := u.node p n
    u.powered 5 = true → d.present = true → beatOf d.lastReportTick + 4 ≤ beatOf u.now →
    ∃ t : State, exec (.nodeLost dt p n) s = .next t ∧
      t.node p n = { d with present := false, safeBeats := 0, repSeqs := [], sendSafe := u.portRuns p } ∧
      (∀ k, k ≠ 256 * p + n → Tbl.get {} t.flp.nodes k = Tbl.get {} u.flp.nodes k) ∧
      (∀ ep ∈ u.nodeEps p n, (t.dyn ep).inDemand = false ∧ ∀ v ∈ t.gle.valveQ, v.ep ≠ ep) ∧
      (∀ ep, ep ∉ u.nodeEps p n → t.dyn ep = u.dyn ep) ∧
      t = { u with flp := { u.flp with nodes := t.flp.nodes }, gle := t.gle, rge := t.rge, icu := t.icu, evr := t.evr, nv := t.nv,
                   hre := t.hre, out := t.out }) ∧
  (∀ (dt p n : Nat) (s : State),
    let u := s.elapse dt
    let d := u.node p n
    u.portExists p = true → u.portRuns p = true → d.present = true → d.safe = true → u.flp.recover ≤ d.safeBeats →
    ∃ t : State, exec (.nodeRelease dt p n) s = .next t ∧ (t.node p n).safeBeats = 0 ∧
      (t.node p n).waiting = d.waiting ++ [{ endpoint := 0, kind := 6, tag := 0, value := 0 }] ∧
      (∀ ep ∈ u.nodeEps p n, (t.dyn ep).heldOn = false ∧ (t.dyn ep).inDemand = (u.dyn ep).inDemand) ∧
      (∀ ep, ep ∉ u.nodeEps p n → t.dyn ep = u.dyn ep) ∧
      (∀ k, k ≠ 256 * p + n → Tbl.get {} t.flp.nodes k = Tbl.get {} u.flp.nodes k) ∧
      t = { u with flp := { u.flp with nodes := t.flp.nodes }, gle := { u.gle with dyn := t.gle.dyn }, icu := t.icu, hre := t.hre,
                   out := t.out }) ∧
  (∀ (dt p n : Nat) (s : State),
    let u := s.elapse dt
    let d := u.node p n
    u.powered 5 = true → d.dup = true → 100 ≤ d.singleBeats - b2n (beatOf d.lastReportTick == beatOf u.now) →
    ∃ t : State, exec (.dupNodeClear dt p n) s = .next t ∧ t.node p n = { d with dup := false } ∧
      (∀ k, k ≠ 256 * p + n → Tbl.get {} t.flp.nodes k = Tbl.get {} u.flp.nodes k) ∧
      t = { u with flp := { u.flp with nodes := t.flp.nodes } })

/-- NODE_WRITE sends a WRITE under the ward for a node's warded settings (R224, R225); it is resent every 2 ms, completes with
its WRITE_RESP's result, and aborts at its time-out (R225). -/
def Obligations.NodeWritesAreAnswered : Prop :=
  (∀ (dt ring : Nat) (s : State) (d : Slot),
    let u := s.elapse dt
    let b := u.settle ring
    u.headRuns ring 0x14 d → checksPass (nodeWriteChecks d.desc) →
    (touchesWarded d.desc = true → u.wardAllows false = false →
      exec (.nodeWrite dt ring) s = .next (b.wardRefuse.finishHead ring 0x03 0 0)) ∧
    (touchesWarded d.desc = false ∨ u.wardAllows false = true →
      ∃ (v : State) (w : WritePend), exec (.nodeWrite dt ring) s = .next (v.startHead ring []) ∧
        v.flp.writes = u.flp.writes ++ [w] ∧ w.ring = ring ∧ w.index = d.index ∧ w.port = dfield d.desc 16 1 ∧
        w.node = dfield d.desc 17 1 ∧ w.addr = dfield d.desc 18 2 ∧ w.op = dfield d.desc 20 1 ∧ w.count = dfield d.desc 21 1 ∧
        (w.op = 0 → w.data = dfield d.desc 24 8 % 2 ^ (8 * w.count)) ∧ w.startTick = u.now ∧ w.lastTick = u.now ∧
        w.timeoutMs = (if dfield d.desc 32 2 = 0 then 10 else dfield d.desc 32 2) ∧
        (u.portUp w.port = true → ∃ f ∈ v.out.frames, f.port = w.port ∧ f.type = 6 ∧ f.node = w.node ∧
          f.body = [fld 0 2 w.token, fld 2 2 w.addr, fld 4 1 w.op, fld 5 1 w.count, fld 8 8 w.data]) ∧
        v.prs = (if touchesWarded d.desc then u.wardAccept.prs else u.prs) ∧
        v = { b with flp := { u.flp with writes := v.flp.writes, freeCount := v.flp.freeCount }, prs := v.prs, out := v.out })) ∧
  (∀ (dt ring : Nat) (s : State) (w : WritePend) (rest : List WritePend),
    let u := s.elapse dt
    (takeWrite (fun w => w.ring == ring && decide (w.lastTick + 400000 ≤ u.now) && !w.isOver u.now) u.flp.writes = some (w, rest) →
      u.powered 5 = true →
      ∃ v : State, exec (.nodeWriteResend dt ring) s = .next v ∧ v.flp.writes = rest ++ [{ w with lastTick := u.now }] ∧
        (u.portUp w.port = true → ∃ f ∈ v.out.frames, f.port = w.port ∧ f.type = 6 ∧ f.node = w.node ∧
          f.body = [fld 0 2 w.token, fld 2 2 w.addr, fld 4 1 w.op, fld 5 1 w.count, fld 8 8 w.data]) ∧
        v = { u with flp := { u.flp with writes := v.flp.writes }, out := { u.out with frames := v.out.frames } }) ∧
    (takeWrite (fun w => w.ring == ring && decide (w.startTick + w.timeoutMs * 200000 ≤ u.now)) u.flp.writes = some (w, rest) →
      ∃ v : State, exec (.nodeWriteTimeout dt ring) s = .next (v.finishAt ring w.index 0x08 1 0) ∧
        v = { u with flp := { u.flp with writes := rest } })) ∧
  (∀ (dt q token status : Nat) (head : FrameHead) (data : List Byte) (s : State) (w : WritePend) (rest : List WritePend),
    let u := s.elapse dt
    takeWrite (fun w => w.port == u.nodePort q && w.token == token) u.flp.writes = some (w, rest) →
    q < Config.fieldPorts u.part → u.portUp q = true →
    (head.isBad u.flp.etherType = true →
      ∃ t : State, exec (.writeResp dt q ⟨head, token⟩ status data) s = .next t ∧
        t.port q = { u.port q with badFrame := count32 (u.port q).badFrame } ∧ bit t.flp.fault.w 2 = true ∧
        t = { u with flp := { u.flp with ports := t.flp.ports, fault := t.flp.fault }, icu := t.icu }) ∧
    (head.isBad u.flp.etherType = false → ∃ v : State, v = { u with flp := { u.flp with writes := rest } } ∧
      (status ≠ 0 → exec (.writeResp dt q ⟨head, token⟩ status data) s = .next (v.finishAt w.ring w.index 0x08 (0x100 + status) 0)) ∧
      (status = 0 → w.op = 1 →
        exec (.writeResp dt q ⟨head, token⟩ status data) s = .next (v.finishAt w.ring w.index 0x00 (wordAt data 0 4) (wordAt data 4 4))) ∧
      (status = 0 → w.op ≠ 1 → exec (.writeResp dt q ⟨head, token⟩ status data) s = .next (v.finishAt w.ring w.index 0x00 0 0))))

/-- Tebecia frames are dropped, forwarded and taken once (R205, R227); heartbeats keep the siblings and the election, where the
top candidate becomes master (R228-R230, R233); a POSE of the master is measured, COVERAGE frames carry deltas and count gaps
(R231, R232). -/
def Obligations.SiblingsAndMaster : Prop :=
  (∀ cs : List Rank, ∀ r, topRank cs = some r → r ∈ cs ∧ ∀ c ∈ cs, c.above r = false) ∧
  (∀ (dt : Nat) (s : State) (r : Rank),
    let u := s.elapse dt
    u.powered 5 = true → u.classPresence = true → topRank u.candidates = some r →
    ∃ t : State, exec (.classPresenceElection dt) s = .next t ∧ t.dlk.masterId = r.identity ∧
      t.dlk.siblings = u.dlk.siblings ∧ (u.dlk.masterId = r.identity → t = u) ∧
      t = { u with dlk := t.dlk, tbu := t.tbu, icu := t.icu, hre := t.hre, out := t.out }) ∧
  (∀ (dt : Nat) (s : State),
    let u := s.elapse dt
    let b := u.now / 200000 * 200000
    u.powered 5 = true → u.dportRuns 0 = true ∨ u.dportRuns 1 = true → u.dlk.hbTick < b →
    ∃ t : State, exec (.heartbeatSend dt) s = .next t ∧ t.dlk.hbTick = b ∧
      t.dlk.master = (t.ownCandidate && t.dlk.masterId == t.mpg.domainId) ∧ t.dlk.siblings = u.dlk.siblings ∧
      (t.masterRank.isSome = true ∨ t.candidates = []) ∧ t.dlk.seqOf 0x21 = u.dlk.seqOf 0x21 + 1 ∧
      (∀ q, q < 2 → u.dportRuns q = true → ∃ f ∈ t.out.frames, f.link = 1 ∧ f.port = q ∧ f.type = 0x21 ∧ f.ttl = 64 ∧
        f.node = u.mpg.domainId ∧ f.seq = (u.dlk.seqOf 0x21).toNat ∧ f.instanceId = u.dlk.instanceId) ∧
      t = { u with dlk := t.dlk, tbu := t.tbu, icu := t.icu, hre := t.hre, out := t.out }) ∧
  (∀ (dt q : Nat) (h : Heartbeat) (p : PoseFrame) (c : CoverageFrame) (s : State),
    let u := s.elapse dt
    let me (f : TebHead) : Prop := f.origin = u.mpg.domainId
    let dropped (t : State) : Prop :=
      t.dport q = { u.dport q with badFrame := count32 (u.dport q).badFrame } ∧ bit t.dlk.fault.w 4 = true ∧
        t = { u with dlk := { u.dlk with ports := t.dlk.ports, fault := t.dlk.fault }, icu := t.icu }
    let fresh (type : Nat) (f : TebHead) : Prop :=
      f.head.isBad u.dlk.etherType = false ∧ ¬ me f ∧ ∀ l, u.dlk.lastSeq type f = some l → precedes l f.seq = true
    u.dportHears q = true →
    (h.teb.head.isBad u.dlk.etherType = true → ∃ t : State, exec (.heartbeatReceive dt q h) s = .next t ∧ dropped t) ∧
    (p.teb.head.isBad u.dlk.etherType = true → ∃ t : State, exec (.poseFrameReceive dt q p) s = .next t ∧ dropped t) ∧
    (c.teb.head.isBad u.dlk.etherType = true → ∃ t : State, exec (.coverageFrameReceive dt q c) s = .next t ∧ dropped t) ∧
    (h.teb.head.isBad u.dlk.etherType = false → me h.teb → h.teb.instanceId = u.dlk.instanceId →
      exec (.heartbeatReceive dt q h) s = .next u) ∧
    (h.teb.head.isBad u.dlk.etherType = false → me h.teb → h.teb.instanceId ≠ u.dlk.instanceId →
      ∃ t : State, exec (.heartbeatReceive dt q h) s = .next t ∧ t.dlk.dupId = true ∧ t.dlk.dupTick = u.now ∧ t.ownCandidate = false) ∧
    (fresh 0x21 h.teb → u.slotOf h.teb.origin ≠ none ∨ u.freeSlot ≠ none →
      ∃ (t : State) (y : Sibling), exec (.heartbeatReceive dt q h) s = .next t ∧ t.sibling h.teb.origin = some y ∧
        y.identity = h.teb.origin ∧ y.cls = h.cls ∧ y.priority = h.priority ∧ y.role = h.role ∧ y.candidate = h.candidate ∧
        y.instanceId = h.teb.instanceId ∧ y.lastTick = u.now ∧ t.dlk.lastSeq 0x21 h.teb = some h.teb.seq ∧
        (t.masterRank.isSome = true ∨ t.candidates = []) ∧ t.mpg = u.mpg ∧ t.pse = u.pse ∧ t.flp = u.flp) ∧
    (fresh 0x22 p.teb →
      let f := u.forward q 0x22 p.teb []
      let v : State := { f with dlk := f.dlk.note 0x22 p.teb }
      (u.dlk.masterId = p.teb.origin → u.dlk.offTick ≠ none → u.pse.model.model = 3 → p.valid = true → u.isReady 4 = true →
        exec (.poseFrameReceive dt q p) s = .next (v.takeFix (v.poseFix p)).2) ∧
      (u.dlk.masterId ≠ p.teb.origin ∨ u.dlk.offTick = none ∨ u.pse.model.model ≠ 3 ∨ p.valid = false ∨ u.isReady 4 = false →
        exec (.poseFrameReceive dt q p) s = .next v)) ∧
    (fresh 0x23 c.teb →
      let f := u.forward q 0x23 c.teb []
      ∃ g : State, exec (.coverageFrameReceive dt q c) s = .next (c.deltas.foldl (fun s d => s.mergeFromLink d) g) ∧
        g.dlk.lastSeq 0x23 c.teb = some c.teb.seq ∧
        (∀ l, u.dlk.lastSeq 0x23 c.teb = some l →
          ((c.teb.seq - l).toNat = 1 → g.dlk.covGap = u.dlk.covGap) ∧
          (1 < (c.teb.seq - l).toNat →
            g.dlk.covGap = satAdd 0xFFFFFFFF u.dlk.covGap ((c.teb.seq - l).toNat - 1) ∧ bit g.dlk.fault.w 1 = true)) ∧
        (u.dlk.lastSeq 0x23 c.teb = none → g.dlk.covGap = u.dlk.covGap) ∧
        g = { f with dlk := g.dlk, icu := g.icu, hre := g.hre, out := g.out }) ∧
    (∀ type f body, (1 < f.ttl → u.dportRuns (1 - q) = true →
        (u.forward q type f body).out.frames =
          { link := 1, port := 1 - q, type, node := f.origin, seq := f.seq.toNat, ttl := f.ttl - 1, instanceId := f.instanceId,
            forwarded := true, length := f.length, body } :: u.out.frames) ∧
      (f.ttl ≤ 1 ∨ u.dportRuns (1 - q) = false → u.forward q type f body = u))) ∧
  (∀ (d : Delta) (s : State),
    let y := s.layer d.layer
    (s.isReady 5 = false ∨ y.enable = false ∨ y.kind ≠ 0 ∨ y.share = false → s.mergeFromLink d = s) ∧
    (s.isReady 5 = true → y.enable = true → y.kind = 0 → y.share = true → s.deltaWaits d = true → 4096 ≤ s.mergeCount →
      ∃ t : State, s.mergeFromLink d = t ∧ t.mpg.mergeDrop = count32 s.mpg.mergeDrop ∧ bit t.mpg.fault.w 5 = true ∧
        t.mpg.tiles = s.mpg.tiles)) ∧
  (∀ (dt : Nat) (s : State),
    let u := s.elapse dt
    u.powered 5 = true → u.dlk.dupId = true → u.dlk.dupTick + 200000000 ≤ u.now →
    ∃ t : State, exec (.dupIdClear dt) s = .next t ∧ t.dlk.dupId = false ∧ t.dlk.siblings = u.dlk.siblings ∧
      (t.masterRank.isSome = true ∨ t.candidates = []) ∧
      t = { u with dlk := t.dlk, tbu := t.tbu, icu := t.icu, hre := t.hre, out := t.out }) ∧
  (∀ (dt k i : Nat) (s : State) (y : Sibling),
    let u := s.elapse dt
    u.slotOf k = some i → u.sibling k = some y → u.powered 5 = true → y.lastTick + 1000000 ≤ u.now →
    ∃ t : State, exec (.siblingLost dt k) s = .next t ∧ Tbl.get none t.dlk.siblings i = none ∧
      (∀ j, j ≠ i → Tbl.get none t.dlk.siblings j = Tbl.get none u.dlk.siblings j) ∧
      (u.dlk.masterId = k → bit t.dlk.fault.w 3 = true ∧ t.dlk.timeOk = false ∧ t.dlk.offTick = none) ∧
      (u.dlk.masterId ≠ k → t.dlk.masterId = u.dlk.masterId ∧ t.tbu = u.tbu) ∧
      t = { u with dlk := t.dlk, tbu := t.tbu, icu := t.icu, hre := t.hre, out := t.out }) ∧
  (∀ (dt : Nat) (s : State),
    let u := s.elapse dt
    let ds := u.dlk.outQ.take 30
    u.powered 5 = true → u.dlk.outQ ≠ [] → 30 ≤ u.dlk.outQ.length ∨ u.dlk.outTick + 200000 ≤ u.now →
    ((u.dportRuns 0 = true ∨ u.dportRuns 1 = true) → u.dlk.dupId = false →
      ∃ t : State, exec (.coverageFrameSend dt) s = .next t ∧ t.dlk.outQ = u.dlk.outQ.drop 30 ∧
        (∀ q, q < 2 → u.dportRuns q = true → ∃ f ∈ t.out.frames, f.link = 1 ∧ f.port = q ∧ f.type = 0x23 ∧
          f.seq = (u.dlk.seqOf 0x23).toNat ∧ f.body = [fld 0 2 ds.length] ∧ f.records = ds.map deltaRecord) ∧
        t = { u with dlk := { u.dlk with outQ := t.dlk.outQ, outTick := u.now, sendSeq := t.dlk.sendSeq },
                     out := { u.out with frames := t.out.frames } }) ∧
    (u.dportRuns 0 = false ∧ u.dportRuns 1 = false ∨ u.dlk.dupId = true →
      ∃ t : State, exec (.coverageFrameSend dt) s = .next t ∧
        t = { u with dlk := { u.dlk with outQ := [], covUnsent := satAdd 0xFFFFFFFF u.dlk.covUnsent u.dlk.outQ.length,
                                         fault := setFlag u.dlk.fault u.cycle 2 }, icu := t.icu }))

/-! ### The whole machine -/

/-- The machine right after reset holds nothing in its record store, its rings, its memories or its queue, counts from
tick 0 with the seal whole; no source is masked (R25, R58, R340, R341, R358). -/
def Obligations.ResetIsSound : Prop :=
  State.reset.RecordsSound ∧ State.reset.pending = [] ∧ State.reset.tbu.tick = 0 ∧ State.reset.nv.sealBroken = false ∧
  State.reset.out = {} ∧ State.reset.mpg.grants = [] ∧ State.reset.mpg.tiles = [] ∧
  (∀ n, (State.reset.ring n).isEnabled = false ∧ (State.reset.ring n).slots = []) ∧
  (∀ n, (State.reset.src n).masked = false) ∧ (∀ k, State.reset.isReady k = false) ∧ (∀ n, (State.reset.chan n).out = false)

/-- No command clears the seal flag (R373). -/
def Obligations.SealFlagIsNeverCleared : Prop :=
  ∀ s t : State, s.nv.sealBroken = true → step s = .next t → t.nv.sealBroken = true

/-- The record store stays sound: records stand in the slots of their indexes below the next index, and the record in
flight has an empty slot (R341, R349, R353). -/
def Obligations.RecordStoreStaysSound : Prop :=
  ∀ s t : State, s.RecordsSound → step s = .next t → t.RecordsSound

/-- A committed permanent record is never lost or rewritten: REPEAT and LAST_REP apart, its content stands through every
command (R341, R345, R350). -/
def Obligations.PermanentRecordsStand : Prop :=
  ∀ (s t : State) (k : Nat) (r : Rec), s.RecordsSound → step s = .next t → k < 2048 →
    Tbl.get none s.nv.records k = some r → ∃ q : Rec, Tbl.get none t.nv.records k = some q ∧ q.content = r.content

/-- Every command is answered by a next state; device ticks go back only to 0 at a power-on reset or AON_FAIL (R25, R363),
and part and unique identity never change (R4, R393). -/
def Obligations.EveryCommandCompletesInOrder : Prop :=
  ∀ s : State, ∃ t : State, step s = .next t ∧
    (s.tbu.tick ≤ t.tbu.tick ∨ t.tbu.tick = 0 ∧ (t.prs.cause = 1 ∨ t.prs.cause = 11)) ∧ s.tbu.wall ≤ t.tbu.wall ∧
    t.sys.part = s.sys.part ∧ t.sys.uid = s.sys.uid
end

