-- ==== Sys2Proof/Laws/Tbl.lean ====
section
/-! SUPPORT. Tables: a read after a write, and the canonical form that every operation keeps. -/

namespace Sys2Proof.Machine

variable {α : Type} {d v : α} {t : Tbl α} {i k lo : Nat}

theorem Tbl.wfFrom_mono [DecidableEq α] {lo lo' : Nat} (hl : lo' ≤ lo) (h : Tbl.wfFrom d t lo = true) :
    Tbl.wfFrom d t lo' = true := by
  cases t with
  | nil => rfl
  | cons e t =>
    obtain ⟨j, w⟩ := e
    simp only [Tbl.wfFrom, Bool.and_eq_true, decide_eq_true_eq] at h ⊢
    exact ⟨⟨by omega, h.1.2⟩, h.2⟩

/-! ### A read after a write -/

theorem Tbl.get_put_same : Tbl.get d (Tbl.put t i v) i = v := by
  induction t with
  | nil => simp [Tbl.put, Tbl.get]
  | cons e t ih =>
    obtain ⟨j, w⟩ := e
    simp only [Tbl.put]
    split
    · simp [Tbl.get]
    · split
      · simp [Tbl.get]
      · next h => simp [Tbl.get, h, ih]

theorem Tbl.get_put_ne (hk : k ≠ i) : Tbl.get d (Tbl.put t i v) k = Tbl.get d t k := by
  induction t with
  | nil => simp [Tbl.put, Tbl.get, hk]
  | cons e t ih =>
    obtain ⟨j, w⟩ := e
    simp only [Tbl.put]
    split
    · simp [Tbl.get, hk]
    · split
      · next h => subst h; simp [Tbl.get, hk]
      · simp [Tbl.get, ih]

theorem Tbl.get_drop_same : Tbl.get d (Tbl.drop t i) i = d := by
  induction t with
  | nil => rfl
  | cons e t ih =>
    obtain ⟨j, w⟩ := e
    simp only [Tbl.drop]
    split
    · exact ih
    · next hj => simp [Tbl.get, hj, ih]

theorem Tbl.get_drop_ne (hk : k ≠ i) : Tbl.get d (Tbl.drop t i) k = Tbl.get d t k := by
  induction t with
  | nil => rfl
  | cons e t ih =>
    obtain ⟨j, w⟩ := e
    simp only [Tbl.drop]
    split
    · next hj => subst hj; simp [Tbl.get, hk, ih]
    · simp [Tbl.get, ih]

theorem Tbl.get_set_same [DecidableEq α] : Tbl.get d (Tbl.set d t i v) i = v := by
  unfold Tbl.set
  split
  · next hv => rw [Tbl.get_drop_same, hv]
  · exact Tbl.get_put_same

theorem Tbl.get_set_ne [DecidableEq α] (hk : k ≠ i) : Tbl.get d (Tbl.set d t i v) k = Tbl.get d t k := by
  unfold Tbl.set
  split
  · exact Tbl.get_drop_ne hk
  · exact Tbl.get_put_ne hk

theorem Tbl.get_modify_ne [DecidableEq α] {f : α → α} (hk : k ≠ i) :
    Tbl.get d (Tbl.modify d t i f) k = Tbl.get d t k := Tbl.get_set_ne hk

theorem Tbl.get_modify_same [DecidableEq α] {f : α → α} :
    Tbl.get d (Tbl.modify d t i f) i = f (Tbl.get d t i) := Tbl.get_set_same

/-! ### The canonical form is kept -/

theorem Tbl.wfFrom_put [DecidableEq α] (hv : v ≠ d) (hi : lo ≤ i) (h : Tbl.wfFrom d t lo = true) :
    Tbl.wfFrom d (Tbl.put t i v) lo = true := by
  induction t generalizing lo with
  | nil => simp [Tbl.put, Tbl.wfFrom, hv, hi]
  | cons e t ih =>
    obtain ⟨j, w⟩ := e
    simp only [Tbl.wfFrom, Bool.and_eq_true, decide_eq_true_eq] at h
    simp only [Tbl.put]
    split
    · next hj => simp [Tbl.wfFrom, hv, hi, h.1.2, h.2, hj]
    · split
      · next hj => subst hj; simp [Tbl.wfFrom, hv, h.1.1, h.2]
      · simp only [Tbl.wfFrom, Bool.and_eq_true, decide_eq_true_eq]
        exact ⟨h.1, ih (by omega) h.2⟩

theorem Tbl.wfFrom_drop [DecidableEq α] (h : Tbl.wfFrom d t lo = true) : Tbl.wfFrom d (Tbl.drop t i) lo = true := by
  induction t generalizing lo with
  | nil => rfl
  | cons e t ih =>
    obtain ⟨j, w⟩ := e
    simp only [Tbl.wfFrom, Bool.and_eq_true, decide_eq_true_eq] at h
    simp only [Tbl.drop]
    split
    · exact Tbl.wfFrom_mono (by omega) (ih h.2)
    · simp only [Tbl.wfFrom, Bool.and_eq_true, decide_eq_true_eq]
      exact ⟨h.1, ih h.2⟩

/-- Writing keeps the canonical form. -/
theorem Tbl.wf_set [DecidableEq α] (h : Tbl.wf d t = true) : Tbl.wf d (Tbl.set d t i v) = true := by
  unfold Tbl.set
  split
  · exact Tbl.wfFrom_drop h
  · next hv => exact Tbl.wfFrom_put hv (Nat.zero_le _) h

theorem Tbl.wf_modify [DecidableEq α] {f : α → α} (h : Tbl.wf d t = true) : Tbl.wf d (Tbl.modify d t i f) = true :=
  Tbl.wf_set h

end Sys2Proof.Machine
end

