-- ==== Sys2Proof/Laws/Kept.lean ====
section
/-! SUPPORT. What no operation takes away: the part and its identity, a broken seal, the ticks that have passed, the soundness
of the record store and what its permanent records hold; and the operations on the record store itself. -/

namespace Sys2Proof.Machine

/-- What no operation but a power-on reset takes away. -/
structure Kept (s0 s : State) : Prop where
  part : s.sys.part = s0.sys.part
  uid : s.sys.uid = s0.sys.uid
  broken : s0.nv.sealBroken = true → s.nv.sealBroken = true
  perm : s0.nv.permFull = true → s.nv.permFull = true
  tick : s0.tbu.tick ≤ s.tbu.tick
  wall : s0.tbu.wall ≤ s.tbu.wall
  recs : RecInv s0.nv s0.evr.inFlight → RecInv s.nv s.evr.inFlight
  held : RecInv s0.nv s0.evr.inFlight → ∀ k r, k < 2048 → Tbl.get none s0.nv.records k = some r →
    ∃ r', Tbl.get none s.nv.records k = some r' ∧ r'.content = r.content

theorem Kept.refl (s : State) : Kept s s :=
  ⟨rfl, rfl, id, id, Nat.le_refl _, Nat.le_refl _, id, fun _ _ r _ h => ⟨r, h, rfl⟩⟩

theorem Kept.trans {a b c : State} (h : Kept a b) (g : Kept b c) : Kept a c := by
  refine ⟨g.part.trans h.part, g.uid.trans h.uid, fun x => g.broken (h.broken x), fun x => g.perm (h.perm x),
    Nat.le_trans h.tick g.tick, Nat.le_trans h.wall g.wall, fun x => g.recs (h.recs x), ?_⟩
  intro x k r hk hr
  obtain ⟨r1, h1, e1⟩ := h.held x k r hk hr
  obtain ⟨r2, h2, e2⟩ := g.held (h.recs x) k r1 hk h1
  exact ⟨r2, h2, e2.trans e1⟩

/-- A change elsewhere. -/
theorem Kept.of_eq {a s t : State} (h : Kept a s) (h1 : t.sys.part = s.sys.part) (h2 : t.sys.uid = s.sys.uid)
    (h3 : t.nv.sealBroken = s.nv.sealBroken) (h4 : t.nv.permFull = s.nv.permFull) (h5 : t.tbu.tick = s.tbu.tick)
    (h9 : t.tbu.wall = s.tbu.wall) (h6 : t.nv.records = s.nv.records) (h7 : t.nv.nextIndex = s.nv.nextIndex) (h8 : t.evr.inFlight = s.evr.inFlight) : Kept a t := by
  refine h.trans ⟨h1, h2, fun x => by rw [h3, x], fun x => by rw [h4, x], by rw [h5], by rw [h9], fun x => ?_, fun _ k r _ hr => ⟨r, by rw [h6, hr], rfl⟩⟩
  rw [h8]; exact ⟨by rw [h6]; exact x.wf, fun k r hr => by rw [h7]; exact x.place k r (by rw [← h6]; exact hr), fun r hr => by rw [h6, h7]; exact x.flight r hr⟩

variable {s0 s : State}

@[simp] theorem State.onOut_kept (f) (h : Kept s0 s) : Kept s0 (s.onOut f) := h.of_eq rfl rfl rfl rfl rfl rfl rfl rfl rfl
@[simp] theorem State.onPrs_kept (f) (h : Kept s0 s) : Kept s0 (s.onPrs f) := h.of_eq rfl rfl rfl rfl rfl rfl rfl rfl rfl
@[simp] theorem State.onIcu_kept (f) (h : Kept s0 s) : Kept s0 (s.onIcu f) := h.of_eq rfl rfl rfl rfl rfl rfl rfl rfl rfl
@[simp] theorem State.onHre_kept (f) (h : Kept s0 s) : Kept s0 (s.onHre f) := h.of_eq rfl rfl rfl rfl rfl rfl rfl rfl rfl
@[simp] theorem State.onGle_kept (f) (h : Kept s0 s) : Kept s0 (s.onGle f) := h.of_eq rfl rfl rfl rfl rfl rfl rfl rfl rfl
@[simp] theorem State.onEsc_kept (f) (h : Kept s0 s) : Kept s0 (s.onEsc f) := h.of_eq rfl rfl rfl rfl rfl rfl rfl rfl rfl
@[simp] theorem State.onMpg_kept (f) (h : Kept s0 s) : Kept s0 (s.onMpg f) := h.of_eq rfl rfl rfl rfl rfl rfl rfl rfl rfl
@[simp] theorem State.onPse_kept (f) (h : Kept s0 s) : Kept s0 (s.onPse f) := h.of_eq rfl rfl rfl rfl rfl rfl rfl rfl rfl
@[simp] theorem State.onGnb_kept (f) (h : Kept s0 s) : Kept s0 (s.onGnb f) := h.of_eq rfl rfl rfl rfl rfl rfl rfl rfl rfl
@[simp] theorem State.onFlp_kept (f) (h : Kept s0 s) : Kept s0 (s.onFlp f) := h.of_eq rfl rfl rfl rfl rfl rfl rfl rfl rfl
@[simp] theorem State.onDlk_kept (f) (h : Kept s0 s) : Kept s0 (s.onDlk f) := h.of_eq rfl rfl rfl rfl rfl rfl rfl rfl rfl
@[simp] theorem State.onLsb_kept (f) (h : Kept s0 s) : Kept s0 (s.onLsb f) := h.of_eq rfl rfl rfl rfl rfl rfl rfl rfl rfl
@[simp] theorem State.onFbu_kept (f) (h : Kept s0 s) : Kept s0 (s.onFbu f) := h.of_eq rfl rfl rfl rfl rfl rfl rfl rfl rfl
@[simp] theorem State.onRge_kept (f) (h : Kept s0 s) : Kept s0 (s.onRge f) := h.of_eq rfl rfl rfl rfl rfl rfl rfl rfl rfl
@[simp] theorem State.onLca_kept (f) (h : Kept s0 s) : Kept s0 (s.onLca f) := h.of_eq rfl rfl rfl rfl rfl rfl rfl rfl rfl
@[simp] theorem State.onSys_kept (f) (h1 : (f s.sys).part = s.sys.part) (h2 : (f s.sys).uid = s.sys.uid) (h : Kept s0 s) :
    Kept s0 (s.onSys f) := h.of_eq h1 h2 rfl rfl rfl rfl rfl rfl rfl
@[simp] theorem State.onTbu_kept (f) (h1 : (f s.tbu).tick = s.tbu.tick) (h2 : (f s.tbu).wall = s.tbu.wall) (h : Kept s0 s) :
    Kept s0 (s.onTbu f) := h.of_eq rfl rfl rfl rfl h1 h2 rfl rfl rfl
@[simp] theorem State.onEvr_kept (f) (h1 : (f s.evr).inFlight = s.evr.inFlight) (h : Kept s0 s) :
    Kept s0 (s.onEvr f) := h.of_eq rfl rfl rfl rfl rfl rfl rfl rfl h1
@[simp] theorem State.onNv_kept (f) (h1 : (f s.nv).sealBroken = s.nv.sealBroken) (h2 : (f s.nv).permFull = s.nv.permFull)
    (h3 : (f s.nv).records = s.nv.records) (h4 : (f s.nv).nextIndex = s.nv.nextIndex) (h : Kept s0 s) :
    Kept s0 (s.onNv f) := h.of_eq rfl rfl h1 h2 rfl rfl h3 h4 rfl
@[simp] theorem foldl_kept {α : Type} (l : List α) (f : State → α → State)
    (hf : ∀ (s0 s : State) (x : α), Kept s0 s → Kept s0 (f s x)) (h : Kept s0 s) : Kept s0 (l.foldl f s) := by
  induction l generalizing s with
  | nil => exact h
  | cons x l ih => exact ih (hf _ _ _ h)
@[simp] theorem foldr_kept {α : Type} (l : List α) (f : α → State → State)
    (hf : ∀ (s0 s : State) (x : α), Kept s0 s → Kept s0 (f x s)) (h : Kept s0 s) : Kept s0 (l.foldr f s) := by
  induction l with
  | nil => exact h
  | cons x l ih => exact hf _ _ _ ih
@[simp] theorem State.elapse_kept (dt) (h : Kept s0 s) : Kept s0 (s.elapse dt) :=
  h.trans ⟨rfl, rfl, id, id, by simp only [State.elapse, State.onTbu]; split <;> omega, Nat.le_add_right _ _, id, fun _ _ r _ h => ⟨r, h, rfl⟩⟩
theorem ite_kept {s0 a b : State} (c : Prop) [Decidable c] (ha : Kept s0 a) (hb : Kept s0 b) : Kept s0 (if c then a else b) := by
  split <;> assumption
theorem ite_kept2 {α : Type} {s0 : State} {a b : α × State} (c : Prop) [Decidable c] (ha : Kept s0 a.2) (hb : Kept s0 b.2) :
    Kept s0 (if c then a else b).2 := by
  split <;> assumption
theorem foldl_kept2 {α β : Type} {s0 : State} {r : β × State} (l : List α) (f : β × State → α → β × State)
    (hf : ∀ (s0 : State) (r : β × State) (x : α), Kept s0 r.2 → Kept s0 (f r x).2) (h : Kept s0 r.2) : Kept s0 (l.foldl f r).2 := by
  induction l generalizing r with
  | nil => exact h
  | cons x l ih => exact ih (hf _ _ _ h)
theorem Tbu.rebase_tick (t : Tbu) (k : Nat) : (t.rebase k).tick = t.tick := by
  unfold Tbu.rebase; split <;> rfl
theorem Tbu.rebase_wall (t : Tbu) (k : Nat) : (t.rebase k).wall = t.wall := by
  unfold Tbu.rebase; split <;> rfl
theorem Tbu.locked_tick (t : Tbu) (k u : Nat) (c : Option Int) : (t.locked k u c).tick = t.tick := rfl
theorem Tbu.locked_wall (t : Tbu) (k u : Nat) (c : Option Int) : (t.locked k u c).wall = t.wall := rfl
theorem RecInv.wf_set {n : Nv} {fl : Option Rec} (x : RecInv n fl) (k : Nat) (v : Option Rec) :
    Tbl.wf none (Tbl.set none n.records k v) = true := Tbl.wf_set x.wf

theorem recSlot_low {i : Nat} (h : i < 2048) : recSlot i = i := by simp [recSlot, h]
theorem recSlot_inj_low {i j : Nat} (h : recSlot i < 2048) (e : recSlot i = recSlot j) : i = j := by
  by_cases hi : i < 2048 <;> by_cases hj : j < 2048 <;> simp only [recSlot, hi, hj, if_true, if_false] at h e <;> omega

/-- A change of the record store alone. -/
theorem Kept.of_nv {a s t : State} (h : Kept a s) (h1 : t.sys = s.sys) 
    (h3 : t.nv.sealBroken = s.nv.sealBroken) (h4 : s.nv.permFull = true → t.nv.permFull = true) (h5 : t.tbu = s.tbu)
    (hr : RecInv s.nv s.evr.inFlight → RecInv t.nv t.evr.inFlight ∧ ∀ k r, k < 2048 → Tbl.get none s.nv.records k = some r →
      ∃ r', Tbl.get none t.nv.records k = some r' ∧ r'.content = r.content) : Kept a t :=
  h.trans ⟨by rw [h1], by rw [h1], fun x => by rw [h3, x], h4, by rw [h5], by rw [h5], fun x => (hr x).1, fun x => (hr x).2⟩

theorem State.startWrite_kept {s0 : State} (r : Rec) (s : State) (hs : Kept s0 s) : Kept s0 (s.startWrite r) := by
  refine hs.of_nv rfl rfl id rfl fun x => ?_
  simp only [State.startWrite, State.onNv, State.onEvr]
  refine ⟨⟨x.wf_set (recSlot s.nv.nextIndex) none, fun k r' hr => ?_, fun r' hr => ?_⟩, fun k r' hk hr => ?_⟩
  · by_cases hk : k = recSlot s.nv.nextIndex
    · subst hk; simp only [Tbl.get_set_same] at hr; cases hr
    · simp only [Tbl.get_set_ne hk] at hr
      have := x.place k r' hr; exact ⟨this.1, Nat.lt_succ_of_lt this.2⟩
  · cases hr; exact ⟨rfl, Tbl.get_set_same (d := none) (i := recSlot s.nv.nextIndex) (v := none)⟩
  · have hp := x.place k r' hr
    refine ⟨r', ?_, rfl⟩
    rw [Tbl.get_set_ne]; exact hr
    intro e
    have := recSlot_inj_low (i := r'.index) (j := s.nv.nextIndex) (by rw [← hp.1]; exact hk) (by rw [← hp.1]; exact e)
    omega

/-- A held record written again with the same content (R350). -/
theorem rec_refold {n : Nv} {fl : Option Rec} {k : Nat} {r r' : Rec} (x : RecInv n fl) (hr : Tbl.get none n.records k = some r)
    (hc : r'.content = r.content) :
    RecInv { n with records := Tbl.set none n.records (recSlot r'.index) (some r') } fl ∧
      ∀ j q, j < 2048 → Tbl.get none n.records j = some q →
        ∃ q', Tbl.get none (Tbl.set none n.records (recSlot r'.index) (some r')) j = some q' ∧ q'.content = q.content := by
  have hi : r'.index = r.index := by have := congrArg Rec.index hc; exact this
  have hp := x.place k r hr
  rw [hi, ← hp.1]
  refine ⟨⟨x.wf_set k (some r'), fun j q hq => ?_, fun q hq => ?_⟩, fun j q hj hq => ?_⟩
  · by_cases e : j = k
    · subst e; rw [Tbl.get_set_same] at hq; cases hq; rw [hi]; exact hp
    · rw [Tbl.get_set_ne e] at hq; exact x.place j q hq
  · have := x.flight q hq
    refine ⟨this.1, ?_⟩
    have e : recSlot q.index ≠ k := by intro e; rw [e, hr] at this; cases this.2
    exact (Tbl.get_set_ne (d := none) (i := k) (v := some r') e).trans this.2
  · by_cases e : j = k
    · subst e; rw [hr] at hq; cases hq; exact ⟨r', Tbl.get_set_same, hc⟩
    · exact ⟨q, by rw [Tbl.get_set_ne e]; exact hq, rfl⟩

theorem State.setRec_kept {s0 s : State} {k : Nat} {r r' : Rec} (hs : Kept s0 s) (hr : Tbl.get none s.nv.records k = some r)
    (hc : r'.content = r.content) :
    Kept s0 (s.onNv fun n => { n with records := Tbl.set none n.records (recSlot r'.index) (some r') }) :=
  hs.of_nv rfl rfl id rfl fun x => rec_refold x hr hc

theorem State.lastFoldable_held {s : State} {code source : Nat} {r : Rec} (h : s.lastFoldable code source = some r) :
    ∃ k, Tbl.get none s.nv.records k = some r := by
  unfold State.lastFoldable at h
  split at h
  · split at h
    · next i hi =>
      split at h
      · next q hq => split at h
                     · cases h; exact ⟨_, hq⟩
                     · cases h
      · cases h
    · cases h
  · cases h

theorem Rec.fold_content (r : Rec) (op : Nat) (t : Option Nat) : ({ (r.fold op) with foldTick := t } : Rec).content = r.content := rfl

/-- The commit itself. -/
theorem State.commitNv_kept {s0 s : State} {r : Rec} (f : Evr → Evr) (hf : (f s.evr).inFlight = none) (hs : Kept s0 s)
    (hr : s.evr.inFlight = some r) (b : Bool) :
    Kept s0 ((s.onNv fun n => { n with records := Tbl.set none n.records (recSlot r.index) (some r),
                                       permFull := n.permFull || b }).onEvr f) := by
  refine hs.of_nv rfl rfl (fun e => by simp [State.onNv, State.onEvr, e]) rfl fun x => ?_
  have hfl := x.flight r hr
  simp only [State.onNv, State.onEvr]
  rw [hf]
  refine ⟨⟨x.wf_set (recSlot r.index) (some r), fun k q hq => ?_, fun q hq => by cases hq⟩, fun k q hk hq => ⟨q, ?_, rfl⟩⟩
  · by_cases e : k = recSlot r.index
    · subst e; simp only at hq; rw [Tbl.get_set_same] at hq; cases hq; exact ⟨rfl, by have := hfl.1; show _ < s.nv.nextIndex; omega⟩
    · simp only [Tbl.get_set_ne e] at hq; exact x.place k q hq
  · rw [Tbl.get_set_ne]; exact hq
    intro e; rw [e, hfl.2] at hq; cases hq

end Sys2Proof.Machine
end

