-- ==== Sys2Proof/Laws/KeptOps.lean ====
section
/-! SUPPORT. Every operation but a power-on reset keeps what `Kept` names: one lemma per operation, each by those of the
operations it is built from. -/

namespace Sys2Proof.Machine

theorem State.onRing_kept {s0 : State} (n : Nat) (f : Ring → Ring) (s : State) (hs : Kept s0 s) :
    Kept s0 (State.onRing n f s) := by
  unfold State.onRing
  repeat' with_reducible first | assumption | (intro _) | apply State.onHre_kept

theorem State.onSrc_kept {s0 : State} (n : Nat) (f : Src → Src) (s : State) (hs : Kept s0 s) :
    Kept s0 (State.onSrc n f s) := by
  unfold State.onSrc
  repeat' with_reducible first | assumption | (intro _) | apply State.onIcu_kept

theorem State.raise_kept {s0 : State} (n : Nat) (s : State) (hs : Kept s0 s) :
    Kept s0 (State.raise n s) := by
  unfold State.raise
  repeat' with_reducible first | assumption | (intro _) | apply State.onSrc_kept | apply ite_kept

theorem State.hostWrite_kept {s0 : State} (w : HostWrite) (s : State) (hs : Kept s0 s) :
    Kept s0 (State.hostWrite w s) := by
  unfold State.hostWrite
  repeat' with_reducible first | assumption | (intro _) | apply State.onOut_kept

theorem State.sendFrame_kept {s0 : State} (f : Frame) (s : State) (hs : Kept s0 s) :
    Kept s0 (State.sendFrame f s) := by
  unfold State.sendFrame
  repeat' with_reducible first | assumption | (intro _) | apply State.onOut_kept

theorem State.hreFault_kept {s0 : State} (i : Nat) (s : State) (hs : Kept s0 s) :
    Kept s0 (State.hreFault i s) := by
  unfold State.hreFault
  repeat' with_reducible first | assumption | (intro _) | apply State.onHre_kept

theorem State.covDrop_kept {s0 : State} (op : Nat) (s : State) (hs : Kept s0 s) :
    Kept s0 (State.covDrop op s) := by
  unfold State.covDrop
  repeat' with_reducible first | assumption | (intro _) | apply State.raise_kept | apply State.onHre_kept | apply ite_kept

theorem State.dropRouted_kept {s0 : State} (op : Nat) (s : State) (hs : Kept s0 s) :
    Kept s0 (State.dropRouted op s) := by
  unfold State.dropRouted
  repeat' with_reducible first | assumption | (intro _) | apply State.covDrop_kept | apply State.hreFault_kept | apply State.onHre_kept | apply ite_kept

theorem State.dropQueued_kept {s0 : State} (ring : Nat) (op : Nat) (s : State) (hs : Kept s0 s) :
    Kept s0 (State.dropQueued ring op s) := by
  unfold State.dropQueued
  repeat' with_reducible first | assumption | (intro _) | apply State.covDrop_kept | apply State.raise_kept | apply State.hreFault_kept | apply State.onHre_kept | apply State.onRing_kept

theorem State.writeReport_kept {s0 : State} (ring : Nat) (rp : Report) (s : State) (hs : Kept s0 s) :
    Kept s0 (State.writeReport ring rp s) := by
  unfold State.writeReport
  repeat' with_reducible first | assumption | (intro _) | apply State.raise_kept | apply State.onRing_kept | apply State.hostWrite_kept

theorem State.enqueue_kept {s0 : State} (ring : Nat) (rp : Report) (s : State) (hs : Kept s0 s) :
    Kept s0 (State.enqueue ring rp s) := by
  unfold State.enqueue
  repeat' with_reducible first | assumption | (intro _) | apply State.writeReport_kept | apply State.onRing_kept | apply State.dropQueued_kept | apply ite_kept

theorem State.report_kept {s0 : State} (op : Nat) (flags : Nat) (tick : Nat) (payload : List Fld) (s : State) (hs : Kept s0 s) :
    Kept s0 (State.report op flags tick payload s) := by
  unfold State.report
  repeat' with_reducible first | assumption | (intro _) | apply State.enqueue_kept | apply State.dropRouted_kept | apply ite_kept

theorem State.faultReport_kept {s0 : State} (code : Nat) (subject : Nat) (source : Nat) (value : Nat) (value2 : Nat) (s : State) (hs : Kept s0 s) :
    Kept s0 (State.faultReport code subject source value value2 s) := by
  unfold State.faultReport
  repeat' with_reducible first | assumption | (intro _) | apply State.report_kept

theorem State.dmaError_kept {s0 : State} (s : State) (hs : Kept s0 s) :
    Kept s0 (State.dmaError s) := by
  unfold State.dmaError
  repeat' with_reducible first | assumption | (intro _) | apply State.raise_kept | apply State.hreFault_kept

theorem State.when_kept {s0 : State} (b : Bool) (f : State → State) (s : State) (hf : ∀ (s0 s : State), Kept s0 s → Kept s0 (f s)) (hs : Kept s0 s) :
    Kept s0 (State.when b f s) := by
  unfold State.when
  repeat' with_reducible first | assumption | (intro _) | apply hf | apply ite_kept

theorem State.readOut_kept {s0 : State} (w : Word) (s : State) (hs : Kept s0 s) :
    Kept s0 (State.readOut w s) := by
  unfold State.readOut
  repeat' with_reducible first | assumption | (intro _) | apply State.onOut_kept

theorem State.onTarget_kept {s0 : State} (t : Nat) (f : Target → Target) (s : State) (hs : Kept s0 s) :
    Kept s0 (State.onTarget t f s) := by
  unfold State.onTarget
  repeat' with_reducible first | assumption | (intro _) | apply State.onIcu_kept

theorem State.recordReport_kept {s0 : State} (r : Rec) (fold : Bool) (tick : Nat) (s : State) (hs : Kept s0 s) :
    Kept s0 (State.recordReport r fold tick s) := by
  unfold State.recordReport
  repeat' with_reducible first | assumption | (intro _) | apply State.report_kept



theorem State.loseEvent_kept {s0 : State} (s : State) (hs : Kept s0 s) :
    Kept s0 (State.loseEvent s) := by
  unfold State.loseEvent
  repeat' with_reducible first | assumption | (intro _) | apply State.raise_kept | apply State.onNv_kept | apply State.onEvr_kept | apply ite_kept | apply ite_kept2 | apply foldl_kept | apply foldl_kept2 | apply foldr_kept | dsimp only

theorem State.enterStaging_kept {s0 : State} (r : Rec) (s : State) (hs : Kept s0 s) :
    Kept s0 (State.enterStaging r s) := by
  unfold State.enterStaging
  repeat' with_reducible first | assumption | (intro _) | apply State.onEvr_kept | apply State.loseEvent_kept | apply ite_kept | apply ite_kept2 | apply foldl_kept | apply foldl_kept2 | apply foldr_kept | dsimp only

theorem State.stage_kept {s0 : State} (r : Rec) (s : State) (hs : Kept s0 s) : Kept s0 (State.stage r s) := by
  unfold State.stage
  split
  · exact ite_kept _ (State.startWrite_kept _ _ hs) (State.enterStaging_kept _ _ hs)
  · next f hf =>
    apply ite_kept
    · apply State.enterStaging_kept
      exact hs.trans ⟨rfl, rfl, id, id, Nat.le_refl _, Nat.le_refl _, fun x => ⟨x.wf, x.place, fun q hq => by cases hq; exact x.flight f hf⟩,
        fun _ _ r _ h => ⟨r, h, rfl⟩⟩
    · exact State.enterStaging_kept _ _ hs

theorem State.tryFold_kept {s0 : State} (c src : Nat) (s s' : State) (h : s.tryFold c src = some s') (hs : Kept s0 s) : Kept s0 s' := by
  unfold State.tryFold at h
  dsimp only at h
  split at h
  · cases h
  · split at h
    · cases h
      repeat' with_reducible first | assumption | apply ite_kept | apply State.recordReport_kept | apply State.onEvr_kept | rfl
    · split at h
      · next r hr =>
        cases h
        obtain ⟨k, hk⟩ := State.lastFoldable_held hr
        have := State.setRec_kept hs hk (r.fold_content s.tbu.optime (if r.foldDue s.now then some s.now else r.foldTick))
        apply ite_kept
        · exact State.recordReport_kept _ _ _ _ this
        · exact this
      · split at h
        · split at h
          · cases h
            repeat' with_reducible first | assumption | apply State.onEvr_kept | rfl
          · cases h
        · cases h

theorem State.record_kept {s0 : State} (c src : Nat) (fixed : List (Nat × Word)) (s : State) (hs : Kept s0 s) : Kept s0 (State.record c src fixed s) := by
  unfold State.record
  split
  · split
    · next h => exact State.tryFold_kept _ _ _ _ h hs
    · exact State.stage_kept _ _ hs
  · exact hs

theorem State.complete_kept {s0 : State} (ring : Nat) (d : Slot) (s : State) (hs : Kept s0 s) :
    Kept s0 (State.complete ring d s) := by
  unfold State.complete
  repeat' with_reducible first | assumption | (intro _) | apply State.enqueue_kept | apply State.dropRouted_kept | apply ite_kept

theorem State.flushLoop_kept {s0 : State} (ring n : Nat) (s : State) (hs : Kept s0 s) : Kept s0 (State.flushLoop ring n s) := by
  induction n generalizing s with
  | zero => exact hs
  | succ n ih =>
    simp only [State.flushLoop]
    repeat' with_reducible first | assumption | (intro _) | apply ih | apply State.onRing_kept | apply State.complete_kept | apply ite_kept | dsimp only | split

theorem State.flush_kept {s0 : State} (ring : Nat) (s : State) (hs : Kept s0 s) :
    Kept s0 (State.flush ring s) := by
  unfold State.flush
  repeat' with_reducible first | assumption | (intro _) | apply State.flushLoop_kept

theorem State.settleLoop_kept {s0 : State} (ring n : Nat) (s : State) (hs : Kept s0 s) : Kept s0 (State.settleLoop ring n s) := by
  induction n generalizing s with
  | zero => exact hs
  | succ n ih =>
    simp only [State.settleLoop]
    repeat' with_reducible first | assumption | (intro _) | apply ih | apply State.onRing_kept | apply ite_kept | dsimp only | split

theorem State.settle_kept {s0 : State} (ring : Nat) (s : State) (hs : Kept s0 s) :
    Kept s0 (State.settle ring s) := by
  unfold State.settle
  repeat' with_reducible first | assumption | (intro _) | apply State.flush_kept | apply State.settleLoop_kept

theorem State.rejudge_kept {s0 : State} (ring : Nat) (s : State) (hs : Kept s0 s) :
    Kept s0 (State.rejudge ring s) := by
  unfold State.rejudge
  repeat' with_reducible first | assumption | (intro _) | apply State.settle_kept | apply State.onRing_kept

theorem State.finishHead_kept {s0 : State} (ring : Nat) (status : Nat) (detail : Nat) (detail2 : Nat) (s : State) (hs : Kept s0 s) :
    Kept s0 (State.finishHead ring status detail detail2 s) := by
  unfold State.finishHead
  repeat' with_reducible first | assumption | (intro _) | apply State.settle_kept | apply State.onRing_kept

theorem State.endHead_kept {s0 : State} (ring : Nat) (status : Nat) (detail : Nat) (s : State) (hs : Kept s0 s) :
    Kept s0 (State.endHead ring status detail s) := by
  unfold State.endHead
  repeat' with_reducible first | assumption | (intro _) | apply State.settle_kept | apply State.onRing_kept

theorem State.startHead_kept {s0 : State} (ring : Nat) (marks : List (Nat × Word)) (s : State) (hs : Kept s0 s) :
    Kept s0 (State.startHead ring marks s) := by
  unfold State.startHead
  repeat' with_reducible first | assumption | (intro _) | apply State.settle_kept | apply State.onRing_kept

theorem State.finishAt_kept {s0 : State} (ring : Nat) (index : Word) (status : Nat) (detail : Nat) (detail2 : Nat) (s : State) (hs : Kept s0 s) :
    Kept s0 (State.finishAt ring index status detail detail2 s) := by
  unfold State.finishAt
  repeat' with_reducible first | assumption | (intro _) | apply State.settle_kept | apply State.onRing_kept

theorem State.runDesc_kept {s0 : State} (ring : Nat) (op : Nat) (f : Slot → State → State) (s : State) (hf : ∀ y0 (s0 s : State), Kept s0 s → Kept s0 (f y0 s)) (hs : Kept s0 s) :
    Kept s0 (State.runDesc ring op f s) := by
  unfold State.runDesc
  repeat' with_reducible first | assumption | (intro _) | apply hf | apply State.settle_kept | apply ite_kept | apply ite_kept2 | apply foldl_kept | apply foldl_kept2 | apply foldr_kept | dsimp only | rfl | exact Tbu.locked_tick _ _ _ _ | exact Tbu.locked_wall _ _ _ _ | exact Tbu.rebase_tick _ _ | exact Tbu.rebase_wall _ _ | split

theorem State.checked_kept {s0 : State} (ring : Nat) (cs : List (Bool × Nat)) (k : State → State) (s : State) (hk : ∀ (s0 s : State), Kept s0 s → Kept s0 (k s)) (hs : Kept s0 s) :
    Kept s0 (State.checked ring cs k s) := by
  unfold State.checked
  repeat' with_reducible first | assumption | (intro _) | apply hk | apply State.finishHead_kept | apply ite_kept | apply ite_kept2 | apply foldl_kept | apply foldl_kept2 | apply foldr_kept | dsimp only | rfl | exact Tbu.locked_tick _ _ _ _ | exact Tbu.locked_wall _ _ _ _ | exact Tbu.rebase_tick _ _ | exact Tbu.rebase_wall _ _ | split

theorem State.withBuffer_kept {s0 : State} (ring : Nat) (buf : HostRead) (k : List Byte → State → State) (s : State) (hk : ∀ y0 (s0 s : State), Kept s0 s → Kept s0 (k y0 s)) (hs : Kept s0 s) :
    Kept s0 (State.withBuffer ring buf k s) := by
  unfold State.withBuffer
  repeat' with_reducible first | assumption | (intro _) | apply hk | apply State.finishHead_kept | apply State.dmaError_kept | apply ite_kept | apply ite_kept2 | apply foldl_kept | apply foldl_kept2 | apply foldr_kept | dsimp only | rfl | exact Tbu.locked_tick _ _ _ _ | exact Tbu.locked_wall _ _ _ _ | exact Tbu.rebase_tick _ _ | exact Tbu.rebase_wall _ _ | split

theorem State.onTile_kept {s0 : State} (key : Nat) (f : Tile → Tile) (s : State) (hs : Kept s0 s) :
    Kept s0 (State.onTile key f s) := by
  unfold State.onTile
  repeat' with_reducible first | assumption | (intro _) | apply State.onMpg_kept

theorem State.onLayer_kept {s0 : State} (l : Nat) (f : Layer → Layer) (s : State) (hs : Kept s0 s) :
    Kept s0 (State.onLayer l f s) := by
  unfold State.onLayer
  repeat' with_reducible first | assumption | (intro _) | apply State.onMpg_kept

theorem State.mpgFault_kept {s0 : State} (bit : Nat) (src : Nat) (s : State) (hs : Kept s0 s) :
    Kept s0 (State.mpgFault bit src s) := by
  unfold State.mpgFault
  repeat' with_reducible first | assumption | (intro _) | apply State.raise_kept | apply State.onMpg_kept

theorem State.noteRange_kept {s0 : State} (cells : List (Int × Int)) (s : State) (hs : Kept s0 s) :
    Kept s0 (State.noteRange cells s) := by
  unfold State.noteRange
  repeat' with_reducible first | assumption | (intro _) | apply State.mpgFault_kept | apply State.onMpg_kept | apply ite_kept

theorem State.noteReads_kept {s0 : State} (l : Nat) (cells : List (Int × Int)) (s : State) (hs : Kept s0 s) :
    Kept s0 (State.noteReads l cells s) := by
  unfold State.noteReads
  repeat' with_reducible first | assumption | (intro _) | apply State.onTile_kept | apply State.raise_kept | apply State.onMpg_kept | apply State.noteRange_kept | apply ite_kept | apply ite_kept2 | apply foldl_kept | apply foldl_kept2 | apply foldr_kept | dsimp only | rfl | exact Tbu.locked_tick _ _ _ _ | exact Tbu.locked_wall _ _ _ _ | exact Tbu.rebase_tick _ _ | exact Tbu.rebase_wall _ _ | split

theorem State.allocUnit_kept {s0 : State} (c : Nat) (s : State) (hs : Kept s0 s) :
    Kept s0 ((State.allocUnit c s).2) := by
  unfold State.allocUnit
  repeat' with_reducible first | assumption | (intro _) | apply State.onMpg_kept

theorem State.freeUnit_kept {s0 : State} (c : Nat) (u : Nat) (s : State) (hs : Kept s0 s) :
    Kept s0 (State.freeUnit c u s) := by
  unfold State.freeUnit
  repeat' with_reducible first | assumption | (intro _) | apply State.onMpg_kept

theorem State.write64_kept {s0 : State} (off : Nat) (v : Nat) (s : State) (hs : Kept s0 s) :
    Kept s0 (State.write64 off v s) := by
  unfold State.write64
  repeat' with_reducible first | assumption | (intro _) | apply State.hostWrite_kept | apply State.onMpg_kept

theorem State.zeroTable_kept {s0 : State} (off : Nat) (s : State) (hs : Kept s0 s) :
    Kept s0 (State.zeroTable off s) := by
  unfold State.zeroTable
  repeat' with_reducible first | assumption | (intro _) | apply State.hostWrite_kept | apply State.onMpg_kept

theorem State.giveFrame_kept {s0 : State} (key : Nat) (s : State) (hs : Kept s0 s) :
    Kept s0 (State.giveFrame key s) := by
  unfold State.giveFrame
  repeat' with_reducible first | assumption | (intro _) | apply State.allocUnit_kept | apply State.write64_kept | apply State.zeroTable_kept | apply State.onMpg_kept | apply State.onLayer_kept | apply State.onTile_kept | apply ite_kept | apply ite_kept2 | apply foldl_kept | apply foldl_kept2 | apply foldr_kept | dsimp only | rfl | exact Tbu.locked_tick _ _ _ _ | exact Tbu.locked_wall _ _ _ _ | exact Tbu.rebase_tick _ _ | exact Tbu.rebase_wall _ _ | split

theorem State.noteNoFrame_kept {s0 : State} (w : NoFrame) (s : State) (hs : Kept s0 s) :
    Kept s0 (State.noteNoFrame w s) := by
  unfold State.noteNoFrame
  repeat' with_reducible first | assumption | (intro _) | apply State.mpgFault_kept | apply ite_kept | apply ite_kept2 | apply foldl_kept | apply foldl_kept2 | apply foldr_kept | dsimp only | rfl | exact Tbu.locked_tick _ _ _ _ | exact Tbu.locked_wall _ _ _ _ | exact Tbu.rebase_tick _ _ | exact Tbu.rebase_wall _ _ | split

theorem State.writeTile_kept {s0 : State} (dataAddr : Nat) (headAddr : Nat) (key : Nat) (t : Tile) (s : State) (hs : Kept s0 s) :
    Kept s0 (State.writeTile dataAddr headAddr key t s) := by
  unfold State.writeTile
  repeat' with_reducible first | assumption | (intro _) | apply State.hostWrite_kept

theorem State.writeBack_kept {s0 : State} (key : Nat) (evicted : Bool) (wasUnbacked : Bool) (s : State) (hs : Kept s0 s) :
    Kept s0 (State.writeBack key evicted wasUnbacked s) := by
  unfold State.writeBack
  repeat' with_reducible first | assumption | (intro _) | apply State.writeTile_kept | apply State.write64_kept | apply State.report_kept | apply State.raise_kept | apply State.onTile_kept | apply ite_kept | apply ite_kept2 | apply foldl_kept | apply foldl_kept2 | apply foldr_kept | dsimp only | rfl | exact Tbu.locked_tick _ _ _ _ | exact Tbu.locked_wall _ _ _ _ | exact Tbu.rebase_tick _ _ | exact Tbu.rebase_wall _ _ | split

theorem State.backTile_kept {s0 : State} (key : Nat) (s : State) (hs : Kept s0 s) :
    Kept s0 (State.backTile key s) := by
  unfold State.backTile
  repeat' with_reducible first | assumption | (intro _) | apply State.writeBack_kept | apply State.giveFrame_kept | apply ite_kept | apply ite_kept2 | apply foldl_kept | apply foldl_kept2 | apply foldr_kept | dsimp only | rfl | exact Tbu.locked_tick _ _ _ _ | exact Tbu.locked_wall _ _ _ _ | exact Tbu.rebase_tick _ _ | exact Tbu.rebase_wall _ _ | split

theorem State.backAll_kept {s0 : State} (s : State) (hs : Kept s0 s) :
    Kept s0 (State.backAll s) := by
  unfold State.backAll
  repeat' with_reducible first | assumption | (intro _) | apply State.backTile_kept | apply ite_kept | apply ite_kept2 | apply foldl_kept

theorem State.backLayer_kept {s0 : State} (l : Nat) (s : State) (hs : Kept s0 s) :
    Kept s0 (State.backLayer l s) := by
  unfold State.backLayer
  repeat' with_reducible first | assumption | (intro _) | apply State.backTile_kept | apply ite_kept | apply ite_kept2 | apply foldl_kept

theorem State.clearOver_kept {s0 : State} (l : Nat) (s : State) (hs : Kept s0 s) :
    Kept s0 (State.clearOver l s) := by
  unfold State.clearOver
  repeat' with_reducible first | assumption | (intro _) | apply State.onLayer_kept

theorem State.dropWaiting_kept {s0 : State} (key : Nat) (s : State) (hs : Kept s0 s) :
    Kept s0 (State.dropWaiting key s) := by
  unfold State.dropWaiting
  repeat' with_reducible first | assumption | (intro _) | apply State.onMpg_kept

theorem State.releaseTile_kept {s0 : State} (key : Nat) (s : State) (hs : Kept s0 s) :
    Kept s0 (State.releaseTile key s) := by
  unfold State.releaseTile
  repeat' with_reducible first | assumption | (intro _) | apply State.dropWaiting_kept | apply State.onLayer_kept | apply State.freeUnit_kept | apply State.write64_kept | apply State.onTile_kept | apply State.onMpg_kept | apply ite_kept | apply ite_kept2 | apply foldl_kept | apply foldl_kept2 | apply foldr_kept | dsimp only | rfl | exact Tbu.locked_tick _ _ _ _ | exact Tbu.locked_wall _ _ _ _ | exact Tbu.rebase_tick _ _ | exact Tbu.rebase_wall _ _ | split

theorem State.loseTile_kept {s0 : State} (key : Nat) (f : Tile → Tile) (s : State) (hs : Kept s0 s) :
    Kept s0 (State.loseTile key f s) := by
  unfold State.loseTile
  repeat' with_reducible first | assumption | (intro _) | apply State.onMpg_kept | apply State.onTile_kept | apply ite_kept | apply ite_kept2 | apply foldl_kept | apply foldl_kept2 | apply foldr_kept | dsimp only | rfl | exact Tbu.locked_tick _ _ _ _ | exact Tbu.locked_wall _ _ _ _ | exact Tbu.rebase_tick _ _ | exact Tbu.rebase_wall _ _ | split

theorem State.uncache_kept {s0 : State} (key : Nat) (s : State) (hs : Kept s0 s) :
    Kept s0 (State.uncache key s) := by
  unfold State.uncache
  repeat' with_reducible first | assumption | (intro _) | apply State.onTile_kept

theorem State.makeSpace_kept {s0 : State} (key : Nat) (s : State) (hs : Kept s0 s) :
    Kept s0 (State.makeSpace key s) := by
  unfold State.makeSpace
  repeat' with_reducible first | assumption | (intro _) | apply State.uncache_kept | apply State.writeBack_kept | apply ite_kept | apply ite_kept2 | apply foldl_kept | apply foldl_kept2 | apply foldr_kept | dsimp only | rfl | exact Tbu.locked_tick _ _ _ _ | exact Tbu.locked_wall _ _ _ _ | exact Tbu.rebase_tick _ _ | exact Tbu.rebase_wall _ _ | split

theorem State.dropOldest_kept {s0 : State} (s : State) (hs : Kept s0 s) :
    Kept s0 (State.dropOldest s) := by
  unfold State.dropOldest
  repeat' with_reducible first | assumption | (intro _) | apply State.loseTile_kept | apply State.mpgFault_kept | apply State.onMpg_kept | apply ite_kept | apply ite_kept2 | apply foldl_kept | apply foldl_kept2 | apply foldr_kept | dsimp only | rfl | exact Tbu.locked_tick _ _ _ _ | exact Tbu.locked_wall _ _ _ _ | exact Tbu.rebase_tick _ _ | exact Tbu.rebase_wall _ _ | split

theorem State.backOrHold_kept {s0 : State} (key : Nat) (s : State) (hs : Kept s0 s) :
    Kept s0 (State.backOrHold key s) := by
  unfold State.backOrHold
  repeat' with_reducible first | assumption | (intro _) | apply State.giveFrame_kept | apply State.raise_kept | apply State.onMpg_kept | apply State.onTile_kept | apply State.noteNoFrame_kept | apply ite_kept | apply ite_kept2 | apply foldl_kept | apply foldl_kept2 | apply foldr_kept | dsimp only | rfl | exact Tbu.locked_tick _ _ _ _ | exact Tbu.locked_wall _ _ _ _ | exact Tbu.rebase_tick _ _ | exact Tbu.rebase_wall _ _ | split

theorem State.createTile_kept {s0 : State} (key : Nat) (s : State) (hs : Kept s0 s) :
    Kept s0 (State.createTile key s) := by
  unfold State.createTile
  repeat' with_reducible first | assumption | (intro _) | apply State.makeSpace_kept | apply State.onTile_kept | apply State.backOrHold_kept | apply ite_kept

theorem State.setPair_kept {s0 : State} (key : Nat) (origin : Nat) (seq : Word) (s : State) (hs : Kept s0 s) :
    Kept s0 (State.setPair key origin seq s) := by
  unfold State.setPair
  repeat' with_reducible first | assumption | (intro _) | apply State.onTile_kept | apply State.mpgFault_kept | apply ite_kept

theorem State.ownInto_kept {s0 : State} (d : Delta) (key : Nat) (s : State) (hs : Kept s0 s) :
    Kept s0 (State.ownInto d key s) := by
  unfold State.ownInto
  repeat' with_reducible first | assumption | (intro _) | apply State.onTile_kept | apply State.setPair_kept | apply ite_kept

theorem State.mergeInto_kept {s0 : State} (d : Delta) (key : Nat) (s : State) (hs : Kept s0 s) :
    Kept s0 (State.mergeInto d key s) := by
  unfold State.mergeInto
  repeat' with_reducible first | assumption | (intro _) | apply State.onTile_kept | apply State.setPair_kept | apply ite_kept

theorem State.deltaInto_kept {s0 : State} (w : MergeWait) (key : Nat) (s : State) (hs : Kept s0 s) :
    Kept s0 (State.deltaInto w key s) := by
  unfold State.deltaInto
  repeat' with_reducible first | assumption | (intro _) | apply State.ownInto_kept | apply State.mergeInto_kept | apply ite_kept

theorem State.putDelta_kept {s0 : State} (w : MergeWait) (k : Nat) (s : State) (hs : Kept s0 s) :
    Kept s0 (State.putDelta w k s) := by
  unfold State.putDelta
  repeat' with_reducible first | assumption | (intro _) | apply State.deltaInto_kept | apply State.createTile_kept | apply ite_kept | apply ite_kept2 | apply foldl_kept | apply foldl_kept2 | apply foldr_kept | dsimp only | rfl | exact Tbu.locked_tick _ _ _ _ | exact Tbu.locked_wall _ _ _ _ | exact Tbu.rebase_tick _ _ | exact Tbu.rebase_wall _ _ | split

theorem State.putAll_kept {s0 : State} (p : State → Nat → Bool) (w : MergeWait) (keys : List Nat) (s : State) (hs : Kept s0 s) :
    Kept s0 ((State.putAll p w keys s).2) := by
  unfold State.putAll
  repeat' with_reducible first | assumption | (intro _) | apply State.putDelta_kept | apply ite_kept | apply ite_kept2 | apply foldl_kept | apply foldl_kept2

theorem State.applyDelta_kept {s0 : State} (d : Delta) (own : Bool) (s : State) (hs : Kept s0 s) :
    Kept s0 (State.applyDelta d own s) := by
  unfold State.applyDelta
  repeat' with_reducible first | assumption | (intro _) | apply State.putAll_kept | apply State.noteRange_kept | apply State.onMpg_kept | apply ite_kept

theorem State.drainTile_kept {s0 : State} (key : Nat) (s : State) (hs : Kept s0 s) :
    Kept s0 (State.drainTile key s) := by
  unfold State.drainTile
  repeat' with_reducible first | assumption | (intro _) | apply State.putDelta_kept | apply State.dropWaiting_kept | apply ite_kept | apply ite_kept2 | apply foldl_kept

theorem State.mergeFromLink_kept {s0 : State} (d : Delta) (s : State) (hs : Kept s0 s) :
    Kept s0 (State.mergeFromLink d s) := by
  unfold State.mergeFromLink
  repeat' with_reducible first | assumption | (intro _) | apply State.mpgFault_kept | apply State.onMpg_kept | apply State.applyDelta_kept | apply ite_kept

theorem State.shareDelta_kept {s0 : State} (d : Delta) (s : State) (hs : Kept s0 s) :
    Kept s0 (State.shareDelta d s) := by
  unfold State.shareDelta
  repeat' with_reducible first | assumption | (intro _) | apply State.onDlk_kept | apply State.raise_kept | apply ite_kept

theorem State.setStrip_kept {s0 : State} (ep : Nat) (p : Option Strip) (s : State) (hs : Kept s0 s) :
    Kept s0 (State.setStrip ep p s) := by
  unfold State.setStrip
  repeat' with_reducible first | assumption | (intro _) | apply State.onMpg_kept

theorem State.closeSegment_kept {s0 : State} (ep : Nat) (p : Strip) (tick : Nat) (e : Int) (n : Int) (fin : Bool) (s : State) (hs : Kept s0 s) :
    Kept s0 (State.closeSegment ep p tick e n fin s) := by
  unfold State.closeSegment
  repeat' with_reducible first | assumption | (intro _) | apply State.applyDelta_kept | apply State.onMpg_kept | apply State.report_kept | apply State.shareDelta_kept | apply ite_kept

theorem State.cutStrip_kept {s0 : State} (ep : Nat) (p : Strip) (tick : Nat) (e : Int) (n : Int) (s : State) (hs : Kept s0 s) :
    Kept s0 (State.cutStrip ep p tick e n s) := by
  unfold State.cutStrip
  repeat' with_reducible first | assumption | (intro _) | apply State.setStrip_kept | apply State.closeSegment_kept

theorem State.endStrip_kept {s0 : State} (ep : Nat) (p : Strip) (tick : Nat) (e : Int) (n : Int) (s : State) (hs : Kept s0 s) :
    Kept s0 (State.endStrip ep p tick e n s) := by
  unfold State.endStrip
  repeat' with_reducible first | assumption | (intro _) | apply State.setStrip_kept | apply State.closeSegment_kept | apply ite_kept

theorem State.startWaiting_kept {s0 : State} (ep : Nat) (p : Strip) (q : PoseState) (s : State) (hs : Kept s0 s) :
    Kept s0 (State.startWaiting ep p q s) := by
  unfold State.startWaiting
  repeat' with_reducible first | assumption | (intro _) | apply State.setStrip_kept | apply ite_kept | apply ite_kept2 | apply foldl_kept | apply foldl_kept2 | apply foldr_kept | dsimp only | rfl | exact Tbu.locked_tick _ _ _ _ | exact Tbu.locked_wall _ _ _ _ | exact Tbu.rebase_tick _ _ | exact Tbu.rebase_wall _ _ | split

theorem State.stripEpoch_kept {s0 : State} (ep : Nat) (q : PoseState) (valid : Bool) (s : State) (hs : Kept s0 s) :
    Kept s0 (State.stripEpoch ep q valid s) := by
  unfold State.stripEpoch
  repeat' with_reducible first | assumption | (intro _) | apply State.startWaiting_kept | apply State.setStrip_kept | apply State.closeSegment_kept | apply State.cutStrip_kept | apply ite_kept | apply ite_kept2 | apply foldl_kept | apply foldl_kept2 | apply foldr_kept | dsimp only | rfl | exact Tbu.locked_tick _ _ _ _ | exact Tbu.locked_wall _ _ _ _ | exact Tbu.rebase_tick _ _ | exact Tbu.rebase_wall _ _ | split

theorem State.passCut_kept {s0 : State} (ep : Nat) (q : PoseState) (epoch : Word) (s : State) (hs : Kept s0 s) :
    Kept s0 (State.passCut ep q epoch s) := by
  unfold State.passCut
  repeat' with_reducible first | assumption | (intro _) | apply State.cutStrip_kept | apply State.setStrip_kept | apply ite_kept | apply ite_kept2 | apply foldl_kept | apply foldl_kept2 | apply foldr_kept | dsimp only | rfl | exact Tbu.locked_tick _ _ _ _ | exact Tbu.locked_wall _ _ _ _ | exact Tbu.rebase_tick _ _ | exact Tbu.rebase_wall _ _ | split

theorem State.replayEpoch_kept {s0 : State} (ep : Nat) (q : PoseState) (s : State) (hs : Kept s0 s) :
    Kept s0 (State.replayEpoch ep q s) := by
  unfold State.replayEpoch
  repeat' with_reducible first | assumption | (intro _) | apply State.stripEpoch_kept | apply State.passCut_kept | apply ite_kept | apply ite_kept2 | apply foldl_kept | apply foldl_kept2 | apply foldr_kept | dsimp only | rfl | exact Tbu.locked_tick _ _ _ _ | exact Tbu.locked_wall _ _ _ _ | exact Tbu.rebase_tick _ _ | exact Tbu.rebase_wall _ _ | split

theorem State.openStrip_kept {s0 : State} (ep : Nat) (layer : Nat) (rate : Nat) (tick : Nat) (s : State) (hs : Kept s0 s) :
    Kept s0 (State.openStrip ep layer rate tick s) := by
  unfold State.openStrip
  repeat' with_reducible first | assumption | (intro _) | apply State.setStrip_kept | apply State.replayEpoch_kept | apply ite_kept | apply ite_kept2 | apply foldl_kept

theorem State.cutLayer_kept {s0 : State} (l : Nat) (q : PoseState) (epoch : Word) (s : State) (hs : Kept s0 s) :
    Kept s0 (State.cutLayer l q epoch s) := by
  unfold State.cutLayer
  repeat' with_reducible first | assumption | (intro _) | apply State.passCut_kept | apply ite_kept | apply ite_kept2 | apply foldl_kept | apply foldl_kept2 | apply foldr_kept | dsimp only | rfl | exact Tbu.locked_tick _ _ _ _ | exact Tbu.locked_wall _ _ _ _ | exact Tbu.rebase_tick _ _ | exact Tbu.rebase_wall _ _ | split

theorem State.advancePass_kept {s0 : State} (q : PoseState) (valid : Bool) (l : Nat) (s : State) (hs : Kept s0 s) :
    Kept s0 (State.advancePass q valid l s) := by
  unfold State.advancePass
  repeat' with_reducible first | assumption | (intro _) | apply State.raise_kept | apply State.onLayer_kept | apply State.cutLayer_kept

theorem State.mapEpoch_kept {s0 : State} (q : PoseState) (valid : Bool) (s : State) (hs : Kept s0 s) :
    Kept s0 (State.mapEpoch q valid s) := by
  unfold State.mapEpoch
  repeat' with_reducible first | assumption | (intro _) | apply State.stripEpoch_kept | apply State.advancePass_kept | apply State.onLayer_kept | apply State.finishAt_kept | apply State.onMpg_kept | apply ite_kept | apply ite_kept2 | apply foldl_kept

theorem State.onEntry_kept {s0 : State} (ep : Nat) (f : Entry → Entry) (s : State) (hs : Kept s0 s) :
    Kept s0 (State.onEntry ep f s) := by
  unfold State.onEntry
  repeat' with_reducible first | assumption | (intro _) | apply State.onGle_kept

theorem State.onDyn_kept {s0 : State} (ep : Nat) (f : EpDyn → EpDyn) (s : State) (hs : Kept s0 s) :
    Kept s0 (State.onDyn ep f s) := by
  unfold State.onDyn
  repeat' with_reducible first | assumption | (intro _) | apply State.onGle_kept

theorem State.onSection_kept {s0 : State} (n : Nat) (f : Section → Section) (s : State) (hs : Kept s0 s) :
    Kept s0 (State.onSection n f s) := by
  unfold State.onSection
  repeat' with_reducible first | assumption | (intro _) | apply State.onGle_kept

theorem State.gleFault_kept {s0 : State} (bit : Nat) (src : Nat) (s : State) (hs : Kept s0 s) :
    Kept s0 (State.gleFault bit src s) := by
  unfold State.gleFault
  repeat' with_reducible first | assumption | (intro _) | apply State.raise_kept | apply State.onGle_kept

theorem State.refreshOne_kept {s0 : State} (p : Nat) (s : State) (hs : Kept s0 s) :
    Kept s0 (State.refreshOne p s) := by
  unfold State.refreshOne
  repeat' with_reducible first | assumption | (intro _) | apply State.onGle_kept | apply State.gleFault_kept | apply ite_kept

theorem State.refreshDemand_kept {s0 : State} (s : State) (hs : Kept s0 s) :
    Kept s0 (State.refreshDemand s) := by
  unfold State.refreshDemand
  repeat' with_reducible first | assumption | (intro _) | apply State.refreshOne_kept | apply ite_kept | apply ite_kept2 | apply foldl_kept

theorem State.addValve_kept {s0 : State} (v : Effect) (s : State) (hs : Kept s0 s) :
    Kept s0 (State.addValve v s) := by
  unfold State.addValve
  repeat' with_reducible first | assumption | (intro _) | apply State.onGle_kept

theorem State.addEffect_kept {s0 : State} (v : Effect) (s : State) (hs : Kept s0 s) :
    Kept s0 (State.addEffect v s) := by
  unfold State.addEffect
  repeat' with_reducible first | assumption | (intro _) | apply State.onGle_kept

theorem State.pathLost_kept {s0 : State} (ep : Nat) (s : State) (hs : Kept s0 s) :
    Kept s0 (State.pathLost ep s) := by
  unfold State.pathLost
  repeat' with_reducible first | assumption | (intro _) | apply State.onGle_kept | apply State.onDyn_kept | apply State.addEffect_kept | apply State.refreshDemand_kept | apply ite_kept

theorem State.dropEffect_kept {s0 : State} (ep : Nat) (exec : Nat) (s : State) (hs : Kept s0 s) :
    Kept s0 (State.dropEffect ep exec s) := by
  unfold State.dropEffect
  repeat' with_reducible first | assumption | (intro _) | apply State.onGle_kept

theorem State.pathBack_kept {s0 : State} (ep : Nat) (s : State) (hs : Kept s0 s) :
    Kept s0 (State.pathBack ep s) := by
  unfold State.pathBack
  repeat' with_reducible first | assumption | (intro _) | apply State.addEffect_kept | apply State.addValve_kept | apply ite_kept

theorem State.noteTest_kept {s0 : State} (ep : Nat) (q : PoseState) (tick : Nat) (s : State) (hs : Kept s0 s) :
    Kept s0 (State.noteTest ep q tick s) := by
  unfold State.noteTest
  repeat' with_reducible first | assumption | (intro _) | apply State.noteReads_kept | apply ite_kept

theorem State.noteDuty_kept {s0 : State} (ep : Nat) (l : DutyLimit) (s : State) (hs : Kept s0 s) :
    Kept s0 (State.noteDuty ep l s) := by
  unfold State.noteDuty
  repeat' with_reducible first | assumption | (intro _) | apply State.onSection_kept | apply State.gleFault_kept | apply State.onGle_kept | apply ite_kept | apply ite_kept2 | apply foldl_kept | apply foldl_kept2 | apply foldr_kept | dsimp only | rfl | exact Tbu.locked_tick _ _ _ _ | exact Tbu.locked_wall _ _ _ _ | exact Tbu.rebase_tick _ _ | exact Tbu.rebase_wall _ _ | split

theorem State.noteLate_kept {s0 : State} (ep : Nat) (late : Nat) (s : State) (hs : Kept s0 s) :
    Kept s0 (State.noteLate ep late s) := by
  unfold State.noteLate
  repeat' with_reducible first | assumption | (intro _) | apply State.onSection_kept | apply State.gleFault_kept | apply State.onGle_kept

theorem State.sectionReport_kept {s0 : State} (n : Nat) (tick : Nat) (on : Bool) (seq : Word) (s : State) (hs : Kept s0 s) :
    Kept s0 (State.sectionReport n tick on seq s) := by
  unfold State.sectionReport
  repeat' with_reducible first | assumption | (intro _) | apply State.report_kept | apply State.raise_kept | apply State.onSection_kept

theorem State.sectionCheck_kept {s0 : State} (n : Nat) (tick : Nat) (seq : Word) (s : State) (hs : Kept s0 s) :
    Kept s0 (State.sectionCheck n tick seq s) := by
  unfold State.sectionCheck
  repeat' with_reducible first | assumption | (intro _) | apply State.sectionReport_kept | apply ite_kept

theorem State.newRate_kept {s0 : State} (ep : Nat) (tick : Nat) (rate : Nat) (p : Strip) (s : State) (hs : Kept s0 s) :
    Kept s0 (State.newRate ep tick rate p s) := by
  unfold State.newRate
  repeat' with_reducible first | assumption | (intro _) | apply State.setStrip_kept | apply State.cutStrip_kept | apply ite_kept | apply ite_kept2 | apply foldl_kept | apply foldl_kept2 | apply foldr_kept | dsimp only | rfl | exact Tbu.locked_tick _ _ _ _ | exact Tbu.locked_wall _ _ _ _ | exact Tbu.rebase_tick _ _ | exact Tbu.rebase_wall _ _ | split

theorem State.effectiveRate_kept {s0 : State} (v : Effect) (s : State) (hs : Kept s0 s) :
    Kept s0 (State.effectiveRate v s) := by
  unfold State.effectiveRate
  repeat' with_reducible first | assumption | (intro _) | apply State.newRate_kept | apply ite_kept | apply ite_kept2 | apply foldl_kept | apply foldl_kept2 | apply foldr_kept | dsimp only | rfl | exact Tbu.locked_tick _ _ _ _ | exact Tbu.locked_wall _ _ _ _ | exact Tbu.rebase_tick _ _ | exact Tbu.rebase_wall _ _ | split

theorem State.effectiveOn_kept {s0 : State} (v : Effect) (s : State) (hs : Kept s0 s) :
    Kept s0 (State.effectiveOn v s) := by
  unfold State.effectiveOn
  repeat' with_reducible first | assumption | (intro _) | apply State.onDyn_kept | apply State.newRate_kept | apply State.openStrip_kept | apply State.sectionCheck_kept | apply ite_kept | apply ite_kept2 | apply foldl_kept | apply foldl_kept2 | apply foldr_kept | dsimp only | rfl | exact Tbu.locked_tick _ _ _ _ | exact Tbu.locked_wall _ _ _ _ | exact Tbu.rebase_tick _ _ | exact Tbu.rebase_wall _ _ | split

theorem State.effectiveOff_kept {s0 : State} (v : Effect) (s : State) (hs : Kept s0 s) :
    Kept s0 (State.effectiveOff v s) := by
  unfold State.effectiveOff
  repeat' with_reducible first | assumption | (intro _) | apply State.onDyn_kept | apply State.endStrip_kept | apply State.sectionCheck_kept | apply ite_kept | apply ite_kept2 | apply foldl_kept | apply foldl_kept2 | apply foldr_kept | dsimp only | rfl | exact Tbu.locked_tick _ _ _ _ | exact Tbu.locked_wall _ _ _ _ | exact Tbu.rebase_tick _ _ | exact Tbu.rebase_wall _ _ | split

theorem State.onChan_kept {s0 : State} (n : Nat) (f : Channel → Channel) (s : State) (hs : Kept s0 s) :
    Kept s0 (State.onChan n f s) := by
  unfold State.onChan
  repeat' with_reducible first | assumption | (intro _) | apply State.onLsb_kept

theorem State.lsbFault_kept {s0 : State} (bit : Nat) (src : Nat) (s : State) (hs : Kept s0 s) :
    Kept s0 (State.lsbFault bit src s) := by
  unfold State.lsbFault
  repeat' with_reducible first | assumption | (intro _) | apply State.raise_kept | apply State.onLsb_kept

theorem State.onCtx_kept {s0 : State} (c : Nat) (f : Ctx → Ctx) (s : State) (hs : Kept s0 s) :
    Kept s0 (State.onCtx c f s) := by
  unfold State.onCtx
  repeat' with_reducible first | assumption | (intro _) | apply State.onRge_kept

theorem State.ctxFault_kept {s0 : State} (c : Nat) (bit : Nat) (s : State) (hs : Kept s0 s) :
    Kept s0 (State.ctxFault c bit s) := by
  unfold State.ctxFault
  repeat' with_reducible first | assumption | (intro _) | apply State.raise_kept | apply State.onCtx_kept

theorem State.noteTarget_kept {s0 : State} (c : Nat) (s : State) (hs : Kept s0 s) :
    Kept s0 (State.noteTarget c s) := by
  unfold State.noteTarget
  repeat' with_reducible first | assumption | (intro _) | apply State.onCtx_kept | apply State.ctxFault_kept | apply ite_kept

theorem State.noteTargets_kept {s0 : State} (s : State) (hs : Kept s0 s) :
    Kept s0 (State.noteTargets s) := by
  unfold State.noteTargets
  repeat' with_reducible first | assumption | (intro _) | apply State.noteTarget_kept | apply ite_kept | apply ite_kept2 | apply foldl_kept

theorem State.noteChan_kept {s0 : State} (n : Nat) (s : State) (hs : Kept s0 s) :
    Kept s0 (State.noteChan n s) := by
  unfold State.noteChan
  repeat' with_reducible first | assumption | (intro _) | apply State.noteTarget_kept | apply ite_kept

theorem State.turnOn_kept {s0 : State} (n : Nat) (fresh : Bool) (s : State) (hs : Kept s0 s) :
    Kept s0 (State.turnOn n fresh s) := by
  unfold State.turnOn
  repeat' with_reducible first | assumption | (intro _) | apply State.onChan_kept

theorem State.turnOff_kept {s0 : State} (n : Nat) (s : State) (hs : Kept s0 s) :
    Kept s0 (State.turnOff n s) := by
  unfold State.turnOff
  repeat' with_reducible first | assumption | (intro _) | apply State.onChan_kept

theorem State.follow_kept {s0 : State} (n : Nat) (fresh : Bool) (s : State) (hs : Kept s0 s) :
    Kept s0 (State.follow n fresh s) := by
  unfold State.follow
  repeat' with_reducible first | assumption | (intro _) | apply State.turnOn_kept | apply State.turnOff_kept | apply ite_kept

theorem State.command_kept {s0 : State} (n : Nat) (cmd : ChCmd) (s : State) (hs : Kept s0 s) :
    Kept s0 (State.command n cmd s) := by
  unfold State.command
  repeat' with_reducible first | assumption | (intro _) | apply State.follow_kept | apply State.onChan_kept | apply ite_kept

theorem State.chanLost_kept {s0 : State} (n : Nat) (s : State) (hs : Kept s0 s) :
    Kept s0 (State.chanLost n s) := by
  unfold State.chanLost
  repeat' with_reducible first | assumption | (intro _) | apply State.pathLost_kept | apply State.noteChan_kept | apply ite_kept

theorem State.chanBack_kept {s0 : State} (n : Nat) (s : State) (hs : Kept s0 s) :
    Kept s0 (State.chanBack n s) := by
  unfold State.chanBack
  repeat' with_reducible first | assumption | (intro _) | apply State.noteChan_kept | apply State.follow_kept | apply State.pathBack_kept | apply ite_kept

theorem State.latchOut_kept {s0 : State} (n : Nat) (s : State) (hs : Kept s0 s) :
    Kept s0 (State.latchOut n s) := by
  unfold State.latchOut
  repeat' with_reducible first | assumption | (intro _) | apply State.raise_kept | apply State.onChan_kept

theorem State.trip_kept {s0 : State} (n : Nat) (bit : Nat) (s : State) (hs : Kept s0 s) :
    Kept s0 (State.trip n bit s) := by
  unfold State.trip
  repeat' with_reducible first | assumption | (intro _) | apply State.onChan_kept | apply State.record_kept | apply State.raise_kept | apply State.turnOff_kept | apply State.latchOut_kept | apply State.chanLost_kept | apply ite_kept

theorem State.clearChan_kept {s0 : State} (n : Nat) (s : State) (hs : Kept s0 s) :
    Kept s0 (State.clearChan n s) := by
  unfold State.clearChan
  repeat' with_reducible first | assumption | (intro _) | apply State.onChan_kept | apply State.chanBack_kept | apply ite_kept

theorem State.heat_kept {s0 : State} (n : Nat) (s : State) (hs : Kept s0 s) :
    Kept s0 (State.heat n s) := by
  unfold State.heat
  repeat' with_reducible first | assumption | (intro _) | apply State.onChan_kept | apply ite_kept

theorem State.supplyCut_kept {s0 : State} (p : Supply) (s : State) (hs : Kept s0 s) :
    Kept s0 (State.supplyCut p s) := by
  unfold State.supplyCut
  repeat' with_reducible first | assumption | (intro _) | apply State.onLsb_kept | apply State.chanLost_kept | apply State.follow_kept | apply State.record_kept | apply State.raise_kept | apply ite_kept | apply ite_kept2 | apply foldl_kept

theorem State.endReverse_kept {s0 : State} (b : Nat) (s : State) (hs : Kept s0 s) :
    Kept s0 (State.endReverse b s) := by
  unfold State.endReverse
  repeat' with_reducible first | assumption | (intro _) | apply State.turnOff_kept | apply State.onLsb_kept | apply ite_kept | apply ite_kept2 | apply foldl_kept

theorem State.supplyReturn_kept {s0 : State} (p : Supply) (s : State) (hs : Kept s0 s) :
    Kept s0 (State.supplyReturn p s) := by
  unfold State.supplyReturn
  repeat' with_reducible first | assumption | (intro _) | apply State.onLsb_kept | apply State.endReverse_kept | apply State.chanBack_kept | apply State.record_kept | apply State.raise_kept | apply ite_kept | apply ite_kept2 | apply foldl_kept | apply foldl_kept2 | apply foldr_kept | dsimp only | rfl | exact Tbu.locked_tick _ _ _ _ | exact Tbu.locked_wall _ _ _ _ | exact Tbu.rebase_tick _ _ | exact Tbu.rebase_wall _ _ | split

theorem State.keepOrSafe_kept {s0 : State} (n : Nat) (s : State) (hs : Kept s0 s) :
    Kept s0 (State.keepOrSafe n s) := by
  unfold State.keepOrSafe
  repeat' with_reducible first | assumption | (intro _) | apply State.onLsb_kept | apply State.onChan_kept | apply State.follow_kept

theorem State.keeperEnds_kept {s0 : State} (n : Nat) (s : State) (hs : Kept s0 s) :
    Kept s0 (State.keeperEnds n s) := by
  unfold State.keeperEnds
  repeat' with_reducible first | assumption | (intro _) | apply State.follow_kept | apply State.lsbFault_kept | apply State.onChan_kept

theorem State.reclaim_kept {s0 : State} (n : Nat) (s : State) (hs : Kept s0 s) :
    Kept s0 (State.reclaim n s) := by
  unfold State.reclaim
  repeat' with_reducible first | assumption | (intro _) | apply State.onChan_kept | apply ite_kept

theorem State.driveBound_kept {s0 : State} (n : Nat) (y : Int) (s : State) (hs : Kept s0 s) :
    Kept s0 (State.driveBound n y s) := by
  unfold State.driveBound
  repeat' with_reducible first | assumption | (intro _) | apply State.onChan_kept | apply State.command_kept | apply State.follow_kept | apply ite_kept | apply ite_kept2 | apply foldl_kept | apply foldl_kept2 | apply foldr_kept | dsimp only | rfl | exact Tbu.locked_tick _ _ _ _ | exact Tbu.locked_wall _ _ _ _ | exact Tbu.rebase_tick _ _ | exact Tbu.rebase_wall _ _ | split

theorem State.claimDenied_kept {s0 : State} (s : State) (hs : Kept s0 s) :
    Kept s0 (State.claimDenied s) := by
  unfold State.claimDenied
  repeat' with_reducible first | assumption | (intro _) | apply State.lsbFault_kept

theorem State.escFault_kept {s0 : State} (bit : Nat) (src : Nat) (s : State) (hs : Kept s0 s) :
    Kept s0 (State.escFault bit src s) := by
  unfold State.escFault
  repeat' with_reducible first | assumption | (intro _) | apply State.raise_kept | apply State.onEsc_kept

theorem State.countIns_kept {s0 : State} (r : Ins) (s : State) (hs : Kept s0 s) :
    Kept s0 (State.countIns r s) := by
  unfold State.countIns
  repeat' with_reducible first | assumption | (intro _) | apply State.onEsc_kept | apply State.gleFault_kept | apply State.onGle_kept | apply State.escFault_kept | apply ite_kept | apply ite_kept2 | apply foldl_kept | apply foldl_kept2 | apply foldr_kept | dsimp only | rfl | exact Tbu.locked_tick _ _ _ _ | exact Tbu.locked_wall _ _ _ _ | exact Tbu.rebase_tick _ _ | exact Tbu.rebase_wall _ _ | split

theorem State.insertRaw_kept {s0 : State} (ep : Nat) (retime : Bool) (e : PEvent) (s : State) (hs : Kept s0 s) :
    Kept s0 ((State.insertRaw ep retime e s).2) := by
  unfold State.insertRaw
  repeat' with_reducible first | assumption | (intro _) | apply State.countIns_kept | apply State.onDyn_kept

theorem State.shiftOn_kept {s0 : State} (m : Nat) (delta : Nat) (s : State) (hs : Kept s0 s) :
    Kept s0 (State.shiftOn m delta s) := by
  unfold State.shiftOn
  repeat' with_reducible first | assumption | (intro _) | apply State.noteLate_kept | apply State.onDyn_kept | apply ite_kept | apply ite_kept2 | apply foldl_kept | apply foldl_kept2 | apply foldr_kept | dsimp only | rfl | exact Tbu.locked_tick _ _ _ _ | exact Tbu.locked_wall _ _ _ _ | exact Tbu.rebase_tick _ _ | exact Tbu.rebase_wall _ _ | split

theorem State.shiftMembers_kept {s0 : State} (ep : Nat) (delta : Nat) (s : State) (hs : Kept s0 s) :
    Kept s0 (State.shiftMembers ep delta s) := by
  unfold State.shiftMembers
  repeat' with_reducible first | assumption | (intro _) | apply State.shiftOn_kept | apply State.noteLate_kept | apply ite_kept | apply ite_kept2 | apply foldl_kept

theorem State.cancelOff_kept {s0 : State} (f : Nat) (s : State) (hs : Kept s0 s) :
    Kept s0 (State.cancelOff f s) := by
  unfold State.cancelOff
  repeat' with_reducible first | assumption | (intro _) | apply State.onDyn_kept

theorem State.feed_kept {s0 : State} (f : Nat) (e : PEvent) (r : Ins × State) (hs : Kept s0 r.2) :
    Kept s0 ((State.feed f e r).2) := by
  unfold State.feed
  repeat' with_reducible first | assumption | (intro _) | apply State.insertRaw_kept | apply ite_kept | apply ite_kept2 | apply foldl_kept | apply foldl_kept2 | apply foldr_kept | dsimp only | rfl | exact Tbu.locked_tick _ _ _ _ | exact Tbu.locked_wall _ _ _ _ | exact Tbu.rebase_tick _ _ | exact Tbu.rebase_wall _ _ | split

theorem State.openFeeder_kept {s0 : State} (ep : Nat) (tick : Nat) (f : Nat) (r : Ins × State) (hs : Kept s0 r.2) :
    Kept s0 ((State.openFeeder ep tick f r).2) := by
  unfold State.openFeeder
  repeat' with_reducible first | assumption | (intro _) | apply State.feed_kept

theorem State.closeFeeder_kept {s0 : State} (ep : Nat) (f : Nat) (r : Ins × State) (hs : Kept s0 r.2) :
    Kept s0 ((State.closeFeeder ep f r).2) := by
  unfold State.closeFeeder
  repeat' with_reducible first | assumption | (intro _) | apply State.feed_kept | apply State.cancelOff_kept | apply State.onDyn_kept | apply ite_kept | apply ite_kept2 | apply foldl_kept | apply foldl_kept2 | apply foldr_kept | dsimp only | rfl | exact Tbu.locked_tick _ _ _ _ | exact Tbu.locked_wall _ _ _ _ | exact Tbu.rebase_tick _ _ | exact Tbu.rebase_wall _ _ | split

theorem State.closeFeeders_kept {s0 : State} (ep : Nat) (r : Ins × State) (hs : Kept s0 r.2) :
    Kept s0 ((State.closeFeeders ep r).2) := by
  unfold State.closeFeeders
  repeat' with_reducible first | assumption | (intro _) | apply State.closeFeeder_kept | apply ite_kept | apply ite_kept2 | apply foldl_kept | apply foldl_kept2

theorem State.openFeeders_kept {s0 : State} (ep : Nat) (tick : Nat) (r : Ins × State) (hs : Kept s0 r.2) :
    Kept s0 ((State.openFeeders ep tick r).2) := by
  unfold State.openFeeders
  repeat' with_reducible first | assumption | (intro _) | apply State.openFeeder_kept | apply State.cancelOff_kept | apply ite_kept | apply ite_kept2 | apply foldl_kept | apply foldl_kept2

theorem State.afterCancel_kept {s0 : State} (ep : Nat) (tick : Nat) (s : State) (hs : Kept s0 s) :
    Kept s0 (State.afterCancel ep tick s) := by
  unfold State.afterCancel
  repeat' with_reducible first | assumption | (intro _) | apply State.openFeeders_kept | apply State.closeFeeders_kept | apply ite_kept

theorem State.orRefuse_kept {s0 : State} (e : PEvent) (before : State) (r : Ins × State) (hb : Kept s0 before) (hs : Kept s0 r.2) :
    Kept s0 (State.orRefuse e before r).2 := by
  unfold State.orRefuse
  repeat' with_reducible first | assumption | apply State.countIns_kept | apply ite_kept2 | split

theorem State.openWith_kept {s0 : State} (ep : Nat) (retime : Bool) (e : PEvent) (s : State) (hs : Kept s0 s) :
    Kept s0 ((State.openWith ep retime e s).2) := by
  unfold State.openWith
  repeat' with_reducible first | assumption | (intro _) | apply State.insertRaw_kept | apply State.shiftMembers_kept | apply State.orRefuse_kept | apply State.openFeeder_kept | apply State.openFeeders_kept | apply State.afterCancel_kept | apply ite_kept | apply ite_kept2 | apply foldl_kept | apply foldl_kept2 | apply foldr_kept | dsimp only | rfl | exact Tbu.locked_tick _ _ _ _ | exact Tbu.locked_wall _ _ _ _ | exact Tbu.rebase_tick _ _ | exact Tbu.rebase_wall _ _ | split

theorem State.closeWith_kept {s0 : State} (ep : Nat) (retime : Bool) (e : PEvent) (s : State) (hs : Kept s0 s) :
    Kept s0 ((State.closeWith ep retime e s).2) := by
  unfold State.closeWith
  repeat' with_reducible first | assumption | (intro _) | apply State.insertRaw_kept | apply State.orRefuse_kept | apply State.closeFeeders_kept | apply State.afterCancel_kept | apply ite_kept | apply ite_kept2 | apply foldl_kept | apply foldl_kept2 | apply foldr_kept | dsimp only | rfl | exact Tbu.locked_tick _ _ _ _ | exact Tbu.locked_wall _ _ _ _ | exact Tbu.rebase_tick _ _ | exact Tbu.rebase_wall _ _ | split

theorem State.insert_kept {s0 : State} (ep : Nat) (retime : Bool) (e : PEvent) (s : State) (hs : Kept s0 s) :
    Kept s0 ((State.insert ep retime e s).2) := by
  unfold State.insert
  repeat' with_reducible first | assumption | (intro _) | apply State.insertRaw_kept | apply State.openWith_kept | apply State.closeWith_kept | apply ite_kept | apply ite_kept2

theorem State.shut_kept {s0 : State} (ep : Nat) (s : State) (hs : Kept s0 s) :
    Kept s0 (State.shut ep s) := by
  unfold State.shut
  repeat' with_reducible first | assumption | (intro _) | apply State.onDyn_kept | apply State.insert_kept | apply ite_kept

theorem State.refreshLoad_kept {s0 : State} (s : State) (hs : Kept s0 s) :
    Kept s0 (State.refreshLoad s) := by
  unfold State.refreshLoad
  repeat' with_reducible first | assumption | (intro _) | apply State.onGle_kept | apply State.record_kept | apply State.gleFault_kept | apply ite_kept

theorem State.startProbe_kept {s0 : State} (ep : Nat) (s : State) (hs : Kept s0 s) :
    Kept s0 (State.startProbe ep s) := by
  unfold State.startProbe
  repeat' with_reducible first | assumption | (intro _) | apply State.onDyn_kept

theorem State.startProbes_kept {s0 : State} (s : State) (hs : Kept s0 s) :
    Kept s0 (State.startProbes s) := by
  unfold State.startProbes
  repeat' with_reducible first | assumption | (intro _) | apply State.refreshLoad_kept | apply State.startProbe_kept | apply ite_kept | apply ite_kept2 | apply foldl_kept

theorem State.closeAll_kept {s0 : State} (s : State) (hs : Kept s0 s) :
    Kept s0 ((State.closeAll s).2) := by
  unfold State.closeAll
  repeat' with_reducible first | assumption | (intro _) | apply State.onDyn_kept | apply State.shut_kept | apply ite_kept | apply ite_kept2 | apply foldl_kept

theorem State.applyEntry_kept {s0 : State} (ep : Nat) (en : Entry) (s : State) (hs : Kept s0 s) :
    Kept s0 (State.applyEntry ep en s) := by
  unfold State.applyEntry
  repeat' with_reducible first | assumption | (intro _) | apply State.cutStrip_kept | apply State.onDyn_kept | apply State.onEntry_kept | apply State.setStrip_kept | apply State.follow_kept | apply State.onChan_kept | apply State.reclaim_kept | apply State.startProbe_kept | apply State.insert_kept | apply State.insertRaw_kept | apply State.refreshDemand_kept | apply State.refreshLoad_kept | apply ite_kept | apply ite_kept2 | apply foldl_kept | apply foldl_kept2 | apply foldr_kept | dsimp only | rfl | exact Tbu.locked_tick _ _ _ _ | exact Tbu.locked_wall _ _ _ _ | exact Tbu.rebase_tick _ _ | exact Tbu.rebase_wall _ _ | split

theorem State.applyDelays_kept {s0 : State} (ep : Nat) (s : State) (hs : Kept s0 s) :
    Kept s0 (State.applyDelays ep s) := by
  unfold State.applyDelays
  repeat' with_reducible first | assumption | (intro _) | apply State.applyEntry_kept | apply ite_kept | apply ite_kept2 | apply foldl_kept | apply foldl_kept2 | apply foldr_kept | dsimp only | rfl | exact Tbu.locked_tick _ _ _ _ | exact Tbu.locked_wall _ _ _ _ | exact Tbu.rebase_tick _ _ | exact Tbu.rebase_wall _ _ | split

theorem State.applyStaged_kept {s0 : State} (ep : Nat) (s : State) (hs : Kept s0 s) :
    Kept s0 (State.applyStaged ep s) := by
  unfold State.applyStaged
  repeat' with_reducible first | assumption | (intro _) | apply State.applyEntry_kept | apply State.applyDelays_kept | apply ite_kept | apply ite_kept2 | apply foldl_kept | apply foldl_kept2 | apply foldr_kept | dsimp only | rfl | exact Tbu.locked_tick _ _ _ _ | exact Tbu.locked_wall _ _ _ _ | exact Tbu.rebase_tick _ _ | exact Tbu.rebase_wall _ _ | split

theorem State.cancelUndispatched_kept {s0 : State} (ep : Nat) (s : State) (hs : Kept s0 s) :
    Kept s0 (State.cancelUndispatched ep s) := by
  unfold State.cancelUndispatched
  repeat' with_reducible first | assumption | (intro _) | apply State.onDyn_kept | apply State.closeFeeders_kept | apply ite_kept

theorem State.replaceEntry_kept {s0 : State} (ep : Nat) (en : Entry) (s : State) (hs : Kept s0 s) :
    Kept s0 (State.replaceEntry ep en s) := by
  unfold State.replaceEntry
  repeat' with_reducible first | assumption | (intro _) | apply State.cancelUndispatched_kept | apply State.applyEntry_kept | apply State.shut_kept | apply State.onDyn_kept | apply ite_kept

theorem State.loadEntry_kept {s0 : State} (ep : Nat) (en : Entry) (s : State) (hs : Kept s0 s) :
    Kept s0 (State.loadEntry ep en s) := by
  unfold State.loadEntry
  repeat' with_reducible first | assumption | (intro _) | apply State.onDyn_kept | apply State.applyStaged_kept | apply State.applyEntry_kept | apply State.replaceEntry_kept | apply ite_kept

theorem State.retimeOne_kept {s0 : State} (ep : Nat) (ev : Option PEvent) (s : State) (hs : Kept s0 s) :
    Kept s0 (State.retimeOne ep ev s) := by
  unfold State.retimeOne
  repeat' with_reducible first | assumption | (intro _) | apply State.insert_kept | apply State.noteLate_kept | apply ite_kept | apply ite_kept2 | apply foldl_kept | apply foldl_kept2 | apply foldr_kept | dsimp only | rfl | exact Tbu.locked_tick _ _ _ _ | exact Tbu.locked_wall _ _ _ _ | exact Tbu.rebase_tick _ _ | exact Tbu.rebase_wall _ _ | split

theorem State.retimeAll_kept {s0 : State} (ep : Nat) (s : State) (hs : Kept s0 s) :
    Kept s0 (State.retimeAll ep s) := by
  unfold State.retimeAll
  repeat' with_reducible first | assumption | (intro _) | apply State.retimeOne_kept | apply ite_kept | apply ite_kept2 | apply foldl_kept | apply foldl_kept2 | apply foldr_kept | dsimp only | rfl | exact Tbu.locked_tick _ _ _ _ | exact Tbu.locked_wall _ _ _ _ | exact Tbu.rebase_tick _ _ | exact Tbu.rebase_wall _ _ | split

theorem State.hold_kept {s0 : State} (ep : Nat) (e : Option PEvent) (s : State) (hs : Kept s0 s) :
    Kept s0 (State.hold ep e s) := by
  unfold State.hold
  repeat' with_reducible first | assumption | (intro _) | apply State.onDyn_kept

theorem State.probeEvent_kept {s0 : State} (ep : Nat) (e : PEvent) (s : State) (hs : Kept s0 s) :
    Kept s0 (State.probeEvent ep e s) := by
  unfold State.probeEvent
  repeat' with_reducible first | assumption | (intro _) | apply State.insert_kept | apply State.hold_kept | apply State.noteLate_kept | apply ite_kept | apply ite_kept2 | apply foldl_kept | apply foldl_kept2 | apply foldr_kept | dsimp only | rfl | exact Tbu.locked_tick _ _ _ _ | exact Tbu.locked_wall _ _ _ _ | exact Tbu.rebase_tick _ _ | exact Tbu.rebase_wall _ _ | split

theorem State.retryHeld_kept {s0 : State} (ep : Nat) (s : State) (hs : Kept s0 s) :
    Kept s0 (State.retryHeld ep s) := by
  unfold State.retryHeld
  repeat' with_reducible first | assumption | (intro _) | apply State.insert_kept | apply State.probeEvent_kept | apply ite_kept | apply ite_kept2 | apply foldl_kept | apply foldl_kept2 | apply foldr_kept | dsimp only | rfl | exact Tbu.locked_tick _ _ _ _ | exact Tbu.locked_wall _ _ _ _ | exact Tbu.rebase_tick _ _ | exact Tbu.rebase_wall _ _ | split

theorem State.lcaFault_kept {s0 : State} (bit : Nat) (src : Nat) (s : State) (hs : Kept s0 s) :
    Kept s0 (State.lcaFault bit src s) := by
  unfold State.lcaFault
  repeat' with_reducible first | assumption | (intro _) | apply State.raise_kept | apply State.onLca_kept

theorem State.onDelay_kept {s0 : State} (ep : Nat) (kind : Nat) (f : DelayCal → DelayCal) (s : State) (hs : Kept s0 s) :
    Kept s0 (State.onDelay ep kind f s) := by
  unfold State.onDelay
  repeat' with_reducible first | assumption | (intro _) | apply State.onLca_kept

theorem State.calResult_kept {s0 : State} (kind : Nat) (outcome : Nat) (source : Nat) (target : Nat) (before : Nat) (after : Nat) (est : Int) (samples : Nat) (rejected : Nat) (base : Nat) (rho : Nat) (s : State) (hs : Kept s0 s) :
    Kept s0 (State.calResult kind outcome source target before after est samples rejected base rho s) := by
  unfold State.calResult
  repeat' with_reducible first | assumption | (intro _) | apply State.report_kept

theorem State.delayResult_kept {s0 : State} (ep : Nat) (kind : Nat) (outcome : Nat) (after : Nat) (s : State) (hs : Kept s0 s) :
    Kept s0 (State.delayResult ep kind outcome after s) := by
  unfold State.delayResult
  repeat' with_reducible first | assumption | (intro _) | apply State.calResult_kept | apply ite_kept

theorem State.dropLearned_kept {s0 : State} (ep : Nat) (kind : Nat) (s : State) (hs : Kept s0 s) :
    Kept s0 (State.dropLearned ep kind s) := by
  unfold State.dropLearned
  repeat' with_reducible first | assumption | (intro _) | apply State.onNv_kept | apply ite_kept | apply ite_kept2 | apply foldl_kept | apply foldl_kept2 | apply foldr_kept | dsimp only

theorem State.storeLearned_kept {s0 : State} (ep : Nat) (kind : Nat) (v : Nat) (base : Nat) (s : State) (hs : Kept s0 s) :
    Kept s0 (State.storeLearned ep kind v base s) := by
  unfold State.storeLearned
  repeat' with_reducible first | assumption | (intro _) | apply State.onNv_kept | apply State.raise_kept | apply State.onEvr_kept | apply ite_kept | apply ite_kept2 | apply foldl_kept | apply foldl_kept2 | apply foldr_kept | dsimp only | rfl | exact Tbu.locked_tick _ _ _ _ | exact Tbu.locked_wall _ _ _ _ | exact Tbu.rebase_tick _ _ | exact Tbu.rebase_wall _ _ | split

theorem State.discardCal_kept {s0 : State} (ep : Nat) (kind : Nat) (base : Option Nat) (s : State) (hs : Kept s0 s) :
    Kept s0 (State.discardCal ep kind base s) := by
  unfold State.discardCal
  repeat' with_reducible first | assumption | (intro _) | apply State.delayResult_kept | apply State.lcaFault_kept | apply State.onDelay_kept

theorem State.loadCal_kept {s0 : State} (ep : Nat) (kind : Nat) (loaded : Nat) (keep : Bool) (changes : Bool) (s : State) (hs : Kept s0 s) :
    Kept s0 (State.loadCal ep kind loaded keep changes s) := by
  unfold State.loadCal
  repeat' with_reducible first | assumption | (intro _) | apply State.lcaFault_kept | apply State.delayResult_kept | apply State.dropLearned_kept | apply State.onDelay_kept | apply State.discardCal_kept | apply ite_kept | apply ite_kept2 | apply foldl_kept | apply foldl_kept2 | apply foldr_kept | dsimp only | rfl | exact Tbu.locked_tick _ _ _ _ | exact Tbu.locked_wall _ _ _ _ | exact Tbu.rebase_tick _ _ | exact Tbu.rebase_wall _ _ | split

theorem State.applyLearned_kept {s0 : State} (ep : Nat) (kind : Nat) (v : Nat) (s : State) (hs : Kept s0 s) :
    Kept s0 (State.applyLearned ep kind v s) := by
  unfold State.applyLearned
  repeat' with_reducible first | assumption | (intro _) | apply State.onDyn_kept | apply State.onEntry_kept | apply State.onLca_kept | apply State.onDelay_kept | apply State.record_kept | apply State.storeLearned_kept | apply State.calResult_kept | apply State.raise_kept | apply ite_kept

theorem State.tryLearned_kept {s0 : State} (ep : Nat) (kind : Nat) (s : State) (hs : Kept s0 s) :
    Kept s0 (State.tryLearned ep kind s) := by
  unfold State.tryLearned
  repeat' with_reducible first | assumption | (intro _) | apply State.applyLearned_kept | apply State.raise_kept | apply State.onDelay_kept | apply ite_kept | apply ite_kept2 | apply foldl_kept | apply foldl_kept2 | apply foldr_kept | dsimp only | rfl | exact Tbu.locked_tick _ _ _ _ | exact Tbu.locked_wall _ _ _ _ | exact Tbu.rebase_tick _ _ | exact Tbu.rebase_wall _ _ | split

theorem State.applyCal_kept {s0 : State} (ep : Nat) (s : State) (hs : Kept s0 s) :
    Kept s0 (State.applyCal ep s) := by
  unfold State.applyCal
  repeat' with_reducible first | assumption | (intro _) | apply State.tryLearned_kept

theorem State.applyWaiting_kept {s0 : State} (ep : Nat) (s : State) (hs : Kept s0 s) :
    Kept s0 (State.applyWaiting ep s) := by
  unfold State.applyWaiting
  repeat' with_reducible first | assumption | (intro _) | apply State.applyStaged_kept | apply State.applyCal_kept | apply ite_kept

theorem State.onPort_kept {s0 : State} (p : Nat) (f : Port → Port) (s : State) (hs : Kept s0 s) :
    Kept s0 (State.onPort p f s) := by
  unfold State.onPort
  repeat' with_reducible first | assumption | (intro _) | apply State.onFlp_kept

theorem State.onDport_kept {s0 : State} (q : Nat) (f : Port → Port) (s : State) (hs : Kept s0 s) :
    Kept s0 (State.onDport q f s) := by
  unfold State.onDport
  repeat' with_reducible first | assumption | (intro _) | apply State.onDlk_kept

theorem State.onNode_kept {s0 : State} (p : Nat) (n : Nat) (f : Node → Node) (s : State) (hs : Kept s0 s) :
    Kept s0 (State.onNode p n f s) := by
  unfold State.onNode
  repeat' with_reducible first | assumption | (intro _) | apply State.onFlp_kept

theorem State.flpFault_kept {s0 : State} (bit : Nat) (src : Nat) (s : State) (hs : Kept s0 s) :
    Kept s0 (State.flpFault bit src s) := by
  unfold State.flpFault
  repeat' with_reducible first | assumption | (intro _) | apply State.raise_kept | apply State.onFlp_kept

theorem State.dlkFault_kept {s0 : State} (bit : Nat) (src : Nat) (s : State) (hs : Kept s0 s) :
    Kept s0 (State.dlkFault bit src s) := by
  unfold State.dlkFault
  repeat' with_reducible first | assumption | (intro _) | apply State.raise_kept | apply State.onDlk_kept

theorem State.queueRec_kept {s0 : State} (p : Nat) (n : Nat) (r : CmdRec) (s : State) (hs : Kept s0 s) :
    Kept s0 (State.queueRec p n r s) := by
  unfold State.queueRec
  repeat' with_reducible first | assumption | (intro _) | apply State.onNode_kept

theorem State.sendAde_kept {s0 : State} (p : Nat) (type : Nat) (node : Nat) (seq : Nat) (body : List Fld) (records : List (List Fld)) (s : State) (hs : Kept s0 s) :
    Kept s0 (State.sendAde p type node seq body records s) := by
  unfold State.sendAde
  repeat' with_reducible first | assumption | (intro _) | apply State.sendFrame_kept | apply ite_kept

theorem State.sendTeb_kept {s0 : State} (type : Nat) (body : List Fld) (records : List (List Fld)) (s : State) (hs : Kept s0 s) :
    Kept s0 (State.sendTeb type body records s) := by
  unfold State.sendTeb
  repeat' with_reducible first | assumption | (intro _) | apply State.onDlk_kept | apply State.sendFrame_kept | apply ite_kept

theorem State.linkStatus_kept {s0 : State} (link : Nat) (port : Nat) (event : Nat) (pstate : Nat) (subject : Nat) (members : Nat) (value : Nat) (s : State) (hs : Kept s0 s) :
    Kept s0 (State.linkStatus link port event pstate subject members value s) := by
  unfold State.linkStatus
  repeat' with_reducible first | assumption | (intro _) | apply State.report_kept

theorem State.fieldStatus_kept {s0 : State} (p : Nat) (event : Nat) (subject : Nat) (value : Nat) (s : State) (hs : Kept s0 s) :
    Kept s0 (State.fieldStatus p event subject value s) := by
  unfold State.fieldStatus
  repeat' with_reducible first | assumption | (intro _) | apply State.linkStatus_kept

theorem State.dlkStatus_kept {s0 : State} (q : Nat) (event : Nat) (subject : Nat) (value : Nat) (s : State) (hs : Kept s0 s) :
    Kept s0 (State.dlkStatus q event subject value s) := by
  unfold State.dlkStatus
  repeat' with_reducible first | assumption | (intro _) | apply State.linkStatus_kept

theorem State.armCheck_kept {s0 : State} (s : State) (hs : Kept s0 s) :
    Kept s0 (State.armCheck s) := by
  unfold State.armCheck
  repeat' with_reducible first | assumption | (intro _) | apply State.onGnb_kept | apply ite_kept

theorem State.mergeTile_kept {s0 : State} (y : Layer) (i : Imported) (s : State) (hs : Kept s0 s) :
    Kept s0 (State.mergeTile y i s) := by
  unfold State.mergeTile
  repeat' with_reducible first | assumption | (intro _) | apply State.onTile_kept | apply State.setPair_kept | apply ite_kept | apply ite_kept2 | apply foldl_kept | apply foldl_kept2 | apply foldr_kept | dsimp only | rfl | exact Tbu.locked_tick _ _ _ _ | exact Tbu.locked_wall _ _ _ _ | exact Tbu.rebase_tick _ _ | exact Tbu.rebase_wall _ _ | split

theorem State.importTile_kept {s0 : State} (m : Bool) (i : Imported) (s s' : State) (h : s.importTile m i = some s') (hs : Kept s0 s) : Kept s0 s' := by
  unfold State.importTile at h
  extract_lets y s1 t r fill at h
  have h1 : Kept s0 s1 := ite_kept _ (State.drainTile_kept _ _ hs) (State.dropWaiting_kept _ _ hs)
  have hfill : ∀ u : State, Kept s0 u → Kept s0 (fill u) := by
    intro u hu
    exact ite_kept _ (State.mergeTile_kept _ _ _ hu) (State.onTile_kept _ _ _ hu)
  have hr : Kept s0 r := ite_kept _ h1 (State.makeSpace_kept _ _ h1)
  split at h
  · cases h; exact hfill _ hr
  · split at h
    · cases h
    · cases h
      exact hfill _ (State.giveFrame_kept _ _ (State.onTile_kept _ _ _ (ite_kept _ (State.onTile_kept _ _ _ hr) hr)))

theorem State.importTiles_kept {s0 : State} (m : Bool) (l : List Imported) (n : Nat) (s : State) (hs : Kept s0 s) :
    Kept s0 (State.importTiles m l n s).2.2 := by
  induction l generalizing s n with
  | nil => exact hs
  | cons x t ih =>
    simp only [State.importTiles]
    split
    · next h => exact ih _ _ (State.importTile_kept _ _ _ _ h hs)
    · dsimp only; split
      · exact State.noteNoFrame_kept _ _ hs
      · exact hs

theorem State.importDeltas_kept {s0 : State} (ring : Nat) (n : Nat) (b : List Byte) (s : State) (hs : Kept s0 s) :
    Kept s0 (State.importDeltas ring n b s) := by
  unfold State.importDeltas
  repeat' with_reducible first | assumption | (intro _) | apply State.finishHead_kept | apply State.applyDelta_kept | apply ite_kept | apply ite_kept2 | apply foldl_kept | apply foldl_kept2 | apply foldr_kept | dsimp only | rfl | exact Tbu.locked_tick _ _ _ _ | exact Tbu.locked_wall _ _ _ _ | exact Tbu.rebase_tick _ _ | exact Tbu.rebase_wall _ _ | split

theorem State.importWhole_kept {s0 : State} (ring : Nat) (n : Nat) (merge : Bool) (b : List Byte) (s : State) (hs : Kept s0 s) :
    Kept s0 (State.importWhole ring n merge b s) := by
  unfold State.importWhole
  repeat' with_reducible first | assumption | (intro _) | apply State.finishHead_kept | apply State.importTiles_kept | apply ite_kept | apply ite_kept2 | apply foldl_kept | apply foldl_kept2 | apply foldr_kept | dsimp only | rfl | exact Tbu.locked_tick _ _ _ _ | exact Tbu.locked_wall _ _ _ _ | exact Tbu.rebase_tick _ _ | exact Tbu.rebase_wall _ _ | split

theorem State.settleTile_kept {s0 : State} (key : Nat) (s : State) (hs : Kept s0 s) :
    Kept s0 (State.settleTile key s) := by
  unfold State.settleTile
  repeat' with_reducible first | assumption | (intro _) | apply State.drainTile_kept | apply State.onTile_kept

theorem State.exportTiles_kept {s0 : State} (a z : Nat) (l : List Nat) (s : State) (hs : Kept s0 s) : Kept s0 (State.exportTiles a z l s) := by
  induction l generalizing s a with
  | nil => exact hs
  | cons x t ih => exact ih _ _ (State.writeTile_kept _ _ _ _ _ (State.settleTile_kept _ _ hs))

theorem State.needTile_kept {s0 : State} (key : Nat) (s : State) (hs : Kept s0 s) :
    Kept s0 (State.needTile key s) := by
  unfold State.needTile
  repeat' with_reducible first | assumption | (intro _) | apply State.createTile_kept | apply State.dropOldest_kept | apply ite_kept

theorem State.applyMark_kept {s0 : State} (l : Nat) (m : Mark) (s : State) (hs : Kept s0 s) :
    Kept s0 (State.applyMark l m s) := by
  unfold State.applyMark
  repeat' with_reducible first | assumption | (intro _) | apply State.needTile_kept | apply State.onTile_kept | apply State.noteRange_kept | apply ite_kept | apply ite_kept2 | apply foldl_kept

theorem State.markAll_kept {s0 : State} (ring : Nat) (l : Nat) (ms : List Mark) (s : State) (hs : Kept s0 s) :
    Kept s0 (State.markAll ring l ms s) := by
  unfold State.markAll
  repeat' with_reducible first | assumption | (intro _) | apply State.finishHead_kept | apply State.applyMark_kept | apply ite_kept | apply ite_kept2 | apply foldl_kept

theorem State.badTile_kept {s0 : State} (key : Nat) (what : Nat) (s : State) (hs : Kept s0 s) :
    Kept s0 (State.badTile key what s) := by
  unfold State.badTile
  repeat' with_reducible first | assumption | (intro _) | apply State.loseTile_kept | apply State.faultReport_kept | apply State.mpgFault_kept

theorem State.fetched_kept {s0 : State} (key : Nat) (r : TileRead) (s : State) (hs : Kept s0 s) :
    Kept s0 (State.fetched key r s) := by
  unfold State.fetched
  repeat' with_reducible first | assumption | (intro _) | apply State.dmaError_kept | apply State.mpgFault_kept | apply State.onTile_kept | apply State.badTile_kept | apply State.makeSpace_kept | apply ite_kept | apply ite_kept2 | apply foldl_kept | apply foldl_kept2 | apply foldr_kept | dsimp only | rfl | exact Tbu.locked_tick _ _ _ _ | exact Tbu.locked_wall _ _ _ _ | exact Tbu.rebase_tick _ _ | exact Tbu.rebase_wall _ _ | split

theorem State.writeBackDue_kept {s0 : State} (key : Nat) (evict : Bool) (destOk : Bool) (s : State) (hs : Kept s0 s) :
    Kept s0 (State.writeBackDue key evict destOk s) := by
  unfold State.writeBackDue
  repeat' with_reducible first | assumption | (intro _) | apply State.writeBack_kept | apply State.uncache_kept | apply State.dmaError_kept | apply State.mpgFault_kept | apply State.onTile_kept | apply ite_kept

theorem State.drainOne_kept {s0 : State} (s : State) (hs : Kept s0 s) :
    Kept s0 (State.drainOne s) := by
  unfold State.drainOne
  repeat' with_reducible first | assumption | (intro _) | apply State.putAll_kept | apply State.onMpg_kept | apply ite_kept | apply ite_kept2 | apply foldl_kept | apply foldl_kept2 | apply foldr_kept | dsimp only | rfl | exact Tbu.locked_tick _ _ _ _ | exact Tbu.locked_wall _ _ _ _ | exact Tbu.rebase_tick _ _ | exact Tbu.rebase_wall _ _ | split

theorem State.enableLayer_kept {s0 : State} (l : Nat) (s : State) (hs : Kept s0 s) :
    Kept s0 (State.enableLayer l s) := by
  unfold State.enableLayer
  repeat' with_reducible first | assumption | (intro _) | apply State.allocUnit_kept | apply State.onLayer_kept | apply State.zeroTable_kept

theorem State.disableLayer_kept {s0 : State} (l : Nat) (s : State) (hs : Kept s0 s) :
    Kept s0 (State.disableLayer l s) := by
  unfold State.disableLayer
  repeat' with_reducible first | assumption | (intro _) | apply State.freeUnit_kept | apply State.backAll_kept | apply State.onMpg_kept | apply State.onLayer_kept | apply ite_kept | apply ite_kept2 | apply foldl_kept | apply foldl_kept2 | apply foldr_kept | dsimp only | rfl | exact Tbu.locked_tick _ _ _ _ | exact Tbu.locked_wall _ _ _ _ | exact Tbu.rebase_tick _ _ | exact Tbu.rebase_wall _ _ | split

theorem State.layerCfg_kept {s0 : State} (l : Nat) (v : Word) (s : State) (hs : Kept s0 s) :
    Kept s0 (State.layerCfg l v s) := by
  unfold State.layerCfg
  repeat' with_reducible first | assumption | (intro _) | apply State.onLayer_kept | apply State.mpgFault_kept | apply State.disableLayer_kept | apply State.enableLayer_kept | apply ite_kept

theorem State.loadOne_kept {s0 : State} (keep : Bool) (ep : Nat) (en : Entry) (s : State) (hs : Kept s0 s) :
    Kept s0 (State.loadOne keep ep en s) := by
  unfold State.loadOne
  repeat' with_reducible first | assumption | (intro _) | apply State.loadCal_kept | apply State.loadEntry_kept

theorem State.loadAll_kept {s0 : State} (ring : Nat) (keep : Bool) (es : List (Nat × Entry)) (s : State) (hs : Kept s0 s) :
    Kept s0 (State.loadAll ring keep es s) := by
  unfold State.loadAll
  repeat' with_reducible first | assumption | (intro _) | apply State.finishHead_kept | apply State.claimDenied_kept | apply State.armCheck_kept | apply State.loadOne_kept | apply ite_kept | apply ite_kept2 | apply foldl_kept | apply foldl_kept2 | apply foldr_kept | dsimp only | rfl | exact Tbu.locked_tick _ _ _ _ | exact Tbu.locked_wall _ _ _ _ | exact Tbu.rebase_tick _ _ | exact Tbu.rebase_wall _ _ | split

theorem State.latchOne_kept {s0 : State} (ep : Nat) (tick : Nat) (on : Bool) (r : Bool × State) (hs : Kept s0 r.2) :
    Kept s0 ((State.latchOne ep tick on r).2) := by
  unfold State.latchOne
  repeat' with_reducible first | assumption | (intro _) | apply State.insert_kept | apply ite_kept | apply ite_kept2

theorem State.latchSection_kept {s0 : State} (tick : Nat) (e : SecEntry) (r : Bool × State) (hs : Kept s0 r.2) :
    Kept s0 ((State.latchSection tick e r).2) := by
  unfold State.latchSection
  repeat' with_reducible first | assumption | (intro _) | apply State.latchOne_kept | apply ite_kept | apply ite_kept2 | apply foldl_kept | apply foldl_kept2

theorem State.setSections_kept {s0 : State} (ring : Nat) (tick : Nat) (es : List SecEntry) (s : State) (hs : Kept s0 s) :
    Kept s0 (State.setSections ring tick es s) := by
  unfold State.setSections
  repeat' with_reducible first | assumption | (intro _) | apply State.latchSection_kept | apply State.finishHead_kept | apply State.armCheck_kept | apply State.onSection_kept | apply State.escFault_kept | apply ite_kept | apply ite_kept2 | apply foldl_kept | apply foldl_kept2

theorem State.closeProduct_kept {s0 : State} (p : Nat) (s : State) (hs : Kept s0 s) :
    Kept s0 (State.closeProduct p s) := by
  unfold State.closeProduct
  repeat' with_reducible first | assumption | (intro _) | apply State.shut_kept | apply ite_kept | apply ite_kept2 | apply foldl_kept

theorem State.endPulses_kept {s0 : State} (p : Nat) (s : State) (hs : Kept s0 s) :
    Kept s0 (State.endPulses p s) := by
  unfold State.endPulses
  repeat' with_reducible first | assumption | (intro _) | apply State.follow_kept | apply State.onDyn_kept | apply ite_kept | apply ite_kept2 | apply foldl_kept

theorem State.gleCtrl_kept {s0 : State} (v : Word) (s : State) (hs : Kept s0 s) :
    Kept s0 (State.gleCtrl v s) := by
  unfold State.gleCtrl
  repeat' with_reducible first | assumption | (intro _) | apply State.startProbes_kept | apply State.onGle_kept | apply State.closeAll_kept | apply State.refreshLoad_kept | apply State.onDyn_kept | apply ite_kept | apply ite_kept2 | apply foldl_kept

theorem State.advanceProbe_kept {s0 : State} (ep : Nat) (sk : Nat) (r : TestRes) (s : State) (hs : Kept s0 s) :
    Kept s0 (State.advanceProbe ep sk r s) := by
  unfold State.advanceProbe
  repeat' with_reducible first | assumption | (intro _) | apply State.onDyn_kept

theorem State.rateDecision_kept {s0 : State} (ep : Nat) (ground : Nat) (r : TestRes) (s : State) (hs : Kept s0 s) :
    Kept s0 (State.rateDecision ep ground r s) := by
  unfold State.rateDecision
  repeat' with_reducible first | assumption | (intro _) | apply State.addEffect_kept | apply State.onDyn_kept | apply ite_kept

theorem State.evalSample_kept {s0 : State} (ep : Nat) (sk : Nat) (last : Option (Nat × TestRes)) (s : State) (hs : Kept s0 s) :
    Kept s0 (State.evalSample ep sk last s) := by
  unfold State.evalSample
  repeat' with_reducible first | assumption | (intro _) | apply State.noteTest_kept | apply State.advanceProbe_kept | apply State.rateDecision_kept | apply State.onDyn_kept | apply State.noteDuty_kept | apply State.probeEvent_kept | apply ite_kept | apply ite_kept2 | apply foldl_kept | apply foldl_kept2 | apply foldr_kept | dsimp only | rfl | exact Tbu.locked_tick _ _ _ _ | exact Tbu.locked_wall _ _ _ _ | exact Tbu.rebase_tick _ _ | exact Tbu.rebase_wall _ _ | split

theorem State.evaluate_kept {s0 : State} (ep : Nat) (s : State) (hs : Kept s0 s) :
    Kept s0 (State.evaluate ep s) := by
  unfold State.evaluate
  repeat' with_reducible first | assumption | (intro _) | apply State.applyWaiting_kept | apply State.onDyn_kept | apply State.retryHeld_kept | apply State.retimeAll_kept | apply State.evalSample_kept | apply ite_kept | apply ite_kept2 | apply foldl_kept | apply foldl_kept2 | apply foldr_kept | dsimp only | rfl | exact Tbu.locked_tick _ _ _ _ | exact Tbu.locked_wall _ _ _ _ | exact Tbu.rebase_tick _ _ | exact Tbu.rebase_wall _ _ | split

theorem State.countEval_kept {s0 : State} (s : State) (hs : Kept s0 s) :
    Kept s0 (State.countEval s) := by
  unfold State.countEval
  repeat' with_reducible first | assumption | (intro _) | apply State.onGle_kept

theorem State.countDrop_kept {s0 : State} (p : Nat) (s : State) (hs : Kept s0 s) :
    Kept s0 (State.countDrop p s) := by
  unfold State.countDrop
  repeat' with_reducible first | assumption | (intro _) | apply State.onEsc_kept

theorem State.portDrop_kept {s0 : State} (p : Nat) (s : State) (hs : Kept s0 s) :
    Kept s0 (State.portDrop p s) := by
  unfold State.portDrop
  repeat' with_reducible first | assumption | (intro _) | apply State.escFault_kept | apply State.countDrop_kept

theorem State.dispatch_kept {s0 : State} (ep : Nat) (e : PEvent) (s : State) (hs : Kept s0 s) :
    Kept s0 (State.dispatch ep e s) := by
  unfold State.dispatch
  repeat' with_reducible first | assumption | (intro _) | apply State.onDyn_kept | apply State.portDrop_kept | apply State.countDrop_kept | apply State.queueRec_kept | apply ite_kept | apply ite_kept2 | apply foldl_kept

theorem State.driveLocal_kept {s0 : State} (ep : Nat) (e : PEvent) (was : Bool) (s : State) (hs : Kept s0 s) :
    Kept s0 (State.driveLocal ep e was s) := by
  unfold State.driveLocal
  repeat' with_reducible first | assumption | (intro _) | apply State.onDyn_kept | apply State.follow_kept | apply State.onChan_kept | apply ite_kept

theorem State.execute_kept {s0 : State} (ep : Nat) (e : PEvent) (s : State) (hs : Kept s0 s) :
    Kept s0 (State.execute ep e s) := by
  unfold State.execute
  repeat' with_reducible first | assumption | (intro _) | apply State.onDyn_kept | apply State.driveLocal_kept | apply State.addValve_kept | apply State.addEffect_kept | apply State.dropEffect_kept | apply State.shut_kept | apply State.applyWaiting_kept | apply ite_kept

theorem State.gridEdge_kept {s0 : State} (n : Nat) (s : State) (hs : Kept s0 s) :
    Kept s0 (State.gridEdge n s) := by
  unfold State.gridEdge
  repeat' with_reducible first | assumption | (intro _) | apply State.onDyn_kept | apply State.follow_kept | apply ite_kept

theorem State.valve_kept {s0 : State} (v : Effect) (s : State) (hs : Kept s0 s) :
    Kept s0 (State.valve v s) := by
  unfold State.valve
  repeat' with_reducible first | assumption | (intro _) | apply State.onDyn_kept | apply State.refreshDemand_kept | apply State.onLca_kept

theorem State.switchWait_kept {s0 : State} (ring : Nat) (at_ : Nat) (index : Word) (es : List SwEntry) (s : State) (hs : Kept s0 s) :
    Kept s0 (State.switchWait ring at_ index es s) := by
  unfold State.switchWait
  repeat' with_reducible first | assumption | (intro _) | apply State.startHead_kept | apply State.onLsb_kept

theorem State.unbind_kept {s0 : State} (n : Nat) (s : State) (hs : Kept s0 s) :
    Kept s0 (State.unbind n s) := by
  unfold State.unbind
  repeat' with_reducible first | assumption | (intro _) | apply State.onChan_kept | apply State.onCtx_kept | apply ite_kept

theorem State.bind_kept {s0 : State} (e : SwEntry) (s : State) (hs : Kept s0 s) :
    Kept s0 (State.bind e s) := by
  unfold State.bind
  repeat' with_reducible first | assumption | (intro _) | apply State.onChan_kept | apply State.onCtx_kept | apply State.noteTarget_kept | apply State.command_kept

theorem State.clearUnless_kept {s0 : State} (span : Nat) (n : Nat) (s : State) (hs : Kept s0 s) :
    Kept s0 (State.clearUnless span n s) := by
  unfold State.clearUnless
  repeat' with_reducible first | assumption | (intro _) | apply State.clearChan_kept | apply ite_kept

theorem State.applySwitch_kept {s0 : State} (s : State) (e : SwEntry) (hs : Kept s0 s) :
    Kept s0 (State.applySwitch s e) := by
  unfold State.applySwitch
  repeat' with_reducible first | assumption | (intro _) | apply State.command_kept | apply State.unbind_kept | apply State.reclaim_kept | apply State.bind_kept | apply State.clearUnless_kept | apply ite_kept | apply ite_kept2 | apply foldl_kept | apply foldl_kept2 | apply foldr_kept | dsimp only | rfl | exact Tbu.locked_tick _ _ _ _ | exact Tbu.locked_wall _ _ _ _ | exact Tbu.rebase_tick _ _ | exact Tbu.rebase_wall _ _ | split

theorem State.switchNow_kept {s0 : State} (w : SwWait) (s : State) (hs : Kept s0 s) :
    Kept s0 (State.switchNow w s) := by
  unfold State.switchNow
  repeat' with_reducible first | assumption | (intro _) | apply State.onLsb_kept | apply State.finishAt_kept | apply State.claimDenied_kept | apply State.applySwitch_kept | apply ite_kept | apply ite_kept2 | apply foldl_kept | apply foldl_kept2 | apply foldr_kept | dsimp only | rfl | exact Tbu.locked_tick _ _ _ _ | exact Tbu.locked_wall _ _ _ _ | exact Tbu.rebase_tick _ _ | exact Tbu.rebase_wall _ _ | split

theorem State.keeperTripped_kept {s0 : State} (n : Nat) (bit : Nat) (s : State) (hs : Kept s0 s) :
    Kept s0 (State.keeperTripped n bit s) := by
  unfold State.keeperTripped
  repeat' with_reducible first | assumption | (intro _) | apply State.onChan_kept | apply State.record_kept | apply State.raise_kept | apply State.turnOff_kept | apply State.lsbFault_kept | apply State.latchOut_kept

theorem State.tripAny_kept {s0 : State} (n : Nat) (bit : Nat) (s : State) (hs : Kept s0 s) :
    Kept s0 (State.tripAny n bit s) := by
  unfold State.tripAny
  repeat' with_reducible first | assumption | (intro _) | apply State.keeperTripped_kept | apply State.trip_kept | apply ite_kept

theorem State.sample_kept {s0 : State} (n : Nat) (milliamp : Nat) (s : State) (hs : Kept s0 s) :
    Kept s0 (State.sample n milliamp s) := by
  unfold State.sample
  repeat' with_reducible first | assumption | (intro _) | apply State.onChan_kept

theorem State.sampled_kept {s0 : State} (n : Nat) (milliamps : List Int) (s : State) (hs : Kept s0 s) :
    Kept s0 (State.sampled n milliamps s) := by
  unfold State.sampled
  repeat' with_reducible first | assumption | (intro _) | apply State.onChan_kept

theorem State.chanTemp_kept {s0 : State} (n : Nat) (celsius : Int) (s : State) (hs : Kept s0 s) :
    Kept s0 (State.chanTemp n celsius s) := by
  unfold State.chanTemp
  repeat' with_reducible first | assumption | (intro _) | apply State.onChan_kept | apply State.chanBack_kept | apply ite_kept

theorem State.wireUpdate_kept {s0 : State} (n : Nat) (milliamp : Nat) (s : State) (hs : Kept s0 s) :
    Kept s0 (State.wireUpdate n milliamp s) := by
  unfold State.wireUpdate
  repeat' with_reducible first | assumption | (intro _) | apply State.onChan_kept | apply State.trip_kept | apply ite_kept

theorem State.wireMs_kept {s0 : State} (n : Nat) (milliamps : List Int) (celsius : Int) (moduleC : Int) (s : State) (hs : Kept s0 s) :
    Kept s0 (State.wireMs n milliamps celsius moduleC s) := by
  unfold State.wireMs
  repeat' with_reducible first | assumption | (intro _) | apply State.onChan_kept | apply State.onLsb_kept | apply State.chanTemp_kept | apply State.sampled_kept | apply State.wireUpdate_kept | apply ite_kept

theorem State.overload_kept {s0 : State} (b : Nat) (ma : List (Nat × Nat)) (s : State) (hs : Kept s0 s) :
    Kept s0 (State.overload b ma s) := by
  unfold State.overload
  repeat' with_reducible first | assumption | (intro _) | apply State.sample_kept | apply State.lsbFault_kept | apply State.trip_kept | apply ite_kept | apply ite_kept2 | apply foldl_kept | apply foldl_kept2 | apply foldr_kept | dsimp only | rfl | exact Tbu.locked_tick _ _ _ _ | exact Tbu.locked_wall _ _ _ _ | exact Tbu.rebase_tick _ _ | exact Tbu.rebase_wall _ _ | split

theorem State.indicate_kept {s0 : State} (n : Nat) (kind : Nat) (value : Int) (heldUs : Nat) (s : State) (hs : Kept s0 s) :
    Kept s0 (State.indicate n kind value heldUs s) := by
  unfold State.indicate
  repeat' with_reducible first | assumption | (intro _) | apply State.raise_kept | apply State.onChan_kept | apply ite_kept

theorem State.reverse_kept {s0 : State} (b : Nat) (v : Int) (s : State) (hs : Kept s0 s) :
    Kept s0 (State.reverse b v s) := by
  unfold State.reverse
  repeat' with_reducible first | assumption | (intro _) | apply State.onLsb_kept | apply State.supplyCut_kept | apply State.onChan_kept | apply ite_kept | apply ite_kept2 | apply foldl_kept

theorem State.keeperDies_kept {s0 : State} (b : Nat) (s : State) (hs : Kept s0 s) :
    Kept s0 (State.keeperDies b s) := by
  unfold State.keeperDies
  repeat' with_reducible first | assumption | (intro _) | apply State.onLsb_kept | apply State.keeperEnds_kept | apply ite_kept | apply ite_kept2 | apply foldl_kept

theorem State.lsbClear_kept {s0 : State} (v : Word) (s : State) (hs : Kept s0 s) :
    Kept s0 (State.lsbClear v s) := by
  unfold State.lsbClear
  repeat' with_reducible first | assumption | (intro _) | apply State.clearUnless_kept | apply ite_kept | apply ite_kept2 | apply foldl_kept

theorem State.pwmEdge_kept {s0 : State} (n : Nat) (s : State) (hs : Kept s0 s) :
    Kept s0 (State.pwmEdge n s) := by
  unfold State.pwmEdge
  repeat' with_reducible first | assumption | (intro _) | apply State.onChan_kept | apply State.follow_kept | apply ite_kept | apply ite_kept2 | apply foldl_kept | apply foldl_kept2 | apply foldr_kept | dsimp only | rfl | exact Tbu.locked_tick _ _ _ _ | exact Tbu.locked_wall _ _ _ _ | exact Tbu.rebase_tick _ _ | exact Tbu.rebase_wall _ _ | split

theorem State.timeEvent_kept {s0 : State} (code : Nat) (oldState : Nat) (oldSource : Nat) (oldCal : Nat) (newCal : Nat) (s : State) (hs : Kept s0 s) :
    Kept s0 (State.timeEvent code oldState oldSource oldCal newCal s) := by
  unfold State.timeEvent
  repeat' with_reducible first | assumption | (intro _) | apply State.report_kept

theorem State.timeNote_kept {s0 : State} (code : Nat) (old : Tbu) (s : State) (hs : Kept s0 s) :
    Kept s0 (State.timeNote code old s) := by
  unfold State.timeNote
  repeat' with_reducible first | assumption | (intro _) | apply State.timeEvent_kept

theorem State.noteBalance_kept {s0 : State} (old : Tbu) (s : State) (hs : Kept s0 s) :
    Kept s0 (State.noteBalance old s) := by
  unfold State.noteBalance
  repeat' with_reducible first | assumption | (intro _) | apply State.timeNote_kept | apply State.raise_kept | apply ite_kept

theorem State.setBalance_kept {s0 : State} (b : BalState) (source : Nat) (s : State) (hs : Kept s0 s) :
    Kept s0 (State.setBalance b source s) := by
  unfold State.setBalance
  repeat' with_reducible first | assumption | (intro _) | apply State.noteBalance_kept | apply State.onTbu_kept | apply ite_kept | apply ite_kept2 | apply foldl_kept | apply foldl_kept2 | apply foldr_kept | dsimp only

theorem State.unlock_kept {s0 : State} (b : BalState) (s : State) (hs : Kept s0 s) :
    Kept s0 (State.unlock b s) := by
  unfold State.unlock
  repeat' with_reducible first | assumption | (intro _) | apply State.onTbu_kept | apply State.setBalance_kept | apply ite_kept | apply ite_kept2 | apply foldl_kept | apply foldl_kept2 | apply foldr_kept | dsimp only

theorem State.enterFreerun_kept {s0 : State} (s : State) (hs : Kept s0 s) :
    Kept s0 (State.enterFreerun s) := by
  unfold State.enterFreerun
  repeat' with_reducible first | assumption | (intro _) | apply State.setBalance_kept | apply State.raise_kept | apply State.onTbu_kept | apply State.unlock_kept | apply ite_kept | apply ite_kept2 | apply foldl_kept | apply foldl_kept2 | apply foldr_kept | dsimp only

theorem State.loseSource_kept {s0 : State} (source : Nat) (s : State) (hs : Kept s0 s) :
    Kept s0 (State.loseSource source s) := by
  unfold State.loseSource
  repeat' with_reducible first | assumption | (intro _) | apply State.unlock_kept | apply ite_kept

theorem State.endSlew_kept {s0 : State} (s : State) (hs : Kept s0 s) :
    Kept s0 (State.endSlew s) := by
  unfold State.endSlew
  repeat' with_reducible first | assumption | (intro _) | apply State.timeNote_kept | apply State.raise_kept | apply State.onTbu_kept | apply ite_kept | apply ite_kept2 | apply foldl_kept | apply foldl_kept2 | apply foldr_kept | dsimp only | rfl | exact Tbu.locked_tick _ _ _ _ | exact Tbu.locked_wall _ _ _ _ | exact Tbu.rebase_tick _ _ | exact Tbu.rebase_wall _ _

theorem State.startSlew_kept {s0 : State} (d : Int) (old : Tbu) (s : State) (hs : Kept s0 s) :
    Kept s0 (State.startSlew d old s) := by
  unfold State.startSlew
  repeat' with_reducible first | assumption | (intro _) | apply State.endSlew_kept | apply State.onTbu_kept | apply State.timeNote_kept | apply State.raise_kept | apply ite_kept | apply ite_kept2 | apply foldl_kept | apply foldl_kept2 | apply foldr_kept | dsimp only | rfl | exact Tbu.locked_tick _ _ _ _ | exact Tbu.locked_wall _ _ _ _ | exact Tbu.rebase_tick _ _ | exact Tbu.rebase_wall _ _

theorem State.finishAll_kept {s0 : State} (st de : Nat) (l : List (Nat × Word)) (s : State) (hs : Kept s0 s) : Kept s0 (State.finishAll st de l s) := by
  induction l generalizing s with
  | nil => exact hs
  | cons x t ih =>
    simp only [State.finishAll]
    repeat' with_reducible first | assumption | (intro _) | apply ih | apply State.finishAt_kept

theorem State.steer_kept {s0 : State} (source : Nat) (off : Int) (unc : Nat) (utc : Option Int) (jump : Bool) (waiter : Option (Nat × Word)) (s : State) (hs : Kept s0 s) :
    Kept s0 (State.steer source off unc utc jump waiter s) := by
  unfold State.steer
  repeat' with_reducible first | assumption | (intro _) | apply State.onTbu_kept | apply State.noteBalance_kept | apply State.startSlew_kept | apply State.finishAll_kept | apply ite_kept | apply ite_kept2 | apply foldl_kept | apply foldl_kept2 | apply foldr_kept | dsimp only | rfl | exact Tbu.locked_tick _ _ _ _ | exact Tbu.locked_wall _ _ _ _

theorem State.applyStep_kept {s0 : State} (p : PendStep) (s : State) (hs : Kept s0 s) :
    Kept s0 (State.applyStep p s) := by
  unfold State.applyStep
  repeat' with_reducible first | assumption | (intro _) | apply State.endSlew_kept | apply State.onTbu_kept | apply State.record_kept | apply State.timeEvent_kept | apply State.raise_kept | apply State.finishAll_kept | apply State.noteBalance_kept | apply ite_kept | apply ite_kept2 | apply foldl_kept | apply foldl_kept2 | apply foldr_kept | dsimp only | rfl | exact Tbu.locked_tick _ _ _ _ | exact Tbu.locked_wall _ _ _ _

theorem State.rejectRun_kept {s0 : State} (s : State) (hs : Kept s0 s) :
    Kept s0 (State.rejectRun s) := by
  unfold State.rejectRun
  repeat' with_reducible first | assumption | (intro _) | apply State.timeNote_kept | apply State.raise_kept | apply State.onTbu_kept | apply ite_kept | apply ite_kept2 | apply foldl_kept | apply foldl_kept2 | apply foldr_kept | dsimp only

theorem State.suspectTime_kept {s0 : State} (off : Int) (unc : Nat) (drift : Int) (s : State) (hs : Kept s0 s) :
    Kept s0 (State.suspectTime off unc drift s) := by
  unfold State.suspectTime
  repeat' with_reducible first | assumption | (intro _) | apply State.onTbu_kept | apply State.rejectRun_kept | apply State.steer_kept | apply State.raise_kept | apply ite_kept | apply ite_kept2 | apply foldl_kept | apply foldl_kept2 | apply foldr_kept | dsimp only | rfl | exact Tbu.locked_tick _ _ _ _ | exact Tbu.locked_wall _ _ _ _ | exact Tbu.rebase_tick _ _ | exact Tbu.rebase_wall _ _ | split

theorem State.gnssTime_kept {s0 : State} (off : Int) (unc : Nat) (drift : Int) (marked : Bool) (s : State) (hs : Kept s0 s) :
    Kept s0 (State.gnssTime off unc drift marked s) := by
  unfold State.gnssTime
  repeat' with_reducible first | assumption | (intro _) | apply State.onTbu_kept | apply State.loseSource_kept | apply State.suspectTime_kept | apply State.rejectRun_kept | apply State.steer_kept | apply ite_kept | apply ite_kept2 | apply foldl_kept | apply foldl_kept2 | apply foldr_kept | dsimp only | rfl | exact Tbu.locked_tick _ _ _ _ | exact Tbu.locked_wall _ _ _ _ | exact Tbu.rebase_tick _ _ | exact Tbu.rebase_wall _ _

theorem State.gnssNoTime_kept {s0 : State} (s : State) (hs : Kept s0 s) :
    Kept s0 (State.gnssNoTime s) := by
  unfold State.gnssNoTime
  repeat' with_reducible first | assumption | (intro _) | apply State.loseSource_kept | apply State.onTbu_kept | apply ite_kept | apply ite_kept2 | apply foldl_kept | apply foldl_kept2 | apply foldr_kept | dsimp only

theorem State.ringTime_kept {s0 : State} (off : Int) (unc : Nat) (s : State) (hs : Kept s0 s) :
    Kept s0 (State.ringTime off unc s) := by
  unfold State.ringTime
  repeat' with_reducible first | assumption | (intro _) | apply State.onTbu_kept | apply State.steer_kept | apply ite_kept | apply ite_kept2 | apply foldl_kept | apply foldl_kept2 | apply foldr_kept | dsimp only

theorem State.ringNoTime_kept {s0 : State} (s : State) (hs : Kept s0 s) :
    Kept s0 (State.ringNoTime s) := by
  unfold State.ringNoTime
  repeat' with_reducible first | assumption | (intro _) | apply State.loseSource_kept | apply State.onTbu_kept | apply ite_kept | apply ite_kept2 | apply foldl_kept | apply foldl_kept2 | apply foldr_kept | dsimp only

theorem State.leapSecond_kept {s0 : State} (v : Int) (s : State) (hs : Kept s0 s) :
    Kept s0 (State.leapSecond v s) := by
  unfold State.leapSecond
  repeat' with_reducible first | assumption | (intro _) | apply State.onTbu_kept | apply ite_kept | apply ite_kept2 | apply foldl_kept | apply foldl_kept2 | apply foldr_kept | dsimp only

theorem State.persistOptime_kept {s0 : State} (s : State) (hs : Kept s0 s) :
    Kept s0 (State.persistOptime s) := by
  unfold State.persistOptime
  repeat' with_reducible first | assumption | (intro _) | apply State.onNv_kept | apply ite_kept | apply ite_kept2 | apply foldl_kept | apply foldl_kept2 | apply foldr_kept | dsimp only

theorem State.emitPulse_kept {s0 : State} (s : State) (hs : Kept s0 s) :
    Kept s0 (State.emitPulse s) := by
  unfold State.emitPulse
  repeat' with_reducible first | assumption | (intro _) | apply State.raise_kept | apply State.onTbu_kept | apply ite_kept | apply ite_kept2 | apply foldl_kept | apply foldl_kept2 | apply foldr_kept | dsimp only

theorem State.suppressPulse_kept {s0 : State} (s : State) (hs : Kept s0 s) :
    Kept s0 (State.suppressPulse s) := by
  unfold State.suppressPulse
  repeat' with_reducible first | assumption | (intro _) | apply State.timeNote_kept | apply State.onTbu_kept | apply ite_kept | apply ite_kept2 | apply foldl_kept | apply foldl_kept2 | apply foldr_kept | dsimp only

theorem State.hostHoldover_kept {s0 : State} (s : State) (hs : Kept s0 s) :
    Kept s0 (State.hostHoldover s) := by
  unfold State.hostHoldover
  repeat' with_reducible first | assumption | (intro _) | apply State.unlock_kept | apply ite_kept

theorem State.secondInstant_kept {s0 : State} (s : State) (hs : Kept s0 s) :
    Kept s0 (State.secondInstant s) := by
  unfold State.secondInstant
  repeat' with_reducible first | assumption | (intro _) | apply State.hostHoldover_kept | apply State.onTbu_kept | apply State.emitPulse_kept | apply State.applyStep_kept | apply State.suppressPulse_kept | apply ite_kept | apply ite_kept2 | apply foldl_kept | apply foldl_kept2 | apply foldr_kept | dsimp only | rfl | exact Tbu.locked_tick _ _ _ _ | exact Tbu.locked_wall _ _ _ _ | exact Tbu.rebase_tick _ _ | exact Tbu.rebase_wall _ _ | split

theorem State.tpCfgWrite_kept {s0 : State} (v : Word) (s : State) (hs : Kept s0 s) :
    Kept s0 (State.tpCfgWrite v s) := by
  unfold State.tpCfgWrite
  repeat' with_reducible first | assumption | (intro _) | apply State.onTbu_kept | apply ite_kept | apply ite_kept2 | apply foldl_kept | apply foldl_kept2 | apply foldr_kept | dsimp only | rfl | exact Tbu.locked_tick _ _ _ _ | exact Tbu.locked_wall _ _ _ _ | exact Tbu.rebase_tick _ _ | exact Tbu.rebase_wall _ _ | split

theorem State.endForce_kept {s0 : State} (s : State) (hs : Kept s0 s) :
    Kept s0 (State.endForce s) := by
  unfold State.endForce
  repeat' with_reducible first | assumption | (intro _) | apply State.onTbu_kept | apply State.unlock_kept | apply State.finishAll_kept | apply ite_kept | apply ite_kept2 | apply foldl_kept | apply foldl_kept2 | apply foldr_kept | dsimp only | rfl | exact Tbu.locked_tick _ _ _ _ | exact Tbu.locked_wall _ _ _ _ | exact Tbu.rebase_tick _ _ | exact Tbu.rebase_wall _ _ | split

theorem State.propose_kept {s0 : State} (ep : Nat) (kind : Nat) (s : State) (hs : Kept s0 s) :
    Kept s0 (State.propose ep kind s) := by
  unfold State.propose
  repeat' with_reducible first | assumption | (intro _) | apply State.onDelay_kept | apply State.delayResult_kept | apply State.onLca_kept | apply State.lcaFault_kept | apply State.raise_kept | apply ite_kept

theorem State.delaySample_kept {s0 : State} (src : Nat) (ep : Nat) (kind : Nat) (v : Int) (s : State) (hs : Kept s0 s) :
    Kept s0 (State.delaySample src ep kind v s) := by
  unfold State.delaySample
  repeat' with_reducible first | assumption | (intro _) | apply State.onLca_kept | apply State.lcaFault_kept | apply State.onDelay_kept | apply State.propose_kept | apply ite_kept

theorem State.notDetected_kept {s0 : State} (s : State) (hs : Kept s0 s) :
    Kept s0 (State.notDetected s) := by
  unfold State.notDetected
  repeat' with_reducible first | assumption | (intro _) | apply State.lcaFault_kept | apply State.onLca_kept

theorem State.seatSample_kept {s0 : State} (ep : Nat) (tag : Nat) (v : Nat) (s : State) (hs : Kept s0 s) :
    Kept s0 (State.seatSample ep tag v s) := by
  unfold State.seatSample
  repeat' with_reducible first | assumption | (intro _) | apply State.notDetected_kept | apply State.delaySample_kept | apply ite_kept

theorem State.onMeter_kept {s0 : State} (c : Nat) (f : MeterPol → MeterPol) (s : State) (hs : Kept s0 s) :
    Kept s0 (State.onMeter c f s) := by
  unfold State.onMeter
  repeat' with_reducible first | assumption | (intro _) | apply State.onLca_kept

theorem State.meterSample_kept {s0 : State} (c : Nat) (f : Int) (s : State) (hs : Kept s0 s) :
    Kept s0 (State.meterSample c f s) := by
  unfold State.meterSample
  repeat' with_reducible first | assumption | (intro _) | apply State.onMeter_kept | apply ite_kept | apply ite_kept2 | apply foldl_kept | apply foldl_kept2 | apply foldr_kept | dsimp only | rfl | exact Tbu.locked_tick _ _ _ _ | exact Tbu.locked_wall _ _ _ _ | exact Tbu.rebase_tick _ _ | exact Tbu.rebase_wall _ _ | split

theorem State.meterResult_kept {s0 : State} (c : Nat) (outcome : Nat) (before : Nat) (after : Nat) (est : Nat) (samples : Nat) (s : State) (hs : Kept s0 s) :
    Kept s0 (State.meterResult c outcome before after est samples s) := by
  unfold State.meterResult
  repeat' with_reducible first | assumption | (intro _) | apply State.calResult_kept

theorem State.dropCorrection_kept {s0 : State} (c : Nat) (s : State) (hs : Kept s0 s) :
    Kept s0 (State.dropCorrection c s) := by
  unfold State.dropCorrection
  repeat' with_reducible first | assumption | (intro _) | apply State.onCtx_kept | apply State.lcaFault_kept | apply State.onMeter_kept | apply State.meterResult_kept | apply ite_kept

theorem State.meterBase_kept {s0 : State} (c : Nat) (s : State) (hs : Kept s0 s) :
    Kept s0 (State.meterBase c s) := by
  unfold State.meterBase
  repeat' with_reducible first | assumption | (intro _) | apply State.onMeter_kept

theorem State.meterApplied_kept {s0 : State} (c : Nat) (before : Nat) (s : State) (hs : Kept s0 s) :
    Kept s0 (State.meterApplied c before s) := by
  unfold State.meterApplied
  repeat' with_reducible first | assumption | (intro _) | apply State.onLca_kept | apply State.onMeter_kept | apply State.record_kept | apply State.raise_kept | apply State.meterResult_kept

theorem State.stageFactor_kept {s0 : State} (c : Nat) (v : Nat) (s : State) (hs : Kept s0 s) :
    Kept s0 (State.stageFactor c v s) := by
  unfold State.stageFactor
  repeat' with_reducible first | assumption | (intro _) | apply State.onMeter_kept | apply State.onCtx_kept

theorem State.meterUpdate_kept {s0 : State} (c : Nat) (s : State) (hs : Kept s0 s) :
    Kept s0 (State.meterUpdate c s) := by
  unfold State.meterUpdate
  repeat' with_reducible first | assumption | (intro _) | apply State.onMeter_kept | apply State.meterResult_kept | apply State.stageFactor_kept | apply State.lcaFault_kept | apply State.raise_kept | apply ite_kept

theorem State.onFch_kept {s0 : State} (n : Nat) (f : Fch → Fch) (s : State) (hs : Kept s0 s) :
    Kept s0 (State.onFch n f s) := by
  unfold State.onFch
  repeat' with_reducible first | assumption | (intro _) | apply State.onFbu_kept

theorem State.onCmp_kept {s0 : State} (m : Nat) (f : Cmp → Cmp) (s : State) (hs : Kept s0 s) :
    Kept s0 (State.onCmp m f s) := by
  unfold State.onCmp
  repeat' with_reducible first | assumption | (intro _) | apply State.onFbu_kept

theorem State.onRep_kept {s0 : State} (r : Nat) (f : Rep → Rep) (s : State) (hs : Kept s0 s) :
    Kept s0 (State.onRep r f s) := by
  unfold State.onRep
  repeat' with_reducible first | assumption | (intro _) | apply State.onFbu_kept

theorem State.onCap_kept {s0 : State} (k : Nat) (f : Cap → Cap) (s : State) (hs : Kept s0 s) :
    Kept s0 (State.onCap k f s) := by
  unfold State.onCap
  repeat' with_reducible first | assumption | (intro _) | apply State.onFbu_kept

theorem State.onAin_kept {s0 : State} (a : Nat) (f : Ain → Ain) (s : State) (hs : Kept s0 s) :
    Kept s0 (State.onAin a f s) := by
  unfold State.onAin
  repeat' with_reducible first | assumption | (intro _) | apply State.onFbu_kept

theorem State.onProbe_kept {s0 : State} (j : Nat) (f : ProbeCfg → ProbeCfg) (s : State) (hs : Kept s0 s) :
    Kept s0 (State.onProbe j f s) := by
  unfold State.onProbe
  repeat' with_reducible first | assumption | (intro _) | apply State.onFbu_kept

theorem State.chFault_kept {s0 : State} (n : Nat) (bit : Nat) (s : State) (hs : Kept s0 s) :
    Kept s0 (State.chFault n bit s) := by
  unfold State.chFault
  repeat' with_reducible first | assumption | (intro _) | apply State.raise_kept | apply State.onFch_kept

theorem State.claimRefused_kept {s0 : State} (resource : Nat) (s : State) (hs : Kept s0 s) :
    Kept s0 (State.claimRefused resource s) := by
  unfold State.claimRefused
  repeat' with_reducible first | assumption | (intro _) | apply State.raise_kept | apply State.onFbu_kept

theorem State.repFault_kept {s0 : State} (r : Nat) (s : State) (hs : Kept s0 s) :
    Kept s0 (State.repFault r s) := by
  unfold State.repFault
  repeat' with_reducible first | assumption | (intro _) | apply State.raise_kept | apply State.onFbu_kept

theorem State.repResume_kept {s0 : State} (r : Nat) (s : State) (hs : Kept s0 s) :
    Kept s0 (State.repResume r s) := by
  unfold State.repResume
  repeat' with_reducible first | assumption | (intro _) | apply State.onRep_kept | apply ite_kept

theorem State.repRate_kept {s0 : State} (r : Nat) (rate16 : Nat) (s : State) (hs : Kept s0 s) :
    Kept s0 (State.repRate r rate16 s) := by
  unfold State.repRate
  repeat' with_reducible first | assumption | (intro _) | apply State.repFault_kept | apply State.onRep_kept | apply ite_kept

theorem State.repIntegrate_kept {s0 : State} (s : State) (hs : Kept s0 s) :
    Kept s0 (State.repIntegrate s) := by
  unfold State.repIntegrate
  repeat' with_reducible first | assumption | (intro _) | apply State.repResume_kept | apply State.repRate_kept | apply State.onRep_kept | apply ite_kept | apply ite_kept2 | apply foldl_kept

theorem State.channelSample_kept {s0 : State} (n : Nat) (kind : Nat) (index : Nat) (behind : Bool) (s : State) (hs : Kept s0 s) :
    Kept s0 (State.channelSample n kind index behind s) := by
  unfold State.channelSample
  repeat' with_reducible first | assumption | (intro _) | apply State.report_kept

theorem State.ainReport_kept {s0 : State} (a : Nat) (s : State) (hs : Kept s0 s) :
    Kept s0 (State.ainReport a s) := by
  unfold State.ainReport
  repeat' with_reducible first | assumption | (intro _) | apply State.report_kept

theorem State.fire_kept {s0 : State} (m : Nat) (s : State) (hs : Kept s0 s) :
    Kept s0 (State.fire m s) := by
  unfold State.fire
  repeat' with_reducible first | assumption | (intro _) | apply State.onCmp_kept | apply State.channelSample_kept | apply State.raise_kept

theorem State.firings_kept {s0 : State} (m : Nat) (old : Int) (n : Nat) (s : State) (hs : Kept s0 s) : Kept s0 (State.firings m old n s) := by
  induction n generalizing s with
  | zero => exact hs
  | succ n ih =>
    simp only [State.firings]
    repeat' with_reducible first | assumption | (intro _) | apply ih | apply State.fire_kept | apply ite_kept

theorem State.moveTo_kept {s0 : State} (n : Nat) (new : Int) (s : State) (hs : Kept s0 s) :
    Kept s0 (State.moveTo n new s) := by
  unfold State.moveTo
  repeat' with_reducible first | assumption | (intro _) | apply State.onFch_kept | apply State.firings_kept

theorem State.testWritten_kept {s0 : State} (m : Nat) (s : State) (hs : Kept s0 s) :
    Kept s0 (State.testWritten m s) := by
  unfold State.testWritten
  repeat' with_reducible first | assumption | (intro _) | apply State.onCmp_kept | apply State.fire_kept | apply ite_kept

theorem State.cmpWrite_kept {s0 : State} (m : Nat) (toCfg : Bool) (v : Word) (s : State) (hs : Kept s0 s) :
    Kept s0 (State.cmpWrite m toCfg v s) := by
  unfold State.cmpWrite
  repeat' with_reducible first | assumption | (intro _) | apply State.elapse_kept | apply State.onCmp_kept | apply State.testWritten_kept | apply ite_kept

theorem State.repCount_kept {s0 : State} (n : Nat) (adv : Nat) (s : State) (r : Nat) (hs : Kept s0 s) :
    Kept s0 (State.repCount n adv s r) := by
  unfold State.repCount
  repeat' with_reducible first | assumption | (intro _) | apply State.repResume_kept | apply State.repRate_kept | apply State.onRep_kept | apply ite_kept

theorem State.countPos_kept {s0 : State} (n : Nat) (adv : Nat) (s : State) (hs : Kept s0 s) :
    Kept s0 (State.countPos n adv s) := by
  unfold State.countPos
  repeat' with_reducible first | assumption | (intro _) | apply State.onFch_kept | apply State.moveTo_kept | apply State.repCount_kept | apply ite_kept | apply ite_kept2 | apply foldl_kept

theorem State.setSync_kept {s0 : State} (n : Nat) (v : Bool) (s : State) (hs : Kept s0 s) :
    Kept s0 (State.setSync n v s) := by
  unfold State.setSync
  repeat' with_reducible first | assumption | (intro _) | apply State.raise_kept | apply State.onFch_kept | apply ite_kept

theorem State.indexCheck_kept {s0 : State} (n : Nat) (s : State) (hs : Kept s0 s) :
    Kept s0 (State.indexCheck n s) := by
  unfold State.indexCheck
  repeat' with_reducible first | assumption | (intro _) | apply State.setSync_kept | apply State.chFault_kept | apply State.onFch_kept | apply ite_kept

theorem State.reference_kept {s0 : State} (n : Nat) (s : State) (hs : Kept s0 s) :
    Kept s0 (State.reference n s) := by
  unfold State.reference
  repeat' with_reducible first | assumption | (intro _) | apply State.indexCheck_kept | apply State.channelSample_kept | apply State.onFch_kept

theorem State.plainEdge_kept {s0 : State} (n : Nat) (t : Nat) (s : State) (hs : Kept s0 s) :
    Kept s0 (State.plainEdge n t s) := by
  unfold State.plainEdge
  repeat' with_reducible first | assumption | (intro _) | apply State.onFch_kept | apply State.reference_kept | apply State.countPos_kept | apply ite_kept

theorem State.releaseEdge_kept {s0 : State} (n : Nat) (s : State) (hs : Kept s0 s) :
    Kept s0 (State.releaseEdge n s) := by
  unfold State.releaseEdge
  repeat' with_reducible first | assumption | (intro _) | apply State.plainEdge_kept | apply State.onFch_kept | apply ite_kept | apply ite_kept2 | apply foldl_kept | apply foldl_kept2 | apply foldr_kept | dsimp only | rfl | exact Tbu.locked_tick _ _ _ _ | exact Tbu.locked_wall _ _ _ _ | exact Tbu.rebase_tick _ _ | exact Tbu.rebase_wall _ _ | split

theorem State.intervalEdge_kept {s0 : State} (n : Nat) (t : Nat) (s : State) (hs : Kept s0 s) :
    Kept s0 (State.intervalEdge n t s) := by
  unfold State.intervalEdge
  repeat' with_reducible first | assumption | (intro _) | apply State.onFch_kept | apply State.reference_kept | apply State.countPos_kept | apply State.releaseEdge_kept | apply State.plainEdge_kept | apply ite_kept | apply ite_kept2 | apply foldl_kept | apply foldl_kept2 | apply foldr_kept | dsimp only | rfl | exact Tbu.locked_tick _ _ _ _ | exact Tbu.locked_wall _ _ _ _ | exact Tbu.rebase_tick _ _ | exact Tbu.rebase_wall _ _ | split

theorem State.firstEdge_kept {s0 : State} (n : Nat) (rev : Bool) (s : State) (hs : Kept s0 s) :
    Kept s0 (State.firstEdge n rev s) := by
  unfold State.firstEdge
  repeat' with_reducible first | assumption | (intro _) | apply State.releaseEdge_kept | apply State.countPos_kept | apply State.onFch_kept

theorem State.leaveStill_kept {s0 : State} (n : Nat) (s : State) (hs : Kept s0 s) :
    Kept s0 (State.leaveStill n s) := by
  unfold State.leaveStill
  repeat' with_reducible first | assumption | (intro _) | apply State.raise_kept | apply State.onFch_kept | apply ite_kept

theorem State.scTest_kept {s0 : State} (n : Nat) (first : Bool) (s : State) (hs : Kept s0 s) :
    Kept s0 (State.scTest n first s) := by
  unfold State.scTest
  repeat' with_reducible first | assumption | (intro _) | apply State.onFch_kept | apply State.chFault_kept | apply ite_kept

theorem State.countedEdge_kept {s0 : State} (n : Nat) (rev : Bool) (s : State) (hs : Kept s0 s) :
    Kept s0 (State.countedEdge n rev s) := by
  unfold State.countedEdge
  repeat' with_reducible first | assumption | (intro _) | apply State.leaveStill_kept | apply State.onFch_kept | apply State.firstEdge_kept | apply State.intervalEdge_kept | apply State.scTest_kept | apply ite_kept

theorem State.edgeFault_kept {s0 : State} (n : Nat) (bit : Nat) (s : State) (hs : Kept s0 s) :
    Kept s0 (State.edgeFault n bit s) := by
  unfold State.edgeFault
  repeat' with_reducible first | assumption | (intro _) | apply State.onFch_kept | apply State.chFault_kept | apply ite_kept

theorem State.acceptEdge_kept {s0 : State} (n : Nat) (inputB : Bool) (a : Bool) (b : Bool) (s : State) (hs : Kept s0 s) :
    Kept s0 (State.acceptEdge n inputB a b s) := by
  unfold State.acceptEdge
  repeat' with_reducible first | assumption | (intro _) | apply State.countedEdge_kept | apply State.chFault_kept | apply ite_kept | apply ite_kept2 | apply foldl_kept | apply foldl_kept2 | apply foldr_kept | dsimp only | rfl | exact Tbu.locked_tick _ _ _ _ | exact Tbu.locked_wall _ _ _ _ | exact Tbu.rebase_tick _ _ | exact Tbu.rebase_wall _ _ | split

theorem State.echo_kept {s0 : State} (n : Nat) (inputB : Bool) (level : Bool) (s : State) (hs : Kept s0 s) :
    Kept s0 (State.echo n inputB level s) := by
  unfold State.echo
  repeat' with_reducible first | assumption | (intro _) | apply State.onRep_kept | apply ite_kept | apply ite_kept2 | apply foldl_kept

theorem State.capture_kept {s0 : State} (k : Nat) (e : CapEntry) (s : State) (hs : Kept s0 s) :
    Kept s0 ((State.capture k e s).2) := by
  unfold State.capture
  repeat' with_reducible first | assumption | (intro _) | apply State.onCap_kept | apply State.raise_kept | apply State.onFbu_kept | apply ite_kept | apply ite_kept2

theorem State.timerMeets_kept {s0 : State} (k : Nat) (level : Bool) (s : State) (hs : Kept s0 s) :
    Kept s0 (State.timerMeets k level s) := by
  unfold State.timerMeets
  repeat' with_reducible first | assumption | (intro _) | apply State.onCap_kept | apply State.capture_kept | apply ite_kept

theorem State.timersMeet_kept {s0 : State} (n : Nat) (inputB : Bool) (level : Bool) (s : State) (hs : Kept s0 s) :
    Kept s0 (State.timersMeet n inputB level s) := by
  unfold State.timersMeet
  repeat' with_reducible first | assumption | (intro _) | apply State.timerMeets_kept | apply ite_kept | apply ite_kept2 | apply foldl_kept

theorem State.inputMeets_kept {s0 : State} (n : Nat) (inputB : Bool) (level : Bool) (s : State) (hs : Kept s0 s) :
    Kept s0 (State.inputMeets n inputB level s) := by
  unfold State.inputMeets
  repeat' with_reducible first | assumption | (intro _) | apply State.timersMeet_kept | apply State.echo_kept

theorem State.feedbackEdge_kept {s0 : State} (n : Nat) (inputB : Bool) (a : Bool) (b : Bool) (s : State) (hs : Kept s0 s) :
    Kept s0 (State.feedbackEdge n inputB a b s) := by
  unfold State.feedbackEdge
  repeat' with_reducible first | assumption | (intro _) | apply State.inputMeets_kept | apply State.onFch_kept | apply State.edgeFault_kept | apply State.acceptEdge_kept | apply ite_kept

theorem State.restartChannel_kept {s0 : State} (n : Nat) (s : State) (hs : Kept s0 s) :
    Kept s0 (State.restartChannel n s) := by
  unfold State.restartChannel
  repeat' with_reducible first | assumption | (intro _) | apply State.onFch_kept | apply State.setSync_kept | apply State.raise_kept | apply ite_kept

theorem State.chCfg_kept {s0 : State} (n : Nat) (v : Word) (s : State) (hs : Kept s0 s) :
    Kept s0 (State.chCfg n v s) := by
  unfold State.chCfg
  repeat' with_reducible first | assumption | (intro _) | apply State.onFch_kept | apply State.restartChannel_kept | apply ite_kept

theorem State.trackCount_kept {s0 : State} (n : Nat) (adv : Int) (s : State) (hs : Kept s0 s) :
    Kept s0 (State.trackCount n adv s) := by
  unfold State.trackCount
  repeat' with_reducible first | assumption | (intro _) | apply State.countPos_kept | apply State.onFch_kept | apply ite_kept

theorem State.scTake_kept {s0 : State} (n : Nat) (sin : Int) (cos : Int) (s : State) (hs : Kept s0 s) :
    Kept s0 (State.scTake n sin cos s) := by
  unfold State.scTake
  repeat' with_reducible first | assumption | (intro _) | apply State.onFch_kept | apply State.trackCount_kept | apply State.chFault_kept | apply ite_kept

theorem State.releaseTimer_kept {s0 : State} (j : Nat) (s : State) (hs : Kept s0 s) :
    Kept s0 (State.releaseTimer j s) := by
  unfold State.releaseTimer
  repeat' with_reducible first | assumption | (intro _) | apply State.onCap_kept | apply ite_kept

theorem State.probeCfg_kept {s0 : State} (j : Nat) (v : Word) (s : State) (hs : Kept s0 s) :
    Kept s0 (State.probeCfg j v s) := by
  unfold State.probeCfg
  repeat' with_reducible first | assumption | (intro _) | apply State.onProbe_kept | apply State.releaseTimer_kept | apply State.claimRefused_kept | apply State.onCap_kept | apply ite_kept

theorem State.capCfg_kept {s0 : State} (k : Nat) (v : Word) (s : State) (hs : Kept s0 s) :
    Kept s0 (State.capCfg k v s) := by
  unfold State.capCfg
  repeat' with_reducible first | assumption | (intro _) | apply State.onCap_kept | apply State.claimRefused_kept | apply ite_kept

theorem State.auxiSel_kept {s0 : State} (k : Nat) (f : Nat) (s : State) (hs : Kept s0 s) :
    Kept s0 (State.auxiSel k f s) := by
  unfold State.auxiSel
  repeat' with_reducible first | assumption | (intro _) | apply State.claimRefused_kept | apply State.onFbu_kept | apply ite_kept

theorem State.auxoSel_kept {s0 : State} (k : Nat) (f : Nat) (s : State) (hs : Kept s0 s) :
    Kept s0 (State.auxoSel k f s) := by
  unfold State.auxoSel
  repeat' with_reducible first | assumption | (intro _) | apply State.claimRefused_kept | apply State.onFbu_kept | apply ite_kept

theorem State.ainTake_kept {s0 : State} (a : Nat) (v : Nat) (s : State) (hs : Kept s0 s) :
    Kept s0 (State.ainTake a v s) := by
  unfold State.ainTake
  repeat' with_reducible first | assumption | (intro _) | apply State.onAin_kept | apply State.raise_kept | apply ite_kept

theorem State.regStatus_kept {s0 : State} (c : Nat) (tick : Nat) (reason : Nat) (s : State) (hs : Kept s0 s) :
    Kept s0 (State.regStatus c tick reason s) := by
  unfold State.regStatus
  repeat' with_reducible first | assumption | (intro _) | apply State.report_kept

theorem State.swapDone_kept {s0 : State} (w : Option (Nat × Word)) (s : State) (hs : Kept s0 s) :
    Kept s0 (State.swapDone w s) := by
  unfold State.swapDone
  repeat' with_reducible first | assumption | (intro _) | apply State.finishAt_kept | apply ite_kept | apply ite_kept2 | apply foldl_kept | apply foldl_kept2 | apply foldr_kept | dsimp only | rfl | exact Tbu.locked_tick _ _ _ _ | exact Tbu.locked_wall _ _ _ _ | exact Tbu.rebase_tick _ _ | exact Tbu.rebase_wall _ _ | split

theorem State.exchange_kept {s0 : State} (c : Nat) (q : SwapReq) (s : State) (hs : Kept s0 s) :
    Kept s0 (State.exchange c q s) := by
  unfold State.exchange
  repeat' with_reducible first | assumption | (intro _) | apply State.onCtx_kept | apply State.swapDone_kept | apply State.meterBase_kept | apply State.meterApplied_kept | apply ite_kept

theorem State.hostDiscards_kept {s0 : State} (c : Nat) (s : State) (hs : Kept s0 s) :
    Kept s0 (State.hostDiscards c s) := by
  unfold State.hostDiscards
  repeat' with_reducible first | assumption | (intro _) | apply State.ctxFault_kept | apply State.dropCorrection_kept | apply ite_kept

theorem State.swapsDue_kept {s0 : State} (c : Nat) (tick : Nat) (s : State) (hs : Kept s0 s) :
    Kept s0 (State.swapsDue c tick s) := by
  unfold State.swapsDue
  repeat' with_reducible first | assumption | (intro _) | apply State.exchange_kept | apply State.hostDiscards_kept | apply ite_kept | apply ite_kept2 | apply foldl_kept

theorem State.swapsNow_kept {s0 : State} (c : Nat) (s : State) (hs : Kept s0 s) :
    Kept s0 (State.swapsNow c s) := by
  unfold State.swapsNow
  repeat' with_reducible first | assumption | (intro _) | apply State.exchange_kept | apply ite_kept | apply ite_kept2 | apply foldl_kept

theorem State.abortInjects_kept {s0 : State} (c : Nat) (s : State) (hs : Kept s0 s) :
    Kept s0 (State.abortInjects c s) := by
  unfold State.abortInjects
  repeat' with_reducible first | assumption | (intro _) | apply State.finishAll_kept | apply State.onCtx_kept

theorem State.leaveClosed_kept {s0 : State} (c : Nat) (s : State) (hs : Kept s0 s) :
    Kept s0 ((State.leaveClosed c s).2) := by
  unfold State.leaveClosed
  repeat' with_reducible first | assumption | (intro _) | apply State.abortInjects_kept | apply State.ctxFault_kept | apply State.onCtx_kept | apply ite_kept | apply ite_kept2

theorem State.startInject_kept {s0 : State} (c : Nat) (r : List Nat × State) (i : Inject) (hs : Kept s0 r.2) :
    Kept s0 ((State.startInject c r i).2) := by
  unfold State.startInject
  repeat' with_reducible first | assumption | (intro _) | apply State.onCtx_kept | apply State.finishAll_kept

theorem State.injectsDue_kept {s0 : State} (c : Nat) (tick : Nat) (s : State) (hs : Kept s0 s) :
    Kept s0 ((State.injectsDue c tick s).2) := by
  unfold State.injectsDue
  repeat' with_reducible first | assumption | (intro _) | apply State.onCtx_kept | apply State.startInject_kept | apply ite_kept | apply ite_kept2 | apply foldl_kept | apply foldl_kept2

theorem State.onTrace_kept {s0 : State} (q : Nat) (f : Trace → Trace) (s : State) (hs : Kept s0 s) :
    Kept s0 (State.onTrace q f s) := by
  unfold State.onTrace
  repeat' with_reducible first | assumption | (intro _) | apply State.onRge_kept

theorem State.traceSample_kept {s0 : State} (c : Nat) (tick : Nat) (events : List Nat) (s : State) (hs : Kept s0 s) :
    Kept s0 (State.traceSample c tick events s) := by
  unfold State.traceSample
  repeat' with_reducible first | assumption | (intro _) | apply State.onTrace_kept | apply ite_kept | apply ite_kept2 | apply foldl_kept

theorem State.traceOff_kept {s0 : State} (c : Nat) (s : State) (hs : Kept s0 s) :
    Kept s0 (State.traceOff c s) := by
  unfold State.traceOff
  repeat' with_reducible first | assumption | (intro _) | apply State.onTrace_kept | apply ite_kept | apply ite_kept2 | apply foldl_kept

theorem State.sendOutput_kept {s0 : State} (addr : Nat) (tick : Nat) (y : Int) (s : State) (hs : Kept s0 s) :
    Kept s0 (State.sendOutput addr tick y s) := by
  unfold State.sendOutput
  repeat' with_reducible first | assumption | (intro _) | apply State.queueRec_kept

theorem State.emit_kept {s0 : State} (c : Nat) (tick : Nat) (y : Int) (s : State) (hs : Kept s0 s) :
    Kept s0 (State.emit c tick y s) := by
  unfold State.emit
  repeat' with_reducible first | assumption | (intro _) | apply State.noteTarget_kept | apply State.onCtx_kept | apply State.sendOutput_kept | apply ite_kept

theorem State.leaveEnable_kept {s0 : State} (c : Nat) (s : State) (hs : Kept s0 s) :
    Kept s0 (State.leaveEnable c s) := by
  unfold State.leaveEnable
  repeat' with_reducible first | assumption | (intro _) | apply State.traceOff_kept | apply State.swapsNow_kept

theorem State.dropProductCal_kept {s0 : State} (p : Nat) (s : State) (hs : Kept s0 s) :
    Kept s0 (State.dropProductCal p s) := by
  unfold State.dropProductCal
  repeat' with_reducible first | assumption | (intro _) | apply State.discardCal_kept | apply ite_kept | apply ite_kept2 | apply foldl_kept

theorem State.setDelayPol_kept {s0 : State} (p : Nat) (v : DelayPol) (s : State) (hs : Kept s0 s) :
    Kept s0 (State.setDelayPol p v s) := by
  unfold State.setDelayPol
  repeat' with_reducible first | assumption | (intro _) | apply State.onLca_kept | apply State.dropProductCal_kept | apply ite_kept

theorem State.setMeterPol_kept {s0 : State} (d : DescBits) (s : State) (hs : Kept s0 s) :
    Kept s0 (State.setMeterPol d s) := by
  unfold State.setMeterPol
  repeat' with_reducible first | assumption | (intro _) | apply State.dropCorrection_kept | apply State.onMeter_kept | apply State.meterBase_kept | apply ite_kept

theorem State.coilResult_kept {s0 : State} (n : Nat) (minimumUs : Option Nat) (s : State) (hs : Kept s0 s) :
    Kept s0 (State.coilResult n minimumUs s) := by
  unfold State.coilResult
  repeat' with_reducible first | assumption | (intro _) | apply State.onChan_kept | apply State.delaySample_kept | apply State.notDetected_kept | apply ite_kept | apply ite_kept2 | apply foldl_kept | apply foldl_kept2 | apply foldr_kept | dsimp only | rfl | exact Tbu.locked_tick _ _ _ _ | exact Tbu.locked_wall _ _ _ _ | exact Tbu.rebase_tick _ _ | exact Tbu.rebase_wall _ _ | split

theorem State.flowSamples_kept {s0 : State} (product : Nat) (t : Nat) (s : State) (hs : Kept s0 s) :
    Kept s0 (State.flowSamples product t s) := by
  unfold State.flowSamples
  repeat' with_reducible first | assumption | (intro _) | apply State.onLca_kept | apply State.delaySample_kept | apply ite_kept | apply ite_kept2 | apply foldl_kept | apply foldl_kept2 | apply foldr_kept | dsimp only | rfl | exact Tbu.locked_tick _ _ _ _ | exact Tbu.locked_wall _ _ _ _ | exact Tbu.rebase_tick _ _ | exact Tbu.rebase_wall _ _ | split

theorem State.putReady_kept {s0 : State} (b : Nat) (v : Bool) (s : State) (hs : Kept s0 s) :
    Kept s0 (State.putReady b v s) := by
  unfold State.putReady
  repeat' with_reducible first | assumption | (intro _) | apply State.onPrs_kept

theorem State.setReady_kept {s0 : State} (b : Nat) (v : Bool) (s : State) (hs : Kept s0 s) :
    Kept s0 (State.setReady b v s) := by
  unfold State.setReady
  repeat' with_reducible first | assumption | (intro _) | apply State.putReady_kept | apply State.raise_kept | apply ite_kept

theorem State.readyFault_kept {s0 : State} (b : Nat) (s : State) (hs : Kept s0 s) :
    Kept s0 (State.readyFault b s) := by
  unfold State.readyFault
  repeat' with_reducible first | assumption | (intro _) | apply State.faultReport_kept

theorem State.prsFault_kept {s0 : State} (i : Nat) (s : State) (hs : Kept s0 s) :
    Kept s0 (State.prsFault i s) := by
  unfold State.prsFault
  repeat' with_reducible first | assumption | (intro _) | apply State.raise_kept | apply State.onPrs_kept

theorem State.wardAccept_kept {s0 : State} (s : State) (hs : Kept s0 s) :
    Kept s0 (State.wardAccept s) := by
  unfold State.wardAccept
  repeat' with_reducible first | assumption | (intro _) | apply State.onPrs_kept

theorem State.wardRefuse_kept {s0 : State} (s : State) (hs : Kept s0 s) :
    Kept s0 (State.wardRefuse s) := by
  unfold State.wardRefuse
  repeat' with_reducible first | assumption | (intro _) | apply State.prsFault_kept | apply State.onPrs_kept

theorem State.warded_kept {s0 : State} (changes : List (Bool × Bool)) (s : State) (hs : Kept s0 s) :
    Kept s0 (State.warded changes s) := by
  unfold State.warded
  repeat' with_reducible first | assumption | (intro _) | apply State.wardRefuse_kept | apply State.wardAccept_kept | apply ite_kept

theorem State.newSession_kept {s0 : State} (p : Nat) (s : State) (hs : Kept s0 s) :
    Kept s0 (State.newSession p s) := by
  unfold State.newSession
  repeat' with_reducible first | assumption | (intro _) | apply State.onFlp_kept | apply State.onPort_kept | apply ite_kept

theorem State.nodePathLost_kept {s0 : State} (p : Nat) (n : Nat) (s : State) (hs : Kept s0 s) :
    Kept s0 (State.nodePathLost p n s) := by
  unfold State.nodePathLost
  repeat' with_reducible first | assumption | (intro _) | apply State.noteTargets_kept | apply State.pathLost_kept | apply ite_kept | apply ite_kept2 | apply foldl_kept

theorem State.portStops_kept {s0 : State} (p : Nat) (s : State) (hs : Kept s0 s) :
    Kept s0 (State.portStops p s) := by
  unfold State.portStops
  repeat' with_reducible first | assumption | (intro _) | apply State.onFlp_kept | apply State.noteTargets_kept | apply State.pathLost_kept | apply ite_kept | apply ite_kept2 | apply foldl_kept

theorem State.nodePathBack_kept {s0 : State} (p : Nat) (n : Nat) (s : State) (hs : Kept s0 s) :
    Kept s0 (State.nodePathBack p n s) := by
  unfold State.nodePathBack
  repeat' with_reducible first | assumption | (intro _) | apply State.noteTargets_kept | apply State.pathBack_kept | apply ite_kept | apply ite_kept2 | apply foldl_kept

theorem State.portStarts_kept {s0 : State} (p : Nat) (s : State) (hs : Kept s0 s) :
    Kept s0 (State.portStarts p s) := by
  unfold State.portStarts
  repeat' with_reducible first | assumption | (intro _) | apply State.noteTargets_kept | apply State.pathBack_kept | apply State.newSession_kept | apply ite_kept | apply ite_kept2 | apply foldl_kept

theorem State.refreshRing_kept {s0 : State} (pair : Nat) (s : State) (hs : Kept s0 s) :
    Kept s0 (State.refreshRing pair s) := by
  unfold State.refreshRing
  repeat' with_reducible first | assumption | (intro _) | apply State.fieldStatus_kept | apply State.raise_kept | apply State.onPort_kept | apply ite_kept

theorem State.refreshState_kept {s0 : State} (p : Nat) (s : State) (hs : Kept s0 s) :
    Kept s0 (State.refreshState p s) := by
  unfold State.refreshState
  repeat' with_reducible first | assumption | (intro _) | apply State.raise_kept | apply State.onPort_kept | apply State.fieldStatus_kept | apply State.readyFault_kept | apply State.record_kept | apply ite_kept

theorem State.changePorts_kept {s0 : State} (f : State → State) (s : State) (hf : ∀ (s0 s : State), Kept s0 s → Kept s0 (f s)) (hs : Kept s0 s) :
    Kept s0 (State.changePorts f s) := by
  unfold State.changePorts
  repeat' with_reducible first | assumption | (intro _) | apply hf | apply State.refreshRing_kept | apply State.refreshState_kept | apply State.portStarts_kept | apply State.portStops_kept | apply ite_kept | apply ite_kept2 | apply foldl_kept

theorem State.fieldWord_kept {s0 : State} (p : Nat) (w : LinkWord) (s : State) (hs : Kept s0 s) :
    Kept s0 (State.fieldWord p w s) := by
  unfold State.fieldWord
  repeat' with_reducible first | assumption | (intro _) | apply State.changePorts_kept | apply State.putReady_kept | apply State.onPort_kept | apply State.fieldStatus_kept | apply State.onFlp_kept | apply ite_kept

theorem State.flpCtrl_kept {s0 : State} (v : Word) (s : State) (hs : Kept s0 s) :
    Kept s0 (State.flpCtrl v s) := by
  unfold State.flpCtrl
  repeat' with_reducible first | assumption | (intro _) | apply State.changePorts_kept | apply State.onFlp_kept

theorem State.sendBeat_kept {s0 : State} (b : Nat) (p : Nat) (s : State) (hs : Kept s0 s) :
    Kept s0 (State.sendBeat b p s) := by
  unfold State.sendBeat
  repeat' with_reducible first | assumption | (intro _) | apply State.sendAde_kept | apply State.onPort_kept | apply State.queueRec_kept | apply ite_kept | apply ite_kept2 | apply foldl_kept

theorem State.sendCommand_kept {s0 : State} (p : Nat) (n : Nat) (f : SentFrame) (s : State) (hs : Kept s0 s) :
    Kept s0 (State.sendCommand p n f s) := by
  unfold State.sendCommand
  repeat' with_reducible first | assumption | (intro _) | apply State.sendAde_kept

theorem State.countUnacked_kept {s0 : State} (p : Nat) (k : Nat) (s : State) (hs : Kept s0 s) :
    Kept s0 (State.countUnacked p k s) := by
  unfold State.countUnacked
  repeat' with_reducible first | assumption | (intro _) | apply State.flpFault_kept | apply State.onPort_kept | apply ite_kept

theorem State.badField_kept {s0 : State} (p : Nat) (s : State) (hs : Kept s0 s) :
    Kept s0 (State.badField p s) := by
  unfold State.badField
  repeat' with_reducible first | assumption | (intro _) | apply State.flpFault_kept | apply State.onPort_kept

theorem State.ackRec_kept {s0 : State} (p : Nat) (s : State) (r : CmdRec) (hs : Kept s0 s) :
    Kept s0 (State.ackRec p s r) := by
  unfold State.ackRec
  repeat' with_reducible first | assumption | (intro _) | apply State.countUnacked_kept | apply State.addEffect_kept | apply ite_kept | apply ite_kept2 | apply foldl_kept | apply foldl_kept2 | apply foldr_kept | dsimp only | rfl | exact Tbu.locked_tick _ _ _ _ | exact Tbu.locked_wall _ _ _ _ | exact Tbu.rebase_tick _ _ | exact Tbu.rebase_wall _ _ | split

theorem State.takeAck_kept {s0 : State} (p : Nat) (n : Nat) (ack : Nat) (s : State) (hs : Kept s0 s) :
    Kept s0 (State.takeAck p n ack s) := by
  unfold State.takeAck
  repeat' with_reducible first | assumption | (intro _) | apply State.onNode_kept | apply State.ackRec_kept | apply ite_kept | apply ite_kept2 | apply foldl_kept

theorem State.takeEntry_kept {s0 : State} (p : Nat) (n : Nat) (s : State) (e : ReportEntry) (hs : Kept s0 s) :
    Kept s0 (State.takeEntry p n s e) := by
  unfold State.takeEntry
  repeat' with_reducible first | assumption | (intro _) | apply State.seatSample_kept | apply State.onNode_kept | apply State.raise_kept | apply State.onPort_kept | apply ite_kept | apply ite_kept2 | apply foldl_kept | apply foldl_kept2 | apply foldr_kept | dsimp only | rfl | exact Tbu.locked_tick _ _ _ _ | exact Tbu.locked_wall _ _ _ _ | exact Tbu.rebase_tick _ _ | exact Tbu.rebase_wall _ _ | split

theorem State.takeDup_kept {s0 : State} (p : Nat) (r : NodeReport) (s : State) (hs : Kept s0 s) :
    Kept s0 (State.takeDup p r s) := by
  unfold State.takeDup
  repeat' with_reducible first | assumption | (intro _) | apply State.flpFault_kept | apply State.onNode_kept | apply State.fieldStatus_kept | apply ite_kept

theorem State.takeNstatus_kept {s0 : State} (p : Nat) (r : NodeReport) (s : State) (hs : Kept s0 s) :
    Kept s0 (State.takeNstatus p r s) := by
  unfold State.takeNstatus
  repeat' with_reducible first | assumption | (intro _) | apply State.onNode_kept | apply State.fieldStatus_kept | apply State.raise_kept | apply State.nodePathBack_kept | apply State.nodePathLost_kept | apply State.flpFault_kept | apply ite_kept

theorem State.takeReport_kept {s0 : State} (p : Nat) (r : NodeReport) (s : State) (hs : Kept s0 s) :
    Kept s0 (State.takeReport p r s) := by
  unfold State.takeReport
  repeat' with_reducible first | assumption | (intro _) | apply State.takeNstatus_kept | apply State.takeDup_kept | apply State.takeEntry_kept | apply State.takeAck_kept | apply ite_kept | apply ite_kept2 | apply foldl_kept

theorem State.holdNodeOff_kept {s0 : State} (p : Nat) (n : Nat) (s : State) (hs : Kept s0 s) :
    Kept s0 (State.holdNodeOff p n s) := by
  unfold State.holdNodeOff
  repeat' with_reducible first | assumption | (intro _) | apply State.onDyn_kept | apply ite_kept | apply ite_kept2 | apply foldl_kept

theorem State.answerField_kept {s0 : State} (port : Nat) (seq : Nat) (t1 : Nat) (t2 : Nat) (t3 : Nat) (s : State) (hs : Kept s0 s) :
    Kept s0 (State.answerField port seq t1 t2 t3 s) := by
  unfold State.answerField
  repeat' with_reducible first | assumption | (intro _) | apply State.sendFrame_kept

theorem State.sendWrite_kept {s0 : State} (w : WritePend) (s : State) (hs : Kept s0 s) :
    Kept s0 (State.sendWrite w s) := by
  unfold State.sendWrite
  repeat' with_reducible first | assumption | (intro _) | apply State.sendAde_kept

theorem State.startWriteNode_kept {s0 : State} (ring : Nat) (d : Slot) (s : State) (hs : Kept s0 s) :
    Kept s0 (State.startWriteNode ring d s) := by
  unfold State.startWriteNode
  repeat' with_reducible first | assumption | (intro _) | apply State.startHead_kept | apply State.sendWrite_kept | apply State.onFlp_kept

theorem State.takeWriteResp_kept {s0 : State} (port : Nat) (token : Nat) (status : Nat) (data : List Byte) (s : State) (hs : Kept s0 s) :
    Kept s0 (State.takeWriteResp port token status data s) := by
  unfold State.takeWriteResp
  repeat' with_reducible first | assumption | (intro _) | apply State.onFlp_kept | apply State.finishAt_kept | apply ite_kept | apply ite_kept2 | apply foldl_kept | apply foldl_kept2 | apply foldr_kept | dsimp only | rfl | exact Tbu.locked_tick _ _ _ _ | exact Tbu.locked_wall _ _ _ _ | exact Tbu.rebase_tick _ _ | exact Tbu.rebase_wall _ _ | split

theorem State.pseFault_kept {s0 : State} (bit : Nat) (src : Nat) (s : State) (hs : Kept s0 s) :
    Kept s0 (State.pseFault bit src s) := by
  unfold State.pseFault
  repeat' with_reducible first | assumption | (intro _) | apply State.raise_kept | apply State.onPse_kept

theorem State.onPsrc_kept {s0 : State} (k : Nat) (f : PSource → PSource) (s : State) (hs : Kept s0 s) :
    Kept s0 (State.onPsrc k f s) := by
  unfold State.onPsrc
  repeat' with_reducible first | assumption | (intro _) | apply State.onPse_kept

theorem State.countReject_kept {s0 : State} (src : Nat) (s : State) (hs : Kept s0 s) :
    Kept s0 (State.countReject src s) := by
  unfold State.countReject
  repeat' with_reducible first | assumption | (intro _) | apply State.onPse_kept

theorem State.reinit_kept {s0 : State} (ks : List Nat) (isPos : Bool) (s : State) (hs : Kept s0 s) :
    Kept s0 (State.reinit ks isPos s) := by
  unfold State.reinit
  repeat' with_reducible first | assumption | (intro _) | apply State.onPse_kept | apply State.onPsrc_kept | apply State.faultReport_kept | apply State.pseFault_kept | apply ite_kept | apply ite_kept2 | apply foldl_kept | apply foldl_kept2 | apply foldr_kept | dsimp only | rfl | exact Tbu.locked_tick _ _ _ _ | exact Tbu.locked_wall _ _ _ _ | exact Tbu.rebase_tick _ _ | exact Tbu.rebase_wall _ _ | split

theorem State.checkRun_kept {s0 : State} (src : Nat) (s : State) (hs : Kept s0 s) :
    Kept s0 (State.checkRun src s) := by
  unfold State.checkRun
  repeat' with_reducible first | assumption | (intro _) | apply State.record_kept | apply State.pseFault_kept | apply State.onPsrc_kept | apply State.reinit_kept | apply ite_kept

theorem State.noteTook_kept {s0 : State} (tick : Nat) (s : State) (t : Took) (hs : Kept s0 s) :
    Kept s0 (State.noteTook tick s t) := by
  unfold State.noteTook
  repeat' with_reducible first | assumption | (intro _) | apply State.pseFault_kept | apply State.countReject_kept | apply State.onPsrc_kept | apply State.checkRun_kept | apply ite_kept

theorem State.noteSkipped_kept {s0 : State} (tick : Nat) (s : State) (src : Nat) (hs : Kept s0 s) :
    Kept s0 (State.noteSkipped tick s src) := by
  unfold State.noteSkipped
  repeat' with_reducible first | assumption | (intro _) | apply State.onPsrc_kept | apply State.countReject_kept

theorem State.takeFix_kept {s0 : State} (m : PFix) (s : State) (hs : Kept s0 s) :
    Kept s0 ((State.takeFix m s).2) := by
  unfold State.takeFix
  repeat' with_reducible first | assumption | (intro _) | apply State.pseFault_kept | apply State.countReject_kept | apply State.onPse_kept | apply State.noteSkipped_kept | apply State.noteTook_kept | apply ite_kept | apply ite_kept2 | apply foldl_kept

theorem State.applyModel_kept {s0 : State} (g : Model) (e : Nat) (s : State) (hs : Kept s0 s) :
    Kept s0 (State.applyModel g e s) := by
  unfold State.applyModel
  repeat' with_reducible first | assumption | (intro _) | apply State.onGnb_kept | apply State.onPse_kept

theorem State.poseCheck_kept {s0 : State} (s : State) (hs : Kept s0 s) :
    Kept s0 (State.poseCheck s) := by
  unfold State.poseCheck
  repeat' with_reducible first | assumption | (intro _) | apply State.raise_kept | apply State.onGle_kept | apply State.startProbes_kept | apply State.closeAll_kept | apply State.faultReport_kept | apply State.gleFault_kept | apply ite_kept

theorem State.publish_kept {s0 : State} (f : Filter) (s : State) (hs : Kept s0 s) :
    Kept s0 (State.publish f s) := by
  unfold State.publish
  repeat' with_reducible first | assumption | (intro _) | apply State.onPse_kept | apply State.raise_kept | apply State.report_kept | apply State.sendTeb_kept | apply ite_kept | apply ite_kept2 | apply foldl_kept

theorem State.takeSpeed_kept {s0 : State} (e : Nat) (s : State) (k : Nat) (hs : Kept s0 s) : Kept s0 (State.takeSpeed e s k) := by
  simp only [State.takeSpeed]
  generalize s.speedFix k e = o
  cases o with
  | none => exact hs
  | some m => exact State.takeFix_kept _ _ hs

theorem State.poseEpoch_kept {s0 : State} (e : Nat) (s : State) (hs : Kept s0 s) : Kept s0 (State.poseEpoch e s) := by
  unfold State.poseEpoch
  extract_lets waits s1 s2 s3 f fs s4 s5 s6 s7 s8
  have h1 : Kept s0 s1 := State.onPse_kept _ (State.repIntegrate_kept _ hs)
  have h2 : Kept s0 s2 := by
    unfold s2; split
    · exact State.applyModel_kept _ _ _ h1
    · exact h1
  have h3 : Kept s0 s3 := foldl_kept _ _ (fun _ _ _ h => State.takeSpeed_kept _ _ _ h) h2
  have h5 : Kept s0 s5 := State.publish_kept _ _ (State.onPse_kept _ h3)
  have h6 : Kept s0 s6 := by
    unfold s6; apply ite_kept _ h5
    apply foldl_kept _ _ _ h5
    intro s0 s k hs; exact State.retimeAll_kept _ _ hs
  have h7 : Kept s0 s7 := ite_kept _ (State.mapEpoch_kept _ _ _ h6) h6
  exact State.finishAll_kept _ _ _ _ (State.armCheck_kept _ (State.refreshLoad_kept _ (State.refreshDemand_kept _ (State.poseCheck_kept _ h7))))

theorem State.refreshDport_kept {s0 : State} (q : Nat) (s : State) (hs : Kept s0 s) :
    Kept s0 (State.refreshDport q s) := by
  unfold State.refreshDport
  repeat' with_reducible first | assumption | (intro _) | apply State.raise_kept | apply State.onDport_kept | apply State.dlkStatus_kept | apply State.readyFault_kept | apply State.record_kept | apply ite_kept

theorem State.refreshTebRing_kept {s0 : State} (s : State) (hs : Kept s0 s) :
    Kept s0 (State.refreshTebRing s) := by
  unfold State.refreshTebRing
  repeat' with_reducible first | assumption | (intro _) | apply State.dlkStatus_kept | apply State.raise_kept | apply State.onDlk_kept | apply ite_kept

theorem State.refreshDports_kept {s0 : State} (s : State) (hs : Kept s0 s) :
    Kept s0 (State.refreshDports s) := by
  unfold State.refreshDports
  repeat' with_reducible first | assumption | (intro _) | apply State.refreshTebRing_kept | apply State.refreshDport_kept

theorem State.deviceWord_kept {s0 : State} (q : Nat) (w : LinkWord) (s : State) (hs : Kept s0 s) :
    Kept s0 (State.deviceWord q w s) := by
  unfold State.deviceWord
  repeat' with_reducible first | assumption | (intro _) | apply State.refreshDports_kept | apply State.putReady_kept | apply State.onDport_kept | apply State.dlkStatus_kept | apply ite_kept

theorem State.ringLost_kept {s0 : State} (s : State) (hs : Kept s0 s) :
    Kept s0 (State.ringLost s) := by
  unfold State.ringLost
  repeat' with_reducible first | assumption | (intro _) | apply State.ringNoTime_kept | apply State.onDlk_kept

theorem State.followMaster_kept {s0 : State} (m : Nat) (s : State) (hs : Kept s0 s) :
    Kept s0 (State.followMaster m s) := by
  unfold State.followMaster
  repeat' with_reducible first | assumption | (intro _) | apply State.ringLost_kept | apply State.onDlk_kept | apply State.dlkStatus_kept | apply State.raise_kept | apply ite_kept

theorem State.election_kept {s0 : State} (s : State) (hs : Kept s0 s) :
    Kept s0 (State.election s) := by
  unfold State.election
  repeat' with_reducible first | assumption | (intro _) | apply State.followMaster_kept

theorem State.checkMaster_kept {s0 : State} (s : State) (hs : Kept s0 s) :
    Kept s0 (State.checkMaster s) := by
  unfold State.checkMaster
  repeat' with_reducible first | assumption | (intro _) | apply State.election_kept | apply ite_kept

theorem State.classFell_kept {s0 : State} (s : State) (hs : Kept s0 s) :
    Kept s0 (State.classFell s) := by
  unfold State.classFell
  repeat' with_reducible first | assumption | (intro _) | apply State.election_kept | apply ite_kept

theorem State.dlkCtrl_kept {s0 : State} (v : Word) (s : State) (hs : Kept s0 s) :
    Kept s0 (State.dlkCtrl v s) := by
  unfold State.dlkCtrl
  repeat' with_reducible first | assumption | (intro _) | apply State.onDlk_kept | apply State.refreshDports_kept | apply State.election_kept | apply State.checkMaster_kept | apply ite_kept

theorem State.badDevice_kept {s0 : State} (q : Nat) (s : State) (hs : Kept s0 s) :
    Kept s0 (State.badDevice q s) := by
  unfold State.badDevice
  repeat' with_reducible first | assumption | (intro _) | apply State.dlkFault_kept | apply State.onDport_kept

theorem State.dupSeen_kept {s0 : State} (q : Nat) (s : State) (hs : Kept s0 s) :
    Kept s0 (State.dupSeen q s) := by
  unfold State.dupSeen
  repeat' with_reducible first | assumption | (intro _) | apply State.onDlk_kept | apply State.checkMaster_kept | apply State.record_kept | apply State.dlkStatus_kept | apply State.dlkFault_kept | apply ite_kept

theorem State.forward_kept {s0 : State} (q : Nat) (type : Nat) (h : TebHead) (body : List Fld) (s : State) (hs : Kept s0 s) :
    Kept s0 (State.forward q type h body s) := by
  unfold State.forward
  repeat' with_reducible first | assumption | (intro _) | apply State.sendFrame_kept | apply ite_kept

theorem State.tebecia_kept {s0 : State} (q : Nat) (type : Nat) (h : TebHead) (fwd : List Fld) (again : State → State) (k : Option Word → State → State) (s : State) (hagain : ∀ (s0 s : State), Kept s0 s → Kept s0 (again s)) (hk : ∀ y0 (s0 s : State), Kept s0 s → Kept s0 (k y0 s)) (hs : Kept s0 s) :
    Kept s0 (State.tebecia q type h fwd again k s) := by
  unfold State.tebecia
  repeat' with_reducible first | assumption | (intro _) | apply hagain | apply hk | apply State.badDevice_kept | apply State.forward_kept | apply State.dupSeen_kept | apply State.onDlk_kept | apply ite_kept | apply ite_kept2 | apply foldl_kept | apply foldl_kept2 | apply foldr_kept | dsimp only | rfl | exact Tbu.locked_tick _ _ _ _ | exact Tbu.locked_wall _ _ _ _ | exact Tbu.rebase_tick _ _ | exact Tbu.rebase_wall _ _ | split

theorem State.setSibling_kept {s0 : State} (i : Nat) (b : Option Sibling) (s : State) (hs : Kept s0 s) :
    Kept s0 (State.setSibling i b s) := by
  unfold State.setSibling
  repeat' with_reducible first | assumption | (intro _) | apply State.onDlk_kept

theorem State.noteSibling_kept {s0 : State} (h : Heartbeat) (s : State) (hs : Kept s0 s) :
    Kept s0 (State.noteSibling h s) := by
  unfold State.noteSibling
  repeat' with_reducible first | assumption | (intro _) | apply State.setSibling_kept | apply State.dlkStatus_kept | apply State.raise_kept | apply ite_kept | apply ite_kept2 | apply foldl_kept | apply foldl_kept2 | apply foldr_kept | dsimp only | rfl | exact Tbu.locked_tick _ _ _ _ | exact Tbu.locked_wall _ _ _ _ | exact Tbu.rebase_tick _ _ | exact Tbu.rebase_wall _ _ | split

theorem State.fewerHops_kept {s0 : State} (h : TebHead) (s : State) (hs : Kept s0 s) :
    Kept s0 (State.fewerHops h s) := by
  unfold State.fewerHops
  repeat' with_reducible first | assumption | (intro _) | apply State.onDlk_kept | apply ite_kept | apply ite_kept2 | apply foldl_kept | apply foldl_kept2 | apply foldr_kept | dsimp only | rfl | exact Tbu.locked_tick _ _ _ _ | exact Tbu.locked_wall _ _ _ _ | exact Tbu.rebase_tick _ _ | exact Tbu.rebase_wall _ _ | split

theorem State.takeTime_kept {s0 : State} (q : Nat) (h : Heartbeat) (s : State) (hs : Kept s0 s) :
    Kept s0 (State.takeTime q h s) := by
  unfold State.takeTime
  repeat' with_reducible first | assumption | (intro _) | apply State.onDlk_kept | apply State.ringTime_kept | apply State.ringNoTime_kept | apply ite_kept

theorem State.takeRole_kept {s0 : State} (h : Heartbeat) (s : State) (hs : Kept s0 s) :
    Kept s0 (State.takeRole h s) := by
  unfold State.takeRole
  repeat' with_reducible first | assumption | (intro _) | apply State.followMaster_kept | apply ite_kept | apply ite_kept2 | apply foldl_kept | apply foldl_kept2 | apply foldr_kept | dsimp only | rfl | exact Tbu.locked_tick _ _ _ _ | exact Tbu.locked_wall _ _ _ _ | exact Tbu.rebase_tick _ _ | exact Tbu.rebase_wall _ _ | split

theorem State.takeHeartbeat_kept {s0 : State} (q : Nat) (h : Heartbeat) (s : State) (hs : Kept s0 s) :
    Kept s0 (State.takeHeartbeat q h s) := by
  unfold State.takeHeartbeat
  repeat' with_reducible first | assumption | (intro _) | apply State.noteSibling_kept | apply State.classFell_kept | apply State.takeRole_kept | apply State.checkMaster_kept | apply State.takeTime_kept | apply ite_kept

theorem State.sendHeartbeat_kept {s0 : State} (b : Nat) (s : State) (hs : Kept s0 s) :
    Kept s0 (State.sendHeartbeat b s) := by
  unfold State.sendHeartbeat
  repeat' with_reducible first | assumption | (intro _) | apply State.onDlk_kept | apply State.checkMaster_kept | apply State.classFell_kept | apply State.sendTeb_kept | apply ite_kept

theorem State.loseSibling_kept {s0 : State} (i : Nat) (identity : Nat) (s : State) (hs : Kept s0 s) :
    Kept s0 (State.loseSibling i identity s) := by
  unfold State.loseSibling
  repeat' with_reducible first | assumption | (intro _) | apply State.dlkStatus_kept | apply State.raise_kept | apply State.setSibling_kept | apply State.election_kept | apply State.ringLost_kept | apply State.onDlk_kept | apply ite_kept

theorem State.takePose_kept {s0 : State} (p : PoseFrame) (s : State) (hs : Kept s0 s) :
    Kept s0 (State.takePose p s) := by
  unfold State.takePose
  repeat' with_reducible first | assumption | (intro _) | apply State.takeFix_kept | apply ite_kept

theorem State.dropDeltas_kept {s0 : State} (s : State) (hs : Kept s0 s) :
    Kept s0 (State.dropDeltas s) := by
  unfold State.dropDeltas
  repeat' with_reducible first | assumption | (intro _) | apply State.dlkFault_kept | apply State.onDlk_kept

theorem State.sendCoverage_kept {s0 : State} (s : State) (hs : Kept s0 s) :
    Kept s0 (State.sendCoverage s) := by
  unfold State.sendCoverage
  repeat' with_reducible first | assumption | (intro _) | apply State.onDlk_kept | apply State.sendTeb_kept

theorem State.covGap_kept {s0 : State} (q : Nat) (h : TebHead) (last : Option Word) (s : State) (hs : Kept s0 s) :
    Kept s0 (State.covGap q h last s) := by
  unfold State.covGap
  repeat' with_reducible first | assumption | (intro _) | apply State.dlkStatus_kept | apply State.dlkFault_kept | apply State.onDlk_kept | apply ite_kept | apply ite_kept2 | apply foldl_kept | apply foldl_kept2 | apply foldr_kept | dsimp only | rfl | exact Tbu.locked_tick _ _ _ _ | exact Tbu.locked_wall _ _ _ _ | exact Tbu.rebase_tick _ _ | exact Tbu.rebase_wall _ _ | split

theorem State.sendDelay_kept {s0 : State} (port : Nat) (type : Nat) (body : List Fld) (s : State) (hs : Kept s0 s) :
    Kept s0 (State.sendDelay port type body s) := by
  unfold State.sendDelay
  repeat' with_reducible first | assumption | (intro _) | apply State.sendFrame_kept | apply State.onDlk_kept

theorem State.delayFrame_kept {s0 : State} (q : Nat) (h : TebHead) (k : State → State) (s : State) (hk : ∀ (s0 s : State), Kept s0 s → Kept s0 (k s)) (hs : Kept s0 s) :
    Kept s0 (State.delayFrame q h k s) := by
  unfold State.delayFrame
  repeat' with_reducible first | assumption | (intro _) | apply hk | apply State.badDevice_kept | apply State.dupSeen_kept | apply ite_kept

theorem State.gnbFault_kept {s0 : State} (bit : Nat) (src : Nat) (s : State) (hs : Kept s0 s) :
    Kept s0 (State.gnbFault bit src s) := by
  unfold State.gnbFault
  repeat' with_reducible first | assumption | (intro _) | apply State.raise_kept | apply State.onGnb_kept

theorem State.applyEph_kept {s0 : State} (s : State) (hs : Kept s0 s) :
    Kept s0 (State.applyEph s) := by
  unfold State.applyEph
  repeat' with_reducible first | assumption | (intro _) | apply State.finishAt_kept | apply State.onGnb_kept | apply ite_kept | apply ite_kept2 | apply foldl_kept

theorem State.dropTrack_kept {s0 : State} (n : Nat) (s : State) (hs : Kept s0 s) :
    Kept s0 (State.dropTrack n s) := by
  unfold State.dropTrack
  repeat' with_reducible first | assumption | (intro _) | apply State.onGnb_kept

theorem State.giveTrack_kept {s0 : State} (antenna : Nat) (s : State) (k : Track) (hs : Kept s0 s) :
    Kept s0 (State.giveTrack antenna s k) := by
  unfold State.giveTrack
  repeat' with_reducible first | assumption | (intro _) | apply State.onGnb_kept | apply ite_kept | apply ite_kept2 | apply foldl_kept | apply foldl_kept2 | apply foldr_kept | dsimp only | rfl | exact Tbu.locked_tick _ _ _ _ | exact Tbu.locked_wall _ _ _ _ | exact Tbu.rebase_tick _ _ | exact Tbu.rebase_wall _ _ | split

theorem State.allocate_kept {s0 : State} (ok : List GnssSignal) (s : State) (antenna : Nat) (hs : Kept s0 s) :
    Kept s0 (State.allocate ok s antenna) := by
  unfold State.allocate
  repeat' with_reducible first | assumption | (intro _) | apply State.dropTrack_kept | apply State.giveTrack_kept | apply ite_kept | apply ite_kept2 | apply foldl_kept | apply foldl_kept2 | apply foldr_kept | dsimp only | rfl | exact Tbu.locked_tick _ _ _ _ | exact Tbu.locked_wall _ _ _ _ | exact Tbu.rebase_tick _ _ | exact Tbu.rebase_wall _ _ | split

theorem State.agcCheck_kept {s0 : State} (e : Nat) (m : GnssEpoch) (s : State) (b : Nat) (hs : Kept s0 s) :
    Kept s0 (State.agcCheck e m s b) := by
  unfold State.agcCheck
  repeat' with_reducible first | assumption | (intro _) | apply State.onGnb_kept | apply State.gnbFault_kept | apply ite_kept

theorem State.isbCheck_kept {s0 : State} (first : Nat) (i : GnssInput) (s : State) (system : Nat) (hs : Kept s0 s) :
    Kept s0 (State.isbCheck first i s system) := by
  unfold State.isbCheck
  repeat' with_reducible first | assumption | (intro _) | apply State.gnbFault_kept | apply State.onGnb_kept | apply ite_kept

theorem State.isbChecks_kept {s0 : State} (cs : List GnssSignal) (rs : List GnssRange) (s : State) (hs : Kept s0 s) :
    Kept s0 (State.isbChecks cs rs s) := by
  unfold State.isbChecks
  repeat' with_reducible first | assumption | (intro _) | apply State.isbCheck_kept | apply ite_kept | apply ite_kept2 | apply foldl_kept | apply foldl_kept2 | apply foldr_kept | dsimp only | rfl | exact Tbu.locked_tick _ _ _ _ | exact Tbu.locked_wall _ _ _ _ | exact Tbu.rebase_tick _ _ | exact Tbu.rebase_wall _ _ | split

theorem State.setHdg_kept {s0 : State} (v : Bool) (n : Nat) (s : State) (hs : Kept s0 s) :
    Kept s0 (State.setHdg v n s) := by
  unfold State.setHdg
  repeat' with_reducible first | assumption | (intro _) | apply State.onGnb_kept | apply State.raise_kept | apply ite_kept

theorem State.headingCheck_kept {s0 : State} (burst : Bool) (ps : List (GnssSignal × GnssSignal)) (s : State) (hs : Kept s0 s) :
    Kept s0 ((State.headingCheck burst ps s).2) := by
  unfold State.headingCheck
  repeat' with_reducible first | assumption | (intro _) | apply State.onGnb_kept | apply State.setHdg_kept | apply State.record_kept | apply State.gnbFault_kept | apply ite_kept | apply ite_kept2

theorem State.deliverPose_kept {s0 : State} (e : Nat) (fit : Option GnssFit) (vel : Bool) (b : Option GnssBaseline) (s : State) (hs : Kept s0 s) :
    Kept s0 (State.deliverPose e fit vel b s) := by
  unfold State.deliverPose
  repeat' with_reducible first | assumption | (intro _) | apply State.onPse_kept | apply State.takeFix_kept | apply ite_kept | apply ite_kept2 | apply foldl_kept | apply foldl_kept2 | apply foldr_kept | dsimp only | rfl | exact Tbu.locked_tick _ _ _ _ | exact Tbu.locked_wall _ _ _ _ | exact Tbu.rebase_tick _ _ | exact Tbu.rebase_wall _ _ | split

theorem State.deliverTime_kept {s0 : State} (e : Nat) (f : GnssFit) (s : State) (hs : Kept s0 s) :
    Kept s0 ((State.deliverTime e f s).2) := by
  unfold State.deliverTime
  repeat' with_reducible first | assumption | (intro _) | apply State.gnbFault_kept | apply State.gnssTime_kept | apply State.onGnb_kept | apply ite_kept

theorem State.noteFix_kept {s0 : State} (e : Nat) (ok : Bool) (s : State) (hs : Kept s0 s) :
    Kept s0 (State.noteFix e ok s) := by
  unfold State.noteFix
  repeat' with_reducible first | assumption | (intro _) | apply State.onGnb_kept | apply State.raise_kept | apply ite_kept

theorem State.measReport_kept {s0 : State} (e : Nat) (last : Bool) (u : EpochUse) (n : Nat) (c : GnssSignal) (s : State) (hs : Kept s0 s) :
    Kept s0 (State.measReport e last u n c s) := by
  unfold State.measReport
  repeat' with_reducible first | assumption | (intro _) | apply State.report_kept

theorem State.measReports_kept {s0 : State} (e : Nat) (u : EpochUse) (l : List (Nat × GnssSignal)) (s : State) (hs : Kept s0 s) : Kept s0 (State.measReports e u l s) := by
  induction l generalizing s with
  | nil => exact hs
  | cons x t ih =>
    simp only [State.measReports]
    repeat' with_reducible first | assumption | (intro _) | apply ih | apply State.measReport_kept

theorem State.epochReports_kept {s0 : State} (e : Nat) (u : EpochUse) (cs : List (Nat × GnssSignal)) (s : State) (hs : Kept s0 s) :
    Kept s0 (State.epochReports e u cs s) := by
  unfold State.epochReports
  repeat' with_reducible first | assumption | (intro _) | apply State.onGnb_kept | apply State.measReports_kept | apply ite_kept

theorem State.trackEpoch_kept {s0 : State} (burst : Bool) (m : GnssEpoch) (s : State) (hs : Kept s0 s) :
    Kept s0 ((State.trackEpoch burst m s).2) := by
  unfold State.trackEpoch
  repeat' with_reducible first | assumption | (intro _) | apply State.allocate_kept | apply State.onGnb_kept | apply ite_kept

theorem State.solveEpoch_kept {s0 : State} (now : Option Nat) (cs : List GnssSignal) (s : State) (hs : Kept s0 s) :
    Kept s0 (State.solveEpoch now cs s).2.2.2 := by
  unfold State.solveEpoch
  extract_lets r s1 s2 used
  have h1 : Kept s0 s1 := foldl_kept _ _ (fun _ _ _ h => State.gnbFault_kept _ _ _ (State.onGnb_kept _ h)) hs
  exact ite_kept _ (State.isbChecks_kept _ _ _ h1) h1

theorem State.measEpoch_kept {s0 : State} (e : Nat) (burst : Bool) (m : GnssEpoch) (s : State) (hs : Kept s0 s) :
    Kept s0 (State.measEpoch e burst m s) := by
  unfold State.measEpoch
  extract_lets s1 s2 k cs v fit used s3 r s4 s5 t s6 u
  have h2 : Kept s0 s2 := foldl_kept _ _ (fun _ _ _ h => State.agcCheck_kept _ _ _ _ h) (State.applyEph_kept _ hs)
  have h3 : Kept s0 s3 := State.solveEpoch_kept _ _ _ (State.trackEpoch_kept _ _ _ h2)
  have h5 : Kept s0 s5 := State.onGnb_kept _ (State.noteFix_kept _ _ _ (State.headingCheck_kept _ _ _ h3))
  have ht : Kept s0 t.2 := by
    unfold t; generalize fit = o; cases o
    rotate_left
    · exact State.deliverTime_kept _ _ _ h5
    · exact State.onGnb_kept (fun g => { g with timeOk := false }) (State.gnssNoTime_kept _ h5)
  exact State.armCheck_kept _ (State.epochReports_kept _ _ _ _ (State.raise_kept _ _ (State.deliverPose_kept _ _ _ _ _ ht)))

theorem State.iodHeard_kept {s0 : State} (k : Track) (iod : Nat) (s : State) (hs : Kept s0 s) :
    Kept s0 (State.iodHeard k iod s) := by
  unfold State.iodHeard
  repeat' with_reducible first | assumption | (intro _) | apply State.onGnb_kept | apply State.gnbFault_kept | apply ite_kept

theorem State.navPart_kept {s0 : State} (k : Track) (check : Nat) (count : Nat) (m : NavMessage) (parts : Nat) (i : Nat) (s : State) (hs : Kept s0 s) :
    Kept s0 (State.navPart k check count m parts i s) := by
  unfold State.navPart
  repeat' with_reducible first | assumption | (intro _) | apply State.report_kept

theorem State.navReport_kept {s0 : State} (k : Track) (check : Nat) (count : Nat) (m : NavMessage) (s : State) (hs : Kept s0 s) :
    Kept s0 (State.navReport k check count m s) := by
  unfold State.navReport
  repeat' with_reducible first | assumption | (intro _) | apply State.navPart_kept | apply ite_kept | apply ite_kept2 | apply foldl_kept

theorem State.navInfo_kept {s0 : State} (k : Track) (s : State) (i : NavInfo) (hs : Kept s0 s) :
    Kept s0 (State.navInfo k s i) := by
  unfold State.navInfo
  repeat' with_reducible first | assumption | (intro _) | apply State.onGnb_kept | apply State.leapSecond_kept | apply State.iodHeard_kept | apply ite_kept | apply ite_kept2 | apply foldl_kept | apply foldl_kept2 | apply foldr_kept | dsimp only | rfl | exact Tbu.locked_tick _ _ _ _ | exact Tbu.locked_wall _ _ _ _ | exact Tbu.rebase_tick _ _ | exact Tbu.rebase_wall _ _ | split

theorem State.keepSbas_kept {s0 : State} (k : Track) (m : NavMessage) (s : State) (hs : Kept s0 s) :
    Kept s0 (State.keepSbas k m s) := by
  unfold State.keepSbas
  repeat' with_reducible first | assumption | (intro _) | apply State.onGnb_kept | apply ite_kept

theorem State.navMessage_kept {s0 : State} (k : Track) (m : NavMessage) (s : State) (hs : Kept s0 s) :
    Kept s0 (State.navMessage k m s) := by
  unfold State.navMessage
  repeat' with_reducible first | assumption | (intro _) | apply State.onGnb_kept | apply State.gnbFault_kept | apply State.navReport_kept | apply State.navInfo_kept | apply State.keepSbas_kept | apply ite_kept | apply ite_kept2 | apply foldl_kept

theorem State.onNotch_kept {s0 : State} (n : Nat) (f : Notch → Notch) (s : State) (hs : Kept s0 s) :
    Kept s0 (State.onNotch n f s) := by
  unfold State.onNotch
  repeat' with_reducible first | assumption | (intro _) | apply State.onGnb_kept

theorem State.setBias_kept {s0 : State} (a : Nat) (b : Bias) (s : State) (hs : Kept s0 s) :
    Kept s0 (State.setBias a b s) := by
  unfold State.setBias
  repeat' with_reducible first | assumption | (intro _) | apply State.gnbFault_kept | apply State.onGnb_kept | apply State.record_kept | apply ite_kept

theorem State.sampleBias_kept {s0 : State} (a : Nat) (ma : Nat) (s : State) (hs : Kept s0 s) :
    Kept s0 (State.sampleBias a ma s) := by
  unfold State.sampleBias
  repeat' with_reducible first | assumption | (intro _) | apply State.onGnb_kept

theorem State.sendMsix_kept {s0 : State} (t : Nat) (s : State) (hs : Kept s0 s) :
    Kept s0 (State.sendMsix t s) := by
  unfold State.sendMsix
  repeat' with_reducible first | assumption | (intro _) | apply State.onHre_kept | apply State.onOut_kept | apply ite_kept

theorem State.commitTarget_kept {s0 : State} (t : Nat) (s : State) (hs : Kept s0 s) :
    Kept s0 (State.commitTarget t s) := by
  unfold State.commitTarget
  repeat' with_reducible first | assumption | (intro _) | apply State.when_kept | apply State.sendMsix_kept | apply State.onTarget_kept | apply ite_kept | apply ite_kept2 | apply foldl_kept | apply foldl_kept2 | apply foldr_kept | dsimp only | rfl | exact Tbu.locked_tick _ _ _ _ | exact Tbu.locked_wall _ _ _ _ | exact Tbu.rebase_tick _ _ | exact Tbu.rebase_wall _ _ | split

theorem State.recall_kept {s0 : State} (t : Nat) (s : State) (hs : Kept s0 s) :
    Kept s0 (State.recall t s) := by
  unfold State.recall
  repeat' with_reducible first | assumption | (intro _) | apply State.onTarget_kept | apply State.onOut_kept | apply State.onHre_kept | apply ite_kept | apply ite_kept2 | apply foldl_kept | apply foldl_kept2 | apply foldr_kept | dsimp only | rfl | exact Tbu.locked_tick _ _ _ _ | exact Tbu.locked_wall _ _ _ _ | exact Tbu.rebase_tick _ _ | exact Tbu.rebase_wall _ _ | split

theorem State.recommit_kept {s0 : State} (f : State → State) (s : State) (hf : ∀ (s0 s : State), Kept s0 s → Kept s0 (f s)) (hs : Kept s0 s) :
    Kept s0 (State.recommit f s) := by
  unfold State.recommit
  repeat' with_reducible first | assumption | (intro _) | apply hf | apply State.commitTarget_kept | apply State.recall_kept | apply ite_kept | apply ite_kept2 | apply foldl_kept

theorem State.eoi_kept {s0 : State} (t : Nat) (s : State) (hs : Kept s0 s) :
    Kept s0 (State.eoi t s) := by
  unfold State.eoi
  repeat' with_reducible first | assumption | (intro _) | apply State.onIcu_kept | apply State.onTarget_kept | apply ite_kept | apply ite_kept2 | apply foldl_kept | apply foldl_kept2 | apply foldr_kept | dsimp only | rfl | exact Tbu.locked_tick _ _ _ _ | exact Tbu.locked_wall _ _ _ _ | exact Tbu.rebase_tick _ _ | exact Tbu.rebase_wall _ _ | split

theorem State.swi_kept {s0 : State} (v : Word) (s : State) (hs : Kept s0 s) :
    Kept s0 (State.swi v s) := by
  unfold State.swi
  repeat' with_reducible first | assumption | (intro _) | apply State.raise_kept | apply ite_kept | apply ite_kept2 | apply foldl_kept

theorem State.pendWrite_kept {s0 : State} (w : Nat) (v : Word) (s : State) (hs : Kept s0 s) :
    Kept s0 (State.pendWrite w v s) := by
  unfold State.pendWrite
  repeat' with_reducible first | assumption | (intro _) | apply State.onSrc_kept | apply ite_kept | apply ite_kept2 | apply foldl_kept

theorem State.srcCfgWrite_kept {s0 : State} (n : Nat) (v : Word) (s : State) (hs : Kept s0 s) :
    Kept s0 (State.srcCfgWrite n v s) := by
  unfold State.srcCfgWrite
  repeat' with_reducible first | assumption | (intro _) | apply State.onSrc_kept

theorem State.tgtCfgWrite_kept {s0 : State} (t : Nat) (v : Word) (s : State) (hs : Kept s0 s) :
    Kept s0 (State.tgtCfgWrite t v s) := by
  unfold State.tgtCfgWrite
  repeat' with_reducible first | assumption | (intro _) | apply State.onTarget_kept | apply State.onSrc_kept | apply ite_kept | apply ite_kept2 | apply foldl_kept

theorem State.unmask_kept {s0 : State} (entry : Nat) (s : State) (hs : Kept s0 s) :
    Kept s0 (State.unmask entry s) := by
  unfold State.unmask
  repeat' with_reducible first | assumption | (intro _) | apply State.onHre_kept | apply State.onOut_kept | apply ite_kept

theorem State.bankSwap_kept {s0 : State} (ring : Nat) (x : Slot) (s : State) (hs : Kept s0 s) :
    Kept s0 (State.bankSwap ring x s) := by
  unfold State.bankSwap
  repeat' with_reducible first | assumption | (intro _) | apply State.onCtx_kept | apply State.hostDiscards_kept | apply State.startHead_kept | apply State.swapsNow_kept | apply State.swapDone_kept | apply ite_kept | apply ite_kept2 | apply foldl_kept

theorem State.traceOut_kept {s0 : State} (q : Nat) (destOk : Bool) (s : State) (hs : Kept s0 s) :
    Kept s0 (State.traceOut q destOk s) := by
  unfold State.traceOut
  repeat' with_reducible first | assumption | (intro _) | apply State.hostWrite_kept | apply State.dmaError_kept | apply State.raise_kept | apply State.onRge_kept | apply State.onTrace_kept | apply State.report_kept | apply ite_kept

theorem State.watch_kept {s0 : State} (c : Nat) (tick : Nat) (s : State) (hs : Kept s0 s) :
    Kept s0 (State.watch c tick s) := by
  unfold State.watch
  repeat' with_reducible first | assumption | (intro _) | apply State.onCtx_kept

theorem State.latch_kept {s0 : State} (c : Nat) (tick : Nat) (s : State) (hs : Kept s0 s) :
    Kept s0 (State.latch c tick s) := by
  unfold State.latch
  repeat' with_reducible first | assumption | (intro _) | apply State.onCtx_kept | apply State.watch_kept

theorem State.enterSafe_kept {s0 : State} (c : Nat) (s : State) (hs : Kept s0 s) :
    Kept s0 (State.enterSafe c s) := by
  unfold State.enterSafe
  repeat' with_reducible first | assumption | (intro _) | apply State.record_kept | apply State.ctxFault_kept | apply State.onCtx_kept

theorem State.loseFeedback_kept {s0 : State} (c : Nat) (tick : Nat) (s : State) (hs : Kept s0 s) :
    Kept s0 ((State.loseFeedback c tick s).2) := by
  unfold State.loseFeedback
  repeat' with_reducible first | assumption | (intro _) | apply State.ctxFault_kept | apply State.onCtx_kept | apply State.record_kept | apply State.leaveClosed_kept | apply State.enterSafe_kept | apply ite_kept | apply ite_kept2 | apply foldl_kept | apply foldl_kept2 | apply foldr_kept | dsimp only | rfl | exact Tbu.locked_tick _ _ _ _ | exact Tbu.locked_wall _ _ _ _ | exact Tbu.rebase_tick _ _ | exact Tbu.rebase_wall _ _ | split

theorem State.respond_kept {s0 : State} (c : Nat) (tick : Nat) (s : State) (hs : Kept s0 s) :
    Kept s0 ((State.respond c tick s).2) := by
  unfold State.respond
  repeat' with_reducible first | assumption | (intro _) | apply State.loseFeedback_kept | apply State.raise_kept | apply State.onCtx_kept | apply State.enterSafe_kept | apply ite_kept | apply ite_kept2 | apply foldl_kept | apply foldl_kept2 | apply foldr_kept | dsimp only | rfl | exact Tbu.locked_tick _ _ _ _ | exact Tbu.locked_wall _ _ _ _ | exact Tbu.rebase_tick _ _ | exact Tbu.rebase_wall _ _ | split

theorem State.noteResponse_kept {s0 : State} (c : Nat) (tick : Nat) (s : State) (hs : Kept s0 s) :
    Kept s0 (State.noteResponse c tick s) := by
  unfold State.noteResponse
  repeat' with_reducible first | assumption | (intro _) | apply State.onLca_kept | apply ite_kept

theorem State.startClosed_kept {s0 : State} (c : Nat) (s : State) (hs : Kept s0 s) :
    Kept s0 (State.startClosed c s) := by
  unfold State.startClosed
  repeat' with_reducible first | assumption | (intro _) | apply State.raise_kept | apply State.onCtx_kept | apply ite_kept

theorem State.regSample_kept {s0 : State} (c : Nat) (tick : Nat) (s : State) (hs : Kept s0 s) :
    Kept s0 (State.regSample c tick s) := by
  unfold State.regSample
  repeat' with_reducible first | assumption | (intro _) | apply State.swapsDue_kept | apply State.startClosed_kept | apply State.onCtx_kept | apply State.injectsDue_kept | apply State.respond_kept | apply State.latch_kept | apply State.emit_kept | apply State.meterSample_kept | apply State.noteResponse_kept | apply State.traceSample_kept | apply State.regStatus_kept | apply State.leaveEnable_kept | apply ite_kept | apply ite_kept2 | apply foldl_kept

theorem State.regOutput_kept {s0 : State} (c : Nat) (s : State) (hs : Kept s0 s) :
    Kept s0 (State.regOutput c s) := by
  unfold State.regOutput
  repeat' with_reducible first | assumption | (intro _) | apply State.onCtx_kept | apply State.driveBound_kept | apply ite_kept | apply ite_kept2 | apply foldl_kept | apply foldl_kept2 | apply foldr_kept | dsimp only | rfl | exact Tbu.locked_tick _ _ _ _ | exact Tbu.locked_wall _ _ _ _ | exact Tbu.rebase_tick _ _ | exact Tbu.rebase_wall _ _ | split

theorem State.startCtx_kept {s0 : State} (c : Nat) (s : State) (hs : Kept s0 s) :
    Kept s0 (State.startCtx c s) := by
  unfold State.startCtx
  repeat' with_reducible first | assumption | (intro _) | apply State.onCtx_kept | apply State.regStatus_kept | apply State.raise_kept | apply State.reclaim_kept | apply ite_kept | apply ite_kept2 | apply foldl_kept | apply foldl_kept2 | apply foldr_kept | dsimp only | rfl | exact Tbu.locked_tick _ _ _ _ | exact Tbu.locked_wall _ _ _ _ | exact Tbu.rebase_tick _ _ | exact Tbu.rebase_wall _ _ | split

theorem State.tryEnable_kept {s0 : State} (c : Nat) (s : State) (hs : Kept s0 s) :
    Kept s0 (State.tryEnable c s) := by
  unfold State.tryEnable
  repeat' with_reducible first | assumption | (intro _) | apply State.startCtx_kept | apply State.raise_kept | apply State.onRge_kept | apply State.ctxFault_kept | apply ite_kept

theorem State.stopCtx_kept {s0 : State} (c : Nat) (s : State) (hs : Kept s0 s) :
    Kept s0 (State.stopCtx c s) := by
  unfold State.stopCtx
  repeat' with_reducible first | assumption | (intro _) | apply State.leaveClosed_kept | apply State.raise_kept | apply State.onCtx_kept | apply State.emit_kept | apply State.leaveEnable_kept | apply State.regStatus_kept | apply ite_kept | apply ite_kept2 | apply foldl_kept

theorem State.ctxCfg_kept {s0 : State} (c : Nat) (v : Word) (s : State) (hs : Kept s0 s) :
    Kept s0 (State.ctxCfg c v s) := by
  unfold State.ctxCfg
  repeat' with_reducible first | assumption | (intro _) | apply State.onCtx_kept | apply State.ctxFault_kept | apply State.tryEnable_kept | apply State.stopCtx_kept | apply ite_kept

theorem State.ctlLoss_kept {s0 : State} (s : State) (hs : Kept s0 s) :
    Kept s0 (State.ctlLoss s) := by
  unfold State.ctlLoss
  repeat' with_reducible first | assumption | (intro _) | apply State.onRge_kept | apply State.driveBound_kept | apply State.sendOutput_kept | apply ite_kept | apply ite_kept2 | apply foldl_kept

theorem State.hostActivity_kept {s0 : State} (s : State) (hs : Kept s0 s) :
    Kept s0 (State.hostActivity s) := by
  unfold State.hostActivity
  repeat' with_reducible first | assumption | (intro _) | apply State.onHre_kept | apply State.raise_kept | apply ite_kept | apply ite_kept2 | apply foldl_kept | apply foldl_kept2 | apply foldr_kept | dsimp only | rfl | exact Tbu.locked_tick _ _ _ _ | exact Tbu.locked_wall _ _ _ _ | exact Tbu.rebase_tick _ _ | exact Tbu.rebase_wall _ _ | split

theorem State.drainLoop_kept {s0 : State} (ring n : Nat) (s : State) (hs : Kept s0 s) : Kept s0 (State.drainLoop ring n s) := by
  induction n generalizing s with
  | zero => exact hs
  | succ n ih =>
    simp only [State.drainLoop]
    repeat' with_reducible first | assumption | (intro _) | apply ih | apply State.onRing_kept | apply State.writeReport_kept | apply ite_kept | dsimp only | split

theorem State.ringEnable_kept {s0 : State} (ring : Nat) (v : Word) (s : State) (hs : Kept s0 s) :
    Kept s0 (State.ringEnable ring v s) := by
  unfold State.ringEnable
  repeat' with_reducible first | assumption | (intro _) | apply State.onHre_kept | apply State.onRing_kept | apply ite_kept | apply ite_kept2 | apply foldl_kept | apply foldl_kept2 | apply foldr_kept | dsimp only | rfl | exact Tbu.locked_tick _ _ _ _ | exact Tbu.locked_wall _ _ _ _ | exact Tbu.rebase_tick _ _ | exact Tbu.rebase_wall _ _ | split

theorem State.dropAll_kept {s0 : State} (l : List Report) (s : State) (hs : Kept s0 s) : Kept s0 (State.dropAll l s) := by
  induction l generalizing s with
  | nil => exact hs
  | cons x t ih =>
    simp only [State.dropAll]
    repeat' with_reducible first | assumption | (intro _) | apply ih | apply State.dropRouted_kept

theorem State.stopSubmission_kept {s0 : State} (ring : Nat) (s : State) (hs : Kept s0 s) :
    Kept s0 (State.stopSubmission ring s) := by
  unfold State.stopSubmission
  repeat' with_reducible first | assumption | (intro _) | apply State.flush_kept | apply State.onRing_kept

theorem State.stopReports_kept {s0 : State} (ring : Nat) (s : State) (hs : Kept s0 s) :
    Kept s0 (State.stopReports ring s) := by
  unfold State.stopReports
  repeat' with_reducible first | assumption | (intro _) | apply State.dropAll_kept | apply State.onRing_kept

theorem State.ringDisable_kept {s0 : State} (ring : Nat) (v : Word) (s : State) (hs : Kept s0 s) :
    Kept s0 (State.ringDisable ring v s) := by
  unfold State.ringDisable
  repeat' with_reducible first | assumption | (intro _) | apply State.onRing_kept | apply State.stopSubmission_kept | apply State.stopReports_kept | apply ite_kept | apply ite_kept2 | apply foldl_kept | apply foldl_kept2 | apply foldr_kept | dsimp only | rfl | exact Tbu.locked_tick _ _ _ _ | exact Tbu.locked_wall _ _ _ _ | exact Tbu.rebase_tick _ _ | exact Tbu.rebase_wall _ _ | split

theorem Rec.foldr_content (r : Rec) (w : List (Nat × Nat)) : (w.foldr (fun w r => r.fold w.2) r).content = r.content := by
  induction w with
  | nil => rfl
  | cons x t ih => rw [List.foldr_cons]; exact ih

theorem State.applyFolds_kept {s0 : State} (r : Rec) (w : List (Nat × Nat)) (s : State)
    (hk : Tbl.get none s.nv.records (recSlot r.index) = some r) (hs : Kept s0 s) : Kept s0 (State.applyFolds r w s) := by
  unfold State.applyFolds
  split
  · exact hs
  · next w t =>
    have hi : ((w :: t).foldr (fun w r => r.fold w.2) r).index = r.index := by
      have := congrArg Rec.index (Rec.foldr_content r (w :: t)); exact this
    have key : ∀ ft, Kept s0 (s.onNv fun n => { n with records := Tbl.set none n.records (recSlot r.index) (some { ((w :: t).foldr (fun w r => r.fold w.2) r) with foldTick := ft }) }) := by
      intro ft
      have k := State.setRec_kept (r' := { ((w :: t).foldr (fun w r => r.fold w.2) r) with foldTick := ft }) hs hk
        (Rec.foldr_content r (w :: t))
      rw [show recSlot ({ ((w :: t).foldr (fun w r => r.fold w.2) r) with foldTick := ft } : Rec).index = recSlot r.index from
        congrArg recSlot hi] at k
      exact k
    apply ite_kept
    · exact State.recordReport_kept _ _ _ _ (key _)
    · exact key _

theorem State.nextStaged_kept {s0 : State} (s : State) (hs : Kept s0 s) :
    Kept s0 (State.nextStaged s) := by
  unfold State.nextStaged
  repeat' with_reducible first | assumption | (intro _) | apply State.startWrite_kept | apply State.onEvr_kept | apply ite_kept | apply ite_kept2 | apply foldl_kept | apply foldl_kept2 | apply foldr_kept | dsimp only | rfl | exact Tbu.locked_tick _ _ _ _ | exact Tbu.locked_wall _ _ _ _ | exact Tbu.rebase_tick _ _ | exact Tbu.rebase_wall _ _ | split

theorem State.raise_nv (n : Nat) (s : State) : (s.raise n).nv = s.nv := by
  unfold State.raise; split <;> rfl
theorem State.covDrop_nv (n : Nat) (s : State) : (s.covDrop n).nv = s.nv := by
  unfold State.covDrop; split
  · rw [State.raise_nv]; rfl
  · rfl
theorem State.dropRouted_nv (n : Nat) (s : State) : (s.dropRouted n).nv = s.nv := by
  unfold State.dropRouted; split
  · rw [State.covDrop_nv]; rfl
  · rfl
theorem State.report_nv (o f t : Nat) (p : List Fld) (s : State) : (s.report o f t p).nv = s.nv := by
  unfold State.report; dsimp only; split
  · unfold State.enqueue; dsimp only; split
    · unfold State.writeReport; dsimp only; rw [State.raise_nv]; rfl
    · split
      · rfl
      · unfold State.dropQueued; rw [State.covDrop_nv, State.raise_nv]; rfl
  · exact State.dropRouted_nv _ _
theorem State.commitRec_kept {s0 : State} (r : Rec) (s : State) (hr : s.evr.inFlight = some r) (hs : Kept s0 s) : Kept s0 (State.commitRec r s) := by
  unfold State.commitRec
  dsimp only
  have h1 := fun f hf => State.commitNv_kept (r := r) f hf hs hr (r.index == 2047)
  apply State.applyFolds_kept
  · have e : ∀ s : State, (if r.index = 2047 then s.raise 492 else s).nv = s.nv := by
      intro s; split
      · exact State.raise_nv _ _
      · rfl
    rw [e]; unfold State.recordReport; rw [State.report_nv, State.raise_nv]
    exact Tbl.get_set_same (d := none) (i := recSlot r.index) (v := some r)
  · apply ite_kept
    · apply State.raise_kept; apply State.recordReport_kept; apply State.raise_kept; exact h1 _ rfl
    · apply State.recordReport_kept; apply State.raise_kept; exact h1 _ rfl

theorem State.failRec_kept {s0 : State} (r : Rec) (s : State) (hs : Kept s0 s) : Kept s0 (State.failRec r s) := by
  unfold State.failRec
  apply State.raise_kept
  exact hs.trans ⟨rfl, rfl, id, id, Nat.le_refl _, Nat.le_refl _, fun x => ⟨x.wf, x.place, fun _ h => by cases h⟩, fun _ _ r _ h => ⟨r, h, rfl⟩⟩

theorem nextOf_fold (t : Tbl (Option Rec)) : ∀ (m : Nat), m ≤ t.foldl (fun m e => match e.2 with | some r => max m (r.index + 1) | none => m) m ∧
    ∀ k r, Tbl.get none t k = some r → r.index < t.foldl (fun m e => match e.2 with | some r => max m (r.index + 1) | none => m) m := by
  induction t with
  | nil => intro m; exact ⟨Nat.le_refl _, fun k r h => by cases h⟩
  | cons e t ih =>
    intro m
    obtain ⟨j, v⟩ := e
    simp only [List.foldl_cons]
    cases v with
    | none =>
      refine ⟨(ih m).1, fun k r h => ?_⟩
      simp only [Tbl.get] at h
      split at h
      · cases h
      · exact (ih m).2 k r h
    | some q =>
      have := ih (max m (q.index + 1))
      refine ⟨by dsimp only; omega, fun k r h => ?_⟩
      simp only [Tbl.get] at h
      split at h
      · cases h; dsimp only; omega
      · exact this.2 k r h

theorem State.powerUpScan_kept {s0 : State} (s : State) (hn : s.evr.inFlight = none) (hs : Kept s0 s) : Kept s0 (State.powerUpScan s) := by
  unfold State.powerUpScan
  dsimp only
  apply State.startWrite_kept
  apply foldl_kept
  · intro s0 s x hs; exact State.raise_kept _ _ hs
  · refine hs.trans ⟨rfl, rfl, id, id, Nat.le_refl _, Nat.le_refl _, fun x => ⟨x.wf, fun k r h => ⟨(x.place k r h).1, ?_⟩, fun r h => ?_⟩, fun _ _ r _ h => ⟨r, h, rfl⟩⟩
    · exact (nextOf_fold s.nv.records 0).2 k r h
    · rw [show ((s.onNv fun n => { n with nextIndex := nextOf n.records }).onEvr _).evr.inFlight = s.evr.inFlight from rfl, hn] at h; cases h

theorem State.snapSel_kept {s0 : State} (v : Word) (s : State) (hs : Kept s0 s) :
    Kept s0 (State.snapSel v s) := by
  unfold State.snapSel
  repeat' with_reducible first | assumption | (intro _) | apply State.onEvr_kept | apply ite_kept | apply ite_kept2 | apply foldl_kept | apply foldl_kept2 | apply foldr_kept | dsimp only

theorem State.snapCommit_kept {s0 : State} (v : Word) (s : State) (hs : Kept s0 s) :
    Kept s0 (State.snapCommit v s) := by
  unfold State.snapCommit
  repeat' with_reducible first | assumption | (intro _) | apply State.onNv_kept | apply State.wardAccept_kept | apply State.record_kept | apply State.wardRefuse_kept | apply ite_kept | apply ite_kept2 | apply foldl_kept | apply foldl_kept2 | apply foldr_kept | dsimp only

theorem State.copyRecords_kept {s0 : State} (a : Nat) (l : List Rec) (s : State) (hs : Kept s0 s) : Kept s0 (State.copyRecords a l s) := by
  induction l generalizing s a with
  | nil => exact hs
  | cons x t ih => exact ih _ _ (State.hostWrite_kept _ _ hs)

theorem State.setWard_kept {s0 : State} (w : Ward) (s : State) (hs : Kept s0 s) :
    Kept s0 (State.setWard w s) := by
  unfold State.setWard
  repeat' with_reducible first | assumption | (intro _) | apply State.raise_kept | apply State.onPrs_kept | apply State.record_kept | apply ite_kept

theorem State.driveSafe_kept {s0 : State} (c : Nat) (s : State) (hs : Kept s0 s) :
    Kept s0 (State.driveSafe c s) := by
  unfold State.driveSafe
  repeat' with_reducible first | assumption | (intro _) | apply State.driveBound_kept | apply ite_kept | apply ite_kept2 | apply foldl_kept | apply foldl_kept2 | apply foldr_kept | dsimp only | rfl | exact Tbu.locked_tick _ _ _ _ | exact Tbu.locked_wall _ _ _ _ | exact Tbu.rebase_tick _ _ | exact Tbu.rebase_wall _ _ | split

theorem State.undoWarded_kept {s0 : State} (s : State) (hs : Kept s0 s) :
    Kept s0 (State.undoWarded s) := by
  unfold State.undoWarded
  repeat' with_reducible first | assumption | (intro _) | apply State.onNv_kept | apply State.onMpg_kept | apply State.onEvr_kept | apply State.onHre_kept | apply State.prsFault_kept | apply State.onPrs_kept | apply State.driveSafe_kept | apply ite_kept | apply ite_kept2 | apply foldl_kept | apply foldl_kept2 | apply foldr_kept | dsimp only

theorem State.unopen_kept {s0 : State} (s : State) (hs : Kept s0 s) : Kept s0 (State.unopen s) := by
  unfold State.unopen
  extract_lets s1
  have h1 : Kept s0 s1 := State.onPrs_kept _ hs
  split
  · next r hr =>
    apply ite_kept
    · apply State.nextStaged_kept
      refine h1.of_nv rfl rfl id rfl fun x => ?_
      have f := x.flight r hr
      refine ⟨⟨x.wf, fun k q hq => ?_, fun q hq => by cases hq⟩, fun k q _ hq => ⟨q, hq, rfl⟩⟩
      have p := x.place k q hq
      refine ⟨p.1, ?_⟩
      have e : q.index ≠ r.index := by
        intro e
        have g := f.2
        rw [← e, ← p.1] at g
        have : Tbl.get none s1.nv.records k = some q := hq
        rw [this] at g; cases g
      show q.index < s1.nv.nextIndex - 1
      omega
    · exact State.onEvr_kept _ rfl h1
  · exact State.onEvr_kept _ rfl h1

theorem State.keyStood_kept {s0 : State} (s : State) (hs : Kept s0 s) :
    Kept s0 (State.keyStood s) := by
  unfold State.keyStood
  repeat' with_reducible first | assumption | (intro _) | apply State.onPrs_kept | apply State.setWard_kept | apply ite_kept

theorem State.safeAction_kept {s0 : State} (s : State) (hs : Kept s0 s) :
    Kept s0 (State.safeAction s) := by
  unfold State.safeAction
  repeat' with_reducible first | assumption | (intro _) | apply State.raise_kept | apply State.onDyn_kept | apply State.shut_kept | apply State.command_kept | apply ite_kept | apply ite_kept2 | apply foldl_kept

theorem State.loseHost_kept {s0 : State} (s : State) (hs : Kept s0 s) :
    Kept s0 (State.loseHost s) := by
  unfold State.loseHost
  repeat' with_reducible first | assumption | (intro _) | apply State.onHre_kept | apply State.record_kept | apply State.faultReport_kept | apply State.raise_kept | apply State.safeAction_kept | apply ite_kept

theorem State.resume_kept {s0 : State} (s : State) (hs : Kept s0 s) :
    Kept s0 (State.resume s) := by
  unfold State.resume
  repeat' with_reducible first | assumption | (intro _) | apply State.onHre_kept | apply State.insert_kept | apply ite_kept | apply ite_kept2 | apply foldl_kept

theorem State.orphan_kept {s0 : State} (s : State) (hs : Kept s0 s) :
    Kept s0 (State.orphan s) := by
  unfold State.orphan
  repeat' with_reducible first | assumption | (intro _) | apply State.onTbu_kept | apply State.onPse_kept | apply State.onGnb_kept | apply State.onMpg_kept | apply State.onLsb_kept | apply State.onFlp_kept | apply State.onRge_kept | apply ite_kept | apply ite_kept2 | apply foldl_kept | apply foldl_kept2 | apply foldr_kept | dsimp only

theorem State.dropBacklogs_kept {s0 : State} (s : State) (hs : Kept s0 s) :
    Kept s0 (State.dropBacklogs s) := by
  unfold State.dropBacklogs
  repeat' with_reducible first | assumption | (intro _) | apply State.stopReports_kept | apply ite_kept | apply ite_kept2 | apply foldl_kept

theorem State.linkDown_kept {s0 : State} (s : State) (hs : Kept s0 s) :
    Kept s0 (State.linkDown s) := by
  unfold State.linkDown
  repeat' with_reducible first | assumption | (intro _) | apply State.orphan_kept | apply State.dropBacklogs_kept | apply State.onHre_kept | apply State.putReady_kept | apply State.raise_kept

theorem State.linkRise_kept {s0 : State} (speed : Nat) (width : Nat) (s : State) (hs : Kept s0 s) :
    Kept s0 (State.linkRise speed width s) := by
  unfold State.linkRise
  repeat' with_reducible first | assumption | (intro _) | apply State.setReady_kept | apply State.onHre_kept

theorem State.plan_kept {s0 : State} (cause : Nat) (domains : Nat) (s : State) (hs : Kept s0 s) :
    Kept s0 (State.plan cause domains s) := by
  unfold State.plan
  repeat' with_reducible first | assumption | (intro _) | apply State.onPrs_kept | apply ite_kept

theorem State.sealBreak_kept {s0 : State} (s : State) (hs : Kept s0 s) : Kept s0 s.sealBreak := by
  unfold State.sealBreak
  apply State.raise_kept
  apply State.record_kept
  exact hs.trans ⟨rfl, rfl, fun _ => rfl, id, Nat.le_refl _, Nat.le_refl _, fun x => ⟨x.wf, x.place, x.flight⟩, fun _ _ r _ h => ⟨r, h, rfl⟩⟩

theorem State.sealTest_kept {s0 : State} (follows : Bool) (s : State) (hs : Kept s0 s) :
    Kept s0 (State.sealTest follows s) := by
  unfold State.sealTest
  repeat' with_reducible first | assumption | (intro _) | apply State.onPrs_kept | apply State.sealBreak_kept | apply ite_kept

theorem State.loseCounts_kept {s0 : State} (d : Nat) (s : State) (hs : Kept s0 s) :
    Kept s0 (State.loseCounts d s) := by
  unfold State.loseCounts
  repeat' with_reducible first | assumption | (intro _) | apply State.onPse_kept | apply State.onGle_kept | apply State.onMpg_kept | apply State.onGnb_kept | apply State.onDlk_kept | apply State.onFlp_kept | apply State.onLca_kept | apply State.onRge_kept | apply ite_kept | apply ite_kept2 | apply foldl_kept | apply foldl_kept2 | apply foldr_kept | dsimp only | rfl | exact Tbu.locked_tick _ _ _ _ | exact Tbu.locked_wall _ _ _ _ | exact Tbu.rebase_tick _ _ | exact Tbu.rebase_wall _ _ | split

theorem State.clearReady_kept {s0 : State} (bs : List Nat) (s : State) (hs : Kept s0 s) :
    Kept s0 (State.clearReady bs s) := by
  unfold State.clearReady
  repeat' with_reducible first | assumption | (intro _) | apply State.setReady_kept | apply ite_kept | apply ite_kept2 | apply foldl_kept

theorem State.setPower_kept {s0 : State} (d : Nat) (v : Bool) (s : State) (hs : Kept s0 s) :
    Kept s0 (State.setPower d v s) := by
  unfold State.setPower
  repeat' with_reducible first | assumption | (intro _) | apply State.onPrs_kept

theorem State.endStrips_kept {s0 : State} (s : State) (hs : Kept s0 s) :
    Kept s0 (State.endStrips s) := by
  unfold State.endStrips
  repeat' with_reducible first | assumption | (intro _) | apply State.endStrip_kept | apply ite_kept | apply ite_kept2 | apply foldl_kept | apply foldl_kept2 | apply foldr_kept | dsimp only | rfl | exact Tbu.locked_tick _ _ _ _ | exact Tbu.locked_wall _ _ _ _ | exact Tbu.rebase_tick _ _ | exact Tbu.rebase_wall _ _ | split

theorem State.dropEscapement_kept {s0 : State} (n : Nat) (s : State) (hs : Kept s0 s) :
    Kept s0 (State.dropEscapement n s) := by
  unfold State.dropEscapement
  repeat' with_reducible first | assumption | (intro _) | apply State.follow_kept | apply State.onChan_kept | apply ite_kept

theorem State.loseGeo_kept {s0 : State} (s : State) (hs : Kept s0 s) :
    Kept s0 (State.loseGeo s) := by
  unfold State.loseGeo
  repeat' with_reducible first | assumption | (intro _) | apply State.endStrips_kept | apply State.repIntegrate_kept | apply State.dropEscapement_kept | apply State.onPse_kept | apply State.onEsc_kept | apply State.onGle_kept | apply State.armCheck_kept | apply State.finishAll_kept | apply ite_kept | apply ite_kept2 | apply foldl_kept

theorem State.mapCloses_kept {s0 : State} (report : Bool) (s : State) (hs : Kept s0 s) :
    Kept s0 (State.mapCloses report s) := by
  unfold State.mapCloses
  repeat' with_reducible first | assumption | (intro _) | apply State.raise_kept | apply State.onGle_kept | apply State.closeAll_kept | apply State.faultReport_kept | apply ite_kept

theorem State.loseMap_kept {s0 : State} (report : Bool) (s : State) (hs : Kept s0 s) :
    Kept s0 (State.loseMap report s) := by
  unfold State.loseMap
  repeat' with_reducible first | assumption | (intro _) | apply State.mapCloses_kept | apply State.finishAll_kept | apply State.onMpg_kept | apply ite_kept

theorem State.loseNav_kept {s0 : State} (s : State) (hs : Kept s0 s) :
    Kept s0 (State.loseNav s) := by
  unfold State.loseNav
  repeat' with_reducible first | assumption | (intro _) | apply State.finishAll_kept | apply State.onGnb_kept | apply State.gnssNoTime_kept

theorem State.loseLinks_kept {s0 : State} (s : State) (hs : Kept s0 s) :
    Kept s0 (State.loseLinks s) := by
  unfold State.loseLinks
  repeat' with_reducible first | assumption | (intro _) | apply State.onDlk_kept | apply State.onFlp_kept | apply State.ringNoTime_kept | apply State.noteTargets_kept | apply State.pathLost_kept | apply ite_kept | apply ite_kept2 | apply foldl_kept

theorem State.loseCtl_kept {s0 : State} (s : State) (hs : Kept s0 s) :
    Kept s0 (State.loseCtl s) := by
  unfold State.loseCtl
  repeat' with_reducible first | assumption | (intro _) | apply State.onLca_kept | apply State.onRge_kept | apply State.onFbu_kept | apply State.finishAll_kept

theorem State.loseDomain_kept {s0 : State} (d : Nat) (report : Bool) (s : State) (hs : Kept s0 s) :
    Kept s0 (State.loseDomain d report s) := by
  unfold State.loseDomain
  repeat' with_reducible first | assumption | (intro _) | apply State.loseGeo_kept | apply State.loseMap_kept | apply State.loseNav_kept | apply State.loseLinks_kept | apply State.loseCtl_kept | apply ite_kept | apply ite_kept2 | apply foldl_kept | apply foldl_kept2 | apply foldr_kept | dsimp only | rfl | exact Tbu.locked_tick _ _ _ _ | exact Tbu.locked_wall _ _ _ _ | exact Tbu.rebase_tick _ _ | exact Tbu.rebase_wall _ _ | split

theorem State.setDomainEn_kept {s0 : State} (d : Nat) (v : Bool) (s : State) (hs : Kept s0 s) :
    Kept s0 (State.setDomainEn d v s) := by
  unfold State.setDomainEn
  repeat' with_reducible first | assumption | (intro _) | apply State.onPrs_kept

theorem State.switchDomain_kept {s0 : State} (d : Nat) (on : Bool) (s : State) (hs : Kept s0 s) :
    Kept s0 (State.switchDomain d on s) := by
  unfold State.switchDomain
  repeat' with_reducible first | assumption | (intro _) | apply State.setDomainEn_kept | apply State.setPower_kept | apply State.prsFault_kept | apply State.loseCounts_kept | apply State.loseDomain_kept | apply State.clearReady_kept | apply ite_kept

theorem State.domainEnWrite_kept {s0 : State} (v : Word) (s : State) (hs : Kept s0 s) :
    Kept s0 (State.domainEnWrite v s) := by
  unfold State.domainEnWrite
  repeat' with_reducible first | assumption | (intro _) | apply State.switchDomain_kept | apply ite_kept | apply ite_kept2 | apply foldl_kept

theorem State.readyLost_kept {s0 : State} (bs : List Nat) (s : State) (hs : Kept s0 s) :
    Kept s0 (State.readyLost bs s) := by
  unfold State.readyLost
  repeat' with_reducible first | assumption | (intro _) | apply State.readyFault_kept | apply State.record_kept | apply ite_kept | apply ite_kept2 | apply foldl_kept

theorem State.failDomain_kept {s0 : State} (d : Nat) (s : State) (hs : Kept s0 s) :
    Kept s0 (State.failDomain d s) := by
  unfold State.failDomain
  repeat' with_reducible first | assumption | (intro _) | apply State.setPower_kept | apply State.clearReady_kept | apply State.onPrs_kept | apply State.loseDomain_kept | apply State.readyLost_kept | apply State.prsFault_kept | apply State.setDomainEn_kept | apply State.loseCounts_kept | apply ite_kept

theorem State.resetDomain_kept {s0 : State} (d : Nat) (s : State) (hs : Kept s0 s) :
    Kept s0 (State.resetDomain d s) := by
  unfold State.resetDomain
  repeat' with_reducible first | assumption | (intro _) | apply State.setPower_kept | apply State.loseDomain_kept | apply State.clearReady_kept | apply ite_kept

theorem State.resetDomains_kept {s0 : State} (mask : Nat) (s : State) (hs : Kept s0 s) :
    Kept s0 (State.resetDomains mask s) := by
  unfold State.resetDomains
  repeat' with_reducible first | assumption | (intro _) | apply State.resetDomain_kept | apply State.onPrs_kept | apply ite_kept | apply ite_kept2 | apply foldl_kept

theorem State.resetCtl_kept {s0 : State} (v : Word) (s : State) (hs : Kept s0 s) :
    Kept s0 (State.resetCtl v s) := by
  unfold State.resetCtl
  repeat' with_reducible first | assumption | (intro _) | apply State.prsFault_kept | apply State.plan_kept | apply State.resetDomains_kept | apply ite_kept

theorem State.clearDie_kept {s0 : State} (keepLink : Bool) (s : State) (hs : Kept s0 s) :
    Kept s0 (State.clearDie keepLink s) := by
  unfold State.clearDie
  repeat' with_reducible first | assumption | (intro _) | apply State.orphan_kept | apply State.keepOrSafe_kept | apply State.onHre_kept | apply State.onLsb_kept | apply State.onPrs_kept | apply State.onMpg_kept | apply State.onPse_kept | apply State.onEsc_kept | apply State.onGle_kept | apply State.onFlp_kept | apply State.onGnb_kept | apply State.ringNoTime_kept | apply State.gnssNoTime_kept | apply State.onLca_kept | apply State.onRge_kept | apply State.onFbu_kept | apply State.onDlk_kept | apply State.onPrs_kept | apply ite_kept | apply ite_kept2 | apply foldl_kept

theorem State.dieReset_kept {s0 : State} (cause : Nat) (s : State) (hs : Kept s0 s) :
    Kept s0 (State.dieReset cause s) := by
  unfold State.dieReset
  repeat' with_reducible first | assumption | (intro _) | apply State.putReady_kept | apply State.clearReady_kept | apply State.raise_kept | apply State.onPrs_kept | apply State.setWard_kept | apply State.record_kept | apply State.onIcu_kept | apply State.clearDie_kept | apply ite_kept

theorem State.beginPlanned_kept {s0 : State} (p : Planned) (s : State) (hs : Kept s0 s) :
    Kept s0 (State.beginPlanned p s) := by
  unfold State.beginPlanned
  repeat' with_reducible first | assumption | (intro _) | apply State.onPrs_kept | apply State.resetDomains_kept | apply State.dieReset_kept | apply ite_kept

theorem State.rootClock_kept {s0 : State} (s : State) (hs : Kept s0 s) :
    Kept s0 (State.rootClock s) := by
  unfold State.rootClock
  repeat' with_reducible first | assumption | (intro _) | apply State.onTbu_kept | apply State.enterFreerun_kept | apply State.dieReset_kept | apply State.onPrs_kept | apply ite_kept | apply ite_kept2 | apply foldl_kept | apply foldl_kept2 | apply foldr_kept | dsimp only

theorem State.dieTemp_kept {s0 : State} (celsius : Int) (s : State) (hs : Kept s0 s) :
    Kept s0 (State.dieTemp celsius s) := by
  unfold State.dieTemp
  repeat' with_reducible first | assumption | (intro _) | apply State.onPrs_kept | apply State.prsFault_kept | apply ite_kept



theorem State.release_kept {s0 : State} (svcJ : Bool) (s : State) (hs : Kept s0 s) :
    Kept s0 (State.release svcJ s) := by
  unfold State.release
  repeat' with_reducible first | assumption | (intro _) | apply State.onPrs_kept





theorem State.powerFail_kept {s0 : State} (s : State) (hs : Kept s0 s) :
    Kept s0 (State.powerFail s) := by
  unfold State.powerFail
  repeat' with_reducible first | assumption | (intro _) | apply State.onPrs_kept | apply State.persistOptime_kept | apply State.nextStaged_kept | apply State.commitRec_kept | apply State.raise_kept | apply ite_kept | apply ite_kept2 | apply foldl_kept | apply foldl_kept2 | apply foldr_kept | dsimp only | rfl | exact Tbu.locked_tick _ _ _ _ | exact Tbu.locked_wall _ _ _ _ | exact Tbu.rebase_tick _ _ | exact Tbu.rebase_wall _ _ | split

theorem State.lsbStarts_kept {s0 : State} (s : State) (hs : Kept s0 s) :
    Kept s0 (State.lsbStarts s) := by
  unfold State.lsbStarts
  repeat' with_reducible first | assumption | (intro _) | apply State.chanBack_kept | apply ite_kept | apply ite_kept2 | apply foldl_kept

theorem State.gnbStarts_kept {s0 : State} (s : State) (hs : Kept s0 s) :
    Kept s0 (State.gnbStarts s) := by
  unfold State.gnbStarts
  repeat' with_reducible first | assumption | (intro _) | apply State.setBias_kept | apply State.armCheck_kept | apply State.onGnb_kept | apply ite_kept | apply ite_kept2 | apply foldl_kept

theorem State.functionReady_kept {s0 : State} (b : Nat) (s : State) (hs : Kept s0 s) :
    Kept s0 (State.functionReady b s) := by
  unfold State.functionReady
  repeat' with_reducible first | assumption | (intro _) | apply State.setReady_kept | apply State.onPrs_kept | apply State.onHre_kept | apply State.lsbStarts_kept | apply State.noteTargets_kept | apply State.ctlLoss_kept | apply State.poseCheck_kept | apply State.gnbStarts_kept | apply ite_kept | apply ite_kept2 | apply foldl_kept | apply foldl_kept2 | apply foldr_kept | dsimp only | rfl | exact Tbu.locked_tick _ _ _ _ | exact Tbu.locked_wall _ _ _ _ | exact Tbu.rebase_tick _ _ | exact Tbu.rebase_wall _ _ | split

theorem onArr_kept {s0 : State} (o : Nat) (base : Nat) (n : Nat) (f : Nat → State → State) (g : State → State) (s : State) (hf : ∀ y0 (s0 s : State), Kept s0 s → Kept s0 (f y0 s)) (hg : ∀ (s0 s : State), Kept s0 s → Kept s0 (g s)) (hs : Kept s0 s) :
    Kept s0 (onArr o base n f g s) := by
  unfold onArr
  repeat' with_reducible first | assumption | (intro _) | apply hf | apply hg | apply ite_kept | apply ite_kept2 | apply foldl_kept | apply foldl_kept2 | apply foldr_kept | dsimp only | rfl | exact Tbu.locked_tick _ _ _ _ | exact Tbu.locked_wall _ _ _ _ | exact Tbu.rebase_tick _ _ | exact Tbu.rebase_wall _ _ | split

theorem nothing_kept {s0 : State} (s : State) (hs : Kept s0 s) :
    Kept s0 (nothing s) := by
  unfold nothing
  repeat' with_reducible first | assumption

theorem State.writeSys_kept {s0 : State} (o : Nat) (v : Word) (s : State) (hs : Kept s0 s) :
    Kept s0 (State.writeSys o v s) := by
  unfold State.writeSys
  repeat' with_reducible first | assumption | (intro _) | apply State.onSys_kept | apply ite_kept | apply ite_kept2 | apply foldl_kept | apply foldl_kept2 | apply foldr_kept | dsimp only | rfl | exact Tbu.locked_tick _ _ _ _ | exact Tbu.locked_wall _ _ _ _ | exact Tbu.rebase_tick _ _ | exact Tbu.rebase_wall _ _ | split

theorem State.sealCfg_kept {s0 : State} (v : Word) (s : State) (hs : Kept s0 s) :
    Kept s0 (State.sealCfg v s) := by
  unfold State.sealCfg
  repeat' with_reducible first | assumption | (intro _) | apply State.warded_kept | apply State.onPrs_kept | apply State.onNv_kept | apply ite_kept | apply ite_kept2 | apply foldl_kept | apply foldl_kept2 | apply foldr_kept | dsimp only

theorem State.writePrs_kept {s0 : State} (o : Nat) (v : Word) (s : State) (hs : Kept s0 s) :
    Kept s0 (State.writePrs o v s) := by
  unfold State.writePrs
  repeat' with_reducible first | assumption | (intro _) | apply State.onPrs_kept | apply State.resetCtl_kept | apply State.domainEnWrite_kept | apply State.sealCfg_kept | apply ite_kept | apply ite_kept2 | apply foldl_kept | apply foldl_kept2 | apply foldr_kept | dsimp only | rfl | exact Tbu.locked_tick _ _ _ _ | exact Tbu.locked_wall _ _ _ _ | exact Tbu.rebase_tick _ _ | exact Tbu.rebase_wall _ _ | split

theorem State.writeTbu_kept {s0 : State} (o : Nat) (v : Word) (s : State) (hs : Kept s0 s) :
    Kept s0 (State.writeTbu o v s) := by
  unfold State.writeTbu
  repeat' with_reducible first | assumption | (intro _) | apply State.onTbu_kept | apply State.tpCfgWrite_kept | apply ite_kept | apply ite_kept2 | apply foldl_kept | apply foldl_kept2 | apply foldr_kept | dsimp only | rfl | exact Tbu.locked_tick _ _ _ _ | exact Tbu.locked_wall _ _ _ _ | exact Tbu.rebase_tick _ _ | exact Tbu.rebase_wall _ _ | split

theorem State.extCfg_kept {s0 : State} (v : Word) (s : State) (hs : Kept s0 s) :
    Kept s0 (State.extCfg v s) := by
  unfold State.extCfg
  repeat' with_reducible first | assumption | (intro _) | apply State.onIcu_kept

theorem State.maskWrite_kept {s0 : State} (w : Nat) (v : Word) (s : State) (hs : Kept s0 s) :
    Kept s0 (State.maskWrite w v s) := by
  unfold State.maskWrite
  repeat' with_reducible first | assumption | (intro _) | apply State.onSrc_kept | apply ite_kept | apply ite_kept2 | apply foldl_kept

theorem State.coalWrite_kept {s0 : State} (n : Nat) (v : Word) (s : State) (hs : Kept s0 s) :
    Kept s0 (State.coalWrite n v s) := by
  unfold State.coalWrite
  repeat' with_reducible first | assumption | (intro _) | apply State.onSrc_kept

theorem State.writeIcu_kept {s0 : State} (o : Nat) (v : Word) (s : State) (hs : Kept s0 s) :
    Kept s0 (State.writeIcu o v s) := by
  unfold State.writeIcu
  repeat' with_reducible first | assumption | (intro _) | apply State.onIcu_kept | apply State.swi_kept | apply State.extCfg_kept | apply State.recommit_kept | apply State.tgtCfgWrite_kept | apply State.eoi_kept | apply onArr_kept | apply State.pendWrite_kept | apply State.maskWrite_kept | apply State.srcCfgWrite_kept | apply State.coalWrite_kept | apply nothing_kept | apply ite_kept | apply ite_kept2 | apply foldl_kept | apply foldl_kept2 | apply foldr_kept | dsimp only | rfl | exact Tbu.locked_tick _ _ _ _ | exact Tbu.locked_wall _ _ _ _ | exact Tbu.rebase_tick _ _ | exact Tbu.rebase_wall _ _ | split

theorem State.trigWrite_kept {s0 : State} (v : Word) (s : State) (hs : Kept s0 s) :
    Kept s0 (State.trigWrite v s) := by
  unfold State.trigWrite
  repeat' with_reducible first | assumption | (intro _) | apply State.warded_kept | apply State.onEvr_kept | apply ite_kept | apply ite_kept2 | apply foldl_kept | apply foldl_kept2 | apply foldr_kept | dsimp only

theorem State.snapOfs_kept {s0 : State} (k : Nat) (v : Word) (s : State) (hs : Kept s0 s) :
    Kept s0 (State.snapOfs k v s) := by
  unfold State.snapOfs
  repeat' with_reducible first | assumption | (intro _) | apply State.warded_kept | apply State.onEvr_kept | apply ite_kept | apply ite_kept2 | apply foldl_kept | apply foldl_kept2 | apply foldr_kept | dsimp only

theorem State.writeEvr_kept {s0 : State} (o : Nat) (v : Word) (s : State) (hs : Kept s0 s) :
    Kept s0 (State.writeEvr o v s) := by
  unfold State.writeEvr
  repeat' with_reducible first | assumption | (intro _) | apply State.onEvr_kept | apply State.trigWrite_kept | apply State.snapSel_kept | apply State.snapCommit_kept | apply onArr_kept | apply State.snapOfs_kept | apply nothing_kept | apply ite_kept | apply ite_kept2 | apply foldl_kept | apply foldl_kept2 | apply foldr_kept | dsimp only | rfl | exact Tbu.locked_tick _ _ _ _ | exact Tbu.locked_wall _ _ _ _ | exact Tbu.rebase_tick _ _ | exact Tbu.rebase_wall _ _ | split

theorem State.hostLostCfg_kept {s0 : State} (v : Word) (s : State) (hs : Kept s0 s) :
    Kept s0 (State.hostLostCfg v s) := by
  unfold State.hostLostCfg
  repeat' with_reducible first | assumption | (intro _) | apply State.warded_kept | apply State.onHre_kept | apply ite_kept

theorem State.ringWrite_kept {s0 : State} (n : Nat) (o : Nat) (v : Word) (s : State) (hs : Kept s0 s) :
    Kept s0 (State.ringWrite n o v s) := by
  unfold State.ringWrite
  repeat' with_reducible first | assumption | (intro _) | apply State.onRing_kept | apply State.ringEnable_kept | apply State.ringDisable_kept | apply ite_kept | apply ite_kept2 | apply foldl_kept | apply foldl_kept2 | apply foldr_kept | dsimp only | rfl | exact Tbu.locked_tick _ _ _ _ | exact Tbu.locked_wall _ _ _ _ | exact Tbu.rebase_tick _ _ | exact Tbu.rebase_wall _ _ | split

theorem State.msixWrite_kept {s0 : State} (o : Nat) (v : Word) (s : State) (hs : Kept s0 s) :
    Kept s0 (State.msixWrite o v s) := by
  unfold State.msixWrite
  repeat' with_reducible first | assumption | (intro _) | apply State.onHre_kept | apply State.unmask_kept | apply ite_kept | apply ite_kept2 | apply foldl_kept | apply foldl_kept2 | apply foldr_kept | dsimp only | rfl | exact Tbu.locked_tick _ _ _ _ | exact Tbu.locked_wall _ _ _ _ | exact Tbu.rebase_tick _ _ | exact Tbu.rebase_wall _ _ | split

theorem State.writeHre_kept {s0 : State} (o : Nat) (v : Word) (s : State) (hs : Kept s0 s) :
    Kept s0 (State.writeHre o v s) := by
  unfold State.writeHre
  repeat' with_reducible first | assumption | (intro _) | apply State.onHre_kept | apply State.hostActivity_kept | apply State.hostLostCfg_kept | apply State.resume_kept | apply State.ringWrite_kept | apply State.msixWrite_kept | apply onArr_kept | apply nothing_kept | apply ite_kept | apply ite_kept2 | apply foldl_kept | apply foldl_kept2 | apply foldr_kept | dsimp only | rfl | exact Tbu.locked_tick _ _ _ _ | exact Tbu.locked_wall _ _ _ _ | exact Tbu.rebase_tick _ _ | exact Tbu.rebase_wall _ _ | split

theorem State.writeGle_kept {s0 : State} (o : Nat) (v : Word) (s : State) (hs : Kept s0 s) :
    Kept s0 (State.writeGle o v s) := by
  unfold State.writeGle
  repeat' with_reducible first | assumption | (intro _) | apply State.gleCtrl_kept | apply State.onGle_kept | apply State.poseCheck_kept | apply State.refreshLoad_kept | apply ite_kept | apply ite_kept2 | apply foldl_kept | apply foldl_kept2 | apply foldr_kept | dsimp only | rfl | exact Tbu.locked_tick _ _ _ _ | exact Tbu.locked_wall _ _ _ _ | exact Tbu.rebase_tick _ _ | exact Tbu.rebase_wall _ _ | split

theorem State.writeEsc_kept {s0 : State} (o : Nat) (v : Word) (s : State) (hs : Kept s0 s) :
    Kept s0 (State.writeEsc o v s) := by
  unfold State.writeEsc
  repeat' with_reducible first | assumption | (intro _) | apply State.onEsc_kept | apply ite_kept | apply ite_kept2 | apply foldl_kept | apply foldl_kept2 | apply foldr_kept | dsimp only | rfl | exact Tbu.locked_tick _ _ _ _ | exact Tbu.locked_wall _ _ _ _ | exact Tbu.rebase_tick _ _ | exact Tbu.rebase_wall _ _ | split

theorem State.writePse_kept {s0 : State} (o : Nat) (v : Word) (s : State) (hs : Kept s0 s) :
    Kept s0 (State.writePse o v s) := by
  unfold State.writePse
  repeat' with_reducible first | assumption | (intro _) | apply State.onPse_kept | apply onArr_kept | apply nothing_kept | apply ite_kept | apply ite_kept2 | apply foldl_kept | apply foldl_kept2 | apply foldr_kept | dsimp only | rfl | exact Tbu.locked_tick _ _ _ _ | exact Tbu.locked_wall _ _ _ _ | exact Tbu.rebase_tick _ _ | exact Tbu.rebase_wall _ _ | split

theorem State.domainId_kept {s0 : State} (v : Word) (s : State) (hs : Kept s0 s) :
    Kept s0 (State.domainId v s) := by
  unfold State.domainId
  repeat' with_reducible first | assumption | (intro _) | apply State.warded_kept | apply State.onMpg_kept | apply ite_kept

theorem State.writeMpg_kept {s0 : State} (o : Nat) (v : Word) (s : State) (hs : Kept s0 s) :
    Kept s0 (State.writeMpg o v s) := by
  unfold State.writeMpg
  repeat' with_reducible first | assumption | (intro _) | apply State.onMpg_kept | apply State.domainId_kept | apply onArr_kept | apply State.layerCfg_kept | apply nothing_kept | apply ite_kept | apply ite_kept2 | apply foldl_kept | apply foldl_kept2 | apply foldr_kept | dsimp only | rfl | exact Tbu.locked_tick _ _ _ _ | exact Tbu.locked_wall _ _ _ _ | exact Tbu.rebase_tick _ _ | exact Tbu.rebase_wall _ _ | split

theorem State.biasWrite_kept {s0 : State} (a : Nat) (v : Bool) (s : State) (hs : Kept s0 s) :
    Kept s0 (State.biasWrite a v s) := by
  unfold State.biasWrite
  repeat' with_reducible first | assumption | (intro _) | apply State.onGnb_kept | apply State.setBias_kept | apply ite_kept

theorem State.notchWrite_kept {s0 : State} (n : Nat) (v : Word) (s : State) (hs : Kept s0 s) :
    Kept s0 (State.notchWrite n v s) := by
  unfold State.notchWrite
  repeat' with_reducible first | assumption | (intro _) | apply State.onNotch_kept | apply State.raise_kept | apply ite_kept

theorem State.writeGnb_kept {s0 : State} (o : Nat) (v : Word) (s : State) (hs : Kept s0 s) :
    Kept s0 (State.writeGnb o v s) := by
  unfold State.writeGnb
  repeat' with_reducible first | assumption | (intro _) | apply State.onGnb_kept | apply State.biasWrite_kept | apply State.armCheck_kept | apply onArr_kept | apply State.notchWrite_kept | apply nothing_kept | apply ite_kept | apply ite_kept2 | apply foldl_kept | apply foldl_kept2 | apply foldr_kept | dsimp only | rfl | exact Tbu.locked_tick _ _ _ _ | exact Tbu.locked_wall _ _ _ _ | exact Tbu.rebase_tick _ _ | exact Tbu.rebase_wall _ _ | split

theorem State.writeFlp_kept {s0 : State} (o : Nat) (v : Word) (s : State) (hs : Kept s0 s) :
    Kept s0 (State.writeFlp o v s) := by
  unfold State.writeFlp
  repeat' with_reducible first | assumption | (intro _) | apply State.flpCtrl_kept | apply State.onFlp_kept | apply onArr_kept | apply State.onPort_kept | apply nothing_kept | apply ite_kept | apply ite_kept2 | apply foldl_kept | apply foldl_kept2 | apply foldr_kept | dsimp only | rfl | exact Tbu.locked_tick _ _ _ _ | exact Tbu.locked_wall _ _ _ _ | exact Tbu.rebase_tick _ _ | exact Tbu.rebase_wall _ _ | split

theorem State.writeDlk_kept {s0 : State} (o : Nat) (v : Word) (s : State) (hs : Kept s0 s) :
    Kept s0 (State.writeDlk o v s) := by
  unfold State.writeDlk
  repeat' with_reducible first | assumption | (intro _) | apply State.dlkCtrl_kept | apply State.onDlk_kept | apply onArr_kept | apply State.onDport_kept | apply nothing_kept | apply ite_kept | apply ite_kept2 | apply foldl_kept | apply foldl_kept2 | apply foldr_kept | dsimp only | rfl | exact Tbu.locked_tick _ _ _ _ | exact Tbu.locked_wall _ _ _ _ | exact Tbu.rebase_tick _ _ | exact Tbu.rebase_wall _ _ | split

theorem State.ambientWrite_kept {s0 : State} (v : Word) (s : State) (hs : Kept s0 s) :
    Kept s0 (State.ambientWrite v s) := by
  unfold State.ambientWrite
  repeat' with_reducible first | assumption | (intro _) | apply State.warded_kept | apply State.onNv_kept | apply State.onLsb_kept | apply ite_kept | apply ite_kept2 | apply foldl_kept | apply foldl_kept2 | apply foldr_kept | dsimp only

theorem State.chanCfg_kept {s0 : State} (n : Nat) (v : Word) (s : State) (hs : Kept s0 s) :
    Kept s0 (State.chanCfg n v s) := by
  unfold State.chanCfg
  repeat' with_reducible first | assumption | (intro _) | apply State.warded_kept | apply State.follow_kept | apply State.onNv_kept | apply ite_kept | apply ite_kept2 | apply foldl_kept | apply foldl_kept2 | apply foldr_kept | dsimp only

theorem State.chanLatch_kept {s0 : State} (n : Nat) (v : Word) (s : State) (hs : Kept s0 s) :
    Kept s0 (State.chanLatch n v s) := by
  unfold State.chanLatch
  repeat' with_reducible first | assumption | (intro _) | apply State.warded_kept | apply State.onNv_kept | apply ite_kept | apply ite_kept2 | apply foldl_kept | apply foldl_kept2 | apply foldr_kept | dsimp only

theorem State.writeLsb_kept {s0 : State} (o : Nat) (v : Word) (s : State) (hs : Kept s0 s) :
    Kept s0 (State.writeLsb o v s) := by
  unfold State.writeLsb
  repeat' with_reducible first | assumption | (intro _) | apply State.onLsb_kept | apply State.ambientWrite_kept | apply State.lsbClear_kept | apply onArr_kept | apply State.chanCfg_kept | apply State.chanLatch_kept | apply State.onChan_kept | apply nothing_kept | apply ite_kept | apply ite_kept2 | apply foldl_kept | apply foldl_kept2 | apply foldr_kept | dsimp only | rfl | exact Tbu.locked_tick _ _ _ _ | exact Tbu.locked_wall _ _ _ _ | exact Tbu.rebase_tick _ _ | exact Tbu.rebase_wall _ _ | split

theorem State.repCfg_kept {s0 : State} (r : Nat) (v : Word) (s : State) (hs : Kept s0 s) :
    Kept s0 (State.repCfg r v s) := by
  unfold State.repCfg
  repeat' with_reducible first | assumption | (intro _) | apply State.repIntegrate_kept | apply State.onRep_kept

theorem State.writeFbu_kept {s0 : State} (o : Nat) (v : Word) (s : State) (hs : Kept s0 s) :
    Kept s0 (State.writeFbu o v s) := by
  unfold State.writeFbu
  repeat' with_reducible first | assumption | (intro _) | apply State.onFbu_kept | apply onArr_kept | apply State.auxiSel_kept | apply State.auxoSel_kept | apply State.chCfg_kept | apply State.onFch_kept | apply State.cmpWrite_kept | apply State.probeCfg_kept | apply State.repCfg_kept | apply State.onRep_kept | apply State.capCfg_kept | apply State.onAin_kept | apply nothing_kept | apply ite_kept | apply ite_kept2 | apply foldl_kept | apply foldl_kept2 | apply foldr_kept | dsimp only | rfl | exact Tbu.locked_tick _ _ _ _ | exact Tbu.locked_wall _ _ _ _ | exact Tbu.rebase_tick _ _ | exact Tbu.rebase_wall _ _ | split

theorem State.ctxHeld_kept {s0 : State} (c : Nat) (f : Ctx → Ctx) (s : State) (hs : Kept s0 s) :
    Kept s0 (State.ctxHeld c f s) := by
  unfold State.ctxHeld
  repeat' with_reducible first | assumption | (intro _) | apply State.ctxFault_kept | apply State.onCtx_kept | apply ite_kept

theorem State.ctxTarget_kept {s0 : State} (c : Nat) (v : Word) (s : State) (hs : Kept s0 s) :
    Kept s0 (State.ctxTarget c v s) := by
  unfold State.ctxTarget
  repeat' with_reducible first | assumption | (intro _) | apply State.ctxFault_kept | apply State.ctxHeld_kept | apply State.noteTarget_kept | apply ite_kept

theorem State.ctxLimit_kept {s0 : State} (c : Nat) (f : Ctx → Ctx) (s : State) (hs : Kept s0 s) :
    Kept s0 (State.ctxLimit c f s) := by
  unfold State.ctxLimit
  repeat' with_reducible first | assumption | (intro _) | apply State.ctxFault_kept | apply State.onCtx_kept | apply ite_kept

theorem State.ctxSafe_kept {s0 : State} (c : Nat) (v : Word) (s : State) (hs : Kept s0 s) :
    Kept s0 (State.ctxSafe c v s) := by
  unfold State.ctxSafe
  repeat' with_reducible first | assumption | (intro _) | apply State.warded_kept | apply State.driveSafe_kept | apply State.onNv_kept | apply ite_kept | apply ite_kept2 | apply foldl_kept | apply foldl_kept2 | apply foldr_kept | dsimp only

theorem State.ctxWrite_kept {s0 : State} (c : Nat) (o : Nat) (v : Word) (s : State) (hs : Kept s0 s) :
    Kept s0 (State.ctxWrite c o v s) := by
  unfold State.ctxWrite
  repeat' with_reducible first | assumption | (intro _) | apply State.ctxCfg_kept | apply State.ctxHeld_kept | apply State.ctxTarget_kept | apply State.ctxLimit_kept | apply State.ctxSafe_kept | apply State.onCtx_kept | apply ite_kept | apply ite_kept2 | apply foldl_kept | apply foldl_kept2 | apply foldr_kept | dsimp only | rfl | exact Tbu.locked_tick _ _ _ _ | exact Tbu.locked_wall _ _ _ _ | exact Tbu.rebase_tick _ _ | exact Tbu.rebase_wall _ _ | split

theorem State.writeRge_kept {s0 : State} (o : Nat) (v : Word) (s : State) (hs : Kept s0 s) :
    Kept s0 (State.writeRge o v s) := by
  unfold State.writeRge
  repeat' with_reducible first | assumption | (intro _) | apply State.onRge_kept | apply State.ctxWrite_kept | apply ite_kept | apply ite_kept2 | apply foldl_kept | apply foldl_kept2 | apply foldr_kept | dsimp only | rfl | exact Tbu.locked_tick _ _ _ _ | exact Tbu.locked_wall _ _ _ _ | exact Tbu.rebase_tick _ _ | exact Tbu.rebase_wall _ _ | split

theorem State.writeLca_kept {s0 : State} (o : Nat) (v : Word) (s : State) (hs : Kept s0 s) :
    Kept s0 (State.writeLca o v s) := by
  unfold State.writeLca
  repeat' with_reducible first | assumption | (intro _) | apply State.onLca_kept | apply ite_kept | apply ite_kept2 | apply foldl_kept | apply foldl_kept2 | apply foldr_kept | dsimp only | rfl | exact Tbu.locked_tick _ _ _ _ | exact Tbu.locked_wall _ _ _ _ | exact Tbu.rebase_tick _ _ | exact Tbu.rebase_wall _ _ | split

theorem State.regWrite_kept {s0 : State} (o : Nat) (v : Word) (s : State) (hs : Kept s0 s) :
    Kept s0 (State.regWrite o v s) := by
  unfold State.regWrite
  repeat' with_reducible first | assumption | (intro _) | apply State.writeSys_kept | apply State.writePrs_kept | apply State.writeTbu_kept | apply State.writeIcu_kept | apply State.writeEvr_kept | apply State.writeHre_kept | apply State.writeGle_kept | apply State.writeEsc_kept | apply State.writeMpg_kept | apply State.writePse_kept | apply State.writeGnb_kept | apply State.writeFlp_kept | apply State.writeDlk_kept | apply State.writeLsb_kept | apply State.writeFbu_kept | apply State.writeRge_kept | apply State.writeLca_kept | apply ite_kept

end Sys2Proof.Machine
end

