-- ==== Sys2Proof/Laws/State.lean ====
section
/-! SUPPORT. What each update of a part of State leaves and changes: one lemma per field per update, all true by unfolding. -/

namespace Sys2Proof.Machine

variable (s : State)

/-! ### onSys -/

@[simp] theorem State.onSys_pending (f : SysRegs → SysRegs) : (s.onSys f).pending = s.pending := rfl
@[simp] theorem State.onSys_sys (f : SysRegs → SysRegs) : (s.onSys f).sys = f s.sys := rfl
@[simp] theorem State.onSys_nv (f : SysRegs → SysRegs) : (s.onSys f).nv = s.nv := rfl
@[simp] theorem State.onSys_out (f : SysRegs → SysRegs) : (s.onSys f).out = s.out := rfl
@[simp] theorem State.onSys_prs (f : SysRegs → SysRegs) : (s.onSys f).prs = s.prs := rfl
@[simp] theorem State.onSys_tbu (f : SysRegs → SysRegs) : (s.onSys f).tbu = s.tbu := rfl
@[simp] theorem State.onSys_icu (f : SysRegs → SysRegs) : (s.onSys f).icu = s.icu := rfl
@[simp] theorem State.onSys_evr (f : SysRegs → SysRegs) : (s.onSys f).evr = s.evr := rfl
@[simp] theorem State.onSys_hre (f : SysRegs → SysRegs) : (s.onSys f).hre = s.hre := rfl
@[simp] theorem State.onSys_gle (f : SysRegs → SysRegs) : (s.onSys f).gle = s.gle := rfl
@[simp] theorem State.onSys_esc (f : SysRegs → SysRegs) : (s.onSys f).esc = s.esc := rfl
@[simp] theorem State.onSys_mpg (f : SysRegs → SysRegs) : (s.onSys f).mpg = s.mpg := rfl
@[simp] theorem State.onSys_pse (f : SysRegs → SysRegs) : (s.onSys f).pse = s.pse := rfl
@[simp] theorem State.onSys_gnb (f : SysRegs → SysRegs) : (s.onSys f).gnb = s.gnb := rfl
@[simp] theorem State.onSys_flp (f : SysRegs → SysRegs) : (s.onSys f).flp = s.flp := rfl
@[simp] theorem State.onSys_dlk (f : SysRegs → SysRegs) : (s.onSys f).dlk = s.dlk := rfl
@[simp] theorem State.onSys_lsb (f : SysRegs → SysRegs) : (s.onSys f).lsb = s.lsb := rfl
@[simp] theorem State.onSys_fbu (f : SysRegs → SysRegs) : (s.onSys f).fbu = s.fbu := rfl
@[simp] theorem State.onSys_rge (f : SysRegs → SysRegs) : (s.onSys f).rge = s.rge := rfl
@[simp] theorem State.onSys_lca (f : SysRegs → SysRegs) : (s.onSys f).lca = s.lca := rfl

/-! ### onNv -/

@[simp] theorem State.onNv_pending (f : Nv → Nv) : (s.onNv f).pending = s.pending := rfl
@[simp] theorem State.onNv_sys (f : Nv → Nv) : (s.onNv f).sys = s.sys := rfl
@[simp] theorem State.onNv_nv (f : Nv → Nv) : (s.onNv f).nv = f s.nv := rfl
@[simp] theorem State.onNv_out (f : Nv → Nv) : (s.onNv f).out = s.out := rfl
@[simp] theorem State.onNv_prs (f : Nv → Nv) : (s.onNv f).prs = s.prs := rfl
@[simp] theorem State.onNv_tbu (f : Nv → Nv) : (s.onNv f).tbu = s.tbu := rfl
@[simp] theorem State.onNv_icu (f : Nv → Nv) : (s.onNv f).icu = s.icu := rfl
@[simp] theorem State.onNv_evr (f : Nv → Nv) : (s.onNv f).evr = s.evr := rfl
@[simp] theorem State.onNv_hre (f : Nv → Nv) : (s.onNv f).hre = s.hre := rfl
@[simp] theorem State.onNv_gle (f : Nv → Nv) : (s.onNv f).gle = s.gle := rfl
@[simp] theorem State.onNv_esc (f : Nv → Nv) : (s.onNv f).esc = s.esc := rfl
@[simp] theorem State.onNv_mpg (f : Nv → Nv) : (s.onNv f).mpg = s.mpg := rfl
@[simp] theorem State.onNv_pse (f : Nv → Nv) : (s.onNv f).pse = s.pse := rfl
@[simp] theorem State.onNv_gnb (f : Nv → Nv) : (s.onNv f).gnb = s.gnb := rfl
@[simp] theorem State.onNv_flp (f : Nv → Nv) : (s.onNv f).flp = s.flp := rfl
@[simp] theorem State.onNv_dlk (f : Nv → Nv) : (s.onNv f).dlk = s.dlk := rfl
@[simp] theorem State.onNv_lsb (f : Nv → Nv) : (s.onNv f).lsb = s.lsb := rfl
@[simp] theorem State.onNv_fbu (f : Nv → Nv) : (s.onNv f).fbu = s.fbu := rfl
@[simp] theorem State.onNv_rge (f : Nv → Nv) : (s.onNv f).rge = s.rge := rfl
@[simp] theorem State.onNv_lca (f : Nv → Nv) : (s.onNv f).lca = s.lca := rfl

/-! ### onOut -/

@[simp] theorem State.onOut_pending (f : Out → Out) : (s.onOut f).pending = s.pending := rfl
@[simp] theorem State.onOut_sys (f : Out → Out) : (s.onOut f).sys = s.sys := rfl
@[simp] theorem State.onOut_nv (f : Out → Out) : (s.onOut f).nv = s.nv := rfl
@[simp] theorem State.onOut_out (f : Out → Out) : (s.onOut f).out = f s.out := rfl
@[simp] theorem State.onOut_prs (f : Out → Out) : (s.onOut f).prs = s.prs := rfl
@[simp] theorem State.onOut_tbu (f : Out → Out) : (s.onOut f).tbu = s.tbu := rfl
@[simp] theorem State.onOut_icu (f : Out → Out) : (s.onOut f).icu = s.icu := rfl
@[simp] theorem State.onOut_evr (f : Out → Out) : (s.onOut f).evr = s.evr := rfl
@[simp] theorem State.onOut_hre (f : Out → Out) : (s.onOut f).hre = s.hre := rfl
@[simp] theorem State.onOut_gle (f : Out → Out) : (s.onOut f).gle = s.gle := rfl
@[simp] theorem State.onOut_esc (f : Out → Out) : (s.onOut f).esc = s.esc := rfl
@[simp] theorem State.onOut_mpg (f : Out → Out) : (s.onOut f).mpg = s.mpg := rfl
@[simp] theorem State.onOut_pse (f : Out → Out) : (s.onOut f).pse = s.pse := rfl
@[simp] theorem State.onOut_gnb (f : Out → Out) : (s.onOut f).gnb = s.gnb := rfl
@[simp] theorem State.onOut_flp (f : Out → Out) : (s.onOut f).flp = s.flp := rfl
@[simp] theorem State.onOut_dlk (f : Out → Out) : (s.onOut f).dlk = s.dlk := rfl
@[simp] theorem State.onOut_lsb (f : Out → Out) : (s.onOut f).lsb = s.lsb := rfl
@[simp] theorem State.onOut_fbu (f : Out → Out) : (s.onOut f).fbu = s.fbu := rfl
@[simp] theorem State.onOut_rge (f : Out → Out) : (s.onOut f).rge = s.rge := rfl
@[simp] theorem State.onOut_lca (f : Out → Out) : (s.onOut f).lca = s.lca := rfl

/-! ### onPrs -/

@[simp] theorem State.onPrs_pending (f : Prs → Prs) : (s.onPrs f).pending = s.pending := rfl
@[simp] theorem State.onPrs_sys (f : Prs → Prs) : (s.onPrs f).sys = s.sys := rfl
@[simp] theorem State.onPrs_nv (f : Prs → Prs) : (s.onPrs f).nv = s.nv := rfl
@[simp] theorem State.onPrs_out (f : Prs → Prs) : (s.onPrs f).out = s.out := rfl
@[simp] theorem State.onPrs_prs (f : Prs → Prs) : (s.onPrs f).prs = f s.prs := rfl
@[simp] theorem State.onPrs_tbu (f : Prs → Prs) : (s.onPrs f).tbu = s.tbu := rfl
@[simp] theorem State.onPrs_icu (f : Prs → Prs) : (s.onPrs f).icu = s.icu := rfl
@[simp] theorem State.onPrs_evr (f : Prs → Prs) : (s.onPrs f).evr = s.evr := rfl
@[simp] theorem State.onPrs_hre (f : Prs → Prs) : (s.onPrs f).hre = s.hre := rfl
@[simp] theorem State.onPrs_gle (f : Prs → Prs) : (s.onPrs f).gle = s.gle := rfl
@[simp] theorem State.onPrs_esc (f : Prs → Prs) : (s.onPrs f).esc = s.esc := rfl
@[simp] theorem State.onPrs_mpg (f : Prs → Prs) : (s.onPrs f).mpg = s.mpg := rfl
@[simp] theorem State.onPrs_pse (f : Prs → Prs) : (s.onPrs f).pse = s.pse := rfl
@[simp] theorem State.onPrs_gnb (f : Prs → Prs) : (s.onPrs f).gnb = s.gnb := rfl
@[simp] theorem State.onPrs_flp (f : Prs → Prs) : (s.onPrs f).flp = s.flp := rfl
@[simp] theorem State.onPrs_dlk (f : Prs → Prs) : (s.onPrs f).dlk = s.dlk := rfl
@[simp] theorem State.onPrs_lsb (f : Prs → Prs) : (s.onPrs f).lsb = s.lsb := rfl
@[simp] theorem State.onPrs_fbu (f : Prs → Prs) : (s.onPrs f).fbu = s.fbu := rfl
@[simp] theorem State.onPrs_rge (f : Prs → Prs) : (s.onPrs f).rge = s.rge := rfl
@[simp] theorem State.onPrs_lca (f : Prs → Prs) : (s.onPrs f).lca = s.lca := rfl

/-! ### onTbu -/

@[simp] theorem State.onTbu_pending (f : Tbu → Tbu) : (s.onTbu f).pending = s.pending := rfl
@[simp] theorem State.onTbu_sys (f : Tbu → Tbu) : (s.onTbu f).sys = s.sys := rfl
@[simp] theorem State.onTbu_nv (f : Tbu → Tbu) : (s.onTbu f).nv = s.nv := rfl
@[simp] theorem State.onTbu_out (f : Tbu → Tbu) : (s.onTbu f).out = s.out := rfl
@[simp] theorem State.onTbu_prs (f : Tbu → Tbu) : (s.onTbu f).prs = s.prs := rfl
@[simp] theorem State.onTbu_tbu (f : Tbu → Tbu) : (s.onTbu f).tbu = f s.tbu := rfl
@[simp] theorem State.onTbu_icu (f : Tbu → Tbu) : (s.onTbu f).icu = s.icu := rfl
@[simp] theorem State.onTbu_evr (f : Tbu → Tbu) : (s.onTbu f).evr = s.evr := rfl
@[simp] theorem State.onTbu_hre (f : Tbu → Tbu) : (s.onTbu f).hre = s.hre := rfl
@[simp] theorem State.onTbu_gle (f : Tbu → Tbu) : (s.onTbu f).gle = s.gle := rfl
@[simp] theorem State.onTbu_esc (f : Tbu → Tbu) : (s.onTbu f).esc = s.esc := rfl
@[simp] theorem State.onTbu_mpg (f : Tbu → Tbu) : (s.onTbu f).mpg = s.mpg := rfl
@[simp] theorem State.onTbu_pse (f : Tbu → Tbu) : (s.onTbu f).pse = s.pse := rfl
@[simp] theorem State.onTbu_gnb (f : Tbu → Tbu) : (s.onTbu f).gnb = s.gnb := rfl
@[simp] theorem State.onTbu_flp (f : Tbu → Tbu) : (s.onTbu f).flp = s.flp := rfl
@[simp] theorem State.onTbu_dlk (f : Tbu → Tbu) : (s.onTbu f).dlk = s.dlk := rfl
@[simp] theorem State.onTbu_lsb (f : Tbu → Tbu) : (s.onTbu f).lsb = s.lsb := rfl
@[simp] theorem State.onTbu_fbu (f : Tbu → Tbu) : (s.onTbu f).fbu = s.fbu := rfl
@[simp] theorem State.onTbu_rge (f : Tbu → Tbu) : (s.onTbu f).rge = s.rge := rfl
@[simp] theorem State.onTbu_lca (f : Tbu → Tbu) : (s.onTbu f).lca = s.lca := rfl

/-! ### onIcu -/

@[simp] theorem State.onIcu_pending (f : Icu → Icu) : (s.onIcu f).pending = s.pending := rfl
@[simp] theorem State.onIcu_sys (f : Icu → Icu) : (s.onIcu f).sys = s.sys := rfl
@[simp] theorem State.onIcu_nv (f : Icu → Icu) : (s.onIcu f).nv = s.nv := rfl
@[simp] theorem State.onIcu_out (f : Icu → Icu) : (s.onIcu f).out = s.out := rfl
@[simp] theorem State.onIcu_prs (f : Icu → Icu) : (s.onIcu f).prs = s.prs := rfl
@[simp] theorem State.onIcu_tbu (f : Icu → Icu) : (s.onIcu f).tbu = s.tbu := rfl
@[simp] theorem State.onIcu_icu (f : Icu → Icu) : (s.onIcu f).icu = f s.icu := rfl
@[simp] theorem State.onIcu_evr (f : Icu → Icu) : (s.onIcu f).evr = s.evr := rfl
@[simp] theorem State.onIcu_hre (f : Icu → Icu) : (s.onIcu f).hre = s.hre := rfl
@[simp] theorem State.onIcu_gle (f : Icu → Icu) : (s.onIcu f).gle = s.gle := rfl
@[simp] theorem State.onIcu_esc (f : Icu → Icu) : (s.onIcu f).esc = s.esc := rfl
@[simp] theorem State.onIcu_mpg (f : Icu → Icu) : (s.onIcu f).mpg = s.mpg := rfl
@[simp] theorem State.onIcu_pse (f : Icu → Icu) : (s.onIcu f).pse = s.pse := rfl
@[simp] theorem State.onIcu_gnb (f : Icu → Icu) : (s.onIcu f).gnb = s.gnb := rfl
@[simp] theorem State.onIcu_flp (f : Icu → Icu) : (s.onIcu f).flp = s.flp := rfl
@[simp] theorem State.onIcu_dlk (f : Icu → Icu) : (s.onIcu f).dlk = s.dlk := rfl
@[simp] theorem State.onIcu_lsb (f : Icu → Icu) : (s.onIcu f).lsb = s.lsb := rfl
@[simp] theorem State.onIcu_fbu (f : Icu → Icu) : (s.onIcu f).fbu = s.fbu := rfl
@[simp] theorem State.onIcu_rge (f : Icu → Icu) : (s.onIcu f).rge = s.rge := rfl
@[simp] theorem State.onIcu_lca (f : Icu → Icu) : (s.onIcu f).lca = s.lca := rfl

/-! ### onEvr -/

@[simp] theorem State.onEvr_pending (f : Evr → Evr) : (s.onEvr f).pending = s.pending := rfl
@[simp] theorem State.onEvr_sys (f : Evr → Evr) : (s.onEvr f).sys = s.sys := rfl
@[simp] theorem State.onEvr_nv (f : Evr → Evr) : (s.onEvr f).nv = s.nv := rfl
@[simp] theorem State.onEvr_out (f : Evr → Evr) : (s.onEvr f).out = s.out := rfl
@[simp] theorem State.onEvr_prs (f : Evr → Evr) : (s.onEvr f).prs = s.prs := rfl
@[simp] theorem State.onEvr_tbu (f : Evr → Evr) : (s.onEvr f).tbu = s.tbu := rfl
@[simp] theorem State.onEvr_icu (f : Evr → Evr) : (s.onEvr f).icu = s.icu := rfl
@[simp] theorem State.onEvr_evr (f : Evr → Evr) : (s.onEvr f).evr = f s.evr := rfl
@[simp] theorem State.onEvr_hre (f : Evr → Evr) : (s.onEvr f).hre = s.hre := rfl
@[simp] theorem State.onEvr_gle (f : Evr → Evr) : (s.onEvr f).gle = s.gle := rfl
@[simp] theorem State.onEvr_esc (f : Evr → Evr) : (s.onEvr f).esc = s.esc := rfl
@[simp] theorem State.onEvr_mpg (f : Evr → Evr) : (s.onEvr f).mpg = s.mpg := rfl
@[simp] theorem State.onEvr_pse (f : Evr → Evr) : (s.onEvr f).pse = s.pse := rfl
@[simp] theorem State.onEvr_gnb (f : Evr → Evr) : (s.onEvr f).gnb = s.gnb := rfl
@[simp] theorem State.onEvr_flp (f : Evr → Evr) : (s.onEvr f).flp = s.flp := rfl
@[simp] theorem State.onEvr_dlk (f : Evr → Evr) : (s.onEvr f).dlk = s.dlk := rfl
@[simp] theorem State.onEvr_lsb (f : Evr → Evr) : (s.onEvr f).lsb = s.lsb := rfl
@[simp] theorem State.onEvr_fbu (f : Evr → Evr) : (s.onEvr f).fbu = s.fbu := rfl
@[simp] theorem State.onEvr_rge (f : Evr → Evr) : (s.onEvr f).rge = s.rge := rfl
@[simp] theorem State.onEvr_lca (f : Evr → Evr) : (s.onEvr f).lca = s.lca := rfl

/-! ### onHre -/

@[simp] theorem State.onHre_pending (f : Hre → Hre) : (s.onHre f).pending = s.pending := rfl
@[simp] theorem State.onHre_sys (f : Hre → Hre) : (s.onHre f).sys = s.sys := rfl
@[simp] theorem State.onHre_nv (f : Hre → Hre) : (s.onHre f).nv = s.nv := rfl
@[simp] theorem State.onHre_out (f : Hre → Hre) : (s.onHre f).out = s.out := rfl
@[simp] theorem State.onHre_prs (f : Hre → Hre) : (s.onHre f).prs = s.prs := rfl
@[simp] theorem State.onHre_tbu (f : Hre → Hre) : (s.onHre f).tbu = s.tbu := rfl
@[simp] theorem State.onHre_icu (f : Hre → Hre) : (s.onHre f).icu = s.icu := rfl
@[simp] theorem State.onHre_evr (f : Hre → Hre) : (s.onHre f).evr = s.evr := rfl
@[simp] theorem State.onHre_hre (f : Hre → Hre) : (s.onHre f).hre = f s.hre := rfl
@[simp] theorem State.onHre_gle (f : Hre → Hre) : (s.onHre f).gle = s.gle := rfl
@[simp] theorem State.onHre_esc (f : Hre → Hre) : (s.onHre f).esc = s.esc := rfl
@[simp] theorem State.onHre_mpg (f : Hre → Hre) : (s.onHre f).mpg = s.mpg := rfl
@[simp] theorem State.onHre_pse (f : Hre → Hre) : (s.onHre f).pse = s.pse := rfl
@[simp] theorem State.onHre_gnb (f : Hre → Hre) : (s.onHre f).gnb = s.gnb := rfl
@[simp] theorem State.onHre_flp (f : Hre → Hre) : (s.onHre f).flp = s.flp := rfl
@[simp] theorem State.onHre_dlk (f : Hre → Hre) : (s.onHre f).dlk = s.dlk := rfl
@[simp] theorem State.onHre_lsb (f : Hre → Hre) : (s.onHre f).lsb = s.lsb := rfl
@[simp] theorem State.onHre_fbu (f : Hre → Hre) : (s.onHre f).fbu = s.fbu := rfl
@[simp] theorem State.onHre_rge (f : Hre → Hre) : (s.onHre f).rge = s.rge := rfl
@[simp] theorem State.onHre_lca (f : Hre → Hre) : (s.onHre f).lca = s.lca := rfl

/-! ### onGle -/

@[simp] theorem State.onGle_pending (f : Gle → Gle) : (s.onGle f).pending = s.pending := rfl
@[simp] theorem State.onGle_sys (f : Gle → Gle) : (s.onGle f).sys = s.sys := rfl
@[simp] theorem State.onGle_nv (f : Gle → Gle) : (s.onGle f).nv = s.nv := rfl
@[simp] theorem State.onGle_out (f : Gle → Gle) : (s.onGle f).out = s.out := rfl
@[simp] theorem State.onGle_prs (f : Gle → Gle) : (s.onGle f).prs = s.prs := rfl
@[simp] theorem State.onGle_tbu (f : Gle → Gle) : (s.onGle f).tbu = s.tbu := rfl
@[simp] theorem State.onGle_icu (f : Gle → Gle) : (s.onGle f).icu = s.icu := rfl
@[simp] theorem State.onGle_evr (f : Gle → Gle) : (s.onGle f).evr = s.evr := rfl
@[simp] theorem State.onGle_hre (f : Gle → Gle) : (s.onGle f).hre = s.hre := rfl
@[simp] theorem State.onGle_gle (f : Gle → Gle) : (s.onGle f).gle = f s.gle := rfl
@[simp] theorem State.onGle_esc (f : Gle → Gle) : (s.onGle f).esc = s.esc := rfl
@[simp] theorem State.onGle_mpg (f : Gle → Gle) : (s.onGle f).mpg = s.mpg := rfl
@[simp] theorem State.onGle_pse (f : Gle → Gle) : (s.onGle f).pse = s.pse := rfl
@[simp] theorem State.onGle_gnb (f : Gle → Gle) : (s.onGle f).gnb = s.gnb := rfl
@[simp] theorem State.onGle_flp (f : Gle → Gle) : (s.onGle f).flp = s.flp := rfl
@[simp] theorem State.onGle_dlk (f : Gle → Gle) : (s.onGle f).dlk = s.dlk := rfl
@[simp] theorem State.onGle_lsb (f : Gle → Gle) : (s.onGle f).lsb = s.lsb := rfl
@[simp] theorem State.onGle_fbu (f : Gle → Gle) : (s.onGle f).fbu = s.fbu := rfl
@[simp] theorem State.onGle_rge (f : Gle → Gle) : (s.onGle f).rge = s.rge := rfl
@[simp] theorem State.onGle_lca (f : Gle → Gle) : (s.onGle f).lca = s.lca := rfl

/-! ### onEsc -/

@[simp] theorem State.onEsc_pending (f : Esc → Esc) : (s.onEsc f).pending = s.pending := rfl
@[simp] theorem State.onEsc_sys (f : Esc → Esc) : (s.onEsc f).sys = s.sys := rfl
@[simp] theorem State.onEsc_nv (f : Esc → Esc) : (s.onEsc f).nv = s.nv := rfl
@[simp] theorem State.onEsc_out (f : Esc → Esc) : (s.onEsc f).out = s.out := rfl
@[simp] theorem State.onEsc_prs (f : Esc → Esc) : (s.onEsc f).prs = s.prs := rfl
@[simp] theorem State.onEsc_tbu (f : Esc → Esc) : (s.onEsc f).tbu = s.tbu := rfl
@[simp] theorem State.onEsc_icu (f : Esc → Esc) : (s.onEsc f).icu = s.icu := rfl
@[simp] theorem State.onEsc_evr (f : Esc → Esc) : (s.onEsc f).evr = s.evr := rfl
@[simp] theorem State.onEsc_hre (f : Esc → Esc) : (s.onEsc f).hre = s.hre := rfl
@[simp] theorem State.onEsc_gle (f : Esc → Esc) : (s.onEsc f).gle = s.gle := rfl
@[simp] theorem State.onEsc_esc (f : Esc → Esc) : (s.onEsc f).esc = f s.esc := rfl
@[simp] theorem State.onEsc_mpg (f : Esc → Esc) : (s.onEsc f).mpg = s.mpg := rfl
@[simp] theorem State.onEsc_pse (f : Esc → Esc) : (s.onEsc f).pse = s.pse := rfl
@[simp] theorem State.onEsc_gnb (f : Esc → Esc) : (s.onEsc f).gnb = s.gnb := rfl
@[simp] theorem State.onEsc_flp (f : Esc → Esc) : (s.onEsc f).flp = s.flp := rfl
@[simp] theorem State.onEsc_dlk (f : Esc → Esc) : (s.onEsc f).dlk = s.dlk := rfl
@[simp] theorem State.onEsc_lsb (f : Esc → Esc) : (s.onEsc f).lsb = s.lsb := rfl
@[simp] theorem State.onEsc_fbu (f : Esc → Esc) : (s.onEsc f).fbu = s.fbu := rfl
@[simp] theorem State.onEsc_rge (f : Esc → Esc) : (s.onEsc f).rge = s.rge := rfl
@[simp] theorem State.onEsc_lca (f : Esc → Esc) : (s.onEsc f).lca = s.lca := rfl

/-! ### onMpg -/

@[simp] theorem State.onMpg_pending (f : Mpg → Mpg) : (s.onMpg f).pending = s.pending := rfl
@[simp] theorem State.onMpg_sys (f : Mpg → Mpg) : (s.onMpg f).sys = s.sys := rfl
@[simp] theorem State.onMpg_nv (f : Mpg → Mpg) : (s.onMpg f).nv = s.nv := rfl
@[simp] theorem State.onMpg_out (f : Mpg → Mpg) : (s.onMpg f).out = s.out := rfl
@[simp] theorem State.onMpg_prs (f : Mpg → Mpg) : (s.onMpg f).prs = s.prs := rfl
@[simp] theorem State.onMpg_tbu (f : Mpg → Mpg) : (s.onMpg f).tbu = s.tbu := rfl
@[simp] theorem State.onMpg_icu (f : Mpg → Mpg) : (s.onMpg f).icu = s.icu := rfl
@[simp] theorem State.onMpg_evr (f : Mpg → Mpg) : (s.onMpg f).evr = s.evr := rfl
@[simp] theorem State.onMpg_hre (f : Mpg → Mpg) : (s.onMpg f).hre = s.hre := rfl
@[simp] theorem State.onMpg_gle (f : Mpg → Mpg) : (s.onMpg f).gle = s.gle := rfl
@[simp] theorem State.onMpg_esc (f : Mpg → Mpg) : (s.onMpg f).esc = s.esc := rfl
@[simp] theorem State.onMpg_mpg (f : Mpg → Mpg) : (s.onMpg f).mpg = f s.mpg := rfl
@[simp] theorem State.onMpg_pse (f : Mpg → Mpg) : (s.onMpg f).pse = s.pse := rfl
@[simp] theorem State.onMpg_gnb (f : Mpg → Mpg) : (s.onMpg f).gnb = s.gnb := rfl
@[simp] theorem State.onMpg_flp (f : Mpg → Mpg) : (s.onMpg f).flp = s.flp := rfl
@[simp] theorem State.onMpg_dlk (f : Mpg → Mpg) : (s.onMpg f).dlk = s.dlk := rfl
@[simp] theorem State.onMpg_lsb (f : Mpg → Mpg) : (s.onMpg f).lsb = s.lsb := rfl
@[simp] theorem State.onMpg_fbu (f : Mpg → Mpg) : (s.onMpg f).fbu = s.fbu := rfl
@[simp] theorem State.onMpg_rge (f : Mpg → Mpg) : (s.onMpg f).rge = s.rge := rfl
@[simp] theorem State.onMpg_lca (f : Mpg → Mpg) : (s.onMpg f).lca = s.lca := rfl

/-! ### onPse -/

@[simp] theorem State.onPse_pending (f : Pse → Pse) : (s.onPse f).pending = s.pending := rfl
@[simp] theorem State.onPse_sys (f : Pse → Pse) : (s.onPse f).sys = s.sys := rfl
@[simp] theorem State.onPse_nv (f : Pse → Pse) : (s.onPse f).nv = s.nv := rfl
@[simp] theorem State.onPse_out (f : Pse → Pse) : (s.onPse f).out = s.out := rfl
@[simp] theorem State.onPse_prs (f : Pse → Pse) : (s.onPse f).prs = s.prs := rfl
@[simp] theorem State.onPse_tbu (f : Pse → Pse) : (s.onPse f).tbu = s.tbu := rfl
@[simp] theorem State.onPse_icu (f : Pse → Pse) : (s.onPse f).icu = s.icu := rfl
@[simp] theorem State.onPse_evr (f : Pse → Pse) : (s.onPse f).evr = s.evr := rfl
@[simp] theorem State.onPse_hre (f : Pse → Pse) : (s.onPse f).hre = s.hre := rfl
@[simp] theorem State.onPse_gle (f : Pse → Pse) : (s.onPse f).gle = s.gle := rfl
@[simp] theorem State.onPse_esc (f : Pse → Pse) : (s.onPse f).esc = s.esc := rfl
@[simp] theorem State.onPse_mpg (f : Pse → Pse) : (s.onPse f).mpg = s.mpg := rfl
@[simp] theorem State.onPse_pse (f : Pse → Pse) : (s.onPse f).pse = f s.pse := rfl
@[simp] theorem State.onPse_gnb (f : Pse → Pse) : (s.onPse f).gnb = s.gnb := rfl
@[simp] theorem State.onPse_flp (f : Pse → Pse) : (s.onPse f).flp = s.flp := rfl
@[simp] theorem State.onPse_dlk (f : Pse → Pse) : (s.onPse f).dlk = s.dlk := rfl
@[simp] theorem State.onPse_lsb (f : Pse → Pse) : (s.onPse f).lsb = s.lsb := rfl
@[simp] theorem State.onPse_fbu (f : Pse → Pse) : (s.onPse f).fbu = s.fbu := rfl
@[simp] theorem State.onPse_rge (f : Pse → Pse) : (s.onPse f).rge = s.rge := rfl
@[simp] theorem State.onPse_lca (f : Pse → Pse) : (s.onPse f).lca = s.lca := rfl

/-! ### onGnb -/

@[simp] theorem State.onGnb_pending (f : Gnb → Gnb) : (s.onGnb f).pending = s.pending := rfl
@[simp] theorem State.onGnb_sys (f : Gnb → Gnb) : (s.onGnb f).sys = s.sys := rfl
@[simp] theorem State.onGnb_nv (f : Gnb → Gnb) : (s.onGnb f).nv = s.nv := rfl
@[simp] theorem State.onGnb_out (f : Gnb → Gnb) : (s.onGnb f).out = s.out := rfl
@[simp] theorem State.onGnb_prs (f : Gnb → Gnb) : (s.onGnb f).prs = s.prs := rfl
@[simp] theorem State.onGnb_tbu (f : Gnb → Gnb) : (s.onGnb f).tbu = s.tbu := rfl
@[simp] theorem State.onGnb_icu (f : Gnb → Gnb) : (s.onGnb f).icu = s.icu := rfl
@[simp] theorem State.onGnb_evr (f : Gnb → Gnb) : (s.onGnb f).evr = s.evr := rfl
@[simp] theorem State.onGnb_hre (f : Gnb → Gnb) : (s.onGnb f).hre = s.hre := rfl
@[simp] theorem State.onGnb_gle (f : Gnb → Gnb) : (s.onGnb f).gle = s.gle := rfl
@[simp] theorem State.onGnb_esc (f : Gnb → Gnb) : (s.onGnb f).esc = s.esc := rfl
@[simp] theorem State.onGnb_mpg (f : Gnb → Gnb) : (s.onGnb f).mpg = s.mpg := rfl
@[simp] theorem State.onGnb_pse (f : Gnb → Gnb) : (s.onGnb f).pse = s.pse := rfl
@[simp] theorem State.onGnb_gnb (f : Gnb → Gnb) : (s.onGnb f).gnb = f s.gnb := rfl
@[simp] theorem State.onGnb_flp (f : Gnb → Gnb) : (s.onGnb f).flp = s.flp := rfl
@[simp] theorem State.onGnb_dlk (f : Gnb → Gnb) : (s.onGnb f).dlk = s.dlk := rfl
@[simp] theorem State.onGnb_lsb (f : Gnb → Gnb) : (s.onGnb f).lsb = s.lsb := rfl
@[simp] theorem State.onGnb_fbu (f : Gnb → Gnb) : (s.onGnb f).fbu = s.fbu := rfl
@[simp] theorem State.onGnb_rge (f : Gnb → Gnb) : (s.onGnb f).rge = s.rge := rfl
@[simp] theorem State.onGnb_lca (f : Gnb → Gnb) : (s.onGnb f).lca = s.lca := rfl

/-! ### onFlp -/

@[simp] theorem State.onFlp_pending (f : Flp → Flp) : (s.onFlp f).pending = s.pending := rfl
@[simp] theorem State.onFlp_sys (f : Flp → Flp) : (s.onFlp f).sys = s.sys := rfl
@[simp] theorem State.onFlp_nv (f : Flp → Flp) : (s.onFlp f).nv = s.nv := rfl
@[simp] theorem State.onFlp_out (f : Flp → Flp) : (s.onFlp f).out = s.out := rfl
@[simp] theorem State.onFlp_prs (f : Flp → Flp) : (s.onFlp f).prs = s.prs := rfl
@[simp] theorem State.onFlp_tbu (f : Flp → Flp) : (s.onFlp f).tbu = s.tbu := rfl
@[simp] theorem State.onFlp_icu (f : Flp → Flp) : (s.onFlp f).icu = s.icu := rfl
@[simp] theorem State.onFlp_evr (f : Flp → Flp) : (s.onFlp f).evr = s.evr := rfl
@[simp] theorem State.onFlp_hre (f : Flp → Flp) : (s.onFlp f).hre = s.hre := rfl
@[simp] theorem State.onFlp_gle (f : Flp → Flp) : (s.onFlp f).gle = s.gle := rfl
@[simp] theorem State.onFlp_esc (f : Flp → Flp) : (s.onFlp f).esc = s.esc := rfl
@[simp] theorem State.onFlp_mpg (f : Flp → Flp) : (s.onFlp f).mpg = s.mpg := rfl
@[simp] theorem State.onFlp_pse (f : Flp → Flp) : (s.onFlp f).pse = s.pse := rfl
@[simp] theorem State.onFlp_gnb (f : Flp → Flp) : (s.onFlp f).gnb = s.gnb := rfl
@[simp] theorem State.onFlp_flp (f : Flp → Flp) : (s.onFlp f).flp = f s.flp := rfl
@[simp] theorem State.onFlp_dlk (f : Flp → Flp) : (s.onFlp f).dlk = s.dlk := rfl
@[simp] theorem State.onFlp_lsb (f : Flp → Flp) : (s.onFlp f).lsb = s.lsb := rfl
@[simp] theorem State.onFlp_fbu (f : Flp → Flp) : (s.onFlp f).fbu = s.fbu := rfl
@[simp] theorem State.onFlp_rge (f : Flp → Flp) : (s.onFlp f).rge = s.rge := rfl
@[simp] theorem State.onFlp_lca (f : Flp → Flp) : (s.onFlp f).lca = s.lca := rfl

/-! ### onDlk -/

@[simp] theorem State.onDlk_pending (f : Dlk → Dlk) : (s.onDlk f).pending = s.pending := rfl
@[simp] theorem State.onDlk_sys (f : Dlk → Dlk) : (s.onDlk f).sys = s.sys := rfl
@[simp] theorem State.onDlk_nv (f : Dlk → Dlk) : (s.onDlk f).nv = s.nv := rfl
@[simp] theorem State.onDlk_out (f : Dlk → Dlk) : (s.onDlk f).out = s.out := rfl
@[simp] theorem State.onDlk_prs (f : Dlk → Dlk) : (s.onDlk f).prs = s.prs := rfl
@[simp] theorem State.onDlk_tbu (f : Dlk → Dlk) : (s.onDlk f).tbu = s.tbu := rfl
@[simp] theorem State.onDlk_icu (f : Dlk → Dlk) : (s.onDlk f).icu = s.icu := rfl
@[simp] theorem State.onDlk_evr (f : Dlk → Dlk) : (s.onDlk f).evr = s.evr := rfl
@[simp] theorem State.onDlk_hre (f : Dlk → Dlk) : (s.onDlk f).hre = s.hre := rfl
@[simp] theorem State.onDlk_gle (f : Dlk → Dlk) : (s.onDlk f).gle = s.gle := rfl
@[simp] theorem State.onDlk_esc (f : Dlk → Dlk) : (s.onDlk f).esc = s.esc := rfl
@[simp] theorem State.onDlk_mpg (f : Dlk → Dlk) : (s.onDlk f).mpg = s.mpg := rfl
@[simp] theorem State.onDlk_pse (f : Dlk → Dlk) : (s.onDlk f).pse = s.pse := rfl
@[simp] theorem State.onDlk_gnb (f : Dlk → Dlk) : (s.onDlk f).gnb = s.gnb := rfl
@[simp] theorem State.onDlk_flp (f : Dlk → Dlk) : (s.onDlk f).flp = s.flp := rfl
@[simp] theorem State.onDlk_dlk (f : Dlk → Dlk) : (s.onDlk f).dlk = f s.dlk := rfl
@[simp] theorem State.onDlk_lsb (f : Dlk → Dlk) : (s.onDlk f).lsb = s.lsb := rfl
@[simp] theorem State.onDlk_fbu (f : Dlk → Dlk) : (s.onDlk f).fbu = s.fbu := rfl
@[simp] theorem State.onDlk_rge (f : Dlk → Dlk) : (s.onDlk f).rge = s.rge := rfl
@[simp] theorem State.onDlk_lca (f : Dlk → Dlk) : (s.onDlk f).lca = s.lca := rfl

/-! ### onLsb -/

@[simp] theorem State.onLsb_pending (f : Lsb → Lsb) : (s.onLsb f).pending = s.pending := rfl
@[simp] theorem State.onLsb_sys (f : Lsb → Lsb) : (s.onLsb f).sys = s.sys := rfl
@[simp] theorem State.onLsb_nv (f : Lsb → Lsb) : (s.onLsb f).nv = s.nv := rfl
@[simp] theorem State.onLsb_out (f : Lsb → Lsb) : (s.onLsb f).out = s.out := rfl
@[simp] theorem State.onLsb_prs (f : Lsb → Lsb) : (s.onLsb f).prs = s.prs := rfl
@[simp] theorem State.onLsb_tbu (f : Lsb → Lsb) : (s.onLsb f).tbu = s.tbu := rfl
@[simp] theorem State.onLsb_icu (f : Lsb → Lsb) : (s.onLsb f).icu = s.icu := rfl
@[simp] theorem State.onLsb_evr (f : Lsb → Lsb) : (s.onLsb f).evr = s.evr := rfl
@[simp] theorem State.onLsb_hre (f : Lsb → Lsb) : (s.onLsb f).hre = s.hre := rfl
@[simp] theorem State.onLsb_gle (f : Lsb → Lsb) : (s.onLsb f).gle = s.gle := rfl
@[simp] theorem State.onLsb_esc (f : Lsb → Lsb) : (s.onLsb f).esc = s.esc := rfl
@[simp] theorem State.onLsb_mpg (f : Lsb → Lsb) : (s.onLsb f).mpg = s.mpg := rfl
@[simp] theorem State.onLsb_pse (f : Lsb → Lsb) : (s.onLsb f).pse = s.pse := rfl
@[simp] theorem State.onLsb_gnb (f : Lsb → Lsb) : (s.onLsb f).gnb = s.gnb := rfl
@[simp] theorem State.onLsb_flp (f : Lsb → Lsb) : (s.onLsb f).flp = s.flp := rfl
@[simp] theorem State.onLsb_dlk (f : Lsb → Lsb) : (s.onLsb f).dlk = s.dlk := rfl
@[simp] theorem State.onLsb_lsb (f : Lsb → Lsb) : (s.onLsb f).lsb = f s.lsb := rfl
@[simp] theorem State.onLsb_fbu (f : Lsb → Lsb) : (s.onLsb f).fbu = s.fbu := rfl
@[simp] theorem State.onLsb_rge (f : Lsb → Lsb) : (s.onLsb f).rge = s.rge := rfl
@[simp] theorem State.onLsb_lca (f : Lsb → Lsb) : (s.onLsb f).lca = s.lca := rfl

/-! ### onFbu -/

@[simp] theorem State.onFbu_pending (f : Fbu → Fbu) : (s.onFbu f).pending = s.pending := rfl
@[simp] theorem State.onFbu_sys (f : Fbu → Fbu) : (s.onFbu f).sys = s.sys := rfl
@[simp] theorem State.onFbu_nv (f : Fbu → Fbu) : (s.onFbu f).nv = s.nv := rfl
@[simp] theorem State.onFbu_out (f : Fbu → Fbu) : (s.onFbu f).out = s.out := rfl
@[simp] theorem State.onFbu_prs (f : Fbu → Fbu) : (s.onFbu f).prs = s.prs := rfl
@[simp] theorem State.onFbu_tbu (f : Fbu → Fbu) : (s.onFbu f).tbu = s.tbu := rfl
@[simp] theorem State.onFbu_icu (f : Fbu → Fbu) : (s.onFbu f).icu = s.icu := rfl
@[simp] theorem State.onFbu_evr (f : Fbu → Fbu) : (s.onFbu f).evr = s.evr := rfl
@[simp] theorem State.onFbu_hre (f : Fbu → Fbu) : (s.onFbu f).hre = s.hre := rfl
@[simp] theorem State.onFbu_gle (f : Fbu → Fbu) : (s.onFbu f).gle = s.gle := rfl
@[simp] theorem State.onFbu_esc (f : Fbu → Fbu) : (s.onFbu f).esc = s.esc := rfl
@[simp] theorem State.onFbu_mpg (f : Fbu → Fbu) : (s.onFbu f).mpg = s.mpg := rfl
@[simp] theorem State.onFbu_pse (f : Fbu → Fbu) : (s.onFbu f).pse = s.pse := rfl
@[simp] theorem State.onFbu_gnb (f : Fbu → Fbu) : (s.onFbu f).gnb = s.gnb := rfl
@[simp] theorem State.onFbu_flp (f : Fbu → Fbu) : (s.onFbu f).flp = s.flp := rfl
@[simp] theorem State.onFbu_dlk (f : Fbu → Fbu) : (s.onFbu f).dlk = s.dlk := rfl
@[simp] theorem State.onFbu_lsb (f : Fbu → Fbu) : (s.onFbu f).lsb = s.lsb := rfl
@[simp] theorem State.onFbu_fbu (f : Fbu → Fbu) : (s.onFbu f).fbu = f s.fbu := rfl
@[simp] theorem State.onFbu_rge (f : Fbu → Fbu) : (s.onFbu f).rge = s.rge := rfl
@[simp] theorem State.onFbu_lca (f : Fbu → Fbu) : (s.onFbu f).lca = s.lca := rfl

/-! ### onRge -/

@[simp] theorem State.onRge_pending (f : Rge → Rge) : (s.onRge f).pending = s.pending := rfl
@[simp] theorem State.onRge_sys (f : Rge → Rge) : (s.onRge f).sys = s.sys := rfl
@[simp] theorem State.onRge_nv (f : Rge → Rge) : (s.onRge f).nv = s.nv := rfl
@[simp] theorem State.onRge_out (f : Rge → Rge) : (s.onRge f).out = s.out := rfl
@[simp] theorem State.onRge_prs (f : Rge → Rge) : (s.onRge f).prs = s.prs := rfl
@[simp] theorem State.onRge_tbu (f : Rge → Rge) : (s.onRge f).tbu = s.tbu := rfl
@[simp] theorem State.onRge_icu (f : Rge → Rge) : (s.onRge f).icu = s.icu := rfl
@[simp] theorem State.onRge_evr (f : Rge → Rge) : (s.onRge f).evr = s.evr := rfl
@[simp] theorem State.onRge_hre (f : Rge → Rge) : (s.onRge f).hre = s.hre := rfl
@[simp] theorem State.onRge_gle (f : Rge → Rge) : (s.onRge f).gle = s.gle := rfl
@[simp] theorem State.onRge_esc (f : Rge → Rge) : (s.onRge f).esc = s.esc := rfl
@[simp] theorem State.onRge_mpg (f : Rge → Rge) : (s.onRge f).mpg = s.mpg := rfl
@[simp] theorem State.onRge_pse (f : Rge → Rge) : (s.onRge f).pse = s.pse := rfl
@[simp] theorem State.onRge_gnb (f : Rge → Rge) : (s.onRge f).gnb = s.gnb := rfl
@[simp] theorem State.onRge_flp (f : Rge → Rge) : (s.onRge f).flp = s.flp := rfl
@[simp] theorem State.onRge_dlk (f : Rge → Rge) : (s.onRge f).dlk = s.dlk := rfl
@[simp] theorem State.onRge_lsb (f : Rge → Rge) : (s.onRge f).lsb = s.lsb := rfl
@[simp] theorem State.onRge_fbu (f : Rge → Rge) : (s.onRge f).fbu = s.fbu := rfl
@[simp] theorem State.onRge_rge (f : Rge → Rge) : (s.onRge f).rge = f s.rge := rfl
@[simp] theorem State.onRge_lca (f : Rge → Rge) : (s.onRge f).lca = s.lca := rfl

/-! ### onLca -/

@[simp] theorem State.onLca_pending (f : Lca → Lca) : (s.onLca f).pending = s.pending := rfl
@[simp] theorem State.onLca_sys (f : Lca → Lca) : (s.onLca f).sys = s.sys := rfl
@[simp] theorem State.onLca_nv (f : Lca → Lca) : (s.onLca f).nv = s.nv := rfl
@[simp] theorem State.onLca_out (f : Lca → Lca) : (s.onLca f).out = s.out := rfl
@[simp] theorem State.onLca_prs (f : Lca → Lca) : (s.onLca f).prs = s.prs := rfl
@[simp] theorem State.onLca_tbu (f : Lca → Lca) : (s.onLca f).tbu = s.tbu := rfl
@[simp] theorem State.onLca_icu (f : Lca → Lca) : (s.onLca f).icu = s.icu := rfl
@[simp] theorem State.onLca_evr (f : Lca → Lca) : (s.onLca f).evr = s.evr := rfl
@[simp] theorem State.onLca_hre (f : Lca → Lca) : (s.onLca f).hre = s.hre := rfl
@[simp] theorem State.onLca_gle (f : Lca → Lca) : (s.onLca f).gle = s.gle := rfl
@[simp] theorem State.onLca_esc (f : Lca → Lca) : (s.onLca f).esc = s.esc := rfl
@[simp] theorem State.onLca_mpg (f : Lca → Lca) : (s.onLca f).mpg = s.mpg := rfl
@[simp] theorem State.onLca_pse (f : Lca → Lca) : (s.onLca f).pse = s.pse := rfl
@[simp] theorem State.onLca_gnb (f : Lca → Lca) : (s.onLca f).gnb = s.gnb := rfl
@[simp] theorem State.onLca_flp (f : Lca → Lca) : (s.onLca f).flp = s.flp := rfl
@[simp] theorem State.onLca_dlk (f : Lca → Lca) : (s.onLca f).dlk = s.dlk := rfl
@[simp] theorem State.onLca_lsb (f : Lca → Lca) : (s.onLca f).lsb = s.lsb := rfl
@[simp] theorem State.onLca_fbu (f : Lca → Lca) : (s.onLca f).fbu = s.fbu := rfl
@[simp] theorem State.onLca_rge (f : Lca → Lca) : (s.onLca f).rge = s.rge := rfl
@[simp] theorem State.onLca_lca (f : Lca → Lca) : (s.onLca f).lca = f s.lca := rfl

/-! ### The passing of time -/

@[simp] theorem State.elapse_pending (dt : Nat) : (s.elapse dt).pending = s.pending := rfl
@[simp] theorem State.elapse_sys (dt : Nat) : (s.elapse dt).sys = s.sys := rfl
@[simp] theorem State.elapse_nv (dt : Nat) : (s.elapse dt).nv = s.nv := rfl
@[simp] theorem State.elapse_out (dt : Nat) : (s.elapse dt).out = s.out := rfl
@[simp] theorem State.elapse_prs (dt : Nat) : (s.elapse dt).prs = s.prs := rfl
@[simp] theorem State.elapse_icu (dt : Nat) : (s.elapse dt).icu = s.icu := rfl
@[simp] theorem State.elapse_evr (dt : Nat) : (s.elapse dt).evr = s.evr := rfl
@[simp] theorem State.elapse_hre (dt : Nat) : (s.elapse dt).hre = s.hre := rfl
@[simp] theorem State.elapse_gle (dt : Nat) : (s.elapse dt).gle = s.gle := rfl
@[simp] theorem State.elapse_esc (dt : Nat) : (s.elapse dt).esc = s.esc := rfl
@[simp] theorem State.elapse_mpg (dt : Nat) : (s.elapse dt).mpg = s.mpg := rfl
@[simp] theorem State.elapse_pse (dt : Nat) : (s.elapse dt).pse = s.pse := rfl
@[simp] theorem State.elapse_gnb (dt : Nat) : (s.elapse dt).gnb = s.gnb := rfl
@[simp] theorem State.elapse_flp (dt : Nat) : (s.elapse dt).flp = s.flp := rfl
@[simp] theorem State.elapse_dlk (dt : Nat) : (s.elapse dt).dlk = s.dlk := rfl
@[simp] theorem State.elapse_lsb (dt : Nat) : (s.elapse dt).lsb = s.lsb := rfl
@[simp] theorem State.elapse_fbu (dt : Nat) : (s.elapse dt).fbu = s.fbu := rfl
@[simp] theorem State.elapse_rge (dt : Nat) : (s.elapse dt).rge = s.rge := rfl
@[simp] theorem State.elapse_lca (dt : Nat) : (s.elapse dt).lca = s.lca := rfl

end Sys2Proof.Machine
end

