-- ==== Sys2Proof/Laws/Views.lean ====
section
/-! SUPPORT. The numbered things of the block, read back after one of them has been changed. -/

namespace Sys2Proof.Machine

variable (s : State) (n k : Nat)

@[simp] theorem State.onRing_ring (f : Ring → Ring) : (s.onRing n f).ring n = f (s.ring n) := Tbl.get_modify_same
theorem State.onRing_ring_ne (f : Ring → Ring) (h : k ≠ n) : (s.onRing n f).ring k = s.ring k := Tbl.get_modify_ne h
@[simp] theorem State.onSrc_src (f : Src → Src) : (s.onSrc n f).src n = f (s.src n) := Tbl.get_modify_same
theorem State.onSrc_src_ne (f : Src → Src) (h : k ≠ n) : (s.onSrc n f).src k = s.src k := Tbl.get_modify_ne h
@[simp] theorem State.onTarget_target (f : Target → Target) : (s.onTarget n f).target n = f (s.target n) := Tbl.get_modify_same
theorem State.onTarget_target_ne (f : Target → Target) (h : k ≠ n) : (s.onTarget n f).target k = s.target k := Tbl.get_modify_ne h
@[simp] theorem State.onTile_tile (f : Tile → Tile) : (s.onTile n f).tile n = f (s.tile n) := Tbl.get_modify_same
theorem State.onTile_tile_ne (f : Tile → Tile) (h : k ≠ n) : (s.onTile n f).tile k = s.tile k := Tbl.get_modify_ne h
@[simp] theorem State.onLayer_layer (f : Layer → Layer) : (s.onLayer n f).layer n = f (s.layer n) := Tbl.get_modify_same
theorem State.onLayer_layer_ne (f : Layer → Layer) (h : k ≠ n) : (s.onLayer n f).layer k = s.layer k := Tbl.get_modify_ne h
@[simp] theorem State.onEntry_entry (f : Entry → Entry) : (s.onEntry n f).entry n = f (s.entry n) := Tbl.get_modify_same
theorem State.onEntry_entry_ne (f : Entry → Entry) (h : k ≠ n) : (s.onEntry n f).entry k = s.entry k := Tbl.get_modify_ne h
@[simp] theorem State.onDyn_dyn (f : EpDyn → EpDyn) : (s.onDyn n f).dyn n = f (s.dyn n) := Tbl.get_modify_same
theorem State.onDyn_dyn_ne (f : EpDyn → EpDyn) (h : k ≠ n) : (s.onDyn n f).dyn k = s.dyn k := Tbl.get_modify_ne h
@[simp] theorem State.onSection_section_ (f : Section → Section) : (s.onSection n f).section_ n = f (s.section_ n) := Tbl.get_modify_same
theorem State.onSection_section_other (f : Section → Section) (h : k ≠ n) : (s.onSection n f).section_ k = s.section_ k := Tbl.get_modify_ne h
@[simp] theorem State.onChan_chan (f : Channel → Channel) : (s.onChan n f).chan n = f (s.chan n) := Tbl.get_modify_same
theorem State.onChan_chan_ne (f : Channel → Channel) (h : k ≠ n) : (s.onChan n f).chan k = s.chan k := Tbl.get_modify_ne h
@[simp] theorem State.onFch_fch (f : Fch → Fch) : (s.onFch n f).fch n = f (s.fch n) := Tbl.get_modify_same
theorem State.onFch_fch_ne (f : Fch → Fch) (h : k ≠ n) : (s.onFch n f).fch k = s.fch k := Tbl.get_modify_ne h
@[simp] theorem State.onCmp_fcmp (f : Cmp → Cmp) : (s.onCmp n f).fcmp n = f (s.fcmp n) := Tbl.get_modify_same
theorem State.onCmp_fcmp_ne (f : Cmp → Cmp) (h : k ≠ n) : (s.onCmp n f).fcmp k = s.fcmp k := Tbl.get_modify_ne h
@[simp] theorem State.onRep_rep (f : Rep → Rep) : (s.onRep n f).rep n = f (s.rep n) := Tbl.get_modify_same
theorem State.onRep_rep_ne (f : Rep → Rep) (h : k ≠ n) : (s.onRep n f).rep k = s.rep k := Tbl.get_modify_ne h
@[simp] theorem State.onCtx_ctx (f : Ctx → Ctx) : (s.onCtx n f).ctx n = f (s.ctx n) := Tbl.get_modify_same
theorem State.onCtx_ctx_ne (f : Ctx → Ctx) (h : k ≠ n) : (s.onCtx n f).ctx k = s.ctx k := Tbl.get_modify_ne h
@[simp] theorem State.onPort_port (f : Port → Port) : (s.onPort n f).port n = f (s.port n) := Tbl.get_modify_same
theorem State.onPort_port_ne (f : Port → Port) (h : k ≠ n) : (s.onPort n f).port k = s.port k := Tbl.get_modify_ne h
@[simp] theorem State.onDport_dport (f : Port → Port) : (s.onDport n f).dport n = f (s.dport n) := Tbl.get_modify_same
theorem State.onDport_dport_ne (f : Port → Port) (h : k ≠ n) : (s.onDport n f).dport k = s.dport k := Tbl.get_modify_ne h
@[simp] theorem State.onPsrc_psrc (f : PSource → PSource) : (s.onPsrc n f).psrc n = f (s.psrc n) := Tbl.get_modify_same
theorem State.onPsrc_psrc_ne (f : PSource → PSource) (h : k ≠ n) : (s.onPsrc n f).psrc k = s.psrc k := Tbl.get_modify_ne h
@[simp] theorem State.onNotch_notch (f : Notch → Notch) : (s.onNotch n f).notch n = f (s.notch n) := Tbl.get_modify_same
theorem State.onNotch_notch_ne (f : Notch → Notch) (h : k ≠ n) : (s.onNotch n f).notch k = s.notch k := Tbl.get_modify_ne h
@[simp] theorem State.onNode_node (p : Nat) (f : Node → Node) : (s.onNode p n f).node p n = f (s.node p n) := Tbl.get_modify_same
theorem State.onNode_nodes_ne (p : Nat) (f : Node → Node) (h : k ≠ 256 * p + n) :
    Tbl.get {} (s.onNode p n f).flp.nodes k = Tbl.get {} s.flp.nodes k := Tbl.get_modify_ne h
@[simp] theorem State.setStrip_strip (p : Option Strip) : (s.setStrip n p).strip n = p := Tbl.get_set_same
theorem State.setStrip_strip_ne (p : Option Strip) (h : k ≠ n) : (s.setStrip n p).strip k = s.strip k := Tbl.get_set_ne h

end Sys2Proof.Machine
end

