-- ==== Sys2Proof/Laws/Ops.lean ====
section
/-! SUPPORT. The shared operations, each by what it can do: the blocks it may change, what a guarded command does where its
guard holds, the checks of a descriptor, and the frame of a descriptor's execution and completion. -/

namespace Sys2Proof.Machine

variable {s : State}

/-! ### Guards -/

@[simp] theorem State.when_true (f : State → State) : s.when true f = f s := rfl
@[simp] theorem State.when_false (f : State → State) : s.when false f = s := rfl
theorem State.when_pos {b : Bool} {f : State → State} (h : b = true) : s.when b f = f s := by rw [h]; rfl
theorem State.when_neg {b : Bool} {f : State → State} (h : b = false) : s.when b f = s := by rw [h]; rfl

/-! ### What the operations may change -/

theorem State.raise_frame (n : Nat) : s.raise n = { s with icu := (s.raise n).icu } := by
  unfold State.raise; split <;> rfl

theorem State.covDrop_frame (op : Nat) : s.covDrop op = { s with hre := (s.covDrop op).hre, icu := (s.covDrop op).icu } := by
  unfold State.covDrop; split
  · rw [State.raise_frame]; rfl
  · rfl

theorem State.dropRouted_frame (op : Nat) :
    s.dropRouted op = { s with hre := (s.dropRouted op).hre, icu := (s.dropRouted op).icu } := by
  unfold State.dropRouted; split
  · rw [State.covDrop_frame]; rfl
  · rfl

theorem State.dropQueued_frame (ring op : Nat) :
    s.dropQueued ring op = { s with hre := (s.dropQueued ring op).hre, icu := (s.dropQueued ring op).icu } := by
  unfold State.dropQueued; rw [State.covDrop_frame, State.raise_frame]; rfl

theorem State.writeReport_frame (ring : Nat) (r : Report) :
    s.writeReport ring r =
      { s with hre := (s.writeReport ring r).hre, icu := (s.writeReport ring r).icu, out := (s.writeReport ring r).out } := by
  unfold State.writeReport; rw [State.raise_frame]; rfl

theorem State.enqueue_frame (ring : Nat) (r : Report) :
    s.enqueue ring r = { s with hre := (s.enqueue ring r).hre, icu := (s.enqueue ring r).icu, out := (s.enqueue ring r).out } := by
  unfold State.enqueue
  dsimp only
  split
  · rw [State.writeReport_frame]; rfl
  · split
    · rfl
    · rw [State.dropQueued_frame]

theorem State.report_frame (op flags tick : Nat) (p : List Fld) :
    s.report op flags tick p =
      { s with hre := (s.report op flags tick p).hre, icu := (s.report op flags tick p).icu, out := (s.report op flags tick p).out } := by
  unfold State.report
  dsimp only
  split
  · rw [State.enqueue_frame]
  · rw [State.dropRouted_frame]

theorem State.faultReport_frame (a b c d e : Nat) :
    s.faultReport a b c d e = { s with hre := (s.faultReport a b c d e).hre, icu := (s.faultReport a b c d e).icu,
                                       out := (s.faultReport a b c d e).out } := by
  unfold State.faultReport; rw [State.report_frame]

theorem State.dmaError_frame : s.dmaError = { s with hre := s.dmaError.hre, icu := s.dmaError.icu } := by
  unfold State.dmaError; rw [State.raise_frame]; rfl

/-- A change of HRE, ICU and what has gone out, and of nothing else: what reports and completions do. -/
def State.Reports (s t : State) : Prop := t = { s with hre := t.hre, icu := t.icu, out := t.out }

theorem State.Reports.refl : s.Reports s := rfl

theorem State.Reports.trans {a b c : State} (h : a.Reports b) (g : b.Reports c) : a.Reports c := by
  unfold State.Reports at *; rw [g, h]

theorem State.raise_reports (n : Nat) : s.Reports (s.raise n) := by unfold State.Reports; rw [State.raise_frame]
theorem State.report_reports (op flags tick : Nat) (p : List Fld) : s.Reports (s.report op flags tick p) := State.report_frame ..
theorem State.enqueue_reports (ring : Nat) (r : Report) : s.Reports (s.enqueue ring r) := State.enqueue_frame ..
theorem State.dropRouted_reports (op : Nat) : s.Reports (s.dropRouted op) := by unfold State.Reports; rw [State.dropRouted_frame]
theorem State.dmaError_reports : s.Reports s.dmaError := by unfold State.Reports; rw [State.dmaError_frame]
theorem State.onRing_reports (n : Nat) (f : Ring → Ring) : s.Reports (s.onRing n f) := rfl
theorem State.hostWrite_reports (w : HostWrite) : s.Reports (s.hostWrite w) := rfl

theorem State.complete_reports (ring : Nat) (d : Slot) : s.Reports (s.complete ring d) := by
  unfold State.complete
  dsimp only
  split
  · split
    · exact State.enqueue_reports ..
    · exact State.dropRouted_reports ..
  · exact State.Reports.refl

theorem State.flushLoop_reports (ring n : Nat) : s.Reports (s.flushLoop ring n) := by
  induction n generalizing s with
  | zero => exact State.Reports.refl
  | succ n ih =>
    unfold State.flushLoop
    split
    · exact State.Reports.refl
    · split
      · exact ((State.onRing_reports ..).trans (State.complete_reports ..)).trans ih
      · exact State.Reports.refl

theorem State.settleLoop_reports (ring n : Nat) : s.Reports (s.settleLoop ring n) := by
  induction n generalizing s with
  | zero => exact State.Reports.refl
  | succ n ih =>
    unfold State.settleLoop
    split
    · exact State.Reports.refl
    · split
      · split
        · exact State.onRing_reports ..
        · exact (State.onRing_reports ..).trans ih
      · exact State.Reports.refl

theorem State.settle_reports (ring : Nat) : s.Reports (s.settle ring) :=
  (State.settleLoop_reports ring (s.ring ring).slots.length).trans (State.flushLoop_reports ..)

theorem State.finishHead_reports (ring st d1 d2 : Nat) : s.Reports (s.finishHead ring st d1 d2) :=
  (State.onRing_reports ..).trans (State.settle_reports _)
theorem State.startHead_reports (ring : Nat) (m : List (Nat × Word)) : s.Reports (s.startHead ring m) :=
  (State.onRing_reports ..).trans (State.settle_reports _)
theorem State.finishAt_reports (ring : Nat) (i : Word) (st d1 d2 : Nat) : s.Reports (s.finishAt ring i st d1 d2) :=
  (State.onRing_reports ..).trans (State.settle_reports _)

/-! ### The checks of a descriptor (R72) -/

theorem firstBad_pass {cs : List (Bool × Nat)} (h : checksPass cs) : firstBad cs = none := by
  unfold firstBad
  induction cs with
  | nil => rfl
  | cons c cs ih =>
    have hc : c.1 = true := h c (by simp)
    simp only [List.foldl_cons, hc, if_true]
    exact ih fun x hx => h x (by simp [hx])

theorem State.checked_pass {ring : Nat} {cs : List (Bool × Nat)} {k : State → State} (h : checksPass cs) :
    s.checked ring cs k = k s := by
  unfold State.checked; rw [firstBad_pass h]

theorem checksPass_cons {c : Bool × Nat} {cs : List (Bool × Nat)} : checksPass (c :: cs) ↔ c.1 = true ∧ checksPass cs := by
  simp [checksPass]

theorem checksPass_append {a b : List (Bool × Nat)} : checksPass (a ++ b) ↔ checksPass a ∧ checksPass b := by
  simp only [checksPass, List.mem_append]
  exact ⟨fun h => ⟨fun c hc => h c (.inl hc), fun c hc => h c (.inr hc)⟩, fun h c hc => hc.elim (h.1 c) (h.2 c)⟩

/-- One step of `firstBad`. -/
def badStep (acc : Option Nat) (c : Bool × Nat) : Option Nat :=
  if c.1 then acc else some ((acc.map fun o => min o c.2).getD c.2)

theorem firstBad_eq (cs : List (Bool × Nat)) : firstBad cs = cs.foldl badStep none := by
  unfold firstBad
  congr 1
  funext acc c
  unfold badStep
  cases acc <;> rfl

/-- The fold from an offset already found. -/
theorem badStep_fold (cs : List (Bool × Nat)) (a : Nat) :
    cs.foldl badStep (some a) = some ((cs.foldl badStep none).elim a (min a)) := by
  induction cs generalizing a with
  | nil => rfl
  | cons c cs ih =>
    simp only [List.foldl_cons]
    by_cases hc : c.1 = true
    · simp only [badStep, hc, if_true]; exact ih a
    · have hc : c.1 = false := by simpa using hc
      simp only [badStep, hc, Bool.false_eq_true, if_false, Option.map_some, Option.map_none, Option.getD_some, Option.getD_none]
      rw [ih, ih c.2]
      cases cs.foldl badStep none <;> simp [Nat.min_assoc]

theorem firstBad_cons (c : Bool × Nat) (cs : List (Bool × Nat)) :
    firstBad (c :: cs) = if c.1 then firstBad cs else some ((firstBad cs).elim c.2 (min c.2)) := by
  simp only [firstBad_eq, List.foldl_cons]
  by_cases hc : c.1 = true
  · simp only [badStep, hc, if_true]
  · have hc : c.1 = false := by simpa using hc
    simp only [badStep, hc, Bool.false_eq_true, if_false, Option.map_none, Option.getD_none]
    exact badStep_fold cs c.2

theorem firstBad_fail {cs : List (Bool × Nat)} {o : Nat} (h : failsAt cs o) : firstBad cs = some o := by
  induction cs generalizing o with
  | nil => obtain ⟨⟨c, hc, _⟩, _⟩ := h; simp at hc
  | cons c cs ih =>
    rw [firstBad_cons]
    obtain ⟨⟨e, he, hf, ho⟩, hm⟩ := h
    by_cases hc : c.1 = true
    · simp only [hc, if_true]
      refine ih ⟨⟨e, ?_, hf, ho⟩, fun x hx => hm x (by simp [hx])⟩
      rcases List.mem_cons.mp he with rfl | he
      · rw [hc] at hf; cases hf
      · exact he
    · have hc : c.1 = false := by simpa using hc
      have hle := hm c (by simp) hc
      simp only [hc, Bool.false_eq_true, if_false]
      by_cases hp : checksPass cs
      · rw [firstBad_pass hp]
        rcases List.mem_cons.mp he with rfl | he
        · simp [ho]
        · rw [hp e he] at hf; cases hf
      · have : ∃ x, failsAt cs x := by
          have hne : ∃ y ∈ cs, y.1 = false := by
            by_contra hn
            exact hp fun y hy => by
              by_contra hb
              exact hn ⟨y, hy, by simpa using hb⟩
          obtain ⟨y, hy, hyf⟩ := hne
          classical
          have hex : ∃ k, ∃ y ∈ cs, y.1 = false ∧ y.2 = k := ⟨y.2, y, hy, hyf, rfl⟩
          exact ⟨Nat.find hex, Nat.find_spec hex, fun z hz hzf => Nat.find_min' hex ⟨z, hz, hzf, rfl⟩⟩
        obtain ⟨x, hx⟩ := this
        rw [ih hx]
        obtain ⟨⟨y, hy, hyf, hyx⟩, hxm⟩ := hx
        have h1 := hm y (by simp [hy]) hyf
        rw [Option.elim_some]
        congr 1
        rcases List.mem_cons.mp he with rfl | he
        · omega
        · have := hxm e he hf; omega

theorem State.checked_fail {ring o : Nat} {cs : List (Bool × Nat)} {k : State → State} (h : failsAt cs o) :
    s.checked ring cs k = s.finishHead ring stBadParam o 0 := by
  unfold State.checked; rw [firstBad_fail h]

@[simp] theorem State.withBuffer_data {ring : Nat} {b : List Byte} {k : List Byte → State → State} :
    s.withBuffer ring (.data b) k = k b s := rfl
@[simp] theorem State.withBuffer_error {ring : Nat} {k : List Byte → State → State} :
    s.withBuffer ring .error k = s.dmaError.finishHead ring stDmaError 0 0 := rfl

end Sys2Proof.Machine
end

