-- ==== Sys2Proof/Laws/Rings.lean ====
section
/-! SUPPORT. The execution of a descriptor at the head of its ring: judging it again leaves it there, so the command of its
opcode's row runs it. -/

namespace Sys2Proof.Machine

variable {s : State}

/-! ### Rings that an operation leaves alone -/

@[simp] theorem State.raise_ring (n k : Nat) : (s.raise n).ring k = s.ring k := by
  rw [State.raise_frame]; rfl

theorem State.covDrop_ring (op k : Nat) : (s.covDrop op).ring k = s.ring k := by
  unfold State.covDrop; split
  · rw [State.raise_ring]; rfl
  · rfl

theorem State.dropRouted_ring (op k : Nat) : (s.dropRouted op).ring k = s.ring k := by
  unfold State.dropRouted; split
  · rw [State.covDrop_ring]; rfl
  · rfl

theorem State.enqueue_ring_ne {c k : Nat} (r : Report) (h : k ≠ c) : (s.enqueue c r).ring k = s.ring k := by
  unfold State.enqueue
  dsimp only
  split
  · unfold State.writeReport
    rw [State.raise_ring, State.onRing_ring_ne _ _ _ _ h]
    exact State.onRing_ring_ne _ _ _ _ h
  · split
    · exact State.onRing_ring_ne _ _ _ _ h
    · unfold State.dropQueued
      rw [State.covDrop_ring, State.raise_ring]
      exact (State.onRing_ring_ne s c k (fun r => { r with dropped := true }) h)

theorem State.complete_ring {k : Nat} (ring : Nat) (d : Slot) (h : k < 16) : (s.complete ring d).ring k = s.ring k := by
  unfold State.complete
  dsimp only
  split
  · split
    · exact State.enqueue_ring_ne _ (by omega)
    · exact State.dropRouted_ring ..
  · rfl

/-- Writing the completions at the front of a ring keeps its head and its mode. -/
theorem State.flushLoop_keeps (ring n : Nat) (h : ring < 16) :
    ((s.flushLoop ring n).ring ring).head = (s.ring ring).head ∧ ((s.flushLoop ring n).ring ring).mode = (s.ring ring).mode := by
  induction n generalizing s with
  | zero => exact ⟨rfl, rfl⟩
  | succ n ih =>
    unfold State.flushLoop
    split
    · exact ⟨rfl, rfl⟩
    · next d t hs =>
      split
      · next hf =>
        obtain ⟨h1, h2⟩ := @ih ((s.onRing ring fun r => { r with slots := t }).complete ring d)
        rw [h1, h2, State.complete_ring _ _ h, State.onRing_ring]
        refine ⟨?_, rfl⟩
        simp [Ring.head, hs, Slot.waiting, hf]
      · exact ⟨rfl, rfl⟩

theorem onFirst_same {d : Slot} {l : List Slot} {f : Slot → Slot} (h : l.find? Slot.waiting = some d) (hf : f d = d) :
    onFirst f l = l := by
  induction l with
  | nil => rfl
  | cons e l ih =>
    simp only [List.find?_cons] at h
    unfold onFirst
    split at h
    · next he => cases h; rw [if_pos he, hf]
    · next he => rw [if_neg (by simpa using he), ih h]

/-- A startable head that is still startable stays as it is when it is judged again. -/
theorem State.headRuns_settle {ring op : Nat} {d : Slot} (h : s.headRuns ring op d) :
    ((s.settle ring).ring ring).head = some d ∧ ((s.settle ring).ring ring).mode = (s.ring ring).mode := by
  obtain ⟨hr, _, hh, hst, _, hj⟩ := h
  have hd : ({ d with stage := .startable } : Slot) = d := by cases d; simp_all
  have hloop : ∀ n, s.settleLoop ring (n + 1) =
      s.onRing ring fun r => { r with slots := onFirst (fun d => { d with stage := .startable }) r.slots } := by
    intro n
    unfold State.settleLoop
    rw [hh]
    simp only [hst, hj, or_true, if_true]
  have hlen : ∃ n, (s.ring ring).slots.length = n + 1 := by
    cases hs : (s.ring ring).slots with
    | nil => rw [Ring.head, hs] at hh; cases hh
    | cons a l => exact ⟨l.length, rfl⟩
  obtain ⟨n, hn⟩ := hlen
  unfold State.settle State.flush
  rw [hn, hloop n]
  obtain ⟨h1, h2⟩ := State.flushLoop_keeps (s := s.onRing ring fun r =>
    { r with slots := onFirst (fun d => { d with stage := .startable }) r.slots }) ring
    ((s.onRing ring fun r => { r with slots := onFirst (fun d => { d with stage := .startable }) r.slots }).ring ring).slots.length hr
  rw [h1, h2, State.onRing_ring]
  refine ⟨?_, rfl⟩
  simp only [Ring.head]
  rw [onFirst_same (l := (s.ring ring).slots) hh hd]
  exact hh

theorem State.headRuns_startable {ring op : Nat} {d : Slot} (h : s.headRuns ring op d) : s.startable ring = some d := by
  obtain ⟨_, hrun, hh, hst, _, _⟩ := h
  unfold State.startable
  rw [hrun, hh]
  simp [hst]

/-- The command of an opcode's row runs the descriptor that heads its ring. -/
theorem State.runDesc_headRuns {ring op : Nat} {d : Slot} {f : Slot → State → State} (h : s.headRuns ring op d) :
    s.runDesc ring op f = f d (s.settle ring) := by
  have h1 := State.headRuns_startable h
  have h2 := State.headRuns_settle h
  have h3 : (s.settle ring).startable ring = some d := by
    unfold State.startable State.ringRuns
    rw [h2.1, h2.2]
    have := h.2.1
    unfold State.ringRuns at this
    rw [this]
    simp [h.2.2.2.1]
  unfold State.runDesc
  simp only [h.1, h1, Option.isSome_some, if_true, h3, h.2.2.2.2.1]

/-- What the state after judging shares with the state before. -/
theorem State.settle_now (ring : Nat) : (s.settle ring).now = s.now := by
  have h := State.settle_reports (s := s) ring
  unfold State.Reports at h; rw [h]; rfl

theorem State.settle_eq (ring : Nat) :
    s.settle ring = { s with hre := (s.settle ring).hre, icu := (s.settle ring).icu, out := (s.settle ring).out } :=
  State.settle_reports ring

end Sys2Proof.Machine
end

