-- ==== Sys2Proof/Tests/Slice0.lean ====
section
/-! SUPPORT. Small checks: an ill-formed command for each check of WellFormed, and for each clause of each statement a state
and operands that meet its hypotheses together, with what the command then does there. -/

namespace Sys2Proof.Tests

open Sys2Proof Sys2Proof.Machine

set_option Elab.async false

/-! ### The states the tests start from -/

/-- The block running: every domain on, every function ready, the PCIe link up, ticks counting. -/
def up : State :=
  { prs := { running := true, powered := 0xFF, ready := 0x3FFF }, hre := { linkUp := true },
    tbu := { pllLocked := true, tick := 1000000000, wall := 1000000000 } }

/-- A descriptor: opcode, FLAGS, LENGTH and payload fields. -/
def dsc (op flags len : Nat) (fs : List Fld) : DescBits :=
  BitVec.ofNat 512 (op + 256 * flags + 65536 * len + (fs.map fun f => f.val * 2 ^ (8 * f.off)).foldl (· + ·) 0)

/-- A descriptor that may start. -/
def slot (d : DescBits) : Slot := { desc := d, index := 0, fetchTick := 0, stage := .startable }

/-- A state with one descriptor on submission ring 3. -/
def on3 (d : Slot) (s : State) : State := s.onRing 3 fun r => { r with mode := .enabled, slots := [d] }

/-- The state that a command answers meets a test. -/
def then_ (a : Answer) (f : State → Bool) : Bool := match a with
  | .next t => f t
  | _ => false

/-- The newest report of a state, by opcode. -/
def lastOp (s : State) : Nat := match s.out.host with
  | .report _ _ r :: _ => r.opcode
  | _ => 0

/-- Reports of every opcode go to report ring 16, and so do the completions of ring 3. -/
def reporting (s : State) : State :=
  (s.onHre fun h => { h with routes := (List.range 15).map fun k => (k, { ring := 0, enable := true }) }).onRing 16 fun r =>
    { r with mode := .enabled }

/-- The status with which the only completion left ring 3. -/
def completed (st : Nat) (s : State) : Bool := match s.out.host with
  | .report 16 _ r :: _ => r.opcode == 0x40 && r.payload.contains (fld 17 1 st)
  | _ => false

/-- A NOP. -/
def nop3 : Slot := slot (dsc 1 0 0 [])

/-! ### Well-formed commands -/

theorem test_wf_ring : (Instr.nop 0 16).wf = false ∧ (Instr.nop 0 15).wf = true := by decide
theorem test_wf_report_ring : (Instr.backlogDrain 0 15).wf = false ∧ (Instr.backlogDrain 0 31).wf = true := by decide
theorem test_wf_any_ring : (Instr.doorbell 0 32 0).wf = false ∧ (Instr.doorbell 0 31 0).wf = true := by decide
theorem test_wf_dead_ring : (Instr.nodeWriteResend 0 33).wf = false ∧ (Instr.nodeWriteResend 0 32).wf = true := by decide
theorem test_wf_endpoint : (Instr.escDispatch 0 (262144 + 32)).wf = false ∧ (Instr.escDispatch 0 262144).wf = true := by decide
theorem test_wf_node : (Instr.unacked 0 0 256).wf = false ∧ (Instr.unacked 0 4 0).wf = false ∧ (Instr.unacked 0 3 255).wf = true := by
  decide
theorem test_wf_layer : (Instr.layerCfgWrite 0 32 0).wf = false ∧ (Instr.layerCfgWrite 0 31 0).wf = true := by decide
theorem test_wf_channel : (Instr.keeperExpiry 0 32).wf = false ∧ (Instr.keeperExpiry 0 31).wf = true := by decide
theorem test_wf_context : (Instr.regSample 0 128).wf = false ∧ (Instr.regSample 0 127).wf = true := by decide
theorem test_wf_source : (Instr.coalesceTimeout 0 512).wf = false ∧ (Instr.coalesceTimeout 0 511).wf = true := by decide
theorem test_wf_target : (Instr.icuCommit 0 16).wf = false ∧ (Instr.icuCommit 0 15).wf = true := by decide
theorem test_wf_product : (Instr.flowStep 0 0).wf = false ∧ (Instr.flowStep 0 64).wf = false ∧ (Instr.flowStep 0 63).wf = true := by decide
theorem test_wf_link : (Instr.portLinkChange 0 1 2 .up).wf = false ∧ (Instr.portLinkChange 0 0 3 .up).wf = true := by decide
theorem test_wf_offset : (Instr.registerWrite 0 0x100000 0 true).wf = false ∧ (Instr.registerWrite 0 0xFFFFC 0 true).wf = true := by
  decide
theorem test_wf_domain : (Instr.domainFailure 0 0).wf = false ∧ (Instr.domainFailure 0 7).wf = true := by decide
theorem test_wf_angle : (Instr.sincosSample 0 0 2048 0).wf = false ∧ (Instr.sincosSample 0 0 0 (-2049)).wf = false ∧ (Instr.sincosSample 0 3 2047 (-2048)).wf = true := by decide
theorem test_no_row_has_bits : decodeTableWord 16 0 = none := rfl

/-! ### The queue and the rings -/

theorem test_step_front : step { up with pending := [.nop 3 0, .pllLock 1] } = exec (.nop 3 0) { up with pending := [.pllLock 1] } := rfl
theorem test_step_idle : step State.reset = .next State.reset := rfl


theorem test_nop_runs : (on3 nop3 up).headRuns 3 1 nop3 ∧ checksPass (flagCheck nop3.desc 0x02 :: zeroBytes nop3.desc 16 48) := by
  unfold State.headRuns checksPass; decide +kernel

theorem test_nop_bad_byte : (on3 (slot (dsc 1 0 0 [fld 63 1 7])) up).headRuns 3 1 (slot (dsc 1 0 0 [fld 63 1 7])) ∧
    failsAt (flagCheck (dsc 1 0 0 [fld 63 1 7]) 0x02 :: zeroBytes (dsc 1 0 0 [fld 63 1 7]) 16 48) 63 ∧
    then_ (exec (.nop 0 3) (on3 (slot (dsc 1 0 0 [fld 63 1 7])) (reporting up))) (completed 7) = true := by
  unfold State.headRuns failsAt; decide +kernel

/-- A NOP alone on ring 3, whose completions go to report ring 16: the completion is written, and the ring is empty. -/
theorem test_nop_reports : (on3 nop3 (reporting up)).headRuns 3 1 nop3 ∧ (on3 nop3 (reporting up)).ringTakes 16 1 ∧
    then_ (exec (.nop 0 3) (on3 nop3 (reporting up)))
      (fun t => completed 0 t && (t.ring 3).slots == [] && (t.ring 16).prod == 1 && (t.ring 16).seq == 1) = true := by
  unfold State.headRuns State.ringTakes; decide +kernel

def fence3 : Slot := slot (dsc 2 0 0 [fld 16 2 0x8008, fld 20 4 5])

/-- A FENCE on rings 3 and 15: its own ring by its own index. -/
theorem test_fence_starts : (on3 fence3 up).headRuns 3 2 fence3 ∧
    checksPass (flagCheck fence3.desc 0x02 :: (zeroBytes fence3.desc 18 2 ++ zeroBytes fence3.desc 24 40)) ∧
    then_ (exec (.fence 0 3) (on3 fence3 up)) (fun t => (t.ring 3).slots.any fun x => x.stage == .started && x.marks == [(3, 0), (15, 0)]) =
      true := by
  unfold State.headRuns checksPass; decide +kernel

def fenced (m : List (Nat × Word)) (tick : Nat) : State :=
  on3 { fence3 with stage := .started, marks := m, startTick := tick } (reporting up)

theorem test_fence_done : (fenced [(3, 0)] 0).runningFence 3 = some { fence3 with stage := .started, marks := [(3, 0)] } ∧
    (∀ m ∈ [(3, (0 : Word))], (fenced [(3, 0)] 0).markDone m = true) ∧
    then_ (exec (.fenceDone 0 3) (fenced [(3, 0)] 0)) (completed 0) = true := by decide +kernel

/-- The time-out of 5 µs passes with ring 3's own mark outstanding. -/
theorem test_fence_times_out : (fenced [(3, 1)] 999999000).runningFence 3 ≠ none ∧ (fenced [(3, 1)] 999999000).markDone (3, 1) = false ∧
    dfield fence3.desc 20 4 ≠ 0 ∧ 999999000 + dfield fence3.desc 20 4 * 200 ≤ (fenced [(3, 1)] 999999000).now ∧
    then_ (exec (.fenceTimeout 0 3) (fenced [(3, 1)] 999999000)) (completed 8) = true := by decide +kernel

def twoDone : State :=
  (reporting up).onRing 3 fun r => { r with mode := .enabled, slots := [{ nop3 with stage := .finished }, { nop3 with stage := .finished, index := 1 }, nop3] }

theorem test_flush_in_order : (twoDone.ring 3).slots = [{ nop3 with stage := .finished }, { nop3 with stage := .finished, index := 1 }] ++ [nop3] ∧
    twoDone.ringTakes 16 2 ∧ ((twoDone.flush 3).ring 3).slots = [nop3] ∧ (twoDone.flush 3).out.host.length = 2 := by
  unfold State.ringTakes; decide +kernel

def rung (seq : Word) (s : State) : State := s.onRing 3 fun r => { r with mode := .enabled, prod := 1, seq }

theorem test_fetch : (rung 7 up).canFetch 3 = true ∧ dSeq (dsc 1 0 0 [fld 4 4 7]) = ((rung 7 up).ring 3).seq ∧
    then_ (exec (.descriptorFetch 0 3 (dsc 1 0 0 [fld 4 4 7])) (rung 7 up))
      (fun t => (t.ring 3).cons == 1 && (t.ring 3).seq == 8 && (t.startable 3).isSome) = true := by decide +kernel

theorem test_fetch_gap : (rung 7 up).canFetch 3 = true ∧ dSeq (dsc 1 0 0 [fld 4 4 8]) ≠ ((rung 7 up).ring 3).seq ∧
    then_ (exec (.descriptorFetch 0 3 (dsc 1 0 0 [fld 4 4 8])) (rung 7 (reporting up)))
      (fun t => completed 5 t && (t.ring 3).mode == .error && (t.ring 3).seq == 7) = true := by decide +kernel

theorem test_fetch_fails : (rung 7 up).canFetch 3 = true ∧
    then_ (exec (.descFetchFail 0 3) (rung 7 (reporting up)))
      (fun t => completed 9 t && (t.ring 3).mode == .error && (t.ring 3).cons == 0) = true := by decide +kernel

def held (g : Stage) (d : DescBits) : Slot := { slot d with stage := g }

theorem test_not_before_reached : ((on3 (held .heldNotBefore (dsc 1 0 0 [fld 8 8 1000000000])) up).ring 3).head =
      some (held .heldNotBefore (dsc 1 0 0 [fld 8 8 1000000000])) ∧
    (on3 (held .heldNotBefore (dsc 1 0 0 [fld 8 8 1000000000])) up).judge 3 (held .queued (dsc 1 0 0 [fld 8 8 1000000000])) =
      .stage .startable ∧
    then_ (exec (.notBeforeReached 0 3) (on3 (held .heldNotBefore (dsc 1 0 0 [fld 8 8 1000000000])) up)) (fun t => (t.startable 3).isSome) =
      true := by decide +kernel

theorem test_held_ready : ((on3 (held .heldNotReady nop3.desc) up).ring 3).head = some (held .heldNotReady nop3.desc) ∧
    readyBitOf nop3.desc = some 1 ∧ up.isReady 1 = true ∧
    then_ (exec (.heldDescriptorReady 0 3) (on3 (held .heldNotReady nop3.desc) up)) (fun t => (t.startable 3).isSome) = true := by
  decide +kernel

theorem test_fence_after_release : ((on3 (held .heldFence nop3.desc) up).ring 3).fenced = false ∧
    then_ (exec (.fenceAfterRelease 0 3) (on3 (held .heldFence nop3.desc) up)) (fun t => (t.startable 3).isSome) = true := by
  decide +kernel

/-- The verdicts of R68: an unknown opcode, an absent context, a NOT_BEFORE too far ahead, one to come, a function not ready
with and without NO_WAIT, and a FENCE_AFTER before it. -/
theorem test_judge : up.judge 3 (slot (dsc 0x7F 0 0 [])) = .ends 6 0x7F ∧
    up.judge 3 (slot (dsc 0x0F 0 0 [fld 16 1 255, fld 8 8 (2 ^ 40)])) = .ends 7 16 ∧
    up.judge 3 (slot (dsc 1 0 0 [fld 8 8 (2 ^ 32 + 1)])) = .ends 7 8 ∧
    up.judge 3 (slot (dsc 1 0 0 [fld 8 8 (2 ^ 32)])) = .stage .heldNotBefore ∧
    ({ up with prs := {} } : State).judge 3 (slot (dsc 1 1 0 [])) = .ends 1 1 ∧
    ({ up with prs := {} } : State).judge 3 nop3 = .stage .heldNotReady ∧
    (on3 { nop3 with stage := .started, desc := dsc 1 2 0 [] } up).judge 3 nop3 = .stage .heldFence := by decide +kernel

/-- A running descriptor of the same function keeps a later one of the ring queued. -/
theorem test_judge_ordered : let s := on3 (held .started (dsc 0x16 0x10 0 [])) up
    s.judge 3 (slot (dsc 0x16 0 0 [])) = .stage .queued ∧ readyBitOf (dsc 0x16 0 0 []) = readyBitOf (dsc 0x16 0x10 0 []) ∧
    s.judge 3 nop3 = .stage .startable := by decide +kernel

theorem test_doorbell : ((rung 0 up).ring 3).refuses false 5 = false ∧
    then_ (exec (.doorbell 0 3 5) (rung 0 up)) (fun t => (t.ring 3).prod == 5 && t.hre.timerArmed) = true := by decide +kernel

theorem test_doorbell_backward : ((rung 0 up).ring 3).refuses false 0 = true ∧
    then_ (exec (.doorbell 0 3 0) (rung 0 up)) (fun t => (t.ring 3).prod == 1 && bit t.hre.fault.w 2) = true := by decide +kernel

theorem test_doorbell_report : ((reporting up).onRing 16 fun r => { r with prod := 4 }).hostUp = true ∧
    then_ (exec (.doorbell 0 16 4) ((reporting up).onRing 16 fun r => { r with prod := 4 })) (fun t => (t.ring 16).cons == 4) = true := by
  decide +kernel

def shadowed : State := up.onRing 3 fun r => { r with mode := .enabled, shadow := 4096, prod := 2, cons := 2 }

theorem test_shadow : (shadowed.ring 3).mode ≠ .disabled ∧ (shadowed.ring 3).shadow ≠ 0 ∧
    (shadowed.ring 3).ownIndex 3 ≠ (shadowed.ring 3).shadowVal ∧ (shadowed.ring 3).isIdle = true ∧
    then_ (exec (.shadowWrite 0 3) shadowed) (fun t => t.out.host == [.shadow 3 4096 2]) = true := by decide +kernel

def heldBack : State := (reporting up).onRing 16 fun r => { r with backlog := [{ opcode := 0x4A, tick := 1, payload := [] }] }

theorem test_backlog : (heldBack.ring 16).isEnabled = true ∧ (heldBack.ring 16).used < (heldBack.ring 16).size ∧
    then_ (exec (.backlogDrain 0 16) heldBack) (fun t => lastOp t == 0x4A && (t.ring 16).backlog == [] && (t.ring 16).prod == 1) = true := by
  decide +kernel

def written : State := (reporting up).writeReport 16 { opcode := 0x4A, tick := 1, payload := [] }

theorem test_report_write_fails : takeReport 16 written.out.host = some ({ opcode := 0x4A, tick := 1, payload := [] }, []) ∧
    (written.ring 16).prod ≠ (written.ring 16).cons ∧
    then_ (exec (.reportWriteFail 0 16) written) (fun t => t.out.host == [] && (t.ring 16).prod == 0 && Tbl.get 0 t.hre.rqDrop 0 == 1) =
      true := by decide +kernel

theorem test_ring_enable : (up.ring 31).mode = .disabled ∧ bit 0x10A#32 8 = true ∧
    then_ (exec (.ringEnable 0 31 0x10A) up) (fun t => (t.ring 31).mode == .enabled && (t.ring 31).log2 == 10) = true := by decide +kernel

theorem test_ring_disable : ((on3 nop3 up).ring 3).mode = .enabled ∧ ((rung 0 up).ring 3).slots = [] ∧
    then_ (exec (.ringDisable 0 3 0) (rung 0 up)) (fun t => (t.ring 3).mode == .disabled) = true := by decide +kernel

theorem test_ring_drains : ((on3 { nop3 with stage := .started } up).ring 3).slots = [{ nop3 with stage := .started }] ∧
    then_ (exec (.ringDisable 0 3 0) (on3 { nop3 with stage := .started } up)) (fun t => (t.ring 3).mode == .draining) = true := by
  decide +kernel

theorem test_report_ring_disable : (heldBack.ring 16).mode = .enabled ∧
    then_ (exec (.ringDisable 0 16 0) heldBack) (fun t => (t.ring 16).mode == .disabled && (t.ring 16).backlog == []) = true := by
  decide +kernel

theorem test_ring_drained : ((up.onRing 3 fun r => { r with mode := .draining }).ring 3).slots = [] ∧
    then_ (exec (.ringDrained 0 3) (up.onRing 3 fun r => { r with mode := .draining })) (fun t => (t.ring 3).mode == .disabled) = true := by
  decide +kernel

/-! ### Registers and time -/

theorem test_no_time : (up.elapse 0) = up ∧ (up.elapse 3).now = up.now + 3 ∧ (State.reset.elapse 3).tbu.tick = 0 ∧
    (State.reset.elapse 3).tbu.wall = 3 := by decide +kernel

/-- OLS-2604 has neither a GNSS antenna nor a device link port where this fails. -/
theorem test_host_reaches_every_domain : (∀ k < 8, up.hostTo k = true) ∧ Config.deviceLinks up.part ≠ 0 ∧ Config.gnssAntennas up.part ≠ 0 ∧
    Config.fieldPorts up.part ≠ 0 := by decide +kernel

theorem test_tick_latch : then_ (exec (.tickLoRead 7) up) (fun t => t.out.readData == 1000000007 && t.tbu.shTick == 1000000007) = true := by
  decide +kernel
theorem test_optime_latch : then_ (exec (.optimeLoRead 0) { up with tbu := { up.tbu with optime := 2 ^ 32 + 5 } })
    (fun t => t.out.readData == 5 && t.tbu.optimeHi == 1) = true := by decide +kernel
theorem test_master_offset_latch : then_ (exec (.masterOffsetLoRead 0) { up with dlk := { up.dlk with masterOffset := -2 } })
    (fun t => t.out.readData == 0xFFFFFFFE && t.dlk.masterHi == 0xFFFFFFFF) = true := by decide +kernel

theorem test_write_misses : (State.reset.hostTo (offDomain 0x20) = false) ∧
    then_ (exec (.registerWrite 0 0x20 7 true) State.reset) (· == State.reset) = true ∧
    then_ (exec (.registerWrite 0 0x20 7 false) up) (· == up) = true ∧ then_ (exec (.registerWrite 0 0x21 7 true) up) (· == up) = true := by decide +kernel

theorem test_scratch : then_ (exec (.registerWrite 0 0x20 7 true) up) (· == { up with sys := { up.sys with scratch := 7 } }) = true := by decide +kernel

theorem test_fault_clears : then_ (exec (.registerWrite 0 0x8004 1 true) { up with hre := { up.hre with fault := { w := 3 } } }) (fun t => t.hre.fault.w == 2) =
    true := by decide +kernel

/-- A flag set in an earlier cycle clears; one set in the cycle of the write stays. -/
theorem test_set_wins : (w1c { w := 3, fresh := 2, cyc := 4 } 5 3).w = 0 ∧ (w1c (setFlag { w := 1 } 5 1) 5 3).w = 2 := by decide +kernel

/-- TRIG_EN with the ward CLOSED, OPENED, and with the value it has. -/
theorem test_trigger_enable_warded : up.wardAllows false = false ∧ (0 ||| 0x1C03 : Nat) ≠ up.evr.trigEn ∧
    then_ (exec (.registerWrite 0 0x6020 0 true) up) (fun t => t.prs.wardRefused == 1 && bit t.prs.fault.w 1 && t.evr.trigEn == 0x1FFF) = true ∧
    ({ up with prs := { up.prs with ward := .opened } } : State).wardAllows false = true ∧
    then_ (exec (.registerWrite 0 0x6020 0 true) { up with prs := { up.prs with ward := .opened } })
      (fun t => t.evr.trigEn == 0x1C03 && t.prs.wardAccepted == 1) = true ∧
    then_ (exec (.registerWrite 0 0x6020 0x1FFF true) up) (· == up) = true := by decide +kernel

theorem test_pll_lock : ({ up with tbu := {} } : State).prs.running = true ∧
    then_ (exec (.pllLock 0) { up with tbu := {} }) (fun t => t.tbu.pllLocked) = true := by decide +kernel

theorem test_optime_counts : up.tbu.optimeTick + 20000000 ≤ up.tbu.tick ∧
    then_ (exec (.optimeTick 0) up) (fun t => t.tbu.optime == 1 && t.tbu.optimeTick == 20000000) = true := by decide +kernel

theorem test_optime_persists : up.evr.persistTick + 200000000 ≤ up.tbu.tick ∧
    then_ (exec (.optimePersist 0) { up with tbu := { up.tbu with optime := 9 } }) (fun t => t.nv.optime == 9) = true := by decide +kernel

def pulsing : State := { up with tbu := { up.tbu with tpActive := true, tpRunning := true } }

theorem test_time_pulse_ends : pulsing.tbu.tpActive = true ∧ pulsing.tbu.tpEdge + pulsing.tbu.tpWidth * 200000 ≤ pulsing.tbu.tick ∧
    then_ (exec (.tpPulseEnd 0) pulsing) (fun t => !t.tbu.tpActive) = true := by decide +kernel

/-- Calendar time holds and stands at a whole second, 5 s of calendar time since tick 0. -/
def onSecond : State := { up with tbu := { up.tbu with calValid := true, calBase := 5000000000, calTick := 1000000000, tpEnable := true } }

theorem test_second_instant : onSecond.tbu.instantDue onSecond.now = true ∧ onSecond.tbu.pend = none ∧
    ¬ (onSecond.tbu.bal = .locked ∧ onSecond.tbu.source = 1) ∧
    then_ (exec (.secondInstant 0) onSecond) (fun t => t.tbu.tpCount == 1 && t.tbu.tpActive && t.tbu.lastInstant == some 1000000000) = true := by
  decide +kernel

/-- A step of 250 ms back waits. -/
def stepping : State := { onSecond with tbu := { onSecond.tbu with calBase := 5250000000, pend := some { d := 250000000, source := 4, unc := 0, first := false } } }

theorem test_second_instant_steps : stepping.tbu.instantDue stepping.now = true ∧ stepping.tbu.pend ≠ none ∧ stepping.tbu.calValid = true ∧
    then_ (exec (.secondInstant 0) stepping)
      (fun t => t.tbu.pend.isNone && t.tbu.calAt t.now == stepping.tbu.calAt stepping.now - 250000000 && t.tbu.bal == .locked) = true := by
  decide +kernel

theorem test_time_pulse_enable : up.hostUp = true ∧ up.tbu.tpRunning = false ∧
    then_ (exec (.tpEnableWrite 0 0x29) up) (fun t => t.tbu.tpEnable && !t.tbu.tpPol && t.tbu.tpWidth == 10) = true ∧
    bit 0x25 0 = true ∧ pulsing.tbu.tpRunning = true ∧
    then_ (exec (.tpEnableWrite 0 0x25) pulsing) (fun t => t.tbu.tpEnable && t.tbu.tpWidth == pulsing.tbu.tpWidth && bit t.tbu.status.w 4) =
      true := by decide +kernel

def slewing : State := { onSecond with tbu := { onSecond.tbu with slew := 1000, slewEnd := some 1000000000 } }

theorem test_slew_done : slewing.tbu.slewEnd = some 1000000000 ∧ 1000000000 ≤ slewing.now ∧
    then_ (exec (.slewDone 0) slewing) (fun t => t.tbu.slew == 0 && t.tbu.slewEnd.isNone) = true := by decide +kernel

def held2 : State := { onSecond with tbu := { onSecond.tbu with bal := .holdover, holdLimit := 2 } }

theorem test_hold_limit : held2.tbu.lossTick + held2.tbu.holdLimit * 200000000 ≤ held2.now ∧
    then_ (exec (.holdLimit 0) held2) (fun t => t.tbu.bal == .freerun) = true := by decide +kernel

theorem test_suspect_run : then_ (exec (.suspectRunTimeout 0)
      { up with tbu := { up.tbu with suspect := some { offset := 0, count := 1, startTick := 0, lastTick := 0 } } })
      (fun t => t.tbu.suspect.isNone) = true := by decide +kernel

/-! ### TIME_SET -/

def timeSet3 (flags : Nat) (s : State) : State := on3 (slot (dsc 0x16 flags 0 [])) s

/-- FORCE, turned away by a forced balance, by GNSS, as source HOST, and RELEASE with nothing to release and with FORCE on. -/
theorem test_time_set : let s := timeSet3 4 (reporting up)
    s.headRuns 3 0x16 (slot (dsc 0x16 4 0 [])) ∧ checksPass (s.timeSetChecks (dsc 0x16 4 0 [])) ∧ dFlag (dsc 0x16 4 0 []) 2 = true ∧
    dFlag (dsc 0x16 4 0 []) 4 = false ∧ then_ (exec (.timeSet 0 3) s) (fun t => t.tbu.hostForced && t.tbu.pend.isSome) = true := by
  unfold State.headRuns checksPass; decide +kernel

theorem test_time_set_plain : let s := timeSet3 0 (reporting up)
    s.headRuns 3 0x16 (slot (dsc 0x16 0 0 [])) ∧ checksPass (s.timeSetChecks (dsc 0x16 0 0 [])) ∧ dFlag (dsc 0x16 0 0 []) 2 = false ∧
    s.tbu.hostForced = false ∧ s.tbu.gnssValid = false ∧ then_ (exec (.timeSet 0 3) s) (fun t => t.tbu.pend.isSome) = true ∧
    then_ (exec (.timeSet 0 3) { s with tbu := { s.tbu with hostForced := true } }) (completed 8) = true ∧
    then_ (exec (.timeSet 0 3) { s with tbu := { s.tbu with gnssValid := true } }) (completed 8) = true := by
  unfold State.headRuns checksPass; decide +kernel

theorem test_time_set_release : let s := timeSet3 0x10 (reporting up)
    s.headRuns 3 0x16 (slot (dsc 0x16 0x10 0 [])) ∧ checksPass (s.timeSetChecks (dsc 0x16 0x10 0 [])) ∧ dFlag (dsc 0x16 0x10 0 []) 4 = true ∧
    then_ (exec (.timeSetRelease 0 3) s) (completed 0) = true ∧
    then_ (exec (.timeSetRelease 0 3) { s with tbu := { s.tbu with hostForced := true, bal := .locked, source := 4 } })
      (fun t => !t.tbu.hostForced && t.tbu.noTest && t.tbu.bal == .holdover) = true ∧
    then_ (exec (.timeSetRelease 0 3)
        { s with tbu := { s.tbu with hostForced := true, pend := some { d := 5, source := 4, unc := 0, first := false } } })
      (fun t => !t.tbu.hostForced && t.tbu.pend.isNone) = true := by
  unfold State.headRuns checksPass; decide +kernel

/-- Steering with no calendar time, with an error over STEP_THRESH, with one below it, and with none. -/
theorem test_steer : up.tbu.pend = none ∧ up.tbu.calValid = false ∧ (up.steer 4 7 0 none false none).tbu.pend.isSome = true ∧
    onSecond.tbu.pend = none ∧ onSecond.tbu.calValid = true ∧
    ((onSecond.steer 4 (-1000000000) 0 none false none).tbu.pend.map fun p => (p.d, p.first)) = some (1000000000, false) ∧
    (onSecond.steer 4 (-1000) 9 none false none).tbu.bal = .locked ∧ (onSecond.steer 4 (-1000) 9 none false none).tbu.slew < 0 ∧
    0 < (onSecond.steer 4 1000 9 none false none).tbu.slew ∧ (onSecond.steer 4 0 9 none false none).tbu.slewEnd = none := by decide +kernel

/-! ### Host presence and the PCIe link -/

def present (s : State) : State := s.onHre fun h => { h with hostState := .present, timerArmed := true }

theorem test_heartbeat : up.hostUp = true ∧ then_ (exec (.hostHbWrite 0 1) up) (fun t => t.hre.hostState == .present && t.hre.timerArmed) = true ∧
    then_ (exec (.hostHbWrite 0 1) { up with hre := { up.hre with hostState := .lostSafe } })
      (fun t => t.hre.hostState == .safeHold && (t.src 49).pending) = true := by decide +kernel

theorem test_device_heartbeat : up.isReady 1 = true ∧ up.hre.devHbTick + 200000 ≤ up.now ∧
    then_ (exec (.devHbTick 0) up) (fun t => t.hre.devHb == 1) = true := by decide +kernel

theorem test_host_lost : (present up).hre.timerArmed = true ∧ (present up).hre.hostState = .present ∧ (present up).hre.policySafe = false ∧
    (present up).hre.timerTick + (present up).hre.lostTimeMs * 200000 ≤ (present up).now ∧
    then_ (exec (.hostLost 0) (present up)) (fun t => t.hre.hostState == .lostContinue && t.hre.hostLostCount == 1) = true := by decide +kernel

def lostSafePolicy : State := (present up).onHre fun h => { h with policySafe := true }

theorem test_host_lost_safe : (lostSafePolicy.hre.hostState = .present ∧ lostSafePolicy.hre.policySafe = true) ∧
    lostSafePolicy.hre.timerTick + lostSafePolicy.hre.lostTimeMs * 200000 ≤ lostSafePolicy.now ∧
    then_ (exec (.hostLost 0) lostSafePolicy) (fun t => t.hre.hostState == .lostSafe) = true := by decide +kernel

def continuing : State := up.onHre fun h => { h with hostState := .lostContinue }

theorem test_continue_limit : continuing.hre.continueTick + continuing.hre.continueLimit * 20000000 ≤ continuing.now ∧
    then_ (exec (.continueLimitExpiry 0) continuing) (fun t => t.hre.hostState == .lostSafe) = true := by decide +kernel

theorem test_resume : then_ (exec (.resume 0 1) (up.onHre fun h => { h with hostState := .safeHold })) (fun t => t.hre.hostState == .present) =
    true := by decide +kernel

theorem test_link_down : (on3 nop3 up).hre.linkUp = true ∧
    then_ (exec (.pcieLinkDown 0) (on3 nop3 up)) (fun t => !t.hre.linkUp && (t.ring 3).mode == .disabled && !t.isReady 1) = true := by
  decide +kernel

def linkless : State := { up with prs := { up.prs with ready := 0x3FFD }, hre := {} }

theorem test_link_up : linkless.prs.running = true ∧ linkless.powered 1 = true ∧ linkless.prs.inReset = false ∧ linkless.hre.linkUp = false ∧
    linkless.isReady 1 = false ∧ then_ (exec (.pcieLinkUp 0 3 4) linkless) (fun t => t.isReady 1 && t.hre.linkWidth == 4) = true := by
  decide +kernel

theorem test_flr : up.prs.planned = none ∧ up.prs.inReset = false ∧
    then_ (exec (.flr 0) up) (fun t => (t.prs.planned.map Planned.cause) == some 7) = true := by decide +kernel

theorem test_perst : then_ (exec (.perst 0) (on3 nop3 up)) (fun t => t.prs.cause == 8 && !t.hre.linkUp && (t.ring 3).mode == .disabled) = true := by
  decide +kernel

/-! ### Ward, seal, BEAT_OUT -/

def ward3 (action : Nat) (s : State) : State := on3 (slot (dsc 0x17 0 0 [fld 16 1 action])) s
def onPrs' (f : Prs → Prs) : State := { up with prs := f up.prs }

theorem test_ward_open : let s := ward3 0 (reporting up)
    s.headRuns 3 0x17 (slot (dsc 0x17 0 0 [fld 16 1 0])) ∧ dfield (dsc 0x17 0 0 [fld 16 1 0]) 16 1 = 0 ∧
    checksPass (wardChecks (dsc 0x17 0 0 [fld 16 1 0])) ∧ s.prs.ward = .closed ∧
    then_ (exec (.wardOpen 0 3) s) (fun t => t.prs.ward == .armed && completed 0 t) = true ∧
    then_ (exec (.wardOpen 0 3) { s with prs := { s.prs with ward := .opened } }) (fun t => t.prs.ward == .opened && completed 0 t) = true := by
  unfold State.headRuns checksPass; decide +kernel

theorem test_ward_close : let s := ward3 1 (reporting (onPrs' fun p => { p with ward := .opened }))
    s.headRuns 3 0x17 (slot (dsc 0x17 0 0 [fld 16 1 1])) ∧ dfield (dsc 0x17 0 0 [fld 16 1 1]) 16 1 = 1 ∧
    checksPass (wardChecks (dsc 0x17 0 0 [fld 16 1 1])) ∧
    then_ (exec (.wardClose 0 3) s) (fun t => t.prs.ward == .closed && completed 0 t) = true := by
  unfold State.headRuns checksPass; decide +kernel

def armed (press : Press) (raw : Bool) : State := onPrs' fun p => { p with ward := .armed, press, keyRaw := raw }

/-- The key goes down, comes up 50 ms and more after, and comes up 5 ns too early. -/
theorem test_key : true ≠ (armed .idle false).prs.keyRaw ∧
    then_ (exec (.keySwChange 0 true) (armed .idle false)) (fun t => t.prs.press == .pressed) = true ∧
    (armed .pressed true).prs.keyTick + 10000000 ≤ (armed .pressed true).now ∧
    then_ (exec (.keySwChange 0 false) (armed .pressed true)) (fun t => t.prs.press == .released) = true ∧
    then_ (exec (.keySwChange 0 false) { armed .pressed true with prs := { (armed .pressed true).prs with keyTick := 990000001 } })
      (fun t => t.prs.press == .idle) = true := by decide +kernel

theorem test_key_timer : let s := { armed .released false with prs := { (armed .released false).prs with keyTick := 900000000 } }
    s.prs.keyTick + 10000000 ≤ s.now ∧ s.prs.ward = .armed ∧ s.prs.press = .released ∧
    (s.prs.keyTick + 10000000) / 2 ≤ (s.prs.wardTick + 6000000000) / 2 ∧
    then_ (exec (.keyPressTimer 0) s) (fun t => t.prs.ward == .opened && t.prs.wardTick == 910000000) = true ∧
    then_ (exec (.keyPressTimer 0) (armed .pressed true)) (fun t => t.prs.press == .held && t.prs.keyFiltered) = true := by decide +kernel

theorem test_key_timeout : ((armed .idle false).elapse 5000000000).prs.wardTick + 6000000000 ≤ ((armed .idle false).elapse 5000000000).now ∧
    then_ (exec (.keyTimeout 5000000000) (armed .idle false)) (fun t => t.prs.ward == .closed && bit t.prs.fault.w 2) = true := by decide +kernel

theorem test_ward_expires : let s := onPrs' fun p => { p with ward := .opened }
    (s.elapse 23000000000).prs.wardTick + 24000000000 ≤ (s.elapse 23000000000).now ∧
    then_ (exec (.wardExpiry 23000000000) s) (fun t => t.prs.ward == .closed) = true := by decide +kernel

def sealed (fails : Nat) : State := { onPrs' (fun p => { p with sealFails := fails }) with nv := { up.nv with sealEnable := true } }

/-- The check that follows, the third that does not, and the fourth. -/
theorem test_seal : (sealed 2).isReady 0 = true ∧ (sealed 2).nv.sealEnable = true ∧ (sealed 2).prs.sealTick + 2000000 ≤ (sealed 2).now ∧
    then_ (exec (.sealCheck 0 true) (sealed 2)) (fun t => t.prs.sealFails == 0 && !t.nv.sealBroken) = true ∧
    then_ (exec (.sealCheck 0 false) (sealed 2)) (fun t => t.prs.sealFails == 3 && t.nv.sealBroken) = true ∧
    then_ (exec (.sealCheck 0 false) (sealed 3)) (fun t => t.prs.sealFails == 3 && !t.nv.sealBroken) = true := by decide +kernel

def beating : State := onPrs' fun p => { p with beatEn := true }

theorem test_beat : beating.beatAllowed = true ∧ beating.tbu.pllLocked = true ∧ beating.prs.beatTick < beating.now / 100000 * 100000 ∧
    then_ (exec (.beatOutToggle 0) beating) (fun t => t.prs.beatLevel && t.prs.beatRun) = true ∧
    then_ (exec (.beatOutToggle 0) up) (fun t => !t.prs.beatLevel && !t.prs.beatRun) = true := by decide +kernel

theorem test_beat_control : up.hostUp = true ∧
    then_ (exec (.beatCtlWrite 0 2) beating) (fun t => !t.prs.beatEn && t.prs.dropOnSafe) = true := by decide +kernel

/-! ### Power and resets -/

/-- A die reset with a cause has begun. -/
def resetBy (k : Nat) (a : Answer) : Bool := then_ a fun t => t.prs.inReset && t.prs.cause == k && t.gle == {} && t.powered 0 && !t.powered 1

theorem test_die_resets : up.prs.running = true ∧ up.prs.inReset = false ∧ up.tbu.pllLocked = true ∧ up.prs.aonRecurs up.now = false ∧
    resetBy 2 (exec (.rootClock 0) up) = true ∧ resetBy 3 (exec (.coreSupply 0) up) = true ∧ resetBy 4 (exec (.thermal 0 150) up) = true ∧
    resetBy 5 (exec (.supervisor 0 0) up) = true ∧ resetBy 5 (exec (.supervisor 0 1) up) = true ∧
    resetBy 5 (exec (.supervisor 0 7) up) = true := by decide +kernel

theorem test_thermal_warning : then_ (exec (.thermalWarn 0 135) up) (fun t => bit t.prs.fault.w 3 && t.prs.dieC == 135) = true ∧
    then_ (exec (.thermalWarn 0 134) up) (fun t => !bit t.prs.fault.w 3) = true := by decide +kernel

theorem test_power_on : then_ (exec (.powerOn 0) { up with nv := { up.nv with optime := 77 } })
    (fun t => t.tbu.tick == 0 && t.tbu.optime == 77 && t.nv.pcycle == 2 && t.prs.cause == 1 && !t.prs.running) = true := by decide +kernel

theorem test_por_release : State.reset.prs.running = false ∧
    then_ (exec (.porNRelease 5 true) State.reset) (fun t => t.prs.running && t.prs.svcJ && t.prs.powered == 0xFF) = true := by decide +kernel

def aonOnce : State := onPrs' fun p => { p with aonFaultTick := some 0 }

theorem test_aon_recurs : aonOnce.prs.aonRecurs aonOnce.now = true ∧
    then_ (exec (.aonFail 0) aonOnce) (fun t => t.tbu.tick == 0 && t.prs.cause == 11 && t.prs.running) = true := by decide +kernel

/-- Bit 8, domain 4, domain 5, and a key that is none. -/
theorem test_host_requests : bit 0xA5000100 8 = true ∧ bits 0xA5000100 24 8 = 0xA5 ∧
    then_ (exec (.hostRequest 0 0xA5000100) up) (fun t => (t.prs.planned.map Planned.cause) == some 6) = true ∧
    then_ (exec (.hostRequest 0 0xA4000100) up) (fun t => t.prs.planned.isNone && bit t.prs.fault.w 5) = true ∧
    then_ (exec (.domainResetRequest 0 0xA4000010) up) (fun t => t.prs.planned.isNone && bit t.prs.fault.w 5) = true := by decide +kernel

theorem test_domain_resets : bits 0xA5000010 0 8 = 2 ^ 4 ∧ bit 0xA5000010 8 = false ∧ up.powered 4 = true ∧
    then_ (exec (.domainResetRequest 0 0xA5000010) { up with gnb := { up.gnb with elevMask := 3 } })
      (fun t => t.gnb == {} && t.powered 4 && !t.isReady 6 && t.prs.cause == 9) = true ∧ bits 0xA5000020 0 8 = 2 ^ 5 ∧
    then_ (exec (.domainResetRequest 0 0xA5000020) up) (fun t => t.prs.planned == some { cause := 9, domains := 32, tick := up.now }) = true := by
  decide +kernel

def planning : State := onPrs' fun p => { p with planned := some { cause := 6, domains := 0, tick := 0 } }

theorem test_planned_reset : planning.anyRunning = false ∧ 0 + 20000 ≤ planning.now ∧ planning.prs.inReset = false ∧
    resetBy 6 (exec (.plannedResetBegin 0) planning) = true := by decide +kernel

def resetting : State := onPrs' fun p => { p with inReset := true, powered := 0x01#8 }

theorem test_internal_release : resetting.prs.clockLost = false ∧ resetting.prs.resetTick + 20000 ≤ resetting.tbu.wall ∧
    then_ (exec (.internalResetRelease 0) resetting) (fun t => !t.prs.inReset && t.prs.powered == 0xFF) = true := by decide +kernel

def unready : State := onPrs' fun p => { p with ready := 0 }

theorem test_function_ready : unready.prs.running = true ∧ unready.powered (readyDomain 4) = true ∧ unready.isReady 4 = false ∧
    unready.tbu.pllLocked = true ∧ unready.hre.linkUp = true ∧ unready.powered (readyDomain 0) = true ∧ unready.powered (readyDomain 1) = true ∧
    then_ (exec (.functionReady 0 4) unready) (fun t => t.isReady 4 && !t.isReady 0) = true ∧
    then_ (exec (.functionReady 0 1) unready) (fun t => t.isReady 1) = true ∧ (∀ k ∈ [2, 3, 5, 6], unready.powered (readyDomain k) = true) ∧
    0 < Config.gnssAntennas unready.part ∧ unready.prs.inReset = false ∧
    (∀ k ∈ [2, 3, 5, 6], then_ (exec (.functionReady 0 k) unready) (fun t => t.isReady k) = true) := by decide +kernel

theorem test_domain_switch : (∀ k, k ∈ [2, 3, 5, 6] → bit 0xEF k = up.prs.domainEn.getLsbD k) ∧ bit 0xEF 4 = false ∧ up.prs.domainEn.getLsbD 4 = true ∧
    then_ (exec (.domainEnableWrite 0 0xEF) up) (fun t => !t.powered 4 && t.powered 3 && !t.isReady 6) = true ∧
    then_ (exec (.domainEnableWrite 0 0xFF) (onPrs' fun p => { p with powered := 0xEF, domainEn := 0xEF })) (fun t => t.powered 4) = true := by
  decide +kernel

def failedBefore : State := onPrs' fun p => { p with failTick := [(3, some 900000000), (4, some 900000000)] }

theorem test_domain_fails : up.canFail 3 = true ∧ up.canFail 4 = true ∧ up.failedLately 3 = false ∧ failedBefore.failedLately 3 = true ∧
    then_ (exec (.domainFailure 0 3) up) (fun t => t.powered 3 && !t.isReady 5 && t.prs.cause == 10) = true ∧
    then_ (exec (.mapFailure 0) failedBefore) (fun t => !t.powered 3 && bit t.prs.fault.w 4) = true ∧
    then_ (exec (.domainFailure 0 4) failedBefore) (fun t => !t.powered 4 && !t.prs.domainEn.getLsbD 4) = true := by decide +kernel

theorem test_power_fail : up.prs.pfw = false ∧ up.evr.inFlight = none ∧
    then_ (exec (.powerFailWarning 0) { up with tbu := { up.tbu with optime := 4 } }) (fun t => t.prs.pfw && t.nv.optime == 4) = true ∧
    then_ (exec (.powerFailRecover 0) (onPrs' fun p => { p with pfw := true })) (fun t => !t.prs.pfw) = true := by decide +kernel

/-! ### Interrupts -/

def icu (srcs : Tbl Src) (targets : Tbl Target) : State :=
  { up with icu := { srcs, targets }, hre := { up.hre with msixEnable := true, msix := [(2, { addr := 64, data := 9, masked := false })] } }

def pend (p : Nat) : Src := { pending := true, priority := p, target := 2, events := 3 }

/-- Three sources at target 2, two of the highest priority; the message held by a masked entry is sent on its unmasking. -/
theorem test_commit : let s := icu [(5, pend 1), (7, pend 4), (9, pend 4)] []
    (s.target 2).slot = none ∧ (s.target 2).parked = false ∧ s.candidate 2 7 = true ∧ s.hre.msixEnable = true ∧ s.hre.linkUp = true ∧
    then_ (exec (.icuCommit 0 2) s)
      (fun t => (t.target 2).slot.any (fun c => c.source == 7 && c.priority == 4 && c.events == 3 && c.cycle == 500000000) && t.out.msix == [(2, 64, 9)]) = true ∧
    then_ (exec (.icuCommit 0 2) { s with hre := { s.hre with msix := [] } }) (fun t => t.out.msix == [] && t.hre.pba == 4) = true := by
  decide +kernel

def slotted : State := icu [(7, pend 4)] [(2, { slot := some { source := 7, priority := 4, events := 3 }, stack := [1] })]

/-- The claim of a source that had an event, and of one whose pending bit was set, in the very cycle. -/
theorem test_claim_same_cycle : let s := icu [(7, { pend 4 with lastTick := some 1000000001 })] [(2, { slot := some { source := 7, priority := 4, events := 3 } })]
    let p := icu [(7, { pend 4 with setCycle := some 500000000 })] [(2, { slot := some { source := 7, priority := 4, events := 3 } })]
    1000000001 / 2 = s.cycle ∧ (s.src 7).count = 1 ∧ (p.src 7).setCycle = some p.cycle ∧ (p.src 7).lastTick = none ∧ p.committing = [] ∧
    then_ (exec (.tgtClaimRead 0 2) s) (fun t => (t.src 7).pending && (t.src 7).events == 1) = true ∧
    then_ (exec (.tgtClaimRead 0 2) p) (fun t => (t.src 7).pending && (t.src 7).events == 1) = true := by decide +kernel

/-- A commit of this cycle does not stand against a MASK write of its cycle. -/
theorem test_mask_in_commit_cycle : let s := icu [(7, pend 4)] [(2, { slot := some { source := 7, priority := 4, events := 3, cycle := 500000000 } })]
    s.hostTo 0 = true ∧ (s.target 2).slot = some { source := 7, priority := 4, events := 3, cycle := 500000000 } ∧ s.cycle = 500000000 ∧
    7 / 32 = 0 ∧ bit 0x80 (7 % 32) = true ∧
    then_ (exec (.registerWrite 0 0x4100 0x80 true) s) (fun t => (t.src 7).masked && (t.src 7).pending && (t.target 2).slot.isNone) = true := by
  decide +kernel

theorem test_claim : (slotted.target 2).slot = some { source := 7, priority := 4, events := 3 } ∧
    then_ (exec (.tgtClaimRead 0 2) slotted) (fun t => t.out.readData == 0x04030007 && (t.target 2).stack == [4, 1] && !(t.src 7).pending) = true ∧
    (slotted.target 3).slot = none ∧
    then_ (exec (.tgtClaimRead 0 3) slotted) (fun t => t.out.readData == 0x80000000 && (t.target 3).spurious == 1) = true := by decide +kernel

theorem test_end_of_interrupt : then_ (exec (.tgtEoiWrite 0 2 0) slotted) (fun t => (t.target 2).stack == []) = true ∧ (slotted.target 3).stack = [] ∧
    then_ (exec (.tgtEoiWrite 0 3 0) slotted) (fun t => bit t.icu.fault.w 0) = true := by decide +kernel

theorem test_msix_unmask : let s := { slotted with hre := { slotted.hre with pba := 8 } }
    s.hre.msixFuncMask = false ∧ then_ (exec (.msixUnmask 0 3) s) (fun t => t.out.msix == [(3, 0, 0)] && t.hre.pba == 0) = true := by decide +kernel

theorem test_software_event : then_ (exec (.icuSwiWrite 0 0x82) up)
    (fun t => (t.src 505).pending && (t.src 511).events == 1 && !(t.src 504).pending) = true := by decide +kernel

theorem test_forced_pending : then_ (exec (.icuPendWrite 0 2 0x3) up) (fun t => (t.src 64).pending && (t.src 65).pending && (t.src 65).events == 0) =
    true := by decide +kernel

def external : State := { up with fbu := { up.fbu with auxi := [(4, 1)] }, icu := { up.icu with srcs := [(500, { filter := 20 })] } }

theorem test_external_edge : Tbl.get 0 external.fbu.auxi 4 = 1 ∧ Tbl.get 0 external.icu.extEdge 4 = (if true then 0 else 1) ∧
    (external.src (496 + 4)).filter ≤ 20 ∧ then_ (exec (.extintEdge 0 4 true 20) external) (fun t => (t.src 500).pending) = true ∧
    then_ (exec (.extintEdge 0 4 true 19) external) (· == external) = true := by decide +kernel

theorem test_coalesce : let s := icu [(7, { count := 5, timeUs := 10, windowTick := some 0, windowCount := 2, events := 2 })] []
    (s.src 7).windowTick = some 0 ∧ (s.src 7).timeUs ≠ 0 ∧ 0 + (s.src 7).timeUs * 200 ≤ s.now ∧
    then_ (exec (.coalesceTimeout 0 7) s) (fun t => (t.src 7).pending && (t.src 7).windowTick.isNone) = true := by decide +kernel

theorem test_source_target : then_ (exec (.srcTargetWrite 0 511 0x725) up)
    (fun t => t.src 511 == { priority := 5, target := 2, filter := 7 }) = true := by decide +kernel

theorem test_park : then_ (exec (.tgtParkWrite 0 15 0x00030171) up)
    (fun t => t.target 15 == { threshold := 1, parked := true, fbEn := true, fallback := 5, graceUs := 3, parkTick := up.now }) = true := by
  decide +kernel

def parked : State := icu [(7, pend 4)] [(2, { parked := true, fbEn := true, fallback := 5, graceUs := 3 })]

theorem test_park_grace : let c := parked.src 7
    let g := parked.target c.target
    c.pending = true ∧ parked.committed 7 = false ∧ g.parked = true ∧ g.fbEn = true ∧ g.fallback ≠ c.target ∧
    g.parkTick + g.graceUs * 200 ≤ parked.now ∧ c.pendTick + g.graceUs * 200 ≤ parked.now ∧ (parked.target 5).parked = false ∧
    then_ (exec (.parkGraceExpiry 0 7) parked) (fun t => (t.src 7).moved && t.effTarget 7 == 5) = true := by decide +kernel

/-- Inside the filter, past it, and the second and third event of a window of three. -/
theorem test_event : (({ filter := 4, lastTick := some 100 } : Src).event 107).events = 0 ∧
    (({ filter := 4, lastTick := some 100 } : Src).event 108).events = 1 ∧ (({ count := 3, windowCount := 1 } : Src).event 5).pending = false ∧
    (({ count := 3, windowCount := 2 } : Src).event 5).pending = true := by decide +kernel

/-! ### The event recorder -/

def rec0 (code : Nat) : Rec := { code, calNs := 0, pcycle := 0, source := 3, optime := 0, snap := [], nsnap := 0, setGen := 0, tick := 0 }

def flying (index : Nat) (staged : List Rec) : State :=
  { up with evr := { up.evr with scanned := true, inFlight := some { rec0 0x102 with index }, staged }, nv := { up.nv with nextIndex := index + 1 } }

theorem test_record_commits : (flying 2047 []).evr.inFlight = some { rec0 0x102 with index := 2047 } ∧ (flying 2047 []).evr.foldWait = [] ∧
    then_ (exec (.recordCommit 0 true) (flying 2047 []))
      (fun t => (Tbl.get none t.nv.records (recSlot 2047)).isSome && t.nv.permFull && t.evr.inFlight.isNone) = true ∧
    then_ (exec (.recordCommit 0 false) (flying 2047 [])) (fun t => t.nv.records == [] && bit t.evr.fault.w 3) = true := by decide +kernel

theorem test_record_next : (flying 4 [rec0 0x103]).evr.lostSince = 0 ∧ then_ (exec (.recordCommit 0 true) (flying 4 [rec0 0x103]))
    (fun t => t.evr.inFlight == some { rec0 0x103 with index := 5 } && t.nv.nextIndex == 6) = true := by decide +kernel

theorem test_scan : up.evr.scanned = false ∧ up.evr.inFlight = none ∧
    then_ (exec (.evrPowerUpScan 0) { up with nv := { up.nv with records := [(recSlot 6, some { rec0 0x102 with index := 6 })] } })
      (fun t => (t.evr.inFlight.map fun r => (r.index, r.code)) == some (7, 1) && t.nv.nextIndex == 8) = true := by decide +kernel

def working : State := { up with evr := { up.evr with snapSel := 4, work := [(0, (0x20, true))] } }

theorem test_snapshot_select : then_ (exec (.snapSelWrite 0 4) { working with nv := { up.nv with snapSets := [(4, { entries := [(1, (8, true))] })] } })
    (fun t => t.evr.work == [(1, (8, true))]) = true := by decide +kernel

theorem test_snapshot_commit : let s := { working with prs := { up.prs with ward := .opened } }
    s.now / 2 < (s.prs.wardTick + 24000000000) / 2 ∧
    then_ (exec (.snapCommitWrite 0 1) s) (fun t => Tbl.get {} t.nv.snapSets 4 == { entries := [(0, (0x20, true))], gen := 1 }) = true ∧
    working.prs.ward ≠ .opened ∧ then_ (exec (.snapCommitWrite 0 1) working) (fun t => t.prs.wardRefused == 1 && t.nv.snapSets == []) = true := by
  decide +kernel

def idleEvr : State := { up with evr := { up.evr with scanned := true, trigEn := 0x1C03 } }

/-- Class 4 not enabled; an event to the idle sequencer, to the queue, and past its 32 entries. -/
theorem test_events_staged : classAlways (0x402 / 256) = false ∧ idleEvr.evr.trigEn.testBit (0x402 / 256) = false ∧
    idleEvr.record 0x402 1 [] = idleEvr ∧ classAlways (0xA01 / 256) = true ∧ idleEvr.tryFold 0xA01 1 = none ∧
    ((idleEvr.record 0xA01 1 []).evr.inFlight.map Rec.index) = some 0 ∧
    ¬ ((flying 4 []).evr.inFlight = none ∧ (flying 4 []).evr.staged = [] ∧ (flying 4 []).evr.scanned = true) ∧
    (flying 4 []).tryFold 0xA01 1 = none ∧ ((flying 4 []).record 0xA01 1 []).evr.staged.length = 1 ∧
    (flying 4 (List.replicate 32 (rec0 0x102))).tryFold 0xA01 1 = none ∧
    ((flying 4 (List.replicate 32 (rec0 0x102))).record 0xA01 1 []).evr.lost = 1 := by decide +kernel

/-- Two events of one BUS cycle: the lower CODE goes first, also before one in flight. -/
theorem test_records_of_a_cycle : let s := { flying 4 [] with evr := { (flying 4 []).evr with inFlight := some { rec0 0xA02 with index := 4, tick := 1000000000 } } }
    s.evr.inFlight.map (fun f => f.tick / 2) = some s.cycle ∧ s.tryFold 0xA01 1 = none ∧
    ((s.record 0xA01 1 []).evr.inFlight.map fun r => (r.code, r.index)) = some (0xA01, 4) ∧
    (insertRec (rec0 0x102) [rec0 0x101, rec0 0x103]).map Rec.code = [0x101, 0x102, 0x103] ∧
    [rec0 0x101, rec0 0x103].Pairwise (fun a b => b.goesBefore a = false) := by decide +kernel

def read3 : DescBits := dsc 0x18 0 0 [fld 16 4 0, fld 20 2 1, fld 24 8 4096, fld 32 4 256]

theorem test_record_read : let s := on3 (slot read3) (reporting { up with nv := { up.nv with records := [(recSlot 6, some { rec0 0x102 with index := 6 })], nextIndex := 7 } })
    s.headRuns 3 0x18 (slot read3) ∧ checksPass (recordReadChecks read3) ∧
    then_ (exec (.recordRead 0 3 true) s) (fun t => completed 0 t && t.out.host.length == 2) = true ∧
    then_ (exec (.recordRead 0 3 false) s) (completed 9) = true := by
  unfold State.headRuns checksPass; decide +kernel

/-! ### Feedback inputs -/

def fbu (f : Fbu) : State := { up with fbu := f }
def fch (c : Fch) : State := fbu { chans := [(2, c)] }

/-- A channel that counts edges of A in one direction, at speed, whose last edge came 1 ms ago at position 10. -/
def counting : Fch := { mode := 1, pos := 10, run := 5, still := false, edgeTick := 999800000, lastA := some 999800000 }

/-- An edge in the direction of the others, one against them, one that does not count, and one 15 ns after the last. -/
theorem test_edge : (fch counting).isReady 3 = true ∧ true ≠ counting.levelA ∧ counting.mode ≠ 0 ∧ ¬ (counting.mode = 3) ∧
    counting.edgeDir ((fch counting).dirClaimed counting) false true false = some false ∧ counting.run ≠ 0 ∧ counting.reverse = false ∧
    counting.isGap ((fch counting).now - counting.edgeTick) = false ∧ counting.extra = none ∧ counting.refMode ≠ 2 ∧
    then_ (exec (.feedbackEdge 0 2 false true false) (fch counting)) (fun t => (t.fch 2).pos == 11 && (t.fch 2).edgeTick == 1000000000) = true ∧
    then_ (exec (.feedbackEdge 0 2 false true false) (fch { counting with dirFix := true })) (fun t => (t.fch 2).pos == 9 && (t.fch 2).reverse &&
      (t.fch 2).run == 1 && (t.fch 2).lastSpeed == 0) = true ∧
    then_ (exec (.feedbackEdge 0 2 false true false) (fch { counting with fallEdge := true })) (fun t => (t.fch 2).pos == 10) = true ∧
    then_ (exec (.feedbackEdge 0 2 false true false) (fch { counting with lastA := some 999999997 }))
      (fun t => (t.fch 2).pos == 10 && (t.fch 2).edgeFast == 1 && bit (t.fch 2).faults.w 0) = true := by decide +kernel

/-- Both tracks change at once. -/
theorem test_edge_double : let c := { counting with mode := 3 }
    true ≠ c.levelA ∧ true ≠ c.levelB ∧
    then_ (exec (.feedbackEdge 0 2 false true true) (fch c)) (fun t => (t.fch 2).pos == 10 && bit (t.fch 2).faults.w 1) = true := by decide +kernel

def toothed (sinceRef : Nat) : Fch :=
  { counting with refMode := 1, missing := 2, teeth := 60, refSeen := true, skipCompare := false, sinceRef, lastInterval := some 66000,
                  intervals := [(66000, 1)] }

/-- A gap of two missing teeth where TEETH says, and one tooth early. -/
theorem test_edge_gap : (toothed 57).isGap ((fch (toothed 57)).now - (toothed 57).edgeTick) = true ∧ (toothed 57).sinceRef + 2 + 1 = 60 ∧
    then_ (exec (.feedbackEdge 0 2 false true false) (fch (toothed 57)))
      (fun t => (t.fch 2).pos == 13 && (t.fch 2).sync && (t.fch 2).angle == 0 && (t.fch 2).rev == 1) = true ∧
    then_ (exec (.feedbackEdge 0 2 false true false) (fch (toothed 56)))
      (fun t => !(t.fch 2).sync && bit (t.fch 2).faults.w 2 && (t.fch 2).idxErr == -1) = true := by decide +kernel

/-- The second clean edge of a recovery, and an edge of a channel whose direction ball is not claimed. -/
theorem test_edge_recovers : let c := { counting with scSource := true, cleanEdges := 1, mode := 3, quadX := 2, scEn := true, scValid := true }
    c.edgeDir ((fch c).dirClaimed c) false true false ≠ none ∧
    then_ (exec (.feedbackEdge 0 2 false true false) (fch c)) (fun t => (t.fch 2).pos == 10 && !(t.fch 2).scSource) = true ∧
    then_ (exec (.feedbackEdge 0 2 false true false) (fch { counting with dirSel := 1 })) (fun t => bit (t.fch 2).faults.w 5) = true := by
  decide +kernel

/-- Both inputs of a quadrature channel change while its tracks drive position: the edge is in recovery. -/
theorem test_edge_in_recovery : let c := { counting with scSource := true, cleanEdges := 0, mode := 3, quadX := 2, scEn := true, scValid := true }
    then_ (exec (.feedbackEdge 0 2 false true false) (fch c)) (fun t => (t.fch 2).scSource && (t.fch 2).edgeTick == 1000000000) = true := by
  decide +kernel

theorem test_standstill : counting.still = false ∧ { counting with edgeTick := 0 }.edgeTick + counting.stillMs * 200000 ≤ up.now ∧
    then_ (exec (.standstill 0 2) (fch { counting with edgeTick := 0 })) (fun t => (t.fch 2).still && t.fchSpeed 2 == 0 && (t.src 411).pending) =
      true := by decide +kernel

/-- A change of MODE, and a write that keeps it. -/
theorem test_feedback_mode : up.hostTo 6 = true ∧ bits 0x00050003 0 2 ≠ counting.mode ∧
    then_ (exec (.fbuModeWrite 0 2 0x00050003) (fch counting)) (fun t => (t.fch 2).mode == 3 && (t.fch 2).pos == 0 && (t.fch 2).minEdge == 5) =
      true ∧ bits 0x00050061 0 2 = counting.mode ∧
    then_ (exec (.fbuModeWrite 0 2 0x00050061) (fch counting)) (fun t => (t.fch 2).dirFix && (t.fch 2).pos == 10) = true := by decide +kernel

def sinCos : Fch := { counting with mode := 3, scEn := true, scGood := 98 }

/-- A sample outside the window, the 99th good one, and the 100th. -/
theorem test_sincos : (fch sinCos).now % 200 = 0 ∧ sinCos.scTick = none ∧
    then_ (exec (.sincosSample 0 2 0 1537) (fch { sinCos with scSource := true }))
      (fun t => bit (t.fch 2).faults.w 3 && (t.fch 2).scGood == 0 && !(t.fch 2).scSource) = true ∧
    then_ (exec (.sincosSample 0 2 0 511) (fch sinCos)) (fun t => bit (t.fch 2).faults.w 3) = true ∧
    then_ (exec (.sincosSample 0 2 1536 0) (fch sinCos)) (fun t => !(t.fch 2).scValid && (t.fch 2).scGood == 99 && (t.fch 2).fine == 256) = true ∧
    then_ (exec (.sincosSample 0 2 0 512) (fch { sinCos with scGood := 99 })) (fun t => (t.fch 2).scValid) = true := by decide +kernel

/-- The eight octants: the angles of the axes and of the diagonals. -/
theorem test_angle : [scAngleOf 0 1024, scAngleOf 700 700, scAngleOf 1024 0, scAngleOf 700 (-700), scAngleOf 0 (-1024),
    scAngleOf (-700) (-700), scAngleOf (-1024) 0, scAngleOf (-700) 700] = [0, 128, 256, 384, 512, 640, 768, 896] := by decide +kernel

/-- The tracks drive position, and cross from the last quarter of a period into the first: a period more; and no crossing. -/
theorem test_sincos_leads : let c : Fch := { sinCos with scGood := 100, scValid := true, scSource := true, scAngle := some 1000, scCount := 11240 }
    let d : Fch := { c with scAngle := some 10, scCount := 10250 }
    (d.scSample (scAngleOf 0 1024) up.now).scLead = 0 ∧ (c.scSample (scAngleOf 0 1024) up.now).scLead ≠ 0 ∧
    then_ (exec (.sincosSample 0 2 0 1024) (fch c))
      (fun t => (t.fch 2).scSource && (t.fch 2).pos == wrap32 (10 + (c.scSample (scAngleOf 0 1024) up.now).scLead)) = true ∧
    then_ (exec (.sincosSample 0 2 0 1024) (fch d)) (fun t => (t.fch 2).scSource && (t.fch 2).pos == 10) = true := by decide +kernel

theorem test_feedback_sample : let s := reporting (fbu { chans := [(2, { counting with rptMs := 5 })], ains := [(2, { rptMs := 10, value := 3 })] })
    s.routeTakes 0x46 1 ∧ s.now % (200000 * 5) = 0 ∧ then_ (exec (.feedbackSample 0 false 2) s) (fun t => lastOp t == 0x46) = true ∧
    s.now % (200000 * 10) = 0 ∧
    then_ (exec (.feedbackSample 0 true 2) s)
      (fun t => match t.out.host with | [.report _ _ r] => r.payload == [fld 16 1 18, fld 38 2 3, fld 48 8 t.cal] | _ => false) = true := by
  unfold State.routeTakes State.ringTakes; decide +kernel

/-! ### Comparators -/

def cmpAt (c : Cmp) : State := fbu { chans := [(2, counting)], cmps := [(5, c)] }

/-- A value ahead, one behind that is not armed, and one behind under IMMEDIATE. -/
theorem test_compare_write : ¬ wrap32 ((11#32).toInt - ((cmpAt {}).fch (5 / 2)).pos) ≤ 0 ∧
    then_ (exec (.cmpWrite 0 5 false 11) (cmpAt {})) (fun t => (t.fcmp 5).value == 11 && !(t.fcmp 5).behind) = true ∧
    wrap32 ((9#32).toInt - ((cmpAt {}).fch (5 / 2)).pos) ≤ 0 ∧
    then_ (exec (.cmpWrite 0 5 false 9) (cmpAt {})) (fun t => (t.fcmp 5).behind && !(t.fcmp 5).fired) = true ∧
    then_ (exec (.cmpWrite 0 5 true 5) (cmpAt { value := 10 })) (fun t => (t.fcmp 5).behind && (t.fcmp 5).fired && !(t.fcmp 5).arm) = true ∧
    then_ (exec (.cmpWrite 0 5 true 4) (cmpAt { value := 9 })) (fun t => (t.fcmp 5).immediate && !(t.fcmp 5).behind) = true := by
  decide +kernel

theorem test_compare_fires : ({ value := 11, arm := true, action := 3 } : Cmp).crossed 10 11 = true ∧
    ((cmpAt { value := 11, arm := true, action := 3 }).moveTo 2 11).fcmp 5 = { value := 11, fired := true, action := 3, level := true } ∧
    ({ value := 12, arm := true } : Cmp).crossed 10 11 = false ∧
    ((cmpAt { value := 12, arm := true }).moveTo 2 11).fcmp 5 = { value := 12, arm := true } := by decide +kernel

theorem test_compare_pulse_ends : let s := cmpAt { level := true, pulseTick := some 0 }
    (s.fcmp 5).pulseTick = some 0 ∧ 0 + (s.fcmp 5).pulseUs * 200 ≤ s.now ∧
    then_ (exec (.comparePulseEnd 0 5) s) (fun t => !(t.fcmp 5).level) = true := by decide +kernel

/-! ### Claims and captures -/

theorem test_aux_in : Tbl.get 0 (fbu { auxi := [(3, 2)] }).fbu.auxi 3 = 2 ∧
    then_ (exec (.auxSelWrite 0 false 3 2) up) (fun t => Tbl.get 0 t.fbu.auxi 3 == 2) = true ∧
    then_ (exec (.auxSelWrite 0 false 3 1) (fbu { auxi := [(3, 2)] })) (fun t => Tbl.get 0 t.fbu.auxi 3 == 2 && t.fbu.claimCount == 1) = true := by
  decide +kernel

/-- A free output, which follows BEAT_OUT, an output in use, and a function another output has. -/
theorem test_aux_out :
    then_ (exec (.auxSelWrite 0 true 7 10) up) (fun t => Tbl.get 0 t.fbu.auxo 7 == 10 && t.auxoLevel 7 == t.prs.beatLevel) = true ∧
    then_ (exec (.auxSelWrite 0 true 7 9) (fbu { auxo := [(7, 10)] })) (fun t => t.fbu.claimLast == 15) = true ∧
    then_ (exec (.auxSelWrite 0 true 6 10) (fbu { auxo := [(7, 10)] })) (fun t => t.fbu.claimLast == 42) = true := by decide +kernel

theorem test_probe_enable : bit 0x0521 0 = true ∧ bits 0x0521 8 4 = 5 ∧ (up.fprobe 3).enable = false ∧ Tbl.get 0 up.fbu.auxi 3 ≠ 1 ∧
    (up.cap 5).enable = false ∧ (up.cap 5).probeOwner = none ∧
    then_ (exec (.probeEnableWrite 0 3 0x0521) up)
      (fun t => t.fprobe 3 == { enable := true, src := 2, timer := 5 } && (t.cap 5).probeOwner == some 3) = true ∧
    then_ (exec (.probeEnableWrite 0 3 0x0521) (fbu { caps := [(5, { enable := true })] })) (fun t => !(t.fprobe 3).enable && t.fbu.claimLast == 21) =
      true := by decide +kernel

def probing (n : Nat) : State :=
  fbu { chans := [(2, counting)], auxi := [(3, 2)], probes := [(3, { enable := true, src := 2, timer := 5 })],
        caps := [(5, { enable := true, polarity := 0, fifo := List.replicate n { tick := 7, rising := false } })] }

theorem test_probe_latch : takesEdge ((probing 7).fprobe 3).polarity true = true ∧ ((probing 7).cap 5).fifo.length < 8 ∧
    then_ (exec (.probeLatch 0 3 true) (probing 7)) (fun t => (t.cap 5).fifo.getLast? == some { tick := t.now, rising := true, pos := some 10 }) = true ∧
    then_ (exec (.probeLatch 0 3 true) (probing 8)) (fun t => (t.cap 5).fifo.length == 8 && bit t.fbu.fault.w 1) = true := by decide +kernel

def capturing (n : Nat) (c : Cap) : State :=
  fbu { caps := [(5, { c with enable := true, input := 18, fifo := List.replicate n { tick := 7, rising := false } })] }

/-- Input B of channel 2: a timer on it takes the edge, one that takes falling edges only follows the level, one whose FIFO is full
overruns; input A is none of its business. -/
theorem test_capture : takesEdge ((capturing 7 {}).cap 5).polarity true = true ∧
    then_ (exec (.captureEdge 0 ⟨2, true⟩ true) (capturing 7 {}))
      (fun t => (t.cap 5).fifo.getLast? == some { tick := t.now, rising := true } && (t.cap 5).level) = true ∧
    takesEdge ((capturing 7 { polarity := 1 }).cap 5).polarity true = false ∧
    then_ (exec (.captureEdge 0 ⟨2, true⟩ true) (capturing 7 { polarity := 1 })) (fun t => (t.cap 5).fifo.length == 7 && (t.cap 5).level) = true ∧
    then_ (exec (.captureEdge 0 ⟨2, true⟩ true) (capturing 8 {})) (fun t => (t.cap 5).fifo.length == 8 && bit t.fbu.fault.w 1) = true ∧
    then_ (exec (.captureEdge 0 ⟨2, false⟩ true) (capturing 7 {})) (· == capturing 7 {}) = true := by decide +kernel

theorem test_capture_read : (exec (.capDataRead 0 5) (probing 1) |> (then_ · fun t => t.out.readData == 0 && (t.cap 5).fifo == [])) = true := by
  decide +kernel

/-- Disabling a timer, enabling a free one, and enabling one that a probe has. -/
theorem test_capture_config : then_ (exec (.capCfgWrite 0 5 0x2) (probing 1)) (fun t => !(t.cap 5).enable && (t.cap 5).input == 1) = true ∧
    then_ (exec (.capCfgWrite 0 5 0x41) up) (fun t => (t.cap 5).enable && (t.cap 5).polarity == 1) = true ∧
    then_ (exec (.capCfgWrite 0 5 1) (fbu { caps := [(5, { probeOwner := some 3 })] })) (fun t => !(t.cap 5).enable && t.fbu.claimLast == 21) =
      true := by decide +kernel

/-! ### Repeaters and analogue inputs -/

def rep (p : Rep) : State := fbu { chans := [(2, counting)], reps := [(1, p)] }

/-- A pulse from a channel, and one from the distance the pose has covered: 2 mm at 1,000 pulses a mm. -/
theorem test_repeater : let p : Rep := { mode := 2, src := 2, scale := 65536, acc := 1500000 }
    (rep p).repSource p = true ∧ p.pulses = 0 ∧
    then_ (exec (.repeaterPulse 0 1) (rep p)) (fun t => (t.rep 1).acc == 500000 && (t.rep 1).pulses == 1 && 5000 ≤ (t.rep 1).high) = true ∧
    (let q : Rep := { mode := 3, ppm := 1000, acc := 999999, poseTick := 999800000 }
     let s := { rep q with pse := { up.pse with valid := true, cur := { up.pse.cur with tick := 999800000, speed := 2000 * 65536 } } }
     s.repSource q = true ∧ 1000000 ≤ q.acc + s.poseDistance q ∧
     then_ (exec (.repeaterPulse 0 1) s) (fun t => (t.rep 1).pulses == 1 && (t.rep 1).poseTick == t.now) = true) := by decide +kernel

theorem test_repeater_fails : ((rep { mode := 2, src := 3, scale := 1, acc := 9 }).fch (3 % 16)).mode = 0 ∧
    then_ (exec (.repeaterSourceFail 0 1) (rep { mode := 2, src := 3, scale := 1, acc := 9 }))
      (fun t => (t.rep 1).stopped && (t.rep 1).acc == 0 && bit t.fbu.fault.w 2) = true ∧
    (rep { mode := 3 }).pse.valid = false ∧ then_ (exec (.repeaterSourceFail 0 1) (rep { mode := 3 })) (fun t => (t.rep 1).stopped) = true := by
  decide +kernel

def inputAt (c : Ain) : State := fbu { ains := [(9, c)] }

/-- Below the low limit, above the high one, and the ninth and tenth means inside them. -/
theorem test_analogue : up.now % 20000 = 0 ∧
    then_ (exec (.ainSample 0 9 1000000) (inputAt { lowLim := 60000 })) (fun t => (t.ain 9).low && (t.src 401).pending) = true ∧
    then_ (exec (.ainSample 0 9 1000000) (inputAt { highLim := 5 })) (fun t => (t.ain 9).high) = true ∧
    then_ (exec (.ainSample 0 9 1000000) (inputAt { low := true, inside := 8 })) (fun t => (t.ain 9).low) = true ∧
    then_ (exec (.ainSample 0 9 1000000) (inputAt { low := true, inside := 9 })) (fun t => !(t.ain 9).low) = true := by decide +kernel

/-! ### The regulator engine -/

def rge (f : Rge) : State := { up with rge := f }
def ctx4 (x : Ctx) : State := rge { ctxs := [(4, x)] }

/-- An enabled context, its source LOOPBACK's sibling NONE, its setpoint 1,000. -/
def closed : Ctx :=
  { enable := true, state := .closed, setpoint := 1000, y := 77, hPrev := 5, eHist := [1, 2, 3], hHist := [4, 5, 6],
    bank0 := { b := [2 ^ 28, 0, 0, 0], pts := [(0, 9), (0, 9), (0, 9), (0, 9), (0, 9), (0, 9), (0, 9)] } }

/-- The law on its history, from a preset, and held at OUT_MAX. -/
theorem test_sample_closed : (ctx4 closed).isReady 3 = true ∧ 4 ≤ Config.regContexts (ctx4 closed).part ∧ closed.latest up.now = some 1000000000 ∧
    closed.sampleTick < 1000000000 ∧ closed.swaps = [] ∧ closed.inject = none ∧ closed.injects = [] ∧ (ctx4 closed).idleCtx 4 = false ∧
    (ctx4 closed).srcKindOf 4 = 0 ∧
    then_ (exec (.regSample 0 4) (ctx4 closed)) (fun t => (t.ctx 4).r == 1000 && (t.ctx 4).y == 1000 && (t.ctx 4).eHist == [1000, 1, 2]) = true ∧
    then_ (exec (.regSample 0 4) (ctx4 { closed with presetNext := true })) (fun t => (t.ctx 4).v == 5 && (t.ctx 4).eHist == [1000, 1000, 1000]) =
      true ∧
    then_ (exec (.regSample 0 4) (ctx4 { closed with presetY := true })) (fun t => (t.ctx 4).v == 77) = true ∧
    then_ (exec (.regSample 0 4) (ctx4 { closed with outMax := 9 })) (fun t => (t.ctx 4).y == 9 && (t.ctx 4).clampHi) = true ∧
    then_ (exec (.regSample 0 4) (ctx4 { closed with state := .disabled, starting := true, presetY := true }))
      (fun t => (t.ctx 4).state == .closed && !(t.ctx 4).starting && (t.ctx 4).v == 77) = true := by decide +kernel

/-- Idle by R290: the context follows a product whose demand is 0. -/
theorem test_sample_idle : (ctx4 { closed with spProduct := true }).idleCtx 4 = true ∧
    then_ (exec (.regSample 0 4) (ctx4 { closed with spProduct := true })) (fun t => (t.ctx 4).y == 0 && (t.ctx 4).presetNext) = true := by
  decide +kernel

def nodeFed (mode : Nat) : Ctx := { closed with srcKind := 3, lossMode := mode }

/-- A source node that is away, by the three values of LOSS_MODE, and the states it leads to at their next sample. -/
theorem test_sample_lost : (ctx4 (nodeFed 0)).srcKindOf 4 = 3 ∧ ((ctx4 (nodeFed 0)).targetNode (nodeFed 0).srcAddr).present = false ∧
    (ctx4 (nodeFed 0)).idleCtx 4 = false ∧
    then_ (exec (.regSample 0 4) (ctx4 (nodeFed 0))) (fun t => (t.ctx 4).state == .lostHold && (t.ctx 4).y == 77 && (t.ctx 4).cause == 2) = true ∧
    then_ (exec (.regSample 0 4) (ctx4 (nodeFed 1))) (fun t => (t.ctx 4).state == .lostFf && (t.ctx 4).y == 9) = true ∧
    then_ (exec (.regSample 0 4) (ctx4 (nodeFed 2))) (fun t => (t.ctx 4).state == .safe && !(t.ctx 4).enable && (t.ctx 4).y == 0) = true ∧
    then_ (exec (.regSample 0 4) (ctx4 { nodeFed 0 with state := .lostHold })) (fun t => (t.ctx 4).state == .lostHold && (t.ctx 4).y == 77) = true ∧
    then_ (exec (.regSample 0 4) (ctx4 { nodeFed 1 with state := .lostFf, lostTick := 900000000 })) (fun t => (t.ctx 4).state == .lostFf && (t.ctx 4).y == 9) = true ∧
    (let s : State := ctx4 { nodeFed 0 with state := .lostHold, spProduct := true }
     let h : State := { s with hre := { s.hre with hostState := .lostSafe } }
     (h.idleCtx 4 && h.hostSafe) = true ∧
       then_ (exec (.regSample 0 4) h) (fun t => (t.ctx 4).state == .lostHold && (t.ctx 4).y == t.safeOut 4) = true) ∧
    then_ (exec (.regSample 0 4) (ctx4 { nodeFed 1 with state := .lostFf })) (fun t => (t.ctx 4).state == .safe && !(t.ctx 4).enable) = true := by
  decide +kernel

def bound4 (h : Channel) : State :=
  { ctx4 { closed with bound := some 6, outs := [(1000000000, 4194304)] } with lsb := { up.lsb with chans := [(6, h)] } }

def regulated : Channel := { holding := .regulator, context := 4, cmd := .pwm 100 1000, bindArg := 200 }

/-- Half of full scale, as a duty and as a current. -/
theorem test_output_arrives : ((bound4 regulated).ctx 4).outs = [(1000000000, 4194304)] ∧ ((bound4 regulated).ctx 4).bound = some 6 ∧
    ((bound4 regulated).chan 6).holding = .regulator ∧ ((bound4 regulated).chan 6).keepTick = none ∧ ((bound4 regulated).chan 6).inSafe = false ∧
    then_ (exec (.regOutput 0 4) (bound4 regulated)) (fun t => (t.chan 6).nextDuty == some 500 && (t.ctx 4).outs == []) = true ∧
    then_ (exec (.regOutput 0 4) (bound4 { regulated with bindCurrent := true, cmd := .off })) (fun t => (t.chan 6).cmd == .current 5000 200) =
      true := by decide +kernel

theorem test_output_unbound : let s := ctx4 { closed with outs := [(5, 1), (2000000000, 2)] }
    (s.ctx 4).bound = none ∧ then_ (exec (.regOutput 0 4) s) (fun t => (t.ctx 4).outs == [(2000000000, 2)]) = true := by decide +kernel

theorem test_ctl_loss : let s := { bound4 regulated with rge := { (bound4 regulated).rge with ctlLost := true } }
    s.rge.ctlLost = true ∧ 6 < Config.loadChannels s.part ∧ s.rge.lostTargets = [] ∧
    then_ (exec (.ctlLoss 0) s) (fun t => (t.chan 6).nextDuty == some 0 && !t.rge.ctlLost) = true := by decide +kernel

def idleCtx4 : Ctx := { period := 3 }

/-- Enabling a context: REMOTE tags that do not fit, a timeline that does not, and one that starts. -/
theorem test_context_enable : up.hostTo 6 = true ∧ bit 0x7 0 = true ∧ idleCtx4.enable = false ∧ idleCtx4.tagsFit = true ∧
    (ctx4 idleCtx4).timelineFits 4 = true ∧
    then_ (exec (.ctxEnableWrite 0 4 0x7) (ctx4 idleCtx4)) (fun t => (t.ctx 4).enable && (t.ctx 4).state == .disabled && (t.ctx 4).starting && (t.ctx 4).presetY) = true ∧
    ({ idleCtx4 with remote := true, outPhase := 5 } : Ctx).tagsFit = false ∧
    then_ (exec (.ctxEnableWrite 0 4 0x7) (ctx4 { idleCtx4 with remote := true, outPhase := 5 }))
      (fun t => !(t.ctx 4).enable && bit (t.ctx 4).faults.w 5 && !bit t.rge.fault.w 0) = true ∧
    (ctx4 { idleCtx4 with outPhase := 1 }).timelineFits 4 = false ∧
    then_ (exec (.ctxEnableWrite 0 4 0x7) (ctx4 { idleCtx4 with outPhase := 1 }))
      (fun t => !(t.ctx 4).enable && !bit (t.ctx 4).faults.w 5 && bit t.rge.fault.w 0) = true ∧
    then_ (exec (.ctxEnableWrite 0 4 0x4007) (ctx4 { closed with period := 2 })) (fun t => (t.ctx 4).lossMode == 1 && (t.ctx 4).period == 2 &&
      bit (t.ctx 4).faults.w 5) = true ∧
    then_ (exec (.ctxDisableWrite 0 4 0x6) (ctx4 { closed with inject := some { point := 0, wave := 1, log := false, amp := 1, duration := 9, p1 := 0, p2 := 0, tick := 0 } }))
      (fun t => !(t.ctx 4).enable && (t.ctx 4).state == .disabled && bit (t.ctx 4).faults.w 3) = true := by decide +kernel

/-! ### Banks, injections, traces -/

def load0 : DescBits := dsc 0x0F 0 0 [fld 16 1 4, fld 18 1 3, fld 20 4 7, fld 24 4 8, fld 40 4 9]
def load1 : DescBits := dsc 0x0F 0 0 [fld 16 1 4, fld 17 1 1, fld 23 3 5]

theorem test_bank_load : let s := on3 (slot load0) (reporting (ctx4 closed))
    s.headRuns 3 0x0F (slot load0) ∧ checksPass (bankLoadChecks load0) ∧ (s.ctx 4).calStaged = false ∧ dfield load0 17 1 = 0 ∧
    then_ (exec (.bankLoad 0 3) s)
      (fun t => completed 0 t && (t.ctx 4).shadow == { order := 3, fbScale := 7, b := [8, 0, 0, 0], a := [9, 0, 0] } && (t.ctx 4).hostOwnsShadow) =
      true := by
  unfold State.headRuns checksPass; decide +kernel

theorem test_bank_load_table : let s := on3 (slot load1) (reporting (ctx4 closed))
    s.headRuns 3 0x0F (slot load1) ∧ checksPass (bankLoadChecks load1) ∧ dfield load1 17 1 = 1 ∧
    then_ (exec (.bankLoad 0 3) s) (fun t => (t.ctx 4).shadow.pts.head? == some (0, 5) && (t.ctx 4).shadow.order == 2) = true := by
  unfold State.headRuns checksPass; decide +kernel

def swap4 : DescBits := dsc 0x10 0 0 [fld 16 1 0x10, fld 32 1 2]

theorem test_bank_swap : let s := on3 (slot swap4) (reporting (ctx4 closed))
    s.headRuns 3 0x10 (slot swap4) ∧ checksPass (s.bankSwapChecks swap4) ∧ dfield swap4 16 16 = 2 ^ 4 ∧
    then_ (exec (.bankSwap 0 3) s) (fun t => (t.ctx 4).swaps == [{ mode := 2, tick := t.now, byHost := true, waiter := some (3, 0) }] &&
      !(t.ctx 4).bankSel) = true ∧
    then_ (exec (.bankSwap 0 3) (on3 (slot swap4) (reporting (ctx4 idleCtx4)))) (fun t => (t.ctx 4).bankSel && completed 0 t) = true := by
  unfold State.headRuns checksPass; decide +kernel

def inject4 : DescBits := dsc 0x11 0 0 [fld 16 1 4, fld 17 1 1, fld 18 1 1, fld 20 3 9]

theorem test_inject : let s := on3 (slot inject4) (reporting (ctx4 closed))
    s.headRuns 3 0x11 (slot inject4) ∧ checksPass (s.injectChecks inject4) ∧
    then_ (exec (.injectStart 0 3) s) (fun t => (t.ctx 4).injects.map Inject.amp == [9] && (t.ring 3).slots.map Slot.stage == [.started]) = true ∧
    then_ (exec (.injectStart 0 3) (on3 (slot inject4) (reporting (ctx4 idleCtx4)))) (completed 8) = true := by
  unfold State.headRuns checksPass; decide +kernel

def arm2 (flags : Nat) : DescBits :=
  if flags = 0 then dsc 0x12 0 0 [fld 16 1 4, fld 17 1 2, fld 18 1 3, fld 20 2 1, fld 24 4 10, fld 40 8 4096, fld 48 4 80] else dsc 0x12 flags 0 [fld 17 1 2]

theorem test_trace_arm : let s := on3 (slot (arm2 0)) (reporting up)
    s.headRuns 3 0x12 (slot (arm2 0)) ∧ checksPass (traceArmChecks (arm2 0)) ∧ dFlag (arm2 0) 4 = false ∧ (s.trace 2).busy = false ∧
    then_ (exec (.traceArm 0 3) s) (fun t => (t.trace 2).busy && (t.trace 2).samples == 10 && completed 0 t) = true ∧
    then_ (exec (.traceArm 0 3) (on3 (slot (arm2 0)) (reporting (rge { traces := [(2, { busy := true })] })))) (completed 2) = true := by
  unfold State.headRuns checksPass; decide +kernel

theorem test_trace_stop : let s := on3 (slot (arm2 0x10)) (reporting (rge { traces := [(2, { busy := true })] }))
    s.headRuns 3 0x12 (slot (arm2 0x10)) ∧ checksPass (traceArmChecks (arm2 0x10)) ∧ dFlag (arm2 0x10) 4 = true ∧ (s.trace 2).busy = true ∧
    (s.trace 2).ended = false ∧ then_ (exec (.traceArm 0 3) s) (fun t => (t.trace 2).ended && (t.trace 2).status == 1) = true := by
  unfold State.headRuns checksPass; decide +kernel

theorem test_trace_block : let s := reporting (rge { traces := [(2, { busy := true, ended := true, kept := [[2], [1]], dest := 64, nodes := 1 })] })
    s.routeTakes 0x48 1 ∧ (s.trace 2).kept ≠ [] ∧
    then_ (exec (.traceBlock 0 2 true) s) (fun t => lastOp t == 0x48 && t.out.host.tail == [.words 64 [1, 2]] && t.trace 2 == {}) = true := by
  unfold State.routeTakes State.ringTakes; decide +kernel

/-! ### Live calibration -/

def policy (mode : Nat) : DescBits := dsc 0x15 0 0 [fld 17 1 5, fld 18 1 mode, fld 19 1 1, fld 22 2 1, fld 24 2 1, fld 26 1 1, fld 28 2 1, fld 33 1 1]

theorem test_delay_policy : let s := on3 (slot (policy 2)) (reporting up)
    s.headRuns 3 0x15 (slot (policy 2)) ∧ dfield (policy 2) 16 1 = 0 ∧ checksPass (delayPolicyChecks (policy 2)) ∧ dfield (policy 2) 18 1 ≠ 0 ∧
    then_ (exec (.calPolicy 0 3) s) (fun t => (t.delayPol 5).mode == 2 && (t.delayPol 5).sources == 1 && completed 0 t) = true := by
  unfold State.headRuns checksPass; decide +kernel

def learned : State :=
  { up with gle := { up.gle with entries := [(9, { product := 5 })] },
            lca := { up.lca with pols := [(5, { mode := 2 })], delays := [(18, { est := some 7, staged := some 3 })] } }

theorem test_delay_policy_off : let s := on3 (slot (policy 0)) (reporting learned)
    s.headRuns 3 0x15 (slot (policy 0)) ∧ checksPass (delayPolicyChecks (policy 0)) ∧ dfield (policy 0) 18 1 = 0 ∧ (s.entry 9).product = 5 ∧
    then_ (exec (.calPolicy 0 3) s) (fun t => (t.delayCal 18).staged.isNone && (t.delayPol 5).mode == 0) = true := by
  unfold State.headRuns checksPass; decide +kernel

def meter4 : DescBits :=
  dsc 0x15 0 0 [fld 16 1 1, fld 17 1 4, fld 18 1 2, fld 22 2 100, fld 26 2 10, fld 28 4 500, fld 32 2 100]

theorem test_meter_policy : let s := on3 (slot meter4) (reporting (ctx4 { closed with spProduct := true, srcKind := 1 }))
    s.headRuns 3 0x15 (slot meter4) ∧ dfield meter4 16 1 = 1 ∧ checksPass (s.meterPolicyChecks meter4) ∧ dfield meter4 18 1 ≠ 0 ∧
    then_ (exec (.calPolicy 0 3) s) (fun t => (t.meterPol 4).mode == 2 && (t.meterPol 4).rhoRef == some 500) = true := by
  unfold State.headRuns checksPass; decide +kernel

/-- A local endpoint of product 5, whose coil search began 5 ms ago. -/
def coiled (out : Bool) (pol : DelayPol) : State :=
  { up with lsb := { up.lsb with chans := [(6, { out, coil := some 999000000 })] },
            gle := { up.gle with entries := [(localBase + 6, { product := 5, onDelay := 100 })] },
            lca := { up.lca with pols := [(5, pol)] } }

def dip : List Nat := List.replicate 190 1000 ++ [900, 1000]

theorem test_coil_minimum : coilMinimum dip 2000 = some 1900 ∧ coilMinimum dip 1900 = none ∧ coilMinimum [1000, 993, 1001] 2000 = none ∧
    coilMinimum [1000, 992, 999] 2000 = none ∧ coilMinimum [1000, 992, 1000] 2000 = some 10 := by decide +kernel

/-- A sample taken, one rejected, no minimum, and a search whose channel is off. -/
theorem test_coil : (coiled true { mode := 2, sources := 1, outlier := 100 }).chanExists 6 = true ∧
    coilMinimum dip ((coiled true { mode := 2, sources := 1, outlier := 100 }).coilWindow (localBase + 6)) = some 1900 ∧
    (coiled true { mode := 2, sources := 1, outlier := 100 }).fullConduction 6 1900 = true ∧ 999000000 + 10 * (dip.length - 1) * 200 ≤ up.now ∧
    then_ (exec (.coilSample 0 6 dip) (coiled true { mode := 2, sources := 1, outlier := 100, minSamples := 9 }))
      (fun t => t.lca.samples == 1 && t.lca.rejected == 0 && (t.delayCal (2 * (localBase + 6))).est == some 1900) = true ∧
    then_ (exec (.coilSample 0 6 dip) (coiled true { mode := 2, sources := 1, outlier := 1 })) (fun t => t.lca.rejected == 1) = true ∧
    then_ (exec (.coilSample 0 6 [7]) (coiled true { mode := 2, sources := 1, outlier := 1 })) (fun t => t.lca.notDetected == 1) = true ∧
    then_ (exec (.coilSample 0 6 [7]) (coiled false { mode := 2, sources := 1, outlier := 1 })) (fun t => t.lca.notDetected == 0 &&
      (t.chan 6).coil.isNone) = true := by decide +kernel

theorem test_flow : let s : State := { up with lca := { up.lca with effHist := [(5, 900000000, false, 9, 100)] } }
    s.flowDue 5 = some 900000000 ∧ s.flowAllowed 5 900000000 (s.delayPol 5) = false ∧
    then_ (exec (.flowStep 0 5) s) (fun t => Tbl.get 0 t.lca.flowDone 5 == 900000001 && t.lca.samples == 0) = true := by decide +kernel

def metered (mode sum : Nat) : State :=
  { ctx4 { closed with bank0 := { closed.bank0 with fbScale := 1000000 } } with
    lca := { up.lca with meters := [(4, { mode, updateS := 1, rhoRef := some 100, sum, count := 20000, base := 1000000, factorMax := 100 })] } }

/-- Under APPLY in a context that is not enabled: the swap is at once. -/
theorem test_meter_idle : let s := metered 2 2200000
    let u := { s with rge := { s.rge with ctxs := [(4, { (s.ctx 4) with enable := false, state := .disabled })] } }
    u.meterDue 4 = true ∧ (u.ctx 4).swaps = [] ∧ (u.ctx 4).enable = false ∧
    then_ (exec (.meterUpdate 0 4) u) (fun t => (t.ctx 4).bankSel && !(t.ctx 4).calStaged && t.lca.applied == 1) = true := by decide +kernel

/-- A mean on the reference, one 10 % over it that is watched, and one that is applied. -/
theorem test_meter : (metered 2 2000000).meterDue 4 = true ∧
    then_ (exec (.meterUpdate 0 4) (metered 2 2000000)) (fun t => (t.meterPol 4).staged.isNone && (t.meterPol 4).count == 0) = true ∧
    then_ (exec (.meterUpdate 0 4) (metered 1 2200000)) (fun t => (t.meterPol 4).staged.isNone) = true ∧
    then_ (exec (.meterUpdate 0 4) (metered 2 2200000)) (fun t => (t.meterPol 4).staged.isSome && (t.ctx 4).calStaged && (t.ctx 4).swaps.length == 1) =
      true := by decide +kernel

/-! ### Load channels -/

def lsb (f : Lsb) : State := { up with lsb := f }
def on5 : Channel := { cmd := .on, out := true }
def chan5 (c : Channel) : State := lsb { chans := [(5, c)] }
def nv5 (v : ChNv) (s : State) : State := { s with nv := { s.nv with channels := [(5, v)] } }

/-- Channel 5 is off, latched, counted, with a bit of its faults. -/
def tripped (n : Nat) (a : Answer) : Bool :=
  then_ a fun t => !(t.chan 5).out && (t.chan 5).prot == .latched && bit (t.chan 5).faults.w n && (t.chan 5).trips == 1 && (t.src 293).pending

theorem test_trips : (chan5 on5).canTrip 5 = true ∧ on5.keepTick = none ∧ (chan5 on5).hardShort 5 < 60001 ∧ on5.inrush = false ∧
    (chan5 on5).inrushLimit 5 ≤ 20000 ∧ ((chan5 on5).chNv 5).curveMode = false ∧ (chan5 on5).latchMa 5 ≤ 3000 ∧
    on5.inrushTick + ((chan5 on5).chNv 5).inrushMs * 200000 + ((chan5 on5).chNv 5).blankMs * 200000 ≤ up.now ∧
    tripped 0 (exec (.hardShortTrip 0 5 60001) (chan5 on5)) = true ∧ tripped 1 (exec (.limitTrip 0 5 ⟨20000, 200⟩) (chan5 on5)) = true ∧
    then_ (exec (.limitTrip 0 5 ⟨20000, 199⟩) (chan5 on5)) (fun t => (t.chan 5).out) = true ∧
    tripped 2 (exec (.latchTrip 0 5 ⟨3000, 10000⟩) (chan5 on5)) = true ∧
    then_ (exec (.latchTrip 0 5 ⟨3000, 9000⟩) (chan5 on5)) (fun t => (t.chan 5).out) = true ∧ tripped 4 (exec (.overtempTrip 0 5 175) (chan5 on5)) = true ∧
    then_ (exec (.limitTrip 0 5 ⟨20000, 200⟩) (chan5 { on5 with inrush := true })) (fun t => (t.chan 5).out) = true := by decide +kernel

/-- In CURVE mode with a retry left the channel cools, its rise at the limit. -/
theorem test_trip_curve : let s := nv5 { curveMode := true, retries := 1 } (chan5 on5)
    then_ (exec (.hardShortTrip 0 5 60001) s) (fun t => (t.chan 5).prot == .tripped && (t.chan 5).theta == 100 * 1048576) = true := by decide +kernel

theorem test_keeper_trip : (chan5 { on5 with keepTick := some 0 }).canTrip 5 = true ∧
    3 * (chan5 on5).continuousMa 5 ≤ 2 * 30000 ∧
    then_ (exec (.keeperTrip 0 ⟨5, 30000, 10000⟩) (chan5 { on5 with keepTick := some 0 }))
      (fun t => !(t.chan 5).out && (t.chan 5).keepTripped && bit (t.chan 5).faults.w 6 && bit t.lsb.fault.w 5) = true := by decide +kernel

/-- A channel over its limit, and none. -/
theorem test_overload : 5 ∈ (chan5 on5).bankChans 0 ∧ (chan5 on5).overLimit 5 3001 = true ∧ (chan5 on5).overLimit 5 3000 = false ∧ (chan5 on5).bankOn 0 = true ∧
    100000 < (((chan5 on5).bankChans 0).map fun n => Tbl.get 0 [(5, 100001)] n).sum ∧ (chan5 on5).overLimit 5 100001 = true ∧
    then_ (exec (.bankOverload 0 0 ⟨[(5, 100001)], 1000, 20⟩) (chan5 on5))
      (fun t => !(t.chan 5).out && bit (t.chan 5).faults.w 5 && t.lsb.fault == {}) = true ∧
    then_ (exec (.bankOverload 0 0 ⟨[(5, 100000)], 1000, 149⟩) (chan5 on5)) (fun t => (t.chan 5).out && t.lsb.fault == {}) = true ∧
    (chan5 on5).overLimit 5 0 = false ∧
    then_ (exec (.bankOverload 0 0 ⟨[], 0, 150⟩) (chan5 on5)) (fun t => (t.chan 5).out && bit t.lsb.fault.w 4) = true := by decide +kernel

/-- 2 mA with no rise, and CURVE mode at its limit. -/
theorem test_wire_model : on5.wireTick + 200000 ≤ up.now ∧ on5.hot = false ∧
    then_ (exec (.wireModelUpdate 0 5 [1500, 2000] ⟨30, 25⟩) (chan5 on5)) (fun t => (t.chan 5).sense == 250 && (t.chan 5).tempC == 30 &&
      (t.chan 5).out && t.lsb.moduleC == 25 && (t.chan 5).wireTick == 200000) = true ∧
    then_ (exec (.wireModelUpdate 0 5 [] ⟨150, 25⟩) (chan5 { on5 with hot := true, keepTick := some 0, theta := 9 }))
      (fun t => !(t.chan 5).hot && (t.chan 5).theta == 9) = true ∧
    then_ (exec (.wireModelUpdate 0 5 [2000] ⟨30, 25⟩) (nv5 { curveMode := true } (chan5 { on5 with theta := 200 * 1048576 })))
      (fun t => !(t.chan 5).out && bit (t.chan 5).faults.w 3) = true := by decide +kernel

def cooled : Channel := { cmd := .on, prot := .tripped, theta := 50 * 1048576, tempC := 150 }

theorem test_retry : 2 * (cooled.theta : Int) ≤ (chan5 cooled).thetaRoom 5 ∧ (chan5 cooled).holderOn 5 = true ∧ cooled.keepTick = none ∧
    (chan5 cooled).supplied 0 = true ∧ cooled.hot = false ∧ cooled.inSafe = false ∧ cooled.holding = .direct ∧ (chan5 cooled).bankOn ((chan5 cooled).bankOf 5) = true ∧
    then_ (exec (.curveRetry 0 5) (chan5 cooled)) (fun t => (t.chan 5).out && (t.chan 5).retriesUsed == 1 && (t.chan 5).inrush) = true := by
  decide +kernel

theorem test_channel_windows : let s (c : Channel) := (chan5 c).elapse 11000000000
    then_ (exec (.retryRestore 0 5) (s { on5 with retriesUsed := 2 })) (fun t => (t.chan 5).retriesUsed == 0) = true ∧
    then_ (exec (.inrushEnd 0 5) (s { on5 with inrush := true })) (fun t => !(t.chan 5).inrush) = true ∧
    then_ (exec (.pullinEnd 0 5) (s { on5 with pullin := true })) (fun t => (t.chan 5).hold && !(t.chan 5).pullin) = true := by decide +kernel

def pwm5 (t : Nat) : State := chan5 { cmd := .pwm 300 1000, pwmTick := t, nextDuty := some 700 }

/-- A period edge with a duty waiting, 100 µs late, and a period half over. -/
theorem test_channel_pwm : 999780000 + 1000 * 200 ≤ (pwm5 999780000).now ∧ (pwm5 999780000).chanLive 5 = true ∧
    then_ (exec (.channelPwmEdge 0 5) (pwm5 999780000))
      (fun t => (t.chan 5).cmd == .pwm 700 1000 && (t.chan 5).pwmTick == 999980000 && (t.chan 5).out) = true ∧
    (pwm5 999900000).now < 999900000 + 1000 * 200 ∧
    then_ (exec (.channelPwmEdge 0 5) (pwm5 999900000)) (fun t => (t.chan 5).cmd == .pwm 300 1000 && !(t.chan 5).out) = true := by decide +kernel

theorem test_ambient_stale : let s := { (lsb { moduleC := 40, hostC := 20 }).elapse 1000000000 with nv := { up.nv with ambHost := true } }
    s.lsb.hostCTick + 2000000000 ≤ s.now ∧ then_ (exec (.ambientStale 0) s) (fun t => t.ambient == 40 && bit t.lsb.fault.w 7) = true := by
  decide +kernel

theorem test_supply_cut : (chan5 on5).supplyExists .bankA = true ∧ cutLevel .bankA 599 = true ∧ (chan5 on5).lsb.isCut .bankA = false ∧
    5 ∈ (chan5 on5).supplyChans .bankA ∧ (chan5 on5).chanLive 5 = true ∧ 30 ∉ (chan5 on5).supplyChans .bankA ∧
    then_ (exec (.bankCutoff 0 .bankA 599) (chan5 on5)) (fun t => !(t.chan 5).out && t.lsb.isCut .bankA && bit t.lsb.fault.w 0) = true ∧
    then_ (exec (.bankCutoff 0 .pgnd 0) (chan5 on5)) (fun t => !(t.chan 5).out && t.lsb.pgndLost) = true := by decide +kernel

theorem test_supply_returns : let s := lsb { chans := [(5, { on5 with out := false })], bankCut := [(0, true)] }
    let under : State := { s with lsb := { s.lsb with underCut := [(0, true)] } }
    let over_ : State := { s with lsb := { s.lsb with overCut := [(0, true)] } }
    let stays (a : Answer) : Bool := then_ a fun t => t.lsb.isCut .bankA && !(t.chan 5).out
    s.lsb.isCut .bankA = true ∧
    then_ (exec (.bankReturn 0 .bankA ⟨600, 10⟩) s) (fun t => (t.chan 5).out && (t.chan 5).inrush && !t.lsb.isCut .bankA) = true ∧
    then_ (exec (.bankReturn 0 .bankA ⟨3900, 10⟩) under) (fun t => (t.chan 5).out) = true ∧
    then_ (exec (.bankReturn 0 .bankA ⟨600, 10⟩) over_) (fun t => (t.chan 5).out) = true ∧
    stays (exec (.bankReturn 0 .bankA ⟨599, 10⟩) s) = true ∧ stays (exec (.bankReturn 0 .bankA ⟨3901, 10⟩) s) = true ∧
    stays (exec (.bankReturn 0 .bankA ⟨650, 10⟩) under) = true ∧ stays (exec (.bankReturn 0 .bankA ⟨3600, 10⟩) over_) = true ∧
    stays (exec (.bankReturn 0 .bankA ⟨700, 9⟩) s) = true := by decide +kernel

theorem test_reverse : then_ (exec (.reverseBattery 0 0 (-101)) (chan5 {})) (fun t => (t.chan 5).out && Tbl.get false t.lsb.reversed 0 &&
      !(t.chan 30).out) = true := by decide +kernel

theorem test_dip : then_ (exec (.bankDip 0 ⟨1, 599, 1200, 10⟩) up) (fun t => bit t.lsb.fault.w 3 && Tbl.get 0 t.lsb.vbat 1 == 599) = true ∧
    then_ (exec (.bankDip 0 ⟨1, 600, 1200, 10⟩) up) (fun t => t.lsb.fault == {}) = true := by decide +kernel

/-- OPEN_ON appears and goes; OPEN_OFF and SHORT_BAT of a channel that is off appear. -/
theorem test_open_load : (chan5 on5).canIndicate 5 0 = true ∧ on5.indication 0 = false ∧
    then_ (exec (.openLoadIndication 0 5 0 ⟨49, 1200, 10000⟩) (chan5 on5)) (fun t => (t.chan 5).openOn && bit (t.chan 5).faults.w 8 && (t.chan 5).out) = true ∧
    then_ (exec (.openLoadIndication 0 5 0 ⟨50, 1200, 10000⟩) (chan5 { on5 with openOn := true })) (fun t => !(t.chan 5).openOn) = true ∧
    (chan5 on5).indicatesLong 5 0 10000 = true ∧ (chan5 {}).canIndicate 5 1 = true ∧ (chan5 { offDiag := false }).canIndicate 5 2 = true ∧
    (chan5 {}).indicatesLong 5 1 2000 = true ∧
    then_ (exec (.openLoadIndication 0 5 1 ⟨721, 1200, 2000⟩) (chan5 {})) (fun t => (t.chan 5).openOff && bit (t.chan 5).faults.w 8) = true ∧
    then_ (exec (.openLoadIndication 0 5 2 ⟨1001, 1200, 2000⟩) (chan5 { offDiag := false })) (fun t => (t.chan 5).shortBat && bit (t.chan 5).faults.w 9) = true := by decide +kernel

def kept5 : State := nv5 { keep10ms := 10, safeOn := true } (chan5 { keepTick := some 0 })

theorem test_keeper_expires : 0 + (kept5.chNv 5).keep10ms * 2000000 ≤ kept5.tbu.wall ∧ kept5.supplied (kept5.bankOf 5) = true ∧
    then_ (exec (.keeperExpiry 0 5) kept5) (fun t => (t.chan 5).inSafe && (t.chan 5).out && (t.chan 5).keepTick.isNone && bit t.lsb.fault.w 5) =
      true := by decide +kernel

theorem test_keeper_supply : let s := { kept5 with lsb := { kept5.lsb with bankCut := [(0, true)] } }
    5 ∈ s.bankChans 0 ∧ (s.chan 5).keepTick ≠ none ∧
    then_ (exec (.keeperSupplyLoss 0 ⟨0, 400⟩) s) (fun t => (t.chan 5).keepTick.isSome) = true ∧
    then_ (exec (.keeperSupplyLoss 0 ⟨0, 399⟩) s) (fun t => (t.chan 5).inSafe && Tbl.get false t.lsb.keeperDead 0) = true := by decide +kernel

/-! ### DIRECT_SWITCH -/

/-- Channel 5 to PWM at 30 % and 1 ms; channel 6 off. -/
def switch3 : DescBits := dsc 0x13 0 2 [fld 24 1 5, fld 25 1 2, fld 26 2 300, fld 28 2 1000, fld 32 1 6]

def switchBytes : List Byte := [0, 0, 0, 0, 0, 0, 0, 0, 5, 1, 0, 0, 0, 0, 0, 0]
def switchInd : DescBits := dsc 0x13 8 1 [fld 24 4 16]

theorem test_direct_switch : let s := on3 (slot switch3) up
    s.headRuns 3 0x13 (slot switch3) ∧ dFlag switch3 3 = false ∧
    checksPass ([flagCheck switch3 0x02, (inRange 1 5 2, 2), (decide (dfield switch3 16 8 ≤ s.now + 2 ^ 32), 16)] ++
      (((slices (dBytes switch3 24 40) 8 (min 5 2)).flatMap fun e => s.switchChecks e.2 (24 + e.1)) ++
        channelsOnce 24 (slices (dBytes switch3 24 40) 8 (min 5 2)) [])) ∧
    then_ (exec (.directSwitch 0 3 .error) s)
      (fun t => t.lsb.waits.map (fun w => (w.tick, w.entries.map SwEntry.channel)) == [(1000002000, [5, 6])]) = true := by
  unfold State.headRuns checksPass; decide +kernel

theorem test_direct_switch_indirect : let s := on3 (slot switchInd) (reporting up)
    s.headRuns 3 0x13 (slot switchInd) ∧ dFlag switchInd 3 = true ∧
    checksPass ([flagCheck switchInd 0x0A, (inRange 1 (Config.loadChannels s.part) 1 && lengthFits switchInd (8 + 8 * 1), 2)] ++
      indirectChecks switchInd) ∧
    checksPass ((decide (wordAt switchBytes 0 8 ≤ s.now + 2 ^ 32), 0) ::
      (((slices (switchBytes.drop 8) 8 1).flatMap fun e => s.switchChecks e.2 (8 + e.1)) ++ channelsOnce 8 (slices (switchBytes.drop 8) 8 1) [])) ∧
    then_ (exec (.directSwitch 0 3 (.data switchBytes)) s) (fun t => t.lsb.waits.length == 1) = true ∧
    then_ (exec (.directSwitch 0 3 .error) s) (completed 9) = true := by
  unfold State.headRuns checksPass; decide +kernel

def entry5 (op : Nat) : SwEntry := { channel := 5, op, value := 0, value2 := 0, context := if op = 4 then 4 else 0 }

def switching (c : Channel) : State :=
  reporting { on3 { slot switch3 with stage := .started } (chan5 c) with
    lsb := { (chan5 c).lsb with waits := [{ ring := 3, index := 0, tick := 1000000000, entries := [entry5 1] }] } }

/-- An entry that takes effect, and one that the escapement's channel turns away. -/
theorem test_switch_executes : (switching {}).lsb.earliestWait 3 = some { ring := 3, index := 0, tick := 1000000000, entries := [entry5 1] } ∧
    (switching {}).firstDenied [] [entry5 1] = none ∧
    then_ (exec (.directSwitchExecute 0 3) (switching {})) (fun t => completed 0 t && (t.chan 5).out && t.lsb.waits == []) = true ∧
    (switching { holding := .escapement }).firstDenied [] [entry5 1] = some (entry5 1) ∧
    then_ (exec (.directSwitchExecute 0 3) (switching { holding := .escapement })) (fun t => completed 2 t && bit t.lsb.fault.w 6) = true := by
  decide +kernel

/-- An indirect switch that names channel 32, which the member lacks: it ends whatever holds it. -/
theorem test_switch_absent : let bs : List Byte := [0, 0, 0, 0, 0, 0, 0, 0, 32, 1, 0, 0, 0, 0, 0, 0]
    let s := on3 { slot switchInd with stage := .heldNotReady } (reporting up)
    s.headAbsent 3 (.data bs) = some 8 ∧ then_ (exec (.directSwitch 0 3 (.data bs)) s) (completed 7) = true := by decide +kernel

theorem test_switch_entries : (((chan5 {}).applySwitch (entry5 1)).chan 5).out = true ∧
    (((chan5 {}).applySwitch (entry5 1)).chan 5).cmd = .on ∧
    (((chan5 regulated).applySwitch (entry5 0)).chan 5).holding = .direct ∧ ((chan5 {}).applySwitch (entry5 4)).ctx 4 = { bound := some 5 } ∧
    (((chan5 { prot := .latched, retriesUsed := 3 }).applySwitch (entry5 6)).chan 5).prot = .armed := by decide +kernel

/-- A CLEAR in the cycle of a trip loses. -/
theorem test_clear_loses : let s := chan5 { prot := .latched, tripTick := some 1000000000 }
    (s.chan 5).tripTick = some s.now ∧ s.applySwitch (entry5 6) = s := by decide +kernel

theorem test_clear_register : up.hostTo 7 = true ∧
    then_ (exec (.lsbClearWrite 1 0x20) (chan5 { prot := .latched, tripTick := some 1000000000 })) (fun t => (t.chan 5).prot == .latched) = true ∧
    then_ (exec (.lsbClearWrite 0 0x20) (chan5 { prot := .latched })) (fun t => (t.chan 5).prot == .armed) = true ∧
    then_ (exec (.lsbClearWrite 0 0x10) (chan5 { prot := .latched })) (fun t => (t.chan 5).prot == .latched) = true := by decide +kernel

/-! ### The escapement -/

def ev (on : Bool) (tick : Nat) : PEvent := { tick, on }

/-- Clause by clause: behind a dispatched event of its kind; a third, new and re-timed; opposites that cancel; an OFF in the
place of an ON that changes the duty; a dispatched opposite; an executed opposite; a far event with and without a place. -/
theorem test_insert :
    ({ onEv := some { ev true 10 with dispatched := true } } : EpDyn).insert 0 0 true true (ev true 20) =
      (.ignored, { onEv := some { ev true 10 with dispatched := true } }) ∧
    ({ onEv := some (ev true 10), offEv := some (ev false 20) } : EpDyn).insert 0 0 true false (ev true 30) =
      (.full, { onEv := some (ev true 10), offEv := some (ev false 20) }) ∧
    ({ onEv := some (ev true 10), offEv := some (ev false 20) } : EpDyn).insert 0 0 true true (ev true 30) = (.cancelled, {}) ∧
    ({ onEv := some (ev true 10) } : EpDyn).insert 0 0 true false (ev false 10) = (.cancelled, {}) ∧
    ({ onEv := some (ev true 10), heldOn := true } : EpDyn).insert 0 0 true false (ev false 10) =
      (.stored, { offEv := some (ev false 10), heldOn := true }) ∧
    ({ onEv := some { ev true 10 with dispatched := true } } : EpDyn).insert 0 9 true false (ev false 10) =
      (.stored, { onEv := some { ev true 10 with dispatched := true }, offEv := some (ev false 2010) }) ∧
    ({ onEv := some (ev true 10), offEv := some (ev false 20) } : EpDyn).insert 0 5 true true { ev true 15 with delay := 7 } =
      (.stored, { onEv := some (ev true 15), offEv := some (ev false 20) }) ∧
    ({ offEv := some (ev false 10) } : EpDyn).insert 0 9 true false (ev true 12) =
      (.stored, { offEv := some (ev false 10), onEv := some (ev true 19) }) ∧
    ({ lastOff := some 10 } : EpDyn).insert 0 9 true false (ev true 10) = (.stored, { lastOff := some 10, onEv := some (ev true 19) }) ∧
    ({} : EpDyn).insert 0 9 true false (ev false 524288001) = (.stored, { offEv := some { ev false 524288001 with far := true } }) ∧
    ({} : EpDyn).insert 0 9 false false (ev false 524288001) = (.far, {}) := by decide +kernel

def epn (ep : Nat) (en : Entry) (d : EpDyn) (s : State) : State := { s with gle := { s.gle with entries := [(ep, en)], dyn := [(ep, d)] } }

theorem test_overflow : let s := epn 9 {} { onEv := some { ev true 1520000000 with far := true } } up
    then_ (exec (.overflowMigrate 0 9) s) (fun t => t.dyn 9 == { onEv := some (ev true 1520000000) }) = true ∧
    then_ (exec (.overflowMigrate 0 9) (epn 9 {} { onEv := some { ev true 1520000001 with far := true } } up))
      (fun t => (t.dyn 9).onEv == some { ev true 1520000001 with far := true }) = true := by decide +kernel

/-- Field port 0 runs, its node 3 present: endpoint 9 of it has address 777. -/
def linked : State :=
  { up with flp := { up.flp with portEn := 1, ports := [(0, { linked := true, state := .running })], nodes := [(3, { present := true })] } }

theorem test_dispatch : let s := epn 777 {} { onEv := some { ev true 1001000000 with leadUs := 5000 } } linked
    777 < localBase ∧ (s.portRuns (777 / 65536) == false || s.nodeDrops (777 / 65536) (777 / 256 % 256)) = false ∧
    1001000000 ≤ s.now + 5000 * 200 ∧
    then_ (exec (.escDispatch 0 777) s) (fun t => ((t.dyn 777).onEv.map fun e => e.dispatched) == some true &&
      (t.node 0 3).waiting.map (fun r => (r.endpoint, r.kind)) == [(9, 1)]) = true := by decide +kernel

theorem test_dispatch_dropped : let s := epn 777 {} { offEv := some (ev false 1000000000) } up
    s.portRuns 0 = false ∧ then_ (exec (.escDispatch 0 777) s) (fun t => ((t.dyn 777).offEv.map fun e => e.dropped) == some true &&
      Tbl.get 0 t.esc.drop 0 == 1 && bit t.esc.fault.w 1) = true := by decide +kernel

def escHeld (ev' : PEvent) : State :=
  epn (localBase + 5) { width := 10, product := 4 } { onEv := some ev', probe := some { next := 2000000000, due := 1999000000 } }
    (chan5 { holding := .escapement })

/-- A local ON drives its channel; a remote one that was dispatched only sets the held state. -/
theorem test_slot : (escHeld (ev true 1000000000)).hasPath (localBase + 5) = true ∧ (escHeld (ev true 1000000000)).localPath 5 = true ∧
    then_ (exec (.escSlotExecute 0 (localBase + 5)) (escHeld (ev true 1000000000)))
      (fun t => (t.dyn (localBase + 5)).heldOn && (t.chan 5).out && t.gle.valveQ.length == 1 && t.gle.effQ.length == 1) = true ∧
    then_ (exec (.escSlotExecute 0 777) (epn 777 {} { onEv := some { ev true 1000000000 with dispatched := true }, probe := some { next := 2000000000, due := 1999000000 } } linked))
      (fun t => (t.dyn 777).heldOn && (t.dyn 777).lastOn == some 1000000000 && t.gle.valveQ.length == 1) = true := by decide +kernel

/-- Without a path an executed switch has no effects, and those it had are taken back; a local ON takes back an OFF that is effective
no sooner. -/
theorem test_slot_effects : let e := ev true 1000000000
    let old (on : Bool) (tick exec_ : Nat) : Effect := { ep := localBase + 5, tick, on, rate := 0, duty := 0, exec := exec_ }
    let s := escHeld e
    let cut := { s with lsb := { s.lsb with bankCut := [(0, true)] }, gle := { s.gle with effQ := [old true 5 1000000000, old true 6 7] } }
    let later := { s with gle := { s.gle with effQ := [old false 1000000000 5, old false 999999999 5] } }
    cut.hasPath (localBase + 5) = false ∧ (s.dyn (localBase + 5)).owesOff = false ∧
    then_ (exec (.escSlotExecute 0 (localBase + 5)) cut) (fun t => t.gle.effQ == [old true 6 7] && t.gle.valveQ == []) = true ∧
    then_ (exec (.escSlotExecute 0 (localBase + 5)) later) (fun t => t.gle.effQ.map Effect.tick == [999999999, 1000000000]) = true := by
  decide +kernel

def eff (on : Bool) : Effect := { ep := 9, tick := 900000000, on, rate := 7, duty := 1000 }

theorem test_valve : takeEffect 9 up.now [eff true] = some (eff true, []) ∧
    then_ (exec (.valveEffect 0 9) { up with gle := { up.gle with valveQ := [eff true] } })
      (fun t => (t.dyn 9).inDemand && (t.dyn 9).demandRate == 7 && t.gle.valveQ == []) = true := by decide +kernel

/-- With no coverage layer, and with one while no pose is valid. -/
theorem test_effective : let s : State := { up with gle := { up.gle with effQ := [eff true] }, pse := { up.pse with cur := { tick := 950000000 } } }
    takeEffect 9 (min s.now s.pse.cur.tick) s.gle.effQ = some (eff true, []) ∧ s.coverageLayer 9 = none ∧ s.strip 9 = none ∧
    then_ (exec (.effectiveSwitch 0 9) s) (fun t => (t.dyn 9).effOn && t.gle.effQ == []) = true ∧
    (let p := { epn 9 { width := 8, product := 4 } {} s with gle := { s.gle with entries := [(9, { width := 8, product := 4 })], products := [(4, { covLayer := 3 })] } }
     p.coverageLayer 9 = some 3 ∧ p.pse.valid = false ∧
     then_ (exec (.effectiveSwitch 0 9) p) (fun t => t.strip 9 == some { layer := 3, waiting := true, rate := 7 }) = true) ∧
    then_ (exec (.effectiveSwitch 0 9) { s with gle := { s.gle with effQ := [eff false], dyn := [(9, { effOn := true })] } })
      (fun t => !(t.dyn 9).effOn && t.strip 9 == none) = true ∧
    then_ (exec (.effectiveSwitch 0 9) { s with gle := { s.gle with effQ := [{ eff true with rateOnly := true }] } })
      (fun t => !(t.dyn 9).effOn && t.gle.effQ == [] && t.strip 9 == none) = true ∧
    (let p := epn 9 { section_ := 6 } {} s
     then_ (exec (.effectiveSwitch 0 9) p) (fun t => (t.dyn 9).effSec == 6) = true) := by decide +kernel

theorem test_segment : let s : State := { up with pse := { up.pse with cur := { tick := 250000000 } },
                                                  mpg := { up.mpg with strips := [(9, some { layer := 3, startTick := 50000000, rate := 7 })] } }
    s.isReady 5 = true ∧ 0 < s.mpg.segMax ∧ 50000000 + s.mpg.segMax * 200000 ≤ s.pse.cur.tick ∧
    then_ (exec (.segmentMaxExpiry 0 9) s) (fun t => ((t.strip 9).map fun p => (p.startTick, p.first)) == some (250000000, false) && t.mpg.covSeq == 1) =
      true := by decide +kernel

def gridded (open_ : Bool) (tick : Nat) : State :=
  let s := epn (localBase + 5) { product := 4 } { pwmRun := true, pwmOpen := open_, pwmOpenTick := tick, pwmDuty := 500, duty := 300, heldOn := true }
    (chan5 { holding := .escapement, out := open_ })
  { s with gle := { s.gle with products := [(4, { pwmPeriod := 100 })] } }

/-- A period of 1 ms: it closes half-way, stays open before that, opens at its edge, and stays closed before that. -/
theorem test_pwm_grid : gridPasses 200000 100000 (999850000 + 100000) 1000000000 = false ∧ gridPasses 200000 100000 (999800000 + 100000) 1000000000 = true ∧
    then_ (exec (.pwmGridEdge 0 5) (gridded true 999800000)) (fun t => !(t.dyn (localBase + 5)).pwmOpen && !(t.chan 5).out) = true ∧
    then_ (exec (.pwmGridEdge 0 5) (gridded true 999850000)) (fun t => (t.dyn (localBase + 5)).pwmOpen && (t.chan 5).out) = true ∧
    then_ (exec (.pwmGridEdge 0 5) (gridded false 999900000))
      (fun t => (t.dyn (localBase + 5)).pwmOpen && (t.chan 5).out && (t.dyn (localBase + 5)).pwmDuty == 300) = true ∧
    then_ (exec (.pwmGridEdge 0 5) (gridded false 1000000000)) (fun t => !(t.dyn (localBase + 5)).pwmOpen) = true := by decide +kernel

def probed (d : EpDyn) : State :=
  let s := epn 777 { product := 4, width := 8, mode := .onoff } { d with probe := some { next := 1000000000, due := 999000000 } } linked
  { s with gle := { s.gle with enable := true } }

/-- Without a pose within R20, an endpoint that is off, and one that is on. -/
theorem test_probe : (probed {}).probeDue 777 = true ∧ (probed {}).served 777 = true ∧ (probed { heldOn := true }).served 777 = true ∧ (probed {}).gle.poseOk = false ∧ (probed {}).feedersOf 0 = [] ∧ (probed {}).escOverflow < 16384 ∧
    then_ (exec (.probeEvaluation 0 777) (probed {})) (fun t => ((t.dyn 777).probe.map fun p => decide (1000000000 < p.next)) == some true &&
      (t.dyn 777).offEv == none) = true ∧
    then_ (exec (.probeEvaluation 0 777) (probed { heldOn := true })) (fun t => (t.dyn 777).offEv.isSome && (t.dyn 777).heldOn) = true := by
  decide +kernel

/-! ### Endpoints, sections, products -/

def load3 (addr flags mode : Nat) : DescBits := dsc 0x03 flags 1 [fld 16 4 addr, fld 28 1 40, fld 34 2 2, fld 36 1 (64 * mode + 4)]
def loading (addr flags mode : Nat) (s : State) : State := on3 (slot (load3 addr flags mode)) (reporting s)

/-- An entry for an idle endpoint, the same entry again, one for an endpoint that is on, and a held channel. -/
theorem test_endpoint_load : let s := loading 777 0 0 linked
    s.headRuns 3 0x03 (slot (load3 777 0 0)) ∧ dFlag (load3 777 0 0) 3 = false ∧ checksPass (loadDirectChecks (load3 777 0 0)) ∧
    dLength (load3 777 0 0) = 1 ∧ s.escDenied 777 (parseEntry (dBytes (load3 777 0 0) 24 16)) = false ∧ dFlag (load3 777 0 0) 5 = false ∧
    parseEntry (dBytes (load3 777 0 0) 24 16) ≠ (s.entry 777).withDelays 0 0 ∧
    then_ (exec (.endpointLoad 0 3 .error) s) (fun t => completed 0 t && (t.entry 777).product == 4 && (t.entry 777).width == 40) = true ∧
    (loading 777 0 0 (epn 777 (parseEntry (dBytes (load3 777 0 0) 24 16)) {} linked)).latestEntry 777 = parseEntry (dBytes (load3 777 0 0) 24 16) ∧
    then_ (exec (.endpointLoad 0 3 .error) (loading 777 0 0 (epn 777 { product := 3 } { heldOn := true } linked)))
      (fun t => completed 0 t && (t.entry 777).product == 3 && (t.dyn 777).staged.isSome) = true := by
  unfold State.headRuns checksPass; decide +kernel

theorem test_endpoint_load_local : let s := loading 5 0x10 0 (chan5 {})
    s.headRuns 3 0x03 (slot (load3 5 0x10 0)) ∧ checksPass (loadDirectChecks (load3 5 0x10 0)) ∧
    then_ (exec (.endpointLoad 0 3 .error) s) (fun t => (t.chan 5).holding == .escapement && completed 0 t) = true ∧
    then_ (exec (.endpointLoad 0 3 .error) (loading 5 0x10 0 (chan5 on5))) (fun t => completed 2 t && bit t.lsb.fault.w 6) = true := by
  unfold State.headRuns checksPass; decide +kernel

theorem test_endpoint_load_indirect : let d := dsc 0x03 8 1 [fld 24 4 4096]
    let s := on3 (slot d) (reporting up)
    s.headRuns 3 0x03 (slot d) ∧ checksPass (s.loadIndirectChecks d) ∧ then_ (exec (.endpointLoad 0 3 .error) s) (completed 9) = true := by
  unfold State.headRuns checksPass; decide +kernel

def sect3 : DescBits := dsc 0x04 0 1 [fld 24 2 7, fld 26 1 2, fld 27 1 1]

theorem test_section_set : let s := on3 (slot sect3) (reporting up)
    s.headRuns 3 0x04 (slot sect3) ∧ dFlag sect3 3 = false ∧ dLength sect3 = 1 ∧
    checksPass ([flagCheck sect3 0x02, (inRange 1 10 1, 2), (decide (dfield sect3 16 8 ≤ s.now + 2 ^ 32), 16)] ++
      sectionChecks (dBytes sect3 24 4) 24) ∧ s.sectionMembers 7 = [] ∧
    then_ (exec (.sectionSet 0 3 .error) s) (fun t => completed 0 t && t.section_ 7 == { state := 2, latch := true }) = true := by
  unfold State.headRuns checksPass; decide +kernel

def prod3 : DescBits := dsc 0x05 0 0 [fld 16 1 63, fld 17 1 1, fld 18 4 0xFFFFFFFF, fld 36 2 900]

theorem test_product_set : let s := on3 (slot prod3) (reporting up)
    s.headRuns 3 0x05 (slot prod3) ∧ checksPass (s.productChecks prod3) ∧
    then_ (exec (.productSet 0 3) s) (fun t => completed 0 t && (t.product 63).dutyMax == 900 && (t.product 63).enable) = true ∧
    (s.product 63).enable = false ∧ s.gle.dyn = [] := by
  unfold State.headRuns checksPass; decide +kernel

theorem test_gle_enable : let s := epn 777 { product := 4, width := 8, mode := .onoff } {} linked
    s.hostTo 2 = true ∧ (s.entry 777).evaluated = true ∧
    then_ (exec (.gleEnableWrite 0 1) s) (fun t => t.gle.enable && (t.dyn 777).probe.isSome) = true ∧
    then_ (exec (.gleEnableWrite 0 0) (probed {})) (fun t => !t.gle.enable && (t.dyn 777).probe.isNone) = true ∧
    then_ (exec (.gleEnableWrite 0 0) s) (· == s) = true := by decide +kernel

/-! ### Layers, frames and pools -/

def mpg (f : Mpg) : State := { up with mpg := f }

def grants : List Grant := [{ addr := 0x40000000, size := 1, pool := 0, offset := 0 }, { addr := 0x40200000, size := 1, pool := 2, offset := 1 },
  { addr := 0x40400000, size := 1, pool := 4, offset := 2 }, { addr := 0x40600000, size := 1, pool := 5, offset := 3 }]

/-- Layer 3 of a kind with cells of 100 mm, and one tile of it at (1, 2). -/
def mapped (kind : Nat) (t : Tile) : State :=
  mpg { grants, layers := [(3, { kind, cell := 2, enable := true, use := 1, epoch := 5 })], tiles := [(tileKey 3 1 2, t)] }

def tile0 : Tile := { place := .resident, frame := some 0, header := some 0, lastEpoch := 5, cells := [(7, 1)] }

def grant3 : DescBits := dsc 0x06 0 0 [fld 16 8 0x40800000, fld 24 4 2, fld 28 1 5]

theorem test_arena_grant : let s := on3 (slot grant3) (reporting (mapped 1 tile0))
    s.headRuns 3 0x06 (slot grant3) ∧ checksPass (s.arenaGrantChecks grant3) ∧ s.unbackedCount = 0 ∧ Tbl.wf {} s.mpg.tiles = true ∧
    then_ (exec (.arenaGrant 0 3) s) (fun t => completed 0 t && t.mpg.grants.getLast? == some { addr := 0x40800000, size := 2, pool := 5, offset := 4 }) =
      true := by
  unfold State.headRuns checksPass; decide +kernel

def quota3 : DescBits := dsc 0x07 0 0 [fld 16 1 3]

theorem test_arena_quota : let s := on3 (slot quota3) (reporting (mapped 1 tile0))
    s.headRuns 3 0x07 (slot quota3) ∧
    checksPass ([flagCheck quota3 0x02, (decide (dfield quota3 16 1 ≤ 31), 16)] ++ zeroBytes quota3 17 3 ++ zeroBytes quota3 24 40) ∧
    then_ (exec (.arenaQuota 0 3) s) (fun t => completed 0 t && (t.layer 3).isOver && (t.layer 3).quota == 0 && bit t.mpg.fault.w 0) = true := by
  unfold State.headRuns checksPass; decide +kernel

/-- A layer enabled, one with no frame for its root, one whose cell code its kind does not have, and one disabled. -/
theorem test_layer_config : up.hostTo 3 = true ∧ (mpg { grants }).canEnable (bits 0x29 0 2) (bits 0x29 2 3) = true ∧
    (mpg { grants }).poolFree 5 ≠ 0 ∧ Tbl.wf {} (mpg { grants }).mpg.layers = true ∧
    then_ (exec (.layerCfgWrite 0 3 0x29) (mpg { grants })) (fun t => (t.layer 3).enable && (t.layer 3).kind == 1 && (t.layer 3).cell == 2 &&
      (t.layer 3).root.isSome) = true ∧
    up.poolFree 5 = 0 ∧ then_ (exec (.layerCfgWrite 0 3 0x29) up) (fun t => !(t.layer 3).enable && bit t.mpg.fault.w 1) = true ∧
    up.canEnable (bits 0x23 0 2) (bits 0x23 2 3) = false ∧
    then_ (exec (.layerCfgWrite 0 3 0x23) (mpg { grants })) (fun t => !(t.layer 3).enable && bit t.mpg.fault.w 8) = true := by decide +kernel

theorem test_layer_disable : let s := mpg { grants, layers := [(3, { kind := 1, cell := 2, enable := true })] }
    s.canDisable 3 = true ∧ then_ (exec (.layerCfgWrite 0 3 0x09) s) (fun t => !(t.layer 3).enable) = true ∧ (mapped 1 tile0).canDisable 3 = false ∧
    then_ (exec (.layerCfgWrite 0 3 0x09) (mapped 1 tile0)) (fun t => (t.layer 3).enable && bit t.mpg.fault.w 8) = true ∧
    then_ (exec (.layerCfgWrite 0 3 0x69) (mapped 1 tile0)) (fun t => (t.layer 3).share && (t.tile (tileKey 3 1 2)).place == .resident) = true := by
  decide +kernel

def pass3 : DescBits := dsc 0x19 0 0 [fld 16 4 8]

theorem test_pass_advance : let s := on3 (slot pass3) (mapped 0 tile0)
    s.headRuns 3 0x19 (slot pass3) ∧
    checksPass ([flagCheck pass3 0x02] ++
      ((List.range 32).map fun l => (!(8 : Nat).testBit l || ((s.layer l).enable && (s.layer l).kind == 0), 16 + l / 8)) ++ zeroBytes pass3 20 44) ∧
    then_ (exec (.passAdvance 0 3) s) (fun t => t.mpg.passWaits == [{ ring := 3, index := 0, mask := 8 }]) = true ∧
    ((s.advancePass {} true 3).layer 3).epoch = 6 := by
  unfold State.headRuns checksPass; decide +kernel

/-- A square of 300 mm about (27,000, 54,000) mm. -/
def mark3 : DescBits := dsc 0x0B 0 1 [fld 16 1 3, fld 20 4 27000, fld 24 4 54000, fld 28 2 150]

theorem test_target_mark : let s := on3 (slot mark3) (reporting (mapped 1 tile0))
    let m := parseMark ((dBytes mark3 16 48).drop 4)
    s.headRuns 3 0x0B (slot mark3) ∧ dFlag mark3 3 = false ∧ s.targetLayer (wordAt (dBytes mark3 16 48) 0 1) = true ∧
    checksPass ([flagCheck mark3 0x02, (inRange 1 3 (dLength mark3), 2)] ++ zeroBytes mark3 17 3 ++
      ((slices ((dBytes mark3 16 48).drop 4) 12 (min 3 (dLength mark3))).flatMap fun e => markChecks e.2 (20 + e.1)) ++ zeroBytes mark3 56 8) ∧
    tilesOf 3 (m.cells 100) = [tileKey 3 1 2] ∧
    then_ (exec (.targetMark 0 3 .error) s) (fun t => completed 0 t && (t.tile (tileKey 3 1 2)).cells.length == 17 &&
      Tbl.get 0 (t.tile (tileKey 3 1 2)).cells (cellIndex 270 540) == 1) = true := by
  unfold State.headRuns checksPass; decide +kernel

/-- A mark on a tile that nothing has touched. -/
theorem test_target_mark_new : let s := on3 (slot mark3) (reporting { mapped 1 tile0 with mpg := { (mapped 1 tile0).mpg with tiles := [] } })
    (s.tile (tileKey 3 1 2)).place = .absent ∧ s.cacheFull (s.isCoarse (tileKey 3 1 2)) = false ∧ s.canCreate (tileKey 3 1 2) = true ∧
    then_ (exec (.targetMark 0 3 .error) s) (fun t => (t.tile (tileKey 3 1 2)).place == .resident && (t.layer 3).use == 2) = true := by decide +kernel

/-- The same square, indirect, on a tile that was written out: it waits; and on the resident tile. -/
def markBytes : List Byte := [3, 0, 0, 0, 0, 0, 0, 0] ++ ([120, 105, 0, 0] ++ [240, 210, 0, 0] ++ [150, 0, 0, 0]) ++ [0, 0, 0, 0]
def markInd : DescBits := dsc 0x0B 8 1 [fld 24 4 24]

theorem test_target_mark_indirect : let s := on3 (slot markInd) (reporting (mapped 1 tile0))
    let m := parseMark (markBytes.drop 8)
    s.headRuns 3 0x0B (slot markInd) ∧ dFlag markInd 3 = true ∧
    checksPass ([flagCheck markInd 0x0A, (decide (1 ≤ dLength markInd) && lengthFits markInd (8 + 12 * 1 + 4 * (1 % 2)), 2)] ++ indirectChecks markInd) ∧
    s.targetLayer (wordAt markBytes 0 1) = true ∧
    checksPass (zeroBuf markBytes 1 7 1 ++ ((slices (markBytes.drop 8) 12 1).flatMap fun e => markChecks e.2 (8 + e.1)) ++ zeroBuf markBytes 20 4 20) ∧
    tilesOf 3 (m.cells 100) = [tileKey 3 1 2] ∧
    then_ (exec (.targetMark 0 3 .error) s) (completed 9) = true ∧
    then_ (exec (.targetMark 0 3 (.data markBytes)) s) (fun t => completed 0 t && (t.tile (tileKey 3 1 2)).cells.length == 17) = true ∧
    then_ (exec (.targetMark 0 3 (.data markBytes)) (on3 (slot markInd) (reporting (mapped 1 { tile0 with place := .away }))))
      (fun t => t.out.host == []) = true := by
  unfold State.headRuns checksPass; decide +kernel

def release3 : DescBits := dsc 0x0A 0 0 [fld 16 1 3, fld 17 1 1, fld 18 1 1, fld 20 2 1, fld 22 2 2]

theorem test_tile_release : let s := on3 (slot release3) (reporting (mapped 1 tile0))
    s.headRuns 3 0x0A (slot release3) ∧ checksPass (s.tileReleaseChecks release3) ∧ s.releaseKeys release3 = [tileKey 3 1 2] ∧ s.unbackedCount = 0 ∧
    then_ (exec (.tileRelease 0 3) s) (fun t => completed 0 t && t.tile (tileKey 3 1 2) == {} && (t.layer 3).use == 0) = true := by
  unfold State.headRuns checksPass; decide +kernel

/-! ### Tiles -/

/-- A tile at (1, 2) of layer 3 with cells of 100 mm: its data begins with four bytes that bring the CRC's register to 0, so that the
zeros after them leave it there and its CRC is FFFF FFFFH. -/
def tileIn (kind : Nat) (lead : List Byte) : List Byte :=
  [1, 0, 2, 0, 3, BitVec.ofNat 8 (kind + 8), 0, 0, 0, 0, 0, 0, 255, 255, 255, 255] ++ (List.replicate 48 0 ++ lead) ++
    List.replicate (tileBytes kind - 4) 0

def targetIn : List Byte := tileIn 1 [246, 254, 96, 107]
def coverIn : List Byte := tileIn 0 [230, 77, 99, 73]
def import3 (kind : Nat) : DescBits := dsc 0x08 (if kind = 0 then 0x18 else 8) 1 [fld 24 4 (64 + tileBytes kind)]
def importing (kind : Nat) : State := on3 (slot (import3 kind)) (reporting (mapped kind tile0))

theorem crc_of_zeros : ∀ n : Nat, (List.replicate n (0 : Byte)).foldl crcByte 0#32 = 0#32
  | 0 => rfl
  | n + 1 => by
    rw [List.replicate_succ, List.foldl_cons, show crcByte 0#32 0 = 0#32 by decide +kernel]
    exact crc_of_zeros n

/-- The bytes over which the CRC of such a tile runs, and what it comes to. -/
theorem crc_of_tile (kind : Nat) (lead : List Byte) (hl : lead.length = 4)
    (h0 : ((([1, 0, 2, 0, 3, BitVec.ofNat 8 (kind + 8), 0, 0, 0, 0, 0, 0] : List Byte) ++ (List.replicate 48 0 ++ lead)).foldl crcByte
      0xFFFFFFFF#32) = 0#32) :
    crc32 ((tileIn kind lead).take 12 ++ (tileIn kind lead).drop 16) = 0xFFFFFFFF#32 ∧ (tileIn kind lead).length = 64 + (4 + (tileBytes kind - 4)) := by
  have hb : (tileIn kind lead).take 12 ++ (tileIn kind lead).drop 16 =
      ([1, 0, 2, 0, 3, BitVec.ofNat 8 (kind + 8), 0, 0, 0, 0, 0, 0] ++ (List.replicate 48 0 ++ lead)) ++ List.replicate (tileBytes kind - 4) 0 := by
    simp [tileIn]
  refine ⟨?_, by simp [tileIn, hl]; omega⟩
  rw [hb, crc32, List.foldl_append, h0, crc_of_zeros]
  rfl

theorem test_import : (importing 1).headRuns 3 0x08 (slot (import3 1)) ∧ checksPass (tileImportChecks (import3 1)) ∧ dFlag (import3 1) 5 = false ∧
    ((importing 1).layer (wordAt (targetIn.take (64 + tileBytes 1)) 4 1)).enable = true ∧
    then_ (exec (.tileImport 0 3 .error) (importing 1)) (completed 9) = true := by
  unfold State.headRuns checksPass; decide +kernel

theorem test_import_bytes : targetIn.take (64 + tileBytes 1) = targetIn ∧ targetIn.length = 1 * (64 + tileBytes 1) ∧
    checksPass (tileChecks 3 ((importing 1).layer 3) targetIn 0) ∧ ((importing 1).tile (parseTile 1 targetIn).key).frame.isSome = true := by
  have h := crc_of_tile 1 [246, 254, 96, 107] rfl (by decide +kernel)
  refine ⟨List.take_of_length_le (by rw [targetIn, h.2]; decide), by rw [targetIn, h.2]; decide, ?_, by decide +kernel⟩
  unfold tileChecks
  rw [show crc32 (targetIn.take 12 ++ targetIn.drop 16) = 0xFFFFFFFF#32 from h.1]
  unfold checksPass; decide +kernel

theorem test_import_merge : (importing 0).headRuns 3 0x08 (slot (import3 0)) ∧ checksPass (tileImportChecks (import3 0)) ∧
    dFlag (import3 0) 4 = true ∧ dFlag (import3 0) 5 = false ∧ ((importing 0).layer 3).kind = 0 ∧
    ((importing 0).tile (parseTile 0 coverIn).key).place ≠ .away ∧ ((importing 0).tile (parseTile 0 coverIn).key).frame.isSome = true ∧
    mergeCell 5 1 2 = 2 ∧ mergeCell 5 2 1 = 2 + 4 * 0 := by
  unfold State.headRuns checksPass; decide +kernel

theorem test_import_merge_bytes : coverIn.length = 1 * (64 + tileBytes 0) ∧ checksPass (tileChecks 3 ((importing 0).layer 3) coverIn 0) := by
  have h := crc_of_tile 0 [230, 77, 99, 73] rfl (by decide +kernel)
  refine ⟨by rw [coverIn, h.2]; decide, ?_⟩
  unfold tileChecks
  rw [show crc32 (coverIn.take 12 ++ coverIn.drop 16) = 0xFFFFFFFF#32 from h.1]
  unfold checksPass; decide +kernel

/-- A delta record of origin 9 on layer 3: 1 m east along cell row 540, 200 mm wide. -/
def deltaIn : List Byte :=
  [9, 0, 3, 0, 1, 0, 0, 0] ++ [120, 105, 0, 0] ++ [34, 211, 0, 0] ++ [96, 109, 0, 0] ++ [34, 211, 0, 0] ++ [4, 0, 0, 0] ++ List.replicate 20 0

def importDelta : DescBits := dsc 0x08 0x28 1 [fld 24 4 48]

theorem test_import_delta : let s := on3 (slot importDelta) (reporting (mapped 0 tile0))
    s.headRuns 3 0x08 (slot importDelta) ∧ checksPass (tileImportChecks importDelta) ∧ dFlag importDelta 5 = true ∧
    checksPass ((slices deltaIn 48 1).flatMap fun e => s.deltaChecks e.2 e.1) ∧ s.mergeCount = 0 ∧ s.deltaWaits (parseDelta deltaIn) = false ∧
    then_ (exec (.tileImport 0 3 (.data deltaIn)) s)
      (fun t => completed 0 t && (t.tile (tileKey 3 1 2)).pairs == [(9, 1)] && decide (1 < (t.tile (tileKey 3 1 2)).cells.length)) = true := by
  unfold State.headRuns checksPass; decide +kernel

/-- The header of that tile has been written, LAYER 3 and FORMAT 9, its CRC after those. -/
def headed (a : Nat) (ws : List HostWrite) : Bool := match ws with
  | .header b fs :: _ => a == b && fs.take 7 == [fld 0 2 1, fld 2 2 2, fld 4 1 3, fld 5 1 9, fld 6 1 0, fld 7 1 0, fld 8 4 0] && fs.length == 8
  | _ => false

/-- Whole tiles where no tile is: one with no frame to be had, one that a TABLE, a DATA and a HEADER frame are there for, and one
whose tile was written out. -/
theorem test_import_no_frame : let k := (parseTile 1 targetIn).key
    let s := importing 1
    let bare (g : List Grant) (t : Tbl Tile) : State := { s with mpg := { s.mpg with grants := g, tiles := t } }
    k = tileKey 3 1 2 ∧ ((bare [] []).tile k).frame = none ∧ ((bare [] []).tile k).unbacked = false ∧
    (bare [] []).frameCheck k ≠ none ∧ ((bare grants []).tile k).place ≠ .resident ∧ (bare grants []).cacheFull ((bare grants []).isCoarse k) = false ∧
    (bare grants []).frameCheck k = none ∧ ((bare grants [(k, { tile0 with place := .away })]).tile k).frame.isSome = true := by
  decide +kernel

def export3 (flags : Nat) : DescBits := dsc 0x09 flags 0 [fld 16 1 3, fld 17 1 1, fld 18 1 1, fld 20 2 1, fld 22 2 2, fld 24 8 4096, fld 32 4 8256]

theorem test_export : let s := on3 (slot (export3 0)) (reporting (mapped 1 tile0))
    s.headRuns 3 0x09 (slot (export3 0)) ∧ checksPass (s.tileExportChecks (export3 0)) ∧ (rectKeys (export3 0)) = [tileKey 3 1 2] ∧
    then_ (exec (.tileExport 0 3 false) s) (completed 9) = true ∧
    then_ (exec (.tileExport 0 3 true) s) (fun t => completed 0 t && headed 4096 (t.out.host.drop 1) && t.out.host.drop 2 == [.data 4160 1 [(7, 1)]]) = true ∧
    (∀ k ∈ rectKeys (export3 0), s.unsettled k = false ∧ s.awaited k = false) := by
  unfold State.headRuns checksPass; decide +kernel

theorem test_export_release : let s := on3 (slot (export3 0x10)) (reporting (mapped 1 tile0))
    s.headRuns 3 0x09 (slot (export3 0x10)) ∧ checksPass (s.tileExportChecks (export3 0x10)) ∧
    then_ (exec (.tileExport 0 3 true) s) (fun t => t.tile (tileKey 3 1 2) == {}) = true := by
  unfold State.headRuns checksPass; decide +kernel

def away0 : Tile := { tile0 with place := .away, cells := [], sought := true }

/-- A fetch that fails, one that brings the tile, one whose CRC is wrong, and the retry 100 ms after a failure. -/
theorem test_fetch_tile : let s := mapped 1 away0
    let good : TileRead := .tile 3 9 true 5 false [] [(7, 1)]
    s.fetches (tileKey 3 1 2) = true ∧ (s.tile (tileKey 3 1 2)).failTick = none ∧
    then_ (exec (.tileFetchDone 0 3 1 2 .error) s) (fun t => (t.tile (tileKey 3 1 2)).failTick == some t.now && bit t.mpg.fault.w 6) = true ∧
    then_ (exec (.tileFetchDone 0 3 1 2 good) s) (fun t => t.tile (tileKey 3 1 2) == { tile0 with useTick := t.now }) = true ∧
    then_ (exec (.tileFetchDone 0 3 1 2 (.tile 3 9 false 5 false [] [])) s)
      (fun t => (t.tile (tileKey 3 1 2)).place == .lost && bit t.mpg.fault.w 3) = true ∧
    then_ (exec (.fetchRetry 0 3 1 2 good) (mapped 1 { away0 with failTick := some 980000000 })) (fun t => t.tile (tileKey 3 1 2) == { tile0 with useTick := t.now }) =
      true ∧
    then_ (exec (.tileFetchDone 0 3 1 2 good) (mapped 1 { away0 with sought := false })) (fun t => (t.tile (tileKey 3 1 2)).place == .away) = true := by decide +kernel

def dirty0 : Tile := { tile0 with dirty := true, dirtyTick := 0 }

/-- A due tile written back for the first time, and one whose write fails. -/
theorem test_write_back : let s := mapped 1 dirty0
    0 + s.mpg.wbInterval * 20000000 ≤ s.now ∧
    then_ (exec (.writebackDue 0 3 1 2 false true) s) (fun t => !(t.tile (tileKey 3 1 2)).dirty &&
      t.out.host.take 1 == [.entry 0x40001008 1] && headed 0x40000000 (t.out.host.drop 1) && t.out.host.drop 2 == [.data 0x40000000 1 [(7, 1)]]) = true ∧
    then_ (exec (.writebackDue 0 3 1 2 false false) s) (fun t => (t.tile (tileKey 3 1 2)).dirty && bit t.mpg.fault.w 6) = true := by decide +kernel

/-- The coarse cache of 4 MiB holds 32 tiles of 128 KiB: the clean one goes, although the dirty ones were used before it. -/
theorem test_evict : let d : Tile := { dirty0 with leafValid := true }
    let s := mpg { grants, layers := [(3, { kind := 3, cell := 2, enable := true, use := 32 })],
                   tiles := ((List.range 31).map fun i : Nat => (tileKey 3 i 0, d)) ++ [(tileKey 3 40 9, { tile0 with leafValid := true, useTick := 5 })] }
    s.cacheFull true = true ∧ s.evicts (tileKey 3 40 9) = true ∧ s.evicts (tileKey 3 0 0) = false ∧
    then_ (exec (.writebackDue 0 3 40 9 true true) s) (fun t => (t.tile (tileKey 3 40 9)).place == .away && t.out.host == []) = true := by
  decide +kernel

/-- 32 unbacked tiles, and a delta that waits for a place for a 33rd. -/
def crowded : State :=
  mpg { layers := [(3, { kind := 1, cell := 2, enable := true })],
        mergeQ := [{ delta := parseDelta (List.replicate 48 0), keys := [tileKey 3 40 0] }],
        tiles := (List.range 32).map fun (i : Nat) => (tileKey 3 i 0, { place := .resident, unbacked := true, order := i }) }

theorem test_unbacked_drop : crowded.unbackedCount = 32 ∧ crowded.wantsRoom = true ∧ crowded.oldestUnbacked none = some (tileKey 3 0 0) ∧
    then_ (exec (.unbackedDrop 0) crowded) (fun t => (t.tile (tileKey 3 0 0)).place == .lost && t.mpg.tileDrop == 1) = true := by decide +kernel

theorem test_merge_queue : let w : MergeWait := { delta := parseDelta deltaIn, keys := [tileKey 3 1 2, tileKey 3 9 9] }
    let s := { mapped 0 tile0 with mpg := { (mapped 0 tile0).mpg with mergeQ := [w], tiles := [(tileKey 3 1 2, tile0), (tileKey 3 9 9, away0)] } }
    s.drainable s.mpg.mergeQ = some ([], w, []) ∧
    then_ (exec (.mergeQueueDrain 0) s) (fun t => t.mpg.mergeQ == [{ w with keys := [tileKey 3 9 9] }] &&
      (t.tile (tileKey 3 1 2)).pairs == [(9, 1)]) = true := by decide +kernel

/-- A delta for a tile that was written out waits, and so does the next one for it; a delta that comes later may not pass it. -/
theorem test_delta_waits : let s := mapped 0 { tile0 with place := .away }
    let q : MergeWait := { delta := parseDelta deltaIn, keys := [tileKey 3 1 2] }
    let r := { mapped 0 tile0 with mpg := { (mapped 0 tile0).mpg with mergeQ := [q] } }
    tilesOf 3 (deltaCells (parseDelta deltaIn) 100) = [tileKey 3 1 2] ∧ s.mustWait (tileKey 3 1 2) = true ∧ r.mustWait (tileKey 3 1 2) = true ∧
    (r.tile (tileKey 3 1 2)).place = .resident ∧ (s.applyDelta (parseDelta deltaIn) true).mpg.mergeQ = [{ q with own := true }] ∧
    (r.applyDelta (parseDelta deltaIn) false).mpg.mergeQ = [q, q] := by decide +kernel

theorem test_own_pass : ownCell 1 0 = 5 ∧ ownCell 1 5 = 5 ∧ ownCell 2 5 = 10 ∧
    Tbl.get 0 (((mapped 0 tile0).ownInto { parseDelta deltaIn with epoch := 1 } (tileKey 3 1 2)).tile (tileKey 3 1 2)).cells (cellIndex 272 540) = 5 ∧
    ((mapped 0 { tile0 with pairs := [(9, 1)] }).mergeInto (parseDelta deltaIn) (tileKey 3 1 2)).mpg = (mapped 0 { tile0 with pairs := [(9, 1)] }).mpg := by
  decide +kernel

/-! ### GNSS -/

def gnb (f : Gnb) : State := { up with gnb := f }

/-- One ephemeris record: GPS, satellite 5, SOURCE 1. -/
def ephIn : List Byte := [1, 0, 5, 1, 77, 0, 0, 0] ++ List.replicate 120 0
def eph3 : DescBits := dsc 0x0D 8 1 [fld 24 4 128]

theorem test_ephemeris_load : let s := on3 (slot eph3) (reporting up)
    s.headRuns 3 0x0D (slot eph3) ∧
    checksPass ([flagCheck eph3 0x0A, (dFlag eph3 3, 1), (inRange 1 512 (dLength eph3) && lengthFits eph3 (128 * dLength eph3), 2)] ++
      indirectChecks eph3) ∧ checksPass ((slices ephIn 128 1).flatMap fun r => ephChecks r.2 r.1) ∧
    then_ (exec (.ephemerisLoad 0 3 .error) s) (completed 9) = true ∧
    then_ (exec (.ephemerisLoad 0 3 (.data ephIn)) s) (fun t => t.gnb.ephWait.map (fun w => w.records.map Eph.sv) == [[5]]) = true := by
  unfold State.headRuns checksPass; decide +kernel

def eph (sv iod : Nat) : Eph := { system := 0, sv, source := 1, iod, health := 0, toe := 0, bits := 0 }

/-- A record that joins, one that replaces, and one that finds 160. -/
theorem test_store_ephemeris : storeEph ([eph 5 1], 0, 0) (eph 6 1) = ([eph 5 1, eph 6 1], 1, 0) ∧
    storeEph ([eph 5 1], 0, 0) (eph 5 2) = ([eph 5 2], 1, 1) ∧
    (storeEph ((List.range 160).map (fun n => eph n 1), 0, 0) (eph 200 1)).1.length = 160 := by decide +kernel

/-- Band 0's gain is 7 dB below its median of 17. -/
def epochLow : GnssEpoch := { agcGain := [10], powerOver := [], signals := [], broadcastSec := none }

theorem test_meas_epoch : let s := gnb { bands := [(0, { median := 17 })], ephWait := [{ ring := 3, index := 0, records := [eph 5 1], assists := [] }] }
    s.isReady 6 = true ∧ s.gnb.newEpoch (s.now / measTicks s.gnb.measRate * measTicks s.gnb.measRate) = true ∧ s.bandExists 0 = true ∧
    10 + s.gnb.agcTol < (Tbl.get {} s.gnb.bands 0).median ∧
    then_ (exec (.gnssMeasEpoch 0 epochLow) s)
      (fun t => t.gnb.measCount == 1 && t.gnb.eph == [eph 5 1] && (Tbl.get {} t.gnb.bands 0).interfered && bit t.gnb.fault.w 2 &&
        t.gnb.solFail == 1) = true := by decide +kernel

theorem test_burst_window : let s := (gnb { burst := true, burstEn := true, baselineMeas := 900, hdg := true }).elapse 12000000
    s.windowEpoch ≤ s.now ∧ s.gnb.newEpoch s.windowEpoch = true ∧
    then_ (exec (.burstWindow 0 epochLow) s) (fun t => t.gnb.measCount == 1 && !t.gnb.hdg && t.gnb.baselineMeas == 0) = true := by decide +kernel

def sig (antenna sv elev : Nat) (signal : Nat := 1) : GnssSignal :=
  { antenna, system := signal / 16, sv, signal, prValid := true, phaseValid := true, halfCycleOk := true, slip := false, resolved := true,
    cn0 := 180, lock := 9, pr := 1, phase := 1, doppler := 1, prSigma := 1, phaseSigma := 1, elev, azim := 0 }

/-- The highest satellite first with all its signals; antenna B only what antenna A tracks; no code that is none of the nine. -/
theorem test_tracks : wantedTracks [sig 0 3 20, sig 0 7 40, sig 0 3 20 2, sig 1 7 40, sig 1 9 50] 0 =
      [{ system := 0, sv := 7, signal := 1 }, { system := 0, sv := 3, signal := 2 }, { system := 0, sv := 3, signal := 1 }] ∧
    wantedTracks [sig 0 3 20, sig 0 7 40, sig 1 7 40, sig 1 9 50] 1 = [{ system := 0, sv := 7, signal := 1 }] ∧
    up.trackable false (sig 0 3 20) = true ∧ up.trackable false (sig 0 3 20 3) = false ∧ up.trackable false (sig 0 159 20 0x41) = false ∧
    up.trackable false (sig 0 158 20 0x41) = true := by decide +kernel

/-- An inter-system offset that is 51 ns from the running one, whatever the fit gives, and the first one. -/
theorem test_isb (i : GnssInput) : (gnb { isbRun := [(2, some (Config.gnssIsb i 2 + 51))] }).isbFails 0 2 (Config.gnssIsb i 2) = true ∧
    up.isbFails 0 2 (Config.gnssIsb i 2) = false := by
  constructor
  · simp [State.isbFails, gnb, Tbl.get]
  · rfl

/-- Five signals on both antennas; their baseline is one the radio gives, so it fits the configured length or it does not. -/
theorem test_heading : let ps := (List.range 5).map fun n => (sig 0 n 20, sig 1 n 20)
    up.antExists 1 = true ∧ up.gnb.hdgMinSignals ≤ ps.length ∧ up.hdgPairs (ps.map Prod.fst ++ ps.map Prod.snd) = ps ∧
    up.fixedPairs (ps.map Prod.fst ++ ps.map Prod.snd) = ps := by decide +kernel

def gps5 : Track := { system := 0, sv := 5, signal := 1 }
def word : List Bool := List.replicate 30 false

def nav (bits : List Bool) (info : List NavInfo) : NavMessage :=
  { channel := 0, bits, complete := true, polarityKnown := true, parts := [(0, 0)], info }

/-- A channel that tracks a GPS satellite's LNAV, the word before ended in zeros. -/
def hearing (f : Gnb) : State := gnb { f with chans := [(0, some gps5)], lastBits := [(0, some (false, false))] }

/-- The check of CRC-24Q over the nine digits, of a zero word, of one with a bit wrong, of the word after an unknown one, and of
one with a bit missing. -/
theorem test_check_codes : crc24 ([49, 50, 51, 52, 53, 54, 55, 56, 57].flatMap fun c => (List.range 8).map fun i => (c : Nat).testBit (7 - i)) = 0xCDE703 ∧
    (hearing {}).checkCode gps5 (nav word []) = 0 ∧ (hearing {}).checkCode gps5 (nav (word.set 3 true) []) = 1 ∧
    (gnb { chans := [(0, some gps5)] }).checkCode gps5 (nav word []) = 2 ∧
    (hearing {}).checkCode gps5 { nav word [] with complete := false } = 2 := by decide +kernel

/-- A failed check, an IOD that differs for the second time, one that is the record's, and a leap second. -/
theorem test_nav_message : (hearing {}).track 0 = some gps5 ∧ (hearing {}).antExists 0 = true ∧
    then_ (exec (.navMessage 0 (nav (word.set 3 true) [])) (hearing {}))
      (fun t => t.gnb.navFail == 1 && bit t.gnb.fault.w 8 && Tbl.get 0 t.gnb.msgCount 0 == 1) = true ∧
    then_ (exec (.navMessage 0 (nav word [.iod 9])) (hearing { eph := [{ eph 5 1 with iodMisses := 1 }] }))
      (fun t => t.gnb.eph.map (fun r => (r.iodMisses, r.stale)) == [(2, true)]) = true ∧
    then_ (exec (.navMessage 0 (nav word [.iod 1])) (hearing { eph := [{ eph 5 1 with iodMisses := 1 }] }))
      (fun t => t.gnb.eph.map (fun r => (r.iodMisses, r.stale)) == [(0, false)]) = true ∧
    then_ (exec (.navMessage 0 (nav word [.leapSecond 18])) (hearing {})) (fun t => t.tbu.utcOffset == 18 && t.tbu.utcFromGnss) = true := by
  decide +kernel

def bursting (on : Bool) : State :=
  { gnb { burst := on, burstEn := true, allowedSince := some 0, everFixed := true } with
    pse := { up.pse with valid := true }, tbu := { up.tbu with bal := .locked, source := 2, calValid := true } }

theorem test_burst_start : (bursting false).gnb.burst = false ∧ (bursting false).burstAllowed = true ∧ (bursting false).gnb.armed = (bursting false).applyArmed ∧
    0 + 400000000 ≤ (bursting false).now / 200000000 * 200000000 ∧
    then_ (exec (.burstStart 0) (bursting false)) (fun t => t.gnb.burst) = true := by decide +kernel

theorem test_burst_exit : let s := gnb { burst := true }
    s.burstAllowed = false ∧ s.gnb.armed = s.applyArmed ∧
    then_ (exec (.burstExit 0) s) (fun t => !t.gnb.burst && t.gnb.resumeTick == 1004000000) = true := by decide +kernel

theorem test_band_clears : let s := gnb { bands := [(1, { interfered := true, failTick := 600000000 })] }
    (Tbl.get {} s.gnb.bands 1).failTick + 400000000 ≤ s.now ∧
    then_ (exec (.interferenceClear 0 1) s) (fun t => !(Tbl.get {} t.gnb.bands 1).interfered) = true := by decide +kernel

theorem test_isb_hold : let s := gnb { isbUntil := [(2, 1000000000)] }
    Tbl.get 0 s.gnb.isbUntil 2 ≤ s.now ∧ then_ (exec (.isbHoldExpiry 0 2) s) (fun t => t.gnb.isbUntil == []) = true := by decide +kernel

/-- A peak, one that has moved, and a second without it. -/
theorem test_notch : let c : Notch := { active := true, depthDb := 40, offsetKhz := -5, overTick := 800000000 }
    up.bandExists (1 / 2) = true ∧ (up.notch 1).enable = true ∧ up.gnb.notchThresh < 16 ∧ (up.notch (1 ^^^ 1)).active = false ∧
    then_ (exec (.notchEngage 0 1 (-5) 30 16) up) (fun t => t.notch 1 == { active := true, depthDb := 40, offsetKhz := -5, overTick := t.now }) = true ∧
    then_ (exec (.notchEngage 0 1 7 50 16) (gnb { notches := [(1, c)] }))
      (fun t => t.notch 1 == { active := true, depthDb := 50, offsetKhz := 7, overTick := t.now } && t.icu == up.icu) = true ∧
    then_ (exec (.notchRelease 0 1) (gnb { notches := [(1, c)] })) (fun t => !(t.notch 1).active) = true ∧
    then_ (exec (.notchRelease 0 1) (gnb { notches := [(1, { c with overTick := 800000001 })] })) (fun t => (t.notch 1).active) = true := by
  decide +kernel

def biased (b : Bias) : State := gnb { bias := [(1, b)] }
def ma (t : State) : Option Nat := Tbl.get none t.gnb.biasMa 1

theorem test_bias : then_ (exec (.antOpen 0 1 1) (biased .ok)) (fun t => t.bias 1 == .opened && ma t == some 1 && bit t.gnb.fault.w 1) = true ∧
    then_ (exec (.antOpen 0 1 60) (biased .ok)) (fun t => t.bias 1 == .ok && ma t == some 60 && t.gnb.fault == {}) = true ∧
    then_ (exec (.antShort 0 1 61) (biased .opened)) (fun t => t.bias 1 == .short && ma t == none && Tbl.get 0 t.gnb.shortTick 1 == t.now) = true ∧
    then_ (exec (.antBiasRecover 0 1 60) (biased .opened)) (fun t => t.bias 1 == .ok && ma t == some 60) = true ∧
    then_ (exec (.antBiasRetry 0 1 2) (biased .short)) (fun t => t.bias 1 == .ok && ma t == some 2) = true ∧
    then_ (exec (.antBiasRetry 0 1 61) (biased .short)) (fun t => t.bias 1 == .short) = true := by decide +kernel

/-! ### Links -/

def ported (f : Flp) : State := { up with flp := f }
def dlinked (d : Dlk) : State :=
  { up with dlk := { portEn := 3, ports := [(0, { linked := true, state := .running }), (1, { linked := true, state := .running })], outQ := d.outQ,
                     masterId := d.masterId, siblings := d.siblings, dupId := d.dupId, seen := d.seen, ringClosed := d.ringClosed }
            mpg := { up.mpg with domainId := 6 } }

/-- Both kinds of port come up, and a field port reports a wrong speed. -/
theorem test_port_link : then_ (exec (.portLinkChange 0 0 1 .up) (ported {}))
      (fun t => (t.port 1).linked && t.isReady 9 && (t.port 1).state == .up) = true ∧
    then_ (exec (.portLinkChange 0 0 1 .wrongSpeed) (ported {})) (fun t => !(t.port 1).linked && (t.port 1).speedBad && bit t.flp.fault.w 3) = true ∧
    then_ (exec (.portLinkChange 0 1 1 .down) (dlinked {}))
      (fun t => !(t.dport 1).linked && !t.isReady 13 && (t.dport 1).state == .down && (t.dport 0).linked) = true ∧
    then_ (exec (.portLinkChange 0 1 1 .up) (dlinked {})) (· == (dlinked {})) = true := by decide +kernel

def beats0 : State := ported { portEn := 1, ports := [(0, { linked := true, state := .running, beatCount := 65537, session := 9, lastSession := 9 })] }

theorem test_beat_send : beats0.flp.beatTick < 1000000000 ∧ beats0.beating 1000000000 = [0] ∧ beats0.portUp 0 = true ∧
    then_ (exec (.beatSend 0) beats0) (fun t => (t.port 0).beatCount == 65538 && t.flp.beatTick == 1000000000 &&
      (t.out.frames.head?.map fun f => (f.type, f.seq, f.session)) == some (1, 1, 9)) = true := by decide +kernel

/-- A header as a good frame has it, but for its EtherType. -/
def good (e : Nat) : FrameHead := { vlan := false, etherType := e, version := 1, fcsOk := true }
def teb (origin inst seq : Nat) (ttl : Nat := 64) : TebHead :=
  { head := good 0x88B6, ttl, origin, seq := BitVec.ofNat 32 seq, instanceId := BitVec.ofNat 32 inst }

/-- Latencies of 10 ns in and 20 ns out; DELAY frames of both kinds, one with a foreign EtherType, one of a double. -/
def lat0 : State := beats0.onPort 0 fun p => { p with rxNs := 10, txNs := 20 }
def lat1 : State := (dlinked {}).onDport 1 fun p => { p with rxNs := 10, txNs := 20 }

theorem test_delay_frames : (good 0x88B5).isBad lat0.flp.etherType = false ∧ (good 1).isBad lat0.flp.etherType = true ∧
    then_ (exec (.delayReq 0 0 0 { teb 0 0 65537 with head := good 0x88B5 } 1 655361 3) lat0)
      (fun t => (t.out.frames.head?.map fun f => (f.type, f.seq, f.session)) == some (5, 1, 9) &&
        (t.out.frames.head?.map fun f => f.body) == some (delayBody 1 1 1310723)) = true ∧
    then_ (exec (.delayReq 0 0 0 { teb 0 0 7 with head := good 1 } 1 2 3) lat0) (fun t => (t.port 0).badFrame == 1 && bit t.flp.fault.w 2) = true ∧
    lat1.dportHears 1 = true ∧ (teb 9 1 7).head.isBad lat1.dlk.etherType = false ∧ (teb 9 1 7).origin ≠ lat1.mpg.domainId ∧
    then_ (exec (.delayReq 0 1 1 (teb 9 1 7) 1 655361 3) lat1)
      (fun t => (t.out.frames.head?.map fun f => (f.type, f.seq, f.node)) == some (0x25, 0, 6) && t.dlk.seqOf 0x25 == 1) = true ∧
    (teb 6 1 7).instanceId ≠ lat1.dlk.instanceId ∧
    then_ (exec (.delayReq 0 1 1 (teb 6 1 7) 1 2 3) lat1) (fun t => t.dlk.dupId && t.dlk.dupTick == t.now) = true := by decide +kernel

/-- The answer to the request of time stamp 100, and one to none. -/
theorem test_delay_resp : let s : State := lat1.onDport 1 fun p => { p with reqT1 := some 100 }
    s.dportHears 1 = true ∧ (s.dport 1).reqT1 = some 100 ∧
    then_ (exec (.delayResp 0 1 (teb 9 1 7) 100 500 520 655520) s) (fun t => (t.dport 1).linkDelay == 20 && (t.dport 1).reqT1 == none) = true ∧
    then_ (exec (.delayResp 0 1 (teb 9 1 7) 101 500 520 655520) s) (· == s) = true := by
  decide +kernel

theorem test_delay_measure : (dlinked {}).dportHears 1 = true ∧
    then_ (exec (.linkDelayMeasure 0 1) lat1) (fun t => (t.dport 1).reqT1 == some (1000000000 * 327680 + 1310720) && t.dlk.seqOf 0x24 == 1) = true := by
  decide +kernel

theorem test_rings : let s := ported { portEn := 3, ring01 := true, ports := [(0, { linked := true }), (1, { linked := true })] }
    s.fieldPort 1 = true ∧ s.inRing 0 = true ∧ s.portUp 0 = true ∧ s.portUp 1 = true ∧ (s.port 0).ringClosed ≠ true ∧
    then_ (exec (.fieldRingChange 0 0 true) s) (fun t => (t.port 0).ringClosed && !(t.port 1).ringClosed) = true ∧
    (dlinked {}).dlk.ringClosed ≠ true ∧ then_ (exec (.tebeciaRingChange 0 true) (dlinked {})) (fun t => t.dlk.ringClosed) = true := by
  decide +kernel

/-- The first SESSION after power-on can be any but the one before. -/
theorem test_session : (beats0.port 0).lastSession < 65536 := by decide

def onNode3 (d : Node) : State := linked.onNode 0 3 fun _ => d
def cmd (kind tick : Nat) : CmdRec := { endpoint := 9, kind, tag := 5, value := 0, tick }

theorem test_command_frame : let s := onNode3 { seq := 65535, waiting := [cmd 1 999000000, cmd 2 999000000], waitTick := 999990000 }
    s.frameDue 0 3 = true ∧
    then_ (exec (.commandFrameSend 0 0 3) s) (fun t => (t.node 0 3).seq == 0 && (t.node 0 3).waiting == [] &&
      (t.node 0 3).sent == [{ seq := 0, records := [cmd 1 999000000, cmd 2 999000000], sentTick := 1000000000 }] &&
      (t.out.frames.head?.map fun f => f.records.length) == some 2) = true := by decide +kernel

/-- An ON_PWM and its PWM_GRID are not parted by the limit of 180. -/
theorem test_take_recs : (takeRecs (List.replicate 179 (cmd 1 0) ++ [cmd 3 0, cmd 4 0])).length = 179 ∧
    (takeRecs (List.replicate 178 (cmd 1 0) ++ [cmd 3 0, cmd 4 0])).length = 180 := by decide +kernel

theorem test_ack_wait : let f : SentFrame := { seq := 7, records := [cmd 1 0], sentTick := 999800000 }
    let s := onNode3 { sent := [{ f with sentTick := 999800001 }, f, { f with seq := 8, sentTick := 999900000 }] }
    s.portExists 0 = true ∧ s.portRuns 0 = true ∧ s.ackDue { f with sentTick := 999800001 } = false ∧ s.ackDue f = true ∧
    then_ (exec (.ackWaitExpiry 0 0 3) s) (fun t => ((t.node 0 3).sent.map fun g => (g.seq, g.retries)) == [(7, 0), (7, 1), (8, 1)] &&
      t.out.frames.length == 2) = true := by decide +kernel

theorem test_unacked : let s := onNode3 { waiting := [cmd 2 998000000], sent := [{ seq := 7, records := [cmd 1 998000001, cmd 1 998000000], sentTick := 0 }] }
    s.portExists 0 = true ∧ (cmd 2 998000000).lateAt s.now = true ∧ (cmd 1 998000001).lateAt s.now = false ∧
    then_ (exec (.unacked 0 0 3) s) (fun t => (t.port 0).unacked == 2 && bit t.flp.fault.w 0 && (t.node 0 3).waiting == [] &&
      ((t.node 0 3).sent.map fun f => f.records.map fun r => r.counted) == [[false, true]]) = true := by decide +kernel

def rep3 : NodeReport :=
  { head := good 0x88B5, node := 3, seq := 8, session := 0, hop := 2, safe := true, fault := false, syncOk := true, endpoints := 30, ackSeq := 7,
    beatSeen := 12, entries := [] }

/-- A frame dropped, a second copy in a ring, and a report that acknowledges a frame, comes from two places and is safe. -/
theorem test_node_report : { rep3 with head := good 1 }.head.isBad linked.flp.etherType = true ∧
    then_ (exec (.nodeReport 0 0 { rep3 with head := good 1 }) linked) (fun t => (t.port 0).badFrame == 1 && bit t.flp.fault.w 2) = true ∧
    (let s : State := { onNode3 { repSeqs := [9, 8] } with flp := { (onNode3 { repSeqs := [9, 8] }).flp with ring01 := true } }
     s.nodePort 0 = 0 ∧ s.inRing 0 = true ∧ rep3.seq ∈ (s.node 0 3).repSeqs ∧ then_ (exec (.nodeReport 0 0 rep3) s) (· == s) = true ∧
     then_ (exec (.nodeReport 0 0 { rep3 with seq := 7 }) s) (fun t => (t.node 0 3).repSeqs == [7, 9, 8]) = true) ∧
    (let s := epn 777 {} { inDemand := true, heldOn := true }
       (onNode3 { present := true, seen := true, hop := 5, lastReportTick := 1000000000,
                  sent := [{ seq := 7, records := [cmd 1 1000000000], sentTick := 0 }, { seq := 8, records := [], sentTick := 0 }] })
     rep3.head.isBad s.flp.etherType = false ∧ s.portUp 0 = true ∧ s.nodeEps 0 3 = [777] ∧ (s.node 0 3).hop ≠ rep3.hop ∧
     then_ (exec (.nodeReport 0 0 rep3) s) (fun t => ((t.node 0 3).sent.map SentFrame.seq) == [8] && (t.node 0 3).dup && bit t.flp.fault.w 1 &&
       (t.node 0 3).safe && (t.node 0 3).repSeqs == [8] && !(t.dyn 777).inDemand) = true) := by decide +kernel

theorem test_node_lost : let s := epn 777 {} { inDemand := true } (onNode3 { present := true, lastReportTick := 999399999, safeBeats := 9 })
    (s.node 0 3).present = true ∧ beatOf 999399999 + 4 ≤ beatOf s.now ∧
    then_ (exec (.nodeLost 0 0 3) s) (fun t => !(t.node 0 3).present && (t.node 0 3).safeBeats == 0 && !(t.dyn 777).inDemand) = true := by
  decide +kernel

theorem test_node_release : let s := epn 777 {} { heldOn := true } (onNode3 { present := true, safe := true, safeBeats := 100 })
    s.flp.recover ≤ (s.node 0 3).safeBeats ∧ s.nodeEps 0 3 = [777] ∧
    then_ (exec (.nodeRelease 0 0 3) s) (fun t => (t.node 0 3).safeBeats == 0 && !(t.dyn 777).heldOn &&
      (t.node 0 3).waiting.map (fun r => r.kind) == [6]) = true := by decide +kernel

theorem test_dup_node : let s := onNode3 { dup := true, singleBeats := 101, lastReportTick := 1000000000 }
    100 ≤ (s.node 0 3).singleBeats - b2n (beatOf 1000000000 == beatOf s.now) ∧
    then_ (exec (.dupNodeClear 0 0 3) s) (fun t => !(t.node 0 3).dup) = true := by decide +kernel

/-- NODE_WRITE to node 3 of port 0: a byte at 0x1F (no warded setting), two bytes at 0x1F (the second is warded). -/
def nw3 (count : Nat) : DescBits := dsc 0x14 0 0 [fld 17 1 3, fld 18 2 0x1F, fld 21 1 count, fld 24 8 0x1122, fld 32 2 0]

theorem test_node_write : let s := on3 (slot (nw3 1)) (reporting linked)
    s.headRuns 3 0x14 (slot (nw3 1)) ∧ checksPass (nodeWriteChecks (nw3 1)) ∧ touchesWarded (nw3 1) = false ∧ s.portUp 0 = true ∧
    touchesWarded (nw3 2) = true ∧ (on3 (slot (nw3 2)) (reporting linked)).wardAllows false = false ∧
    then_ (exec (.nodeWrite 0 3) (on3 (slot (nw3 2)) (reporting linked))) (completed 3) = true := by
  unfold State.headRuns checksPass; decide +kernel

def wp (token : Nat) : WritePend :=
  { ring := 3, index := 0, port := 0, node := 3, addr := 0x1F, op := 0, count := 1, data := 0x22, token, startTick := 999000000, lastTick := 999000000,
    timeoutMs := 10 }

def writing (w : WritePend) : State :=
  let s := on3 { slot (nw3 1) with stage := .started } (reporting linked)
  { s with flp := { s.flp with writes := [{ wp 5 with port := 1, ring := 4 }, w] } }

theorem test_node_write_resend : takeWrite (fun w => w.ring == 3 && decide (w.lastTick + 400000 ≤ up.now) && !w.isOver up.now) (writing (wp 5)).flp.writes =
      some (wp 5, [{ wp 5 with port := 1, ring := 4 }]) ∧
    then_ (exec (.nodeWriteResend 0 3) (writing (wp 5))) (fun t => (t.flp.writes.map fun w => w.lastTick) == [999000000, 1000000000] &&
      (t.out.frames.head?.map fun f => f.type) == some 6) = true := by decide +kernel

theorem test_node_write_timeout : let w := { wp 5 with startTick := 998000000 }
    takeWrite (fun w => w.ring == 3 && decide (w.startTick + w.timeoutMs * 200000 ≤ up.now)) (writing w).flp.writes =
      some (w, [{ wp 5 with port := 1, ring := 4 }]) ∧
    then_ (exec (.nodeWriteTimeout 0 3) (writing w)) (fun t => completed 8 t && t.flp.writes.length == 1) = true := by decide +kernel

theorem test_write_resp : takeWrite (fun w => w.port == linked.nodePort 0 && w.token == 5) (writing (wp 5)).flp.writes =
      some (wp 5, [{ wp 5 with port := 1, ring := 4 }]) ∧
    then_ (exec (.writeResp 0 0 ⟨good 0x88B5, 5⟩ 2 []) (writing (wp 5))) (fun t => completed 8 t && t.flp.writes.length == 1) = true ∧
    then_ (exec (.writeResp 0 0 ⟨good 0x88B5, 5⟩ 0 [1, 2, 3, 4, 5, 6, 7, 8]) (writing { wp 5 with op := 1 }))
      (fun t => match t.out.host with
        | .report _ _ r :: _ => r.payload.contains (fld 24 4 0x04030201) && r.payload.contains (fld 28 4 0x08070605)
        | _ => false) = true ∧
    then_ (exec (.writeResp 0 0 ⟨good 0x88B5, 5⟩ 0 []) (writing (wp 5))) (completed 0) = true ∧
    then_ (exec (.writeResp 0 0 ⟨good 1, 5⟩ 0 []) (writing (wp 5))) (fun t => (t.port 0).badFrame == 1 && t.flp.writes.length == 2) = true := by decide +kernel

def sib (id cls : Nat) : Sibling :=
  { identity := id, cls, priority := 128, hops := 1, role := 0, candidate := true, tqual := 4, instanceId := 1, lastTick := 999500000, clsTick := 100000000 }

theorem test_top_rank : topRank [⟨0, 1, 2⟩, ⟨1, 200, 9⟩, ⟨1, 128, 8⟩, ⟨1, 128, 9⟩] = some ⟨1, 128, 8⟩ := by decide

/-- A CLASS 1 sibling stands ready for 1 s under a CLASS 0 master. -/
theorem test_election : let s := dlinked { masterId := 2, siblings := [(0, some (sib 2 0)), (1, some (sib 9 1))] }
    s.classPresence = true ∧ topRank s.candidates = some ⟨1, 128, 9⟩ ∧
    then_ (exec (.classPresenceElection 0) s) (fun t => t.dlk.masterId == 9) = true ∧
    (let r := dlinked { masterId := 6, siblings := [(0, some (sib 9 0))] }
     r.classPresence = false) := by decide +kernel

theorem test_heartbeat_send : (dlinked {}).dlk.hbTick < 1000000000 ∧ (dlinked {}).dportRuns 0 = true ∧
    then_ (exec (.heartbeatSend 0) (dlinked {})) (fun t => t.dlk.masterId == 6 && t.dlk.master && t.dlk.hbTick == 1000000000 &&
      (t.out.frames.map fun f => (f.type, f.port, f.ttl, f.seq)) == [(0x21, 1, 64, 0), (0x21, 0, 64, 0)]) = true := by decide +kernel

def hb (t : TebHead) : Heartbeat :=
  { teb := t, priority := 1, cls := 1, role := 1, tqual := 4, master := 9, candidate := true, timeUnc := 100, originTick := 999990000, correction := 65536,
    calNs := 500, rxTick := 999991000 }

/-- A frame dropped, this device's own, one of a device with its identity, and the first of a sibling: the new master. -/
theorem test_heartbeat_receive : (dlinked {}).dportHears 0 = true ∧
    then_ (exec (.heartbeatReceive 0 0 (hb { teb 9 1 1 with head := good 1 })) (dlinked {})) (fun t => (t.dport 0).badFrame == 1 && bit t.dlk.fault.w 4) = true ∧
    then_ (exec (.heartbeatReceive 0 0 (hb (teb 6 0 1))) (dlinked {})) (· == dlinked {}) = true ∧
    then_ (exec (.heartbeatReceive 0 0 (hb (teb 6 7 1))) (dlinked {})) (fun t => t.dlk.dupId && !t.ownCandidate) = true ∧
    (dlinked {}).dlk.lastSeq 0x21 (teb 9 1 1) = none ∧ (dlinked {}).freeSlot ≠ none ∧
    then_ (exec (.heartbeatReceive 0 0 (hb (teb 9 1 1))) (dlinked {})) (fun t => t.dlk.masterId == 9 && (t.sibling 9).isSome && t.dlk.timeOk &&
      t.dlk.masterOffset == 1000 && (t.out.frames.any fun f => f.forwarded && f.port == 1 && f.ttl == 63)) = true := by decide +kernel

def poseFrame (t : TebHead) : PoseFrame :=
  { teb := t, epochTick := 999000000, east := 1000, north := 0, heading := 0, yawRate := 0, speed := 0, posUnc := 10, hdgUnc := 1, spdUnc := 1,
    valid := true }

/-- A POSE that is dropped, one of no master, and one of the master under FOLLOW. -/
theorem test_pose_frame : let m := (dlinked { masterId := 9 })
    let s : State := { m with dlk := { m.dlk with offTick := some 999000000 }, pse := { m.pse with model := { m.pse.model with model := 3 } } }
    then_ (exec (.poseFrameReceive 0 0 (poseFrame { teb 9 1 1 with head := good 1 })) s) (fun t => (t.dport 0).badFrame == 1) = true ∧
    (teb 9 1 1).head.isBad s.dlk.etherType = false ∧ s.dlk.offTick ≠ none ∧ s.pse.model.model = 3 ∧ s.isReady 4 = true ∧
    then_ (exec (.poseFrameReceive 0 0 (poseFrame (teb 8 1 1))) s) (fun t => t.pse == s.pse && t.dlk.seen.length == 1) = true ∧
    then_ (exec (.poseFrameReceive 0 0 (poseFrame (teb 9 1 1))) s) (fun t => t.pse != s.pse) = true := by decide +kernel

/-- COVERAGE frames: dropped, and after a gap of one. -/
theorem test_coverage_frame : let s := dlinked { seen := [{ origin := 9, instanceId := 1, type := 0x23, seq := 1 }] }
    let c (n : Nat) : CoverageFrame := { teb := teb 9 1 n 1, deltas := [] }
    then_ (exec (.coverageFrameReceive 0 0 { teb := { teb 9 1 1 with head := good 1 }, deltas := [] }) s) (fun t => bit t.dlk.fault.w 4) = true ∧
    s.dlk.lastSeq 0x23 (teb 9 1 3 1) = some 1 ∧ precedes 1 3 = true ∧ s.forward 0 0x23 (teb 9 1 3 1) [] = s ∧
    then_ (exec (.coverageFrameReceive 0 0 (c 2)) s) (fun t => t.dlk.covGap == 0) = true ∧
    then_ (exec (.coverageFrameReceive 0 0 (c 3)) s) (fun t => t.dlk.covGap == 1 && bit t.dlk.fault.w 1) = true ∧
    (dlinked {}).dlk.lastSeq 0x23 (teb 9 1 3 1) = none := by decide +kernel

def delta0 : Delta :=
  { origin := 9, layer := 3, start := true, fin := true, covSeq := 1, startE := 100, startN := 100, endE := 150, endN := 100, width := 100, epoch := 1,
    rate := 5, endpoint := 0, duration := 0, calNs := 0 }

/-- A delta of a layer that does not share, and one that needs a tile that is away while the merge queue is full. -/
theorem test_merge_link : (dlinked {}).layer 3 = {} ∧ (dlinked {}).mergeFromLink delta0 = dlinked {} ∧
    (let s : State := { dlinked {} with mpg :=
       { layers := [(3, { kind := 0, cell := 2, enable := true, share := true })], tiles := [(tileKey 3 0 0, { place := .away })],
         mergeQ := List.replicate 4096 { delta := delta0, keys := [] } } }
     s.deltaWaits delta0 = true ∧ 4096 ≤ s.mergeCount ∧ (s.mergeFromLink delta0).mpg.mergeDrop = 1 ∧ bit (s.mergeFromLink delta0).mpg.fault.w 5 = true) := by
  decide +kernel

theorem test_dup_id : let s := dlinked { dupId := true, siblings := [(0, some (sib 9 0))], masterId := 9 }
    s.dlk.dupId = true ∧ s.dlk.dupTick + 200000000 ≤ s.now ∧
    then_ (exec (.dupIdClear 0) s) (fun t => !t.dlk.dupId && t.ownCandidate && t.dlk.masterId == 9) = true := by decide +kernel

theorem test_sibling_lost : let s := dlinked { masterId := 9, siblings := [(0, some { sib 9 1 with lastTick := 999000000 }), (1, some (sib 7 0))] }
    s.slotOf 9 = some 0 ∧ s.slotOf 7 = some 1 ∧
    then_ (exec (.siblingLost 0 9) s) (fun t => t.sibling 9 == none && bit t.dlk.fault.w 3 && t.dlk.masterId == 6 && (t.sibling 7).isSome) = true ∧
    (let r := dlinked { masterId := 9, siblings := [(0, some (sib 9 1)), (1, some { sib 7 0 with lastTick := 999000000 })] }
     then_ (exec (.siblingLost 0 7) r) (fun t => t.dlk.masterId == 9 && t.sibling 7 == none) = true) := by decide +kernel

theorem test_coverage_send : let s := dlinked { outQ := [delta0] }
    s.dlk.outTick + 200000 ≤ s.now ∧ s.dlk.dupId = false ∧
    then_ (exec (.coverageFrameSend 0) s) (fun t => t.dlk.outQ == [] && (t.out.frames.map fun f => (f.type, f.port, f.records.length)) ==
      [(0x23, 1, 1), (0x23, 0, 1)]) = true ∧
    then_ (exec (.coverageFrameSend 0) (dlinked { outQ := [delta0], dupId := true })) (fun t => t.dlk.outQ == [] && t.dlk.covUnsent == 1 && bit t.dlk.fault.w 2) =
      true := by decide +kernel

/-! ### The pose -/

theorem test_pose_epoch : up.isReady 4 = true ∧ up.pse.epochTick = none ∧
    then_ (exec (.poseEpoch 0) up) (fun t => t.pse.epochTick == some 1000000000 && t.pse.epoch == 1000 && !t.gle.poseOk) = true ∧
    (let s : State := { up with pse := { up.pse with epochTick := some 999000000, modelWaits := [{ ring := 3, index := 0, model := { up.pse.model with model := 1 } }] } }
     then_ (exec (.poseEpoch 0) s) (fun t => t.pse.model.model == 1 && t.pse.modelWaits == []) = true) := by decide +kernel

theorem test_exclusion : let s : State := { up with pse := { up.pse with srcs := [(2, { excludedUntil := some 1000000000, rejects := 9 })] } }
    (s.psrc 2).excludedUntil = some 1000000000 ∧
    then_ (exec (.exclusionExpiry 0 2) s) (fun t => (t.psrc 2).excludedUntil == none && (t.psrc 2).rejects == 0) = true := by decide +kernel

def fix3 (tick : Nat) (veh : Nat) : DescBits := dsc 0x0C 0 0 [fld 16 8 tick, fld 24 4 1000, fld 44 2 20, fld 50 1 veh]

/-- A fix too old, one of the vehicle without a vehicle model, and one that is taken. -/
theorem test_ext_fix : let s (d : DescBits) := on3 (slot d) (reporting up)
    (s (fix3 900000000 0)).headRuns 3 0x0C (slot (fix3 900000000 0)) ∧ checksPass (up.extFixChecks (fix3 900000000 0)) ∧
    then_ (exec (.extFix 0 3) (s (fix3 900000000 0))) (fun t => completed 0 t && bit t.pse.fault.w 3) = true ∧
    up.pse.histFloor ≤ 1000000000 ∧
    (let r : State := { s (fix3 1000000000 2) with pse := { up.pse with model := { up.pse.model with model := 2 } } }
     (r.pse.dueAt 1000000000).vehModel = none ∧ then_ (exec (.extFix 0 3) r) (fun t => completed 0 t && t.pse == r.pse) = true) ∧
    then_ (exec (.extFix 0 3) (s (fix3 1000000000 0))) (completed 0) = true := by
  unfold State.headRuns checksPass; decide +kernel

def model3 : DescBits := dsc 0x0E 0 0 []
def origin3 : DescBits := dsc 0x0E 0 0 [fld 16 1 1, fld 20 4 500000000, fld 24 4 100000000, fld 28 4 40000]

theorem test_geometry_set : let s (d : DescBits) := on3 (slot d) (reporting up)
    (s model3).headRuns 3 0x0E (slot model3) ∧ checksPass (up.modelChecks model3) ∧ checksPass (originChecks origin3) ∧ up.originFree = true ∧
    then_ (exec (.geometrySet 0 3) (s model3)) (fun t => t.pse.modelWaits == [{ ring := 3, index := 0, model := parseModel model3 }]) = true ∧
    then_ (exec (.geometrySet 0 3) (s origin3)) (fun t => completed 0 t && t.pse.originSet && t.pse.originLat == 500000000) = true ∧
    then_ (exec (.geometrySet 0 3) { s origin3 with gle := { up.gle with enable := true } }) (completed 8) = true := by
  unfold State.headRuns checksPass; decide +kernel

/-! ### The whole machine -/

def rec3 : Rec :=
  { code := 0x0101, index := 3, calNs := 0, pcycle := 0, source := 0, optime := 0, snap := [], nsnap := 0, setGen := 0, tick := 5 }

/-- A record in its slot, the seal broken, two commands waiting. -/
def kept : State :=
  { up with nv := { up.nv with sealBroken := true, nextIndex := 4, records := [(3, some rec3)] }, pending := [.tickLoRead 0, .hostLost 7] }

theorem test_kept_sound : kept.RecordsSound := by
  refine ⟨by decide, fun k r h => ?_, fun r h => by simp [kept, up] at h⟩
  by_cases e : k = 3
  · subst e
    have : r = rec3 := by simpa [kept, Tbl.get] using h.symm
    subst this; decide
  · exact absurd (by simpa [kept, Tbl.get] using h : k = 3 ∧ rec3 = r).1 e

/-- A step from a sound state with a record, the seal broken. -/
theorem test_kept_step : kept.nv.sealBroken = true ∧ Tbl.get none kept.nv.records 3 = some rec3 ∧
    then_ (step kept) (fun t => t.nv.sealBroken && Tbl.get none t.nv.records 3 == some rec3 && t.pending == [.hostLost 7]) = true ∧
    then_ (step { kept with pending := [] }) (· == { kept with pending := [] }) = true := by decide +kernel

/-! ### Where the commands complete -/

/-- What the statements on completion ask beside what stands above: the layers, the tiles and the queue. -/
theorem test_complete_map : Tbl.wf {} (mapped 1 tile0).mpg.tiles = true ∧ (mapped 1 tile0).isReady 5 = true ∧ crowded.isReady 5 = true ∧
    ((mapped 1 dirty0).tile (tileKey 3 1 2)).place = .resident ∧ ((mapped 1 dirty0).tile (tileKey 3 1 2)).unbacked = false ∧
    (mapped 1 { away0 with failTick := some 980000000 }).fetches (tileKey 3 1 2) = true ∧ 980000000 + 20000000 ≤ up.now ∧
    then_ (exec (.tileFetchDone 0 3 1 2 (.tile 3 9 true 5 false [] [])) (mapped 1 away0)) (fun t => (t.tile (tileKey 3 1 2)).place == .resident) = true ∧
    then_ (exec (.fetchRetry 0 3 1 2 (.tile 3 9 true 5 true [] [])) (mapped 1 { away0 with failTick := some 980000000 }))
      (fun t => (t.tile (tileKey 3 1 2)).merged) = true ∧
    (let w : MergeWait := { delta := parseDelta deltaIn, keys := [tileKey 3 1 2] }
     let s := { mapped 0 tile0 with mpg := { (mapped 0 tile0).mpg with mergeQ := [w] } }
     s.isReady 5 = true ∧ s.drainable s.mpg.mergeQ = some ([], w, []) ∧
     then_ (exec (.mergeQueueDrain 0) s) (fun t => t.mpg.mergeQ == [] && (t.tile (tileKey 3 1 2)).pairs == [(9, 1)]) = true) := by decide +kernel

/-- The links: a frame that the first of two waits for, the last of a ring, and what the frames ask. -/
theorem test_complete_links : (dlinked {}).powered 5 = true ∧ (dlinked {}).dportRuns 0 = true ∧ (dlinked {}).dportRuns 1 = true ∧
    (good 0x88B6).isBad lat1.dlk.etherType = false ∧ linked.portUp 0 = true ∧ 0 < Config.fieldPorts linked.part ∧
    (let f : SentFrame := { seq := 7, records := [cmd 1 0], sentTick := 999800000 }
     let s := onNode3 { sent := [f, { f with seq := 8 }] }
     s.ackDue f = true ∧ then_ (exec (.ackWaitExpiry 0 0 3) s)
       (fun t => (t.node 0 3).sent.map (fun g => (g.seq, g.sentTick, g.retries)) == [(7, t.now, 1), (8, t.now, 1)]) = true) ∧
    (wp 5).isOver up.now = false ∧ { wp 5 with startTick := 998000000 }.isOver up.now = true ∧ { wp 5 with op := 1 }.op = 1 ∧
    0 < ((onNode3 { waiting := [cmd 2 998000000] }).lateRecs ((onNode3 { waiting := [cmd 2 998000000] }).node 0 3)).1 ∧
    (let s := dlinked { siblings := [(0, some (sib 9 1))] }
     (s.slotOf 9).isSome = true ∧ (sib 9 1).lastTick + 1000000 ≤ (s.elapse 500000).now) := by decide +kernel

/-- The GNSS radio: an epoch whose window is over, a band, a bias supply that is off and one that is open. -/
theorem test_complete_gnss : up.isReady 6 = true ∧ (gnb { burst := true }).gnb.newEpoch ((gnb { burst := true }).windowEpoch) = true ∧
    (biased .opened).bias 1 = .opened ∧ (biased .ok).bias 1 = .ok ∧ (biased .short).bias 1 = .short ∧
    Tbl.get 0 (biased .short).gnb.shortTick 1 + 200000000 ≤ up.now ∧
    then_ (exec (.antShort 0 1 61) (biased .ok)) (fun t => t.bias 1 == .short) = true := by decide +kernel

/-- The load channels: what the trips, the windows and the supplies ask. -/
theorem test_complete_load : up.chanExists 5 = true ∧ up.powered 7 = true ∧ (chan5 { keepTick := some 0, out := true }).canTrip 5 = true ∧
    (on5.inrushTick + ((chan5 on5).chNv 5).inrushMs * 200000 + 40000 ≤ up.now) ∧ on5.prot = .armed ∧ (chan5 on5).bankOn 0 = true ∧
    ((chan5 { on5 with inrush := true }).elapse 11000000000).now = 12000000000 ∧ 0 + 12000000000 ≤ ((chan5 on5).elapse 11000000000).now ∧
    cutLevel .bankA 599 = true ∧ (lsb { bankCut := [(0, true)] }).lsb.isCut .bankA = true ∧
    then_ (exec (.bankReturn 0 .bankA ⟨651, 10⟩) (lsb { bankCut := [(0, true)] })) (fun t => !t.lsb.isCut .bankA) = true ∧
    then_ (exec (.bankReturn 0 .bankA ⟨3599, 10⟩) (lsb { bankCut := [(0, true)], underCut := [(0, true)], overCut := [(0, true)] }))
      (fun t => !t.lsb.isCut .bankA) = true ∧ up.bankOn 0 = true ∧ 2 * 599 < 1200 ∧ ({} : Channel).openOnMa * 10 > 49 := by decide +kernel

/-- The escapement and the lookahead: an endpoint at rest, one whose channel opens on the grid, one whose ON runs. -/
theorem test_complete_ground : (probed {}).dyn 777 = { probe := some { next := 1000000000, due := 999000000 } } ∧
    ((probed {}).delayCal 1554).staged = none ∧ ((probed {}).delayCal 1555).staged = none ∧
    isLocalEp (localBase + 5) = true ∧ (escHeld (ev true 1000000000)).dyn (localBase + 5) =
      { onEv := some (ev true 1000000000), probe := some { next := 2000000000, due := 1999000000 } } ∧
    ((gridded false 999900000).dyn (localBase + 5)).pwmRun = true ∧ ((gridded false 999900000).dyn (localBase + 5)).duty ≠ 0 ∧
    gridPasses 200000 (phaseOf { pwmPeriod := 100 } 0 * 2000) 999900001 1000000000 = true := by decide +kernel

/-- The pose: an origin and a fix of tick 0, at the tick of the command. -/
theorem test_complete_pose : let s (d : DescBits) := on3 (slot d) (reporting up)
    (s origin3).headRuns 3 0x0E (slot origin3) ∧ dfield origin3 16 1 = 1 ∧ (s origin3).originFree = true ∧
    (s (fix3 0 0)).headRuns 3 0x0C (slot (fix3 0 0)) ∧ checksPass ((s (fix3 0 0)).extFixChecks (fix3 0 0)) ∧ dfield (fix3 0 0) 16 8 = 0 ∧
    (s (fix3 0 0)).pse.histFloor ≤ (s (fix3 0 0)).now ∧ then_ (exec (.extFix 0 3) (s (fix3 0 0))) (completed 0) = true := by
  unfold State.headRuns checksPass; decide +kernel

end Sys2Proof.Tests
end

namespace Sys2Proof.Machine

variable (s : State)

/-! ### Rastering -/

/-- What the tiles take: a change of MPG that leaves the strips and the coverage sequence alone, and what it raises, reports
and writes to host memory. -/
structure State.Rasters (s t : State) : Prop where
  frame : t = { s with mpg := t.mpg, hre := t.hre, icu := t.icu, out := t.out }
  strips : t.mpg.strips = s.mpg.strips
  covSeq : t.mpg.covSeq = s.mpg.covSeq

theorem State.Rasters.refl : s.Rasters s := ⟨rfl, rfl, rfl⟩

theorem State.Rasters.trans {a b c : State} (h : a.Rasters b) (g : b.Rasters c) : a.Rasters c :=
  ⟨by rw [g.frame, h.frame], g.strips.trans h.strips, g.covSeq.trans h.covSeq⟩

theorem State.Reports.rasters {s t : State} (h : s.Reports t) : s.Rasters t := by
  unfold State.Reports at h
  rw [h]; exact ⟨rfl, rfl, rfl⟩

/-- A preorder on states holds between the ends of a fold whose steps it relates. -/
theorem foldl_related {α : Type} {R : State → State → Prop} (hr : ∀ s, R s s) (ht : ∀ {a b c}, R a b → R b c → R a c)
    {f : State → α → State} (hf : ∀ s x, R s (f s x)) (l : List α) : R s (l.foldl f s) := by
  induction l generalizing s with
  | nil => exact hr s
  | cons x l ih => exact ht (hf s x) (ih _)

/-- The same for a fold that carries a value along with the state. -/
theorem foldl_related_snd {α β : Type} {R : State → State → Prop} (hr : ∀ s, R s s)
    (ht : ∀ {a b c}, R a b → R b c → R a c) {f : β × State → α → β × State} (hf : ∀ r x, R r.2 (f r x).2) (l : List α)
    (r : β × State) : R r.2 (l.foldl f r).2 := by
  induction l generalizing r with
  | nil => exact hr r.2
  | cons x l ih => exact ht (hf r x) (ih _)

theorem State.onMpg_rasters (f : Mpg → Mpg) (hs : (f s.mpg).strips = s.mpg.strips) (hc : (f s.mpg).covSeq = s.mpg.covSeq) :
    s.Rasters (s.onMpg f) := ⟨rfl, hs, hc⟩

theorem State.raise_rasters (n : Nat) : s.Rasters (s.raise n) := (State.raise_reports n).rasters

theorem State.onTile_rasters (k : Nat) (f : Tile → Tile) : s.Rasters (s.onTile k f) := ⟨rfl, rfl, rfl⟩
theorem State.onLayer_rasters (l : Nat) (f : Layer → Layer) : s.Rasters (s.onLayer l f) := ⟨rfl, rfl, rfl⟩

theorem State.mpgFault_rasters (i n : Nat) : s.Rasters (s.mpgFault i n) :=
  (State.onMpg_rasters s _ rfl rfl).trans (State.raise_rasters ..)

theorem State.noteRange_rasters (cells : List (Int × Int)) : s.Rasters (s.noteRange cells) := by
  unfold State.noteRange
  dsimp only
  split
  · exact .refl s
  · exact (State.onMpg_rasters s _ rfl rfl).trans (State.mpgFault_rasters ..)

theorem State.allocUnit_rasters (c : Nat) : s.Rasters (s.allocUnit c).2 := ⟨rfl, rfl, rfl⟩
theorem State.write64_rasters (off v : Nat) : s.Rasters (s.write64 off v) := ⟨rfl, rfl, rfl⟩
theorem State.zeroTable_rasters (off : Nat) : s.Rasters (s.zeroTable off) := ⟨rfl, rfl, rfl⟩
theorem State.writeTile_rasters (a b k : Nat) (t : Tile) : s.Rasters (s.writeTile a b k t) := ⟨rfl, rfl, rfl⟩
theorem State.uncache_rasters (k : Nat) : s.Rasters (s.uncache k) := ⟨rfl, rfl, rfl⟩

theorem State.giveFrame_rasters (key : Nat) : s.Rasters (s.giveFrame key) := by
  unfold State.giveFrame
  extract_lets l f h t off v
  have hv : s.Rasters v := by
    unfold v
    split
    · exact (State.allocUnit_rasters ..).trans (State.allocUnit_rasters ..)
    · exact (State.allocUnit_rasters ..).trans <| (State.allocUnit_rasters ..).trans <| (State.allocUnit_rasters ..).trans <|
        (State.onMpg_rasters _ _ rfl rfl).trans <| (State.zeroTable_rasters ..).trans (State.write64_rasters ..)
  exact hv.trans <| (State.onTile_rasters ..).trans (State.onLayer_rasters ..)

theorem State.writeBack_rasters (key : Nat) (evicted wasUnbacked : Bool) : s.Rasters (s.writeBack key evicted wasUnbacked) := by
  unfold State.writeBack
  dsimp only
  split
  · refine .trans (.trans (.trans ?_ (State.raise_rasters ..)) (State.report_reports ..).rasters)
      (State.onTile_rasters ..)
    split
    · exact State.writeTile_rasters ..
    · exact (State.writeTile_rasters ..).trans (State.write64_rasters ..)
  · exact .refl s

theorem State.makeSpace_rasters (key : Nat) : s.Rasters (s.makeSpace key) := by
  unfold State.makeSpace
  dsimp only
  split
  · split
    · refine .trans ?_ (State.uncache_rasters ..)
      split
      · exact State.writeBack_rasters ..
      · exact .refl s
    · exact .refl s
  · exact .refl s

theorem State.noteNoFrame_rasters (w : NoFrame) : s.Rasters (s.noteNoFrame w) := by
  cases w <;> exact State.mpgFault_rasters ..

theorem State.backOrHold_rasters (key : Nat) : s.Rasters (s.backOrHold key) := by
  unfold State.backOrHold
  split
  · exact State.giveFrame_rasters ..
  · exact (State.noteNoFrame_rasters ..).trans
      ((State.onTile_rasters ..).trans <| (State.onMpg_rasters _ _ rfl rfl).trans (State.raise_rasters ..))

theorem State.createTile_rasters (key : Nat) : s.Rasters (s.createTile key) := by
  unfold State.createTile
  extract_lets t epoch v
  have h : s.Rasters v := (State.makeSpace_rasters s key).trans (State.onTile_rasters ..)
  split
  · exact h
  · exact h.trans (State.backOrHold_rasters ..)

theorem State.setPair_rasters (key origin : Nat) (q : Word) : s.Rasters (s.setPair key origin q) := by
  unfold State.setPair
  dsimp only
  split
  · exact (State.onTile_rasters ..).trans (State.mpgFault_rasters ..)
  · exact State.onTile_rasters ..

theorem State.ownInto_rasters (d : Delta) (key : Nat) : s.Rasters (s.ownInto d key) := by
  unfold State.ownInto
  dsimp only
  split
  · exact State.onTile_rasters ..
  · exact (State.onTile_rasters ..).trans (State.setPair_rasters ..)

theorem State.mergeInto_rasters (d : Delta) (key : Nat) : s.Rasters (s.mergeInto d key) := by
  unfold State.mergeInto
  extract_lets y known ks t
  split
  · exact .refl s
  · split
    · exact State.onTile_rasters ..
    · exact (State.onTile_rasters ..).trans (State.setPair_rasters ..)

theorem State.deltaInto_rasters (w : MergeWait) (key : Nat) : s.Rasters (s.deltaInto w key) := by
  unfold State.deltaInto
  split
  · exact State.ownInto_rasters ..
  · exact State.mergeInto_rasters ..

theorem State.putDelta_rasters (w : MergeWait) (key : Nat) : s.Rasters (s.putDelta w key) := by
  unfold State.putDelta
  split
  · exact (State.createTile_rasters ..).trans (State.deltaInto_rasters ..)
  · exact State.deltaInto_rasters ..
  · exact .refl s

theorem State.putAll_rasters (p : State → Nat → Bool) (w : MergeWait) (keys : List Nat) : s.Rasters (s.putAll p w keys).2 := by
  unfold State.putAll
  refine foldl_related_snd .refl .trans (fun r k => ?_) keys ([], s)
  split
  · exact .refl r.2
  · exact State.putDelta_rasters ..

/-- A delta changes tiles, pools and tables, and no strip. -/
theorem State.applyDelta_rasters (d : Delta) (own : Bool) : s.Rasters (s.applyDelta d own) := by
  unfold State.applyDelta
  extract_lets cells w r
  have h : s.Rasters r.2 := (State.noteRange_rasters ..).trans (State.putAll_rasters ..)
  split
  · exact h
  · exact h.trans (State.onMpg_rasters _ _ rfl rfl)

end Sys2Proof.Machine

namespace Sys2Proof.Machine

variable (s : State)

/-! ### Strips -/

/-- A change of MPG, with what it shares, raises and reports. -/
def State.MapWork (s t : State) : Prop := t = { s with mpg := t.mpg, dlk := t.dlk, hre := t.hre, icu := t.icu, out := t.out }

theorem State.MapWork.refl : s.MapWork s := rfl

theorem State.MapWork.trans {a b c : State} (h : a.MapWork b) (g : b.MapWork c) : a.MapWork c := by
  unfold State.MapWork at *; rw [g, h]

/-- Work on the strip of one endpoint: a change of MPG that leaves every other strip alone, with what it shares, raises and
reports. -/
structure State.StripWork (ep : Nat) (s t : State) : Prop where
  frame : s.MapWork t
  others : ∀ k, k ≠ ep → t.strip k = s.strip k

theorem State.StripWork.refl (ep : Nat) : State.StripWork ep s s := ⟨rfl, fun _ _ => rfl⟩

theorem State.StripWork.trans {ep : Nat} {a b c : State} (h : a.StripWork ep b) (g : b.StripWork ep c) : a.StripWork ep c :=
  ⟨h.frame.trans g.frame, fun k hk => (g.others k hk).trans (h.others k hk)⟩

/-- A change that leaves the strips and the coverage sequence alone, with what it shares, raises and reports. -/
structure State.Shares (s t : State) : Prop where
  frame : s.MapWork t
  strips : t.mpg.strips = s.mpg.strips
  covSeq : t.mpg.covSeq = s.mpg.covSeq

theorem State.Shares.trans {a b c : State} (h : a.Shares b) (g : b.Shares c) : a.Shares c :=
  ⟨h.frame.trans g.frame, g.strips.trans h.strips, g.covSeq.trans h.covSeq⟩

theorem State.Rasters.shares {s t : State} (h : s.Rasters t) : s.Shares t :=
  ⟨by unfold State.MapWork; rw [h.frame], h.strips, h.covSeq⟩

theorem State.Reports.shares {s t : State} (h : s.Reports t) : s.Shares t := h.rasters.shares

theorem State.Shares.stripWork {s t : State} (h : s.Shares t) (ep : Nat) : s.StripWork ep t :=
  ⟨h.frame, fun k _ => by unfold State.strip; rw [h.strips]⟩

theorem State.shareDelta_shares (d : Delta) : s.Shares (s.shareDelta d) := by
  unfold State.shareDelta
  split
  · exact ⟨rfl, rfl, rfl⟩
  · exact .trans (b := s.onDlk _) ⟨rfl, rfl, rfl⟩ (State.raise_reports _).shares

/-- A segment that closes takes the next coverage sequence. -/
theorem State.closeSegment_shares (ep : Nat) (p : Strip) (tick : Nat) (e n : Int) (fin : Bool)
    (h : ¬ (p.startTick = tick ∧ (p.first = true ∨ fin = false))) :
    (s.onMpg fun m => { m with covSeq := m.covSeq + 1 }).Shares (s.closeSegment ep p tick e n fin) := by
  unfold State.closeSegment
  rw [if_neg h]
  extract_lets d t v
  have hv : (s.onMpg fun m => { m with covSeq := m.covSeq + 1 }).Shares v :=
    (State.applyDelta_rasters ..).shares.trans (State.report_reports ..).shares
  split
  · exact hv.trans (State.shareDelta_shares ..)
  · exact hv

theorem State.closeSegment_stripWork (ep : Nat) (p : Strip) (tick : Nat) (e n : Int) (fin : Bool) :
    s.StripWork ep (s.closeSegment ep p tick e n fin) := by
  by_cases h : p.startTick = tick ∧ (p.first = true ∨ fin = false)
  · unfold State.closeSegment
    rw [if_pos h]
    exact .refl s ep
  · exact .trans (b := s.onMpg _) ⟨rfl, fun _ _ => rfl⟩ ((State.closeSegment_shares s ep p tick e n fin h).stripWork ep)

theorem State.setStrip_stripWork (ep : Nat) (p : Option Strip) : s.StripWork ep (s.setStrip ep p) :=
  ⟨rfl, fun _ hk => State.setStrip_strip_ne s _ _ _ hk⟩

theorem State.cutStrip_stripWork (ep : Nat) (p : Strip) (tick : Nat) (e n : Int) :
    s.StripWork ep (s.cutStrip ep p tick e n) :=
  (State.closeSegment_stripWork ..).trans (State.setStrip_stripWork ..)

theorem State.cutStrip_strip (ep : Nat) (p : Strip) (tick : Nat) (e n : Int) :
    (s.cutStrip ep p tick e n).strip ep = some (p.next tick e n) := State.setStrip_strip ..

/-- A segment that has taken time takes the next coverage sequence where it is cut. -/
theorem State.cutStrip_covSeq {ep : Nat} {p : Strip} {tick : Nat} (e n : Int) (h : p.startTick ≠ tick) :
    (s.cutStrip ep p tick e n).mpg.covSeq = s.mpg.covSeq + 1 := by
  unfold State.cutStrip State.setStrip
  rw [State.onMpg_mpg]
  exact (State.closeSegment_shares s ep p tick e n false fun hc => h hc.1).covSeq

theorem State.endStrip_stripWork (ep : Nat) (p : Strip) (tick : Nat) (e n : Int) :
    s.StripWork ep (s.endStrip ep p tick e n) := by
  unfold State.endStrip
  refine .trans ?_ (State.setStrip_stripWork ..)
  split
  · exact .refl s ep
  · exact State.closeSegment_stripWork ..

theorem State.endStrip_strip (ep : Nat) (p : Strip) (tick : Nat) (e n : Int) :
    (s.endStrip ep p tick e n).strip ep = none := State.setStrip_strip ..

theorem State.startWaiting_stripWork (ep : Nat) (p : Strip) (q : PoseState) : s.StripWork ep (s.startWaiting ep p q) := by
  unfold State.startWaiting
  split
  · exact State.setStrip_stripWork ..
  · exact .refl s ep

theorem State.stripEpoch_stripWork (ep : Nat) (q : PoseState) (valid : Bool) : s.StripWork ep (s.stripEpoch ep q valid) := by
  unfold State.stripEpoch
  split
  · exact .refl s ep
  · extract_lets c
    split
    · -- it waits for a pose with VALID set
      split
      · exact State.startWaiting_stripWork ..
      · exact .refl s ep
    · split
      · -- VALID has gone
        split <;> exact (State.closeSegment_stripWork ..).trans (State.setStrip_stripWork ..)
      · split
        · -- the epoch is later than the segment's start
          split
          · split
            · dsimp only
              split
              · exact (State.cutStrip_stripWork ..).trans (State.setStrip_stripWork ..)
              · exact State.cutStrip_stripWork ..
            · exact .refl s ep
          · exact State.setStrip_stripWork ..
        · exact .refl s ep

theorem State.passCut_stripWork (ep : Nat) (q : PoseState) (w : Word) : s.StripWork ep (s.passCut ep q w) := by
  unfold State.passCut
  split
  · split
    · exact .refl s ep
    · dsimp only
      split
      · exact (State.cutStrip_stripWork ..).trans (State.setStrip_stripWork ..)
      · exact State.cutStrip_stripWork ..
  · exact .refl s ep

theorem State.replayEpoch_stripWork (ep : Nat) (q : PoseState) : s.StripWork ep (s.replayEpoch ep q) := by
  unfold State.replayEpoch
  extract_lets t
  have ht : s.StripWork ep t := State.stripEpoch_stripWork ..
  split
  · dsimp only
    split
    · exact ht.trans (State.passCut_stripWork ..)
    · exact ht
  · exact ht

theorem State.openStrip_stripWork (ep layer rate tick : Nat) : s.StripWork ep (s.openStrip ep layer rate tick) :=
  (State.setStrip_stripWork ..).trans
    (foldl_related _ (fun s => .refl s ep) .trans (fun s q => State.replayEpoch_stripWork s ep q) _)

theorem State.newRate_stripWork (ep tick rate : Nat) (p : Strip) : s.StripWork ep (s.newRate ep tick rate p) := by
  unfold State.newRate
  split
  · exact .refl s ep
  · split
    · exact State.setStrip_stripWork ..
    · dsimp only
      split
      · exact (State.cutStrip_stripWork ..).trans (State.setStrip_stripWork ..)
      · exact State.cutStrip_stripWork ..

/-! ### A strip that waits (R398) -/

/-- A strip that waits takes nothing from an epoch without VALID. -/
theorem State.replayEpoch_waiting {ep : Nat} {q : PoseState} {p : Strip} (hs : s.strip ep = some p) (hp : p.waiting = true)
    (hq : q.valid = false) : s.replayEpoch ep q = s := by
  have h1 : s.stripEpoch ep q q.valid = s := by
    unfold State.stripEpoch
    simp [hs, hp, hq]
  unfold State.replayEpoch
  simp only [h1, hs]
  split
  · unfold State.passCut; simp [hs, hp]
  · rfl

theorem State.replayEpochs_waiting {ep : Nat} {p : Strip} (hs : s.strip ep = some p) (hp : p.waiting = true)
    (qs : List PoseState) (hq : ∀ q ∈ qs, q.valid = false) : qs.foldl (fun s q => s.replayEpoch ep q) s = s := by
  induction qs with
  | nil => rfl
  | cons q qs ih =>
    rw [List.foldl_cons, State.replayEpoch_waiting s hs hp (hq q (by simp))]
    exact ih fun r hr => hq r (by simp [hr])

/-- A strip opened where no pose has VALID from its tick on waits. -/
theorem State.openStrip_strip_waiting {ep layer rate tick : Nat} (hv : s.validAt tick = false)
    (hq : ∀ q ∈ s.epochs, tick < q.tick → q.valid = false) :
    (s.openStrip ep layer rate tick).strip ep = some { layer, waiting := true, rate } := by
  unfold State.openStrip
  simp only [hv, Bool.false_eq_true, if_false]
  rw [State.replayEpochs_waiting _ (State.setStrip_strip ..) rfl]
  · exact State.setStrip_strip ..
  · intro q h
    have h := List.mem_filter.mp h
    exact hq q h.1 (of_decide_eq_true h.2)

end Sys2Proof.Machine

namespace Sys2Proof.Machine

variable (s : State)

/-! ### Sections, APPLY_ARMED and the ground -/

theorem State.armCheck_frame : s.armCheck = { s with gnb := s.armCheck.gnb } := by
  unfold State.armCheck
  dsimp only
  split
  · split <;> rfl
  · rfl

/-- Work at the ground for one endpoint: its strip, the sections' counts and APPLY_ARMED, with what goes out. -/
structure State.GroundWork (ep : Nat) (s t : State) : Prop where
  frame : t = { s with gle := { s.gle with sections := t.gle.sections }, mpg := t.mpg, gnb := t.gnb, dlk := t.dlk, hre := t.hre,
                       icu := t.icu, out := t.out }
  others : ∀ k, k ≠ ep → t.strip k = s.strip k

theorem State.GroundWork.trans {ep : Nat} {a b c : State} (h : a.GroundWork ep b) (g : b.GroundWork ep c) : a.GroundWork ep c :=
  ⟨by rw [g.frame, h.frame], fun k hk => (g.others k hk).trans (h.others k hk)⟩

theorem State.StripWork.groundWork {ep : Nat} {s t : State} (h : s.StripWork ep t) : s.GroundWork ep t :=
  ⟨by rw [h.frame], h.others⟩

theorem State.Reports.groundWork {s t : State} (h : s.Reports t) (ep : Nat) : s.GroundWork ep t :=
  (h.shares.stripWork ep).groundWork

theorem State.GroundWork.dyn {ep : Nat} {s t : State} (h : s.GroundWork ep t) (k : Nat) : t.dyn k = s.dyn k := by
  rw [h.frame]; rfl

theorem State.GroundWork.effQ {ep : Nat} {s t : State} (h : s.GroundWork ep t) : t.gle.effQ = s.gle.effQ := by
  rw [h.frame]

theorem State.armCheck_groundWork (ep : Nat) : s.GroundWork ep s.armCheck := by
  rw [State.armCheck_frame]; exact ⟨rfl, fun _ _ => rfl⟩

theorem State.sectionReport_groundWork (ep n tick : Nat) (on : Bool) (q : Word) : s.GroundWork ep (s.sectionReport n tick on q) := by
  unfold State.sectionReport
  extract_lets c ms t
  have ht : s.GroundWork ep t := State.Reports.groundWork (State.report_reports ..) ep
  exact ht.trans <| .trans (b := t.onSection n _) ⟨rfl, fun _ _ => rfl⟩ ((State.raise_reports _).groundWork ep)

theorem State.sectionReport_mpg (n tick : Nat) (on : Bool) (q : Word) : (s.sectionReport n tick on q).mpg = s.mpg := by
  unfold State.sectionReport
  dsimp only
  rw [State.raise_frame, State.report_frame]; rfl

theorem State.sectionCheck_groundWork (ep n tick : Nat) (q : Word) : s.GroundWork ep (s.sectionCheck n tick q) := by
  unfold State.sectionCheck
  dsimp only
  split
  · exact (State.StripWork.refl s ep).groundWork
  · exact State.sectionReport_groundWork ..

theorem State.sectionCheck_mpg (n tick : Nat) (q : Word) : (s.sectionCheck n tick q).mpg = s.mpg := by
  unfold State.sectionCheck
  dsimp only
  split
  · rfl
  · exact State.sectionReport_mpg ..

theorem State.armCheck_mpg : s.armCheck.mpg = s.mpg := by rw [State.armCheck_frame]

/-! ### A switch at its effective time (R15, R127) -/

theorem State.effectiveRate_stripWork (v : Effect) : s.StripWork v.ep (s.effectiveRate v) := by
  unfold State.effectiveRate
  split
  · split
    · exact State.newRate_stripWork ..
    · exact .refl s _
  · exact .refl s _

theorem State.effectiveRate_noStrip {v : Effect} (h : s.strip v.ep = none) : s.effectiveRate v = s := by
  unfold State.effectiveRate; rw [h]

/-- An endpoint that comes effectively on, for the section it then belongs to. -/
def EpDyn.comeOn (sec : Nat) (d : EpDyn) : EpDyn := if d.effOn then d else { d with effOn := true, effSec := sec }

theorem State.effectiveOn_groundWork (v : Effect) :
    (s.onDyn v.ep (EpDyn.comeOn (s.entry v.ep).section_)).GroundWork v.ep (s.effectiveOn v) := by
  unfold State.effectiveOn
  extract_lets t w
  have hw : t.GroundWork v.ep w := by
    unfold w
    split
    · exact (State.newRate_stripWork ..).groundWork
    · split
      · exact (State.openStrip_stripWork ..).groundWork
      · exact (State.StripWork.refl t _).groundWork
  exact hw.trans (State.sectionCheck_groundWork ..)

theorem State.effectiveOn_mpg {v : Effect} (hs : s.strip v.ep = none) :
    (s.effectiveOn v).mpg = match s.coverageLayer v.ep with
      | some l => ((s.onDyn v.ep (EpDyn.comeOn (s.entry v.ep).section_)).openStrip v.ep l v.rate v.tick).mpg
      | none => s.mpg := by
  unfold State.effectiveOn
  dsimp only
  rw [State.sectionCheck_mpg]
  have h1 : (s.onDyn v.ep (EpDyn.comeOn (s.entry v.ep).section_)).strip v.ep = none := hs
  have h2 : (s.onDyn v.ep (EpDyn.comeOn (s.entry v.ep).section_)).coverageLayer v.ep = s.coverageLayer v.ep := rfl
  unfold EpDyn.comeOn at *
  rw [h1]
  dsimp only
  rw [h2]
  cases s.coverageLayer v.ep <;> rfl

theorem State.effectiveOff_groundWork (v : Effect) :
    (s.onDyn v.ep fun d => { d with effOn := false }).GroundWork v.ep (s.effectiveOff v) := by
  unfold State.effectiveOff
  extract_lets t q c w
  have hw : t.GroundWork v.ep w := by
    unfold w
    split
    · exact (State.endStrip_stripWork ..).groundWork
    · exact (State.StripWork.refl t _).groundWork
  exact hw.trans (State.sectionCheck_groundWork ..)

theorem State.effectiveOff_strip (v : Effect) : (s.effectiveOff v).strip v.ep = none := by
  unfold State.effectiveOff
  extract_lets t q c w
  show Tbl.get none (State.mpg _).strips v.ep = none
  rw [State.sectionCheck_mpg]
  show w.strip v.ep = none
  unfold w
  split
  · exact State.endStrip_strip ..
  · assumption

end Sys2Proof.Machine

namespace Sys2Proof.Machine

variable (s : State)

/-! ### Demand (R108) -/

/-- What a product's demand is worked out from stays as it is: demands and flags may change, and what they raise. -/
def State.DemandWork (s t : State) : Prop :=
  t = { s with gle := { s.gle with demand := t.gle.demand, fault := t.gle.fault }, icu := t.icu }

theorem State.DemandWork.refl : s.DemandWork s := rfl

theorem State.DemandWork.trans {a b c : State} (h : a.DemandWork b) (g : b.DemandWork c) : a.DemandWork c := by
  unfold State.DemandWork at *; rw [g, h]

theorem State.DemandWork.demandOf {s t : State} (h : s.DemandWork t) (p : Nat) : t.demandOf p = s.demandOf p := by
  rw [h]; rfl

theorem State.DemandWork.dyn {s t : State} (h : s.DemandWork t) (k : Nat) : t.dyn k = s.dyn k := by
  rw [h]; rfl

theorem State.gleFault_demandWork (bit src : Nat) : s.DemandWork (s.gleFault bit src) := by
  unfold State.gleFault State.DemandWork
  rw [State.raise_frame]; rfl

theorem State.gleFault_demand (bit src : Nat) : (s.gleFault bit src).gle.demand = s.gle.demand := by
  unfold State.gleFault
  rw [State.raise_frame]; rfl

theorem State.refreshOne_demandWork (p : Nat) : s.DemandWork (s.refreshOne p) := by
  unfold State.refreshOne
  extract_lets v old t
  split
  · exact .trans (b := t) rfl (State.gleFault_demandWork ..)
  · rfl

theorem State.refreshOne_demand (p : Nat) :
    (s.refreshOne p).gle.demand = Tbl.set 0 s.gle.demand p (min 0xFFFFFFFF (s.demandOf p)) := by
  unfold State.refreshOne
  dsimp only
  split
  · exact State.gleFault_demand ..
  · rfl

theorem State.refreshFold_demandWork (l : List Nat) : s.DemandWork (l.foldl (fun s i => s.refreshOne (i + 1)) s) :=
  foldl_related s State.DemandWork.refl .trans (fun s i => State.refreshOne_demandWork s (i + 1)) l

theorem State.refreshDemand_demandWork : s.DemandWork s.refreshDemand := State.refreshFold_demandWork s _

/-- A pass over some products brings the demand of each of them up to date. -/
theorem State.refreshFold_demand (l : List Nat) (p : Nat) :
    Tbl.get 0 (l.foldl (fun s i => s.refreshOne (i + 1)) s).gle.demand p =
      if p ∈ l.map (· + 1) then min 0xFFFFFFFF (s.demandOf p) else Tbl.get 0 s.gle.demand p := by
  induction l generalizing s with
  | nil => rfl
  | cons i l ih =>
    rw [List.foldl_cons, ih, (State.refreshOne_demandWork s (i + 1)).demandOf, State.refreshOne_demand]
    by_cases hp : p = i + 1
    · subst hp; simp [Tbl.get_set_same]
    · rw [Tbl.get_set_ne hp]; simp [hp]

/-- Every product's demand is the sum of its endpoints' (R108). -/
def State.DemandFresh (s : State) : Prop :=
  ∀ p, 1 ≤ p → p ≤ 63 → Tbl.get 0 s.gle.demand p = min 0xFFFFFFFF (s.demandOf p)

theorem State.refreshDemand_fresh : s.refreshDemand.DemandFresh := by
  intro p h1 h2
  have hp : p ∈ (List.range 63).map (· + 1) := by
    simp only [List.mem_map, List.mem_range]
    exact ⟨p - 1, by omega, by omega⟩
  rw [(State.refreshDemand_demandWork s).demandOf]
  unfold State.refreshDemand
  rw [State.refreshFold_demand, if_pos hp]

/-! ### Valve effects (R16) -/

/-- The demand that an endpoint's valve effect leaves it in. -/
def EpDyn.valved (v : Effect) (d : EpDyn) : EpDyn :=
  if v.on then { d with inDemand := true, demandRate := v.rate, demandDuty := v.duty } else { d with inDemand := false }

theorem State.valve_demandWork (v : Effect) :
    ((s.onDyn v.ep (EpDyn.valved v)).onLca fun l =>
      { l with effHist := ((s.entry v.ep).product, v.tick, v.on, v.ep, v.delay) ::
                 l.effHist.filter fun h => decide (s.now < h.2.1 + 11 * secTicks) }).DemandWork (s.valve v) :=
  State.refreshDemand_demandWork _

theorem State.valve_frame (v : Effect) : s.valve v =
    { s with gle := { s.gle with dyn := (s.onDyn v.ep (EpDyn.valved v)).gle.dyn, demand := (s.valve v).gle.demand,
                                 fault := (s.valve v).gle.fault },
             lca := (s.valve v).lca, icu := (s.valve v).icu } := by
  have h := State.valve_demandWork s v
  generalize s.valve v = t at h ⊢
  rw [h]; rfl

theorem State.valve_fresh (v : Effect) : (s.valve v).DemandFresh := State.refreshDemand_fresh _

theorem State.valve_dyn (v : Effect) (k : Nat) : (s.valve v).dyn k = (s.onDyn v.ep (EpDyn.valved v)).dyn k :=
  (State.valve_demandWork s v).dyn k

theorem EpDyn.valved_inDemand (v : Effect) (d : EpDyn) : (d.valved v).inDemand = v.on := by
  unfold EpDyn.valved; cases v.on <;> rfl

theorem EpDyn.valved_heldOn (v : Effect) (d : EpDyn) : (d.valved v).heldOn = d.heldOn := by
  unfold EpDyn.valved; split <;> rfl

end Sys2Proof.Machine

namespace Sys2Proof.Machine

variable (s : State)

/-! ### The output of a channel (R240) -/

/-- A change of one channel alone. -/
structure State.ChanWork (n : Nat) (s t : State) : Prop where
  frame : t = { s with lsb := { s.lsb with chans := t.lsb.chans } }
  others : ∀ k, k ≠ n → t.chan k = s.chan k

theorem State.ChanWork.refl (n : Nat) : s.ChanWork n s := ⟨rfl, fun _ _ => rfl⟩

theorem State.onChan_chanWork (n : Nat) (f : Channel → Channel) : s.ChanWork n (s.onChan n f) :=
  ⟨rfl, fun _ hk => State.onChan_chan_ne s _ _ _ hk⟩

theorem State.follow_chanWork (n : Nat) (fresh : Bool) : s.ChanWork n (s.follow n fresh) := by
  unfold State.follow
  dsimp only
  split
  · exact .refl s n
  · split
    · exact State.onChan_chanWork ..
    · split
      · exact State.onChan_chanWork ..
      · exact .refl s n

/-- But under a reversed supply the output is on where it can be and is asked to be. -/
theorem State.follow_out {n : Nat} (fresh : Bool) (h : Tbl.get false s.lsb.reversed (s.bankOf n) = false) :
    ((s.follow n fresh).chan n).out = (s.chanLive n && s.wantsOn n) := by
  unfold State.follow
  simp only [h, Bool.false_eq_true, if_false]
  split
  · next hw =>
    rw [Bool.and_eq_true] at hw
    rw [hw.1]
    unfold State.turnOn
    rw [State.onChan_chan]
  · next hw =>
    split
    · next hn =>
      rw [Bool.and_eq_true, Bool.not_eq_true'] at hn
      rw [hn.1]
      unfold State.turnOff
      rw [State.onChan_chan]
    · next hn => revert hw hn; cases (s.chanLive n && s.wantsOn n) <;> cases (s.chan n).out <;> simp

/-- The escapement's channel in service is asked to be where the PWM grid stands (R107). -/
theorem State.wantsOn_of_pwmRun {n : Nat} (hp : s.localPath n = true) (hc : (s.chan n).carried = false)
    (hr : (s.dyn (localBase + n)).pwmRun = true) : s.wantsOn n = (s.dyn (localBase + n)).pwmOpen := by
  unfold State.localPath at hp
  simp only [Bool.and_eq_true, Bool.not_eq_true'] at hp
  obtain ⟨⟨⟨-, hh⟩, hk⟩, hs⟩ := hp
  have hf : (s.chan n).followsEsc = true := by
    unfold Channel.followsEsc Channel.isKept
    rw [Option.isNone_iff_eq_none] at hk
    simp [hh, hk, hs, hc]
  unfold State.wantsOn
  simp [hf, hr]

theorem State.localPath_chanLive {n : Nat} (hp : s.localPath n = true) : s.chanLive n = true := by
  unfold State.localPath at hp
  simp only [Bool.and_eq_true] at hp
  exact hp.1.1.1

/-! ### The PWM grid (R107) -/

/-- What an edge of a local endpoint's PWM grid may change: where its pulse stands, and its channel. -/
structure State.GridWork (n : Nat) (s t : State) : Prop where
  frame : t = { s with gle := { s.gle with dyn := t.gle.dyn }, lsb := { s.lsb with chans := t.lsb.chans } }
  pulse : t.dyn (localBase + n) = { s.dyn (localBase + n) with pwmOpen := (t.dyn (localBase + n)).pwmOpen
                                                               pwmOpenTick := (t.dyn (localBase + n)).pwmOpenTick
                                                               pwmDuty := (t.dyn (localBase + n)).pwmDuty }
  dyns : ∀ k, k ≠ localBase + n → t.dyn k = s.dyn k
  chans : ∀ k, k ≠ n → t.chan k = s.chan k

theorem State.GridWork.refl (n : Nat) : s.GridWork n s := ⟨rfl, rfl, fun _ _ => rfl, fun _ _ => rfl⟩

/-- A pulse that moves on the grid. -/
def EpDyn.pulse (isOpen : Bool) (tick duty : Nat) (d : EpDyn) : EpDyn :=
  { d with pwmOpen := isOpen, pwmOpenTick := tick, pwmDuty := duty }

theorem State.pulse_gridWork (n : Nat) (o : Bool) (k d : Nat) : s.GridWork n (s.onDyn (localBase + n) (EpDyn.pulse o k d)) :=
  ⟨rfl, by rw [State.onDyn_dyn]; rfl, fun _ hk => State.onDyn_dyn_ne s _ _ _ hk, fun _ _ => rfl⟩

/-- The pulse of a channel's endpoint moves and the output follows it. -/
def State.pulseEdge (n : Nat) (o : Bool) (k d : Nat) (s : State) : State :=
  (s.onDyn (localBase + n) (EpDyn.pulse o k d)).follow n false

theorem State.pulseEdge_dyn (n : Nat) (o : Bool) (k d e : Nat) :
    (s.pulseEdge n o k d).dyn e = (s.onDyn (localBase + n) (EpDyn.pulse o k d)).dyn e := by
  have h := (State.follow_chanWork (s.onDyn (localBase + n) (EpDyn.pulse o k d)) n false).frame
  unfold State.pulseEdge
  generalize State.follow n false _ = t at h ⊢
  rw [h]; rfl

theorem State.pulseEdge_gridWork (n : Nat) (o : Bool) (k d : Nat) : s.GridWork n (s.pulseEdge n o k d) := by
  have h := State.follow_chanWork (s.onDyn (localBase + n) (EpDyn.pulse o k d)) n false
  refine ⟨?_, ?_, fun j hj => ?_, h.others⟩
  · have hf := h.frame
    unfold State.pulseEdge
    generalize State.follow n false _ = t at hf ⊢
    rw [hf]; rfl
  · rw [State.pulseEdge_dyn, State.onDyn_dyn]; rfl
  · rw [State.pulseEdge_dyn, State.onDyn_dyn_ne _ _ _ _ hj]

theorem State.pulseEdge_out {n : Nat} (o : Bool) (k d : Nat) (hp : s.localPath n = true) (hc : (s.chan n).carried = false)
    (hr : (s.dyn (localBase + n)).pwmRun = true) (hv : Tbl.get false s.lsb.reversed (s.bankOf n) = false) :
    ((s.pulseEdge n o k d).chan n).out = o := by
  have hp' : (s.onDyn (localBase + n) (EpDyn.pulse o k d)).localPath n = true := hp
  unfold State.pulseEdge
  rw [State.follow_out (s.onDyn _ _) false hv, State.localPath_chanLive _ hp', State.wantsOn_of_pwmRun _ hp' hc, State.onDyn_dyn]
  · rfl
  · rw [State.onDyn_dyn]; exact hr

/-- The period of the PWM grid of a channel's endpoint, the offset of its openings and the on time of the present pulse, in
ticks (R107). -/
def State.gridPeriod (s : State) (n : Nat) : Nat := (s.product (s.entry (localBase + n)).product).pwmPeriod * 2000
def State.gridOffset (s : State) (n : Nat) : Nat :=
  phaseOf (s.product (s.entry (localBase + n)).product) (s.entry (localBase + n)).phaseGroup * 2000
def State.gridOn (s : State) (n : Nat) : Nat :=
  dutyUnits (s.dyn (localBase + n)).pwmDuty (s.product (s.entry (localBase + n)).product).pwmPeriod * 2000

/-- The next close instant of an open pulse has come. -/
def State.gridCloses (s : State) (n : Nat) : Bool :=
  gridPasses (s.gridPeriod n) (s.gridOffset n + s.gridOn n) ((s.dyn (localBase + n)).pwmOpenTick + s.gridOn n) s.now

/-- The grid's next opening has come. -/
def State.gridOpens (s : State) (n : Nat) : Bool :=
  gridPasses (s.gridPeriod n) (s.gridOffset n) ((s.dyn (localBase + n)).pwmOpenTick + 1) s.now

variable {s} {n : Nat}

theorem State.gridEdge_of_open (ho : (s.dyn (localBase + n)).pwmOpen = true) (hd : (s.dyn (localBase + n)).pwmDuty ≠ 1000) :
    s.gridEdge n = if s.gridCloses n then
        s.pulseEdge n false (gridLast (s.gridPeriod n) (s.gridOffset n + s.gridOn n) s.now) (s.dyn (localBase + n)).pwmDuty
      else s := by
  unfold State.gridEdge
  dsimp only
  rw [if_pos ho, if_neg hd]; rfl

theorem State.gridEdge_of_full (ho : (s.dyn (localBase + n)).pwmOpen = true) (hd : (s.dyn (localBase + n)).pwmDuty = 1000) :
    s.gridEdge n = if s.gridOpens n then
        s.onDyn (localBase + n) (EpDyn.pulse true (gridLast (s.gridPeriod n) (s.gridOffset n) s.now) (s.dyn (localBase + n)).duty)
      else s := by
  unfold State.gridEdge
  dsimp only
  rw [if_pos ho, if_pos hd, ← ho]; rfl

theorem State.gridEdge_of_closed (ho : (s.dyn (localBase + n)).pwmOpen = false) :
    s.gridEdge n = if s.gridOpens n then
        s.pulseEdge n ((s.dyn (localBase + n)).duty != 0) (gridLast (s.gridPeriod n) (s.gridOffset n) s.now)
          (s.dyn (localBase + n)).duty
      else s := by
  unfold State.gridEdge
  dsimp only
  rw [if_neg (by simp [ho])]; rfl

theorem State.gridEdge_gridWork (s : State) (n : Nat) : s.GridWork n (s.gridEdge n) := by
  by_cases ho : (s.dyn (localBase + n)).pwmOpen = true
  · by_cases hd : (s.dyn (localBase + n)).pwmDuty = 1000
    · rw [State.gridEdge_of_full ho hd]
      split
      · exact State.pulse_gridWork ..
      · exact .refl s n
    · rw [State.gridEdge_of_open ho hd]
      split
      · exact State.pulseEdge_gridWork ..
      · exact .refl s n
  · rw [State.gridEdge_of_closed (by simpa using ho)]
    split
    · exact State.pulseEdge_gridWork ..
    · exact .refl s n

/-- Where a pulse opens or closes, the output of a channel in service goes with it. -/
theorem State.gridEdge_out (hr : (s.dyn (localBase + n)).pwmRun = true)
    (hne : ((s.gridEdge n).dyn (localBase + n)).pwmOpen ≠ (s.dyn (localBase + n)).pwmOpen)
    (hc : (s.chan n).carried = false) (hp : s.localPath n = true) (hv : Tbl.get false s.lsb.reversed (s.bankOf n) = false) :
    ((s.gridEdge n).chan n).out = ((s.gridEdge n).dyn (localBase + n)).pwmOpen := by
  have edge (o : Bool) (k d : Nat) :
      ((s.pulseEdge n o k d).chan n).out = ((s.pulseEdge n o k d).dyn (localBase + n)).pwmOpen := by
    rw [State.pulseEdge_out s o k d hp hc hr hv, State.pulseEdge_dyn, State.onDyn_dyn]; rfl
  by_cases ho : (s.dyn (localBase + n)).pwmOpen = true
  · by_cases hd : (s.dyn (localBase + n)).pwmDuty = 1000
    · -- at full duty the pulse stays open
      rw [State.gridEdge_of_full ho hd] at hne
      split at hne
      · rw [State.onDyn_dyn] at hne
        exact absurd ho.symm hne
      · exact absurd rfl hne
    · rw [State.gridEdge_of_open ho hd] at hne ⊢
      split at hne
      · next h => rw [if_pos h]; exact edge ..
      · exact absurd rfl hne
  · rw [State.gridEdge_of_closed (by simpa using ho)] at hne ⊢
    split at hne
    · next h => rw [if_pos h]; exact edge ..
    · exact absurd rfl hne

end Sys2Proof.Machine

namespace Sys2Proof.Machine

variable (s : State)

/-! ### Records of events (R346-R351) -/

/-- A change of the recorder, with what it raises and reports. -/
def State.Records (s t : State) : Prop := t = { s with nv := t.nv, evr := t.evr, icu := t.icu, hre := t.hre, out := t.out }

theorem State.Records.refl : s.Records s := rfl

theorem State.Records.trans {a b c : State} (h : a.Records b) (g : b.Records c) : a.Records c := by
  unfold State.Records at *; rw [g, h]

theorem State.Reports.records {s t : State} (h : s.Reports t) : s.Records t := by
  unfold State.Reports at h
  rw [h]; rfl

theorem State.onEvr_records (f : Evr → Evr) : s.Records (s.onEvr f) := rfl
theorem State.onNv_records (f : Nv → Nv) : s.Records (s.onNv f) := rfl

theorem State.loseEvent_records : s.Records s.loseEvent :=
  (State.onEvr_records ..).trans <| (State.onNv_records ..).trans (State.raise_reports _).records

theorem State.recordReport_records (r : Rec) (fold : Bool) (tick : Nat) : s.Records (s.recordReport r fold tick) :=
  State.Reports.records (State.report_reports ..)

theorem State.enterStaging_records (r : Rec) : s.Records (s.enterStaging r) := by
  unfold State.enterStaging
  dsimp only
  split
  · rfl
  · exact (State.onEvr_records ..).trans (State.loseEvent_records _)

theorem State.stage_records (r : Rec) : s.Records (s.stage r) := by
  unfold State.stage
  split
  · split
    · rfl
    · exact State.enterStaging_records ..
  · split
    · exact (State.onEvr_records ..).trans (State.enterStaging_records ..)
    · exact State.enterStaging_records ..

theorem State.tryFold_records {code source : Nat} {t : State} (h : s.tryFold code source = some t) : s.Records t := by
  unfold State.tryFold at h
  extract_lets tick op at h
  split at h
  · cases h
  · split at h
    · cases h
      split
      · exact (State.onEvr_records ..).trans (State.recordReport_records ..)
      · rfl
    · split at h
      · cases h
        dsimp only
        split
        · exact (State.onNv_records ..).trans (State.recordReport_records ..)
        · rfl
      · split at h
        · split at h
          · cases h; rfl
          · cases h
        · cases h

theorem State.record_records (code source : Nat) (fixed : List (Nat × Word)) : s.Records (s.record code source fixed) := by
  unfold State.record
  split
  · split
    · next h => exact State.tryFold_records s h
    · exact State.stage_records ..
  · exact .refl s

/-! ### GLE_LOAD (R113) -/

/-- What bringing GLE_LOAD up to date may change. -/
def State.LoadWork (s t : State) : Prop :=
  t = { s with gle := { s.gle with load := t.gle.load, overload := t.gle.overload, fault := t.gle.fault },
               nv := t.nv, evr := t.evr, icu := t.icu, hre := t.hre, out := t.out }

theorem State.refreshLoad_loadWork : s.LoadWork s.refreshLoad := by
  unfold State.refreshLoad
  extract_lets n heavy was t
  split
  · have h := State.record_records (t.gleFault 0 64) 0x0301 0 []
    unfold State.Records at h
    generalize State.record _ _ _ _ = v at h ⊢
    unfold State.gleFault at h
    rw [State.raise_frame] at h
    unfold State.LoadWork
    rw [h]; rfl
  · rfl

theorem State.LoadWork.dyn {s t : State} (h : s.LoadWork t) (k : Nat) : t.dyn k = s.dyn k := by
  rw [h]; rfl

theorem State.LoadWork.demandOf {s t : State} (h : s.LoadWork t) (p : Nat) : t.demandOf p = s.demandOf p := by
  rw [h]; rfl

end Sys2Proof.Machine

namespace Sys2Proof.Machine

variable {s : State} {ep : Nat}

/-! ### The insertion of a closing (R110) -/

theorem EpDyn.store_free (d : EpDyn) (now : Nat) (e : PEvent) (t : Nat) :
    ∃ far, d.store now true e t = (.stored, d.put { e with tick := t, far }) := by
  unfold EpDyn.store
  split
  · exact ⟨true, rfl⟩
  · exact ⟨false, rfl⟩

theorem EpDyn.le_dwelt (d : EpDyn) (dwell : Nat) (e : PEvent) : e.tick ≤ d.dwelt dwell e := by
  unfold EpDyn.dwelt
  split
  · exact Nat.le_refl _
  · split
    · exact Nat.le_max_left ..
    · exact Nat.le_refl _

/-- An OFF of an endpoint that has no event pending is stored, no earlier than it asks. -/
theorem EpDyn.insert_off_idle {d : EpDyn} {e : PEvent} (now dwell : Nat) (hi : d.idle = true) (he : e.on = false) :
    ∃ o : PEvent, o.on = false ∧ e.tick ≤ o.tick ∧ d.insert now dwell true false e = (.stored, { d with offEv := some o }) := by
  unfold EpDyn.idle at hi
  simp only [Bool.and_eq_true, Option.isNone_iff_eq_none] at hi
  obtain ⟨hon, hoff⟩ := hi
  obtain ⟨far, hf⟩ := EpDyn.store_free (d.without e.on) now e (d.dwelt dwell e)
  refine ⟨{ e with tick := d.dwelt dwell e, far }, he, EpDyn.le_dwelt .., ?_⟩
  have h : d.insert now dwell true false e = d.place now dwell true none e := by
    unfold EpDyn.insert EpDyn.ofKind
    simp [he, hoff]
  rw [h]
  unfold EpDyn.place EpDyn.ofKind
  simp only [he, Bool.not_false, if_true, hon]
  rw [he] at hf
  rw [hf]
  simp [EpDyn.put, EpDyn.without, hon]

theorem State.insertRaw_off_idle {e : PEvent} (hi : (s.dyn ep).idle = true) (he : e.on = false) (hf : s.escOverflow < 16384) :
    ∃ o : PEvent, o.on = false ∧ s.earliest ep ≤ o.tick ∧
      s.insertRaw ep false e = (.stored, s.onDyn ep fun _ => { s.dyn ep with offEv := some o }) := by
  obtain ⟨o, ho, hk, h⟩ := EpDyn.insert_off_idle (d := s.dyn ep)
    (e := { e with tick := max (roundSlot e.tick) (s.earliest ep) }) s.now (s.dwellOf ep) hi he
  refine ⟨o, ho, Nat.le_trans (Nat.le_max_right ..) hk, ?_⟩
  unfold State.insertRaw
  simp only [hf, decide_true, h]
  rfl

/-- In a section without feeders nothing follows a member's OFF. -/
theorem State.insert_off_idle {e : PEvent} (hi : (s.dyn ep).idle = true) (he : e.on = false) (hf : s.escOverflow < 16384)
    (hfeed : (s.entry ep).feeder = false) (hno : s.feedersOf (s.entry ep).section_ = []) :
    ∃ o : PEvent, o.on = false ∧ s.earliest ep ≤ o.tick ∧
      s.insert ep false e = (.stored, s.onDyn ep fun _ => { s.dyn ep with offEv := some o }) := by
  obtain ⟨o, ho, hk, h⟩ := State.insertRaw_off_idle (e := e) hi he hf
  refine ⟨o, ho, hk, ?_⟩
  have hc : State.closeFeeders ep (s.insertRaw ep false e) = s.insertRaw ep false e := by
    unfold State.closeFeeders State.freeFeeders
    have : (s.insertRaw ep false e).2.feedersOf ((s.insertRaw ep false e).2.entry ep).section_ = [] := by rw [h]; exact hno
    rw [this]; rfl
  rw [h] at hc
  unfold State.insert State.closeWith
  simp only [hfeed, he, Bool.false_eq_true, if_false, h, hc, State.orRefuse]
  split
  · split <;> rfl
  · rfl

/-! ### An evaluation where R20 does not hold (R20, R102-R104) -/

/-- GLE decides nothing on the maps while R20 does not hold. -/
theorem State.gateOpen_of_not_poseOk (h : s.gle.poseOk = false) : s.gateOpen ep = false := by
  unfold State.gateOpen; simp [h]

theorem State.testAt_of_gate {q : PoseState} {start look : Nat} (h : s.gateOpen ep = false) : (s.testAt ep q start look).on = false := by
  unfold State.testAt; simp [h]

theorem State.noteTest_of_gate {q : PoseState} {tick : Nat} (h : s.gateOpen ep = false) : s.noteTest ep q tick = s := by
  unfold State.noteTest; simp [h]

theorem EpDyn.scheduledOn_of_idle {d : EpDyn} (h : d.idle = true) : d.scheduledOn = d.heldOn := by
  unfold EpDyn.idle at h
  simp only [Bool.and_eq_true, Option.isNone_iff_eq_none] at h
  unfold EpDyn.scheduledOn
  rw [h.1, h.2]

/-- The sample is tested and the endpoint is off: nothing follows but the next sample. -/
theorem State.evalSample_stays {sk : Nat} {last : Option (Nat × TestRes)} (hg : s.gle.poseOk = false)
    (hi : (s.dyn ep).idle = true) (hh : (s.dyn ep).heldOn = false) :
    ∃ r : TestRes, r.on = false ∧ s.evalSample ep sk last = s.advanceProbe ep sk r := by
  have hgate := State.gateOpen_of_not_poseOk (ep := ep) hg
  have hon := State.testAt_of_gate (q := s.pse.cur) (start := sk) (look := s.lookAhead ep (!(s.dyn ep).scheduledOn)) hgate
  unfold State.evalSample
  simp only [State.noteTest_of_gate hgate]
  generalize s.testAt ep s.pse.cur sk (s.lookAhead ep (!(s.dyn ep).scheduledOn)) = r at hon ⊢
  have hd : s.decision ep sk last r = none := by
    unfold State.decision
    simp [hon, EpDyn.scheduledOn_of_idle hi, hh]
  refine ⟨r, hon, ?_⟩
  simp only [hd]
  unfold State.rateDecision
  simp [hon]

/-- The probe of an endpoint once its sample is done (R102). -/
def State.probeAfter (s : State) (ep sk : Nat) (r : TestRes) (p : Probe) : Probe :=
  { p with last := some (sk, r), next := ceilSlot (sk + max 1 (s.spacing ep 1)),
           due := ceilSlot (sk + max 1 (s.spacing ep 1)) - s.probeAhead ep }

theorem State.advanceProbe_dyn {sk : Nat} {r : TestRes} {p : Probe} (hp : (s.dyn ep).probe = some p) :
    (s.advanceProbe ep sk r).dyn ep = { s.dyn ep with probe := some (s.probeAfter ep sk r p) } := by
  unfold State.advanceProbe
  rw [State.onDyn_dyn, hp]; rfl

theorem State.advanceProbe_dyn_ne {sk k : Nat} {r : TestRes} (hk : k ≠ ep) : (s.advanceProbe ep sk r).dyn k = s.dyn k :=
  State.onDyn_dyn_ne _ _ _ _ hk

/-- The state of an endpoint that closes: an OFF stands in the escapement, no earlier than that can execute it. -/
def State.Closes (s : State) (ep first : Nat) : Prop :=
  ∃ e : PEvent, (s.dyn ep).offEv = some e ∧ e.on = false ∧ first ≤ e.tick ∧ (s.dyn ep).onEv = none ∧ (s.dyn ep).heldOn = true

/-- What leaves the events and the held state of an endpoint alone keeps its closing. -/
theorem State.Closes.congr {t : State} {k : Nat} (h : s.Closes ep k) (h1 : (t.dyn ep).offEv = (s.dyn ep).offEv)
    (h2 : (t.dyn ep).onEv = (s.dyn ep).onEv) (h3 : (t.dyn ep).heldOn = (s.dyn ep).heldOn) : t.Closes ep k := by
  unfold State.Closes
  rw [h1, h2, h3]; exact h

theorem State.onDyn_closes {k : Nat} {f : EpDyn → EpDyn} (h : s.Closes ep k) (h1 : (f (s.dyn ep)).offEv = (s.dyn ep).offEv)
    (h2 : (f (s.dyn ep)).onEv = (s.dyn ep).onEv) (h3 : (f (s.dyn ep)).heldOn = (s.dyn ep).heldOn) : (s.onDyn ep f).Closes ep k :=
  h.congr (by rw [State.onDyn_dyn, h1]) (by rw [State.onDyn_dyn, h2]) (by rw [State.onDyn_dyn, h3])

theorem State.noteLate_dyn (late k : Nat) : (s.noteLate ep late).dyn k = s.dyn k := by
  have h := State.gleFault_demandWork (s.onGle fun g =>
    { g with lateCount := count32 g.lateCount, lateMax := min 0xFFFFFFFF (max g.lateMax (late / usTicks)) }) 1 65
  exact h.dyn k

theorem State.advanceProbe_closes {sk k : Nat} {r : TestRes} (h : s.Closes ep k) : (s.advanceProbe ep sk r).Closes ep k :=
  State.onDyn_closes h rfl rfl rfl

theorem State.hold_closes {k : Nat} {o : Option PEvent} (h : s.Closes ep k) : (s.hold ep o).Closes ep k :=
  State.onDyn_closes h rfl rfl rfl

theorem State.noteLate_closes {late k : Nat} (h : s.Closes ep k) : (s.noteLate ep late).Closes ep k := by
  have hd := State.noteLate_dyn (s := s) (ep := ep) late ep
  exact h.congr (by rw [hd]) (by rw [hd]) (by rw [hd])

/-- The probe's OFF of an endpoint that is on and has no event pending. -/
theorem State.probeEvent_closes {e : PEvent} (hi : (s.dyn ep).idle = true) (he : e.on = false) (hh : (s.dyn ep).heldOn = true)
    (hf : s.escOverflow < 16384) (hfeed : (s.entry ep).feeder = false) (hno : s.feedersOf (s.entry ep).section_ = []) :
    (s.probeEvent ep e).Closes ep (s.earliest ep) := by
  obtain ⟨o, ho, hk, h⟩ := State.insert_off_idle (e := { e with tick := max e.tick (s.now + s.leadOf ep) }) hi he hf hfeed hno
  have hc : (s.onDyn ep fun _ => { s.dyn ep with offEv := some o }).Closes ep (s.earliest ep) := by
    unfold EpDyn.idle at hi
    simp only [Bool.and_eq_true, Option.isNone_iff_eq_none] at hi
    refine ⟨o, ?_, ho, hk, ?_, ?_⟩ <;> rw [State.onDyn_dyn]
    · exact hi.1
    · exact hh
  unfold State.probeEvent
  simp only [h]
  split
  · exact State.noteLate_closes (State.hold_closes hc)
  · exact State.hold_closes hc

/-- The sample is tested and the endpoint is on: it closes. -/
theorem State.evalSample_closes {sk : Nat} {last : Option (Nat × TestRes)} (hg : s.gle.poseOk = false)
    (hl : ∀ s0 r0, last = some (s0, r0) → r0.on = true) (hi : (s.dyn ep).idle = true) (hh : (s.dyn ep).heldOn = true)
    (hf : s.escOverflow < 16384) (hfeed : (s.entry ep).feeder = false) (hno : s.feedersOf (s.entry ep).section_ = []) :
    (s.evalSample ep sk last).Closes ep (s.earliest ep) := by
  have hgate := State.gateOpen_of_not_poseOk (ep := ep) hg
  have hon := State.testAt_of_gate (q := s.pse.cur) (start := sk) (look := s.lookAhead ep (!(s.dyn ep).scheduledOn)) hgate
  unfold State.evalSample
  simp only [State.noteTest_of_gate hgate]
  generalize s.testAt ep s.pse.cur sk (s.lookAhead ep (!(s.dyn ep).scheduledOn)) = r at hon ⊢
  have hd : s.decision ep sk last r = some (s.switchEvent ep sk last r, .none) := by
    unfold State.decision
    cases last with
    | none => simp [hon, EpDyn.scheduledOn_of_idle hi, hh]
    | some p => simp [hon, EpDyn.scheduledOn_of_idle hi, hh, hl p.1 p.2 rfl]
  have he : (s.switchEvent ep sk last r).on = false := by
    unfold State.switchEvent State.event
    cases last <;> exact hon
  have hc := State.probeEvent_closes hi he hh hf hfeed hno
  simp only [hd]
  split
  · split
    · exact State.onDyn_closes hc rfl rfl rfl
    · exact State.advanceProbe_closes (State.onDyn_closes hc rfl rfl rfl)
  · exact State.onDyn_closes hc rfl rfl rfl

theorem State.tryLearned_none {kind : Nat} (h : (s.delayCal (2 * ep + kind)).staged = none) : s.tryLearned ep kind = s := by
  unfold State.tryLearned; simp [h]

/-- An evaluation of an endpoint for which nothing waits and no event is pending tests its sample. -/
theorem State.evaluate_idle {p : Probe} (hp : (s.dyn ep).probe = some p) (hheld : p.held = none) (hs : (s.dyn ep).staged = none)
    (hsd : (s.dyn ep).stagedDelays = none) (hon : (s.dyn ep).onEv = none) (hoff : (s.dyn ep).offEv = none)
    (h0 : (s.delayCal (2 * ep)).staged = none) (h1 : (s.delayCal (2 * ep + 1)).staged = none) :
    s.evaluate ep = s.evalSample ep p.next p.last := by
  have hw : s.applyWaiting ep = s := by
    have ha : s.applyStaged ep = s := by
      unfold State.applyStaged State.applyDelays; simp [hs, hsd]
    have hc : s.applyCal ep = s := by
      unfold State.applyCal
      rw [State.tryLearned_none (kind := 0) h0, State.tryLearned_none h1]
    unfold State.applyWaiting
    simp [ha, hc]
  have hr : (s.retimeAll ep).retryHeld ep = s := by
    unfold State.retimeAll State.retryHeld
    simp [hon, hoff, hp, hheld]
  unfold State.evaluate
  simp [hw, hr, hp, hs, hheld]

end Sys2Proof.Machine

namespace Sys2Proof.Machine

variable {s : State} {ep : Nat}

/-! ### The answers of the commands -/

theorem exec_valveEffect {dt : Nat} {v : Effect} {rest : List Effect}
    (h : takeEffect ep (s.elapse dt).now (s.elapse dt).gle.valveQ = some (v, rest)) :
    exec (.valveEffect dt ep) s = .next (((s.elapse dt).onGle fun g => { g with valveQ := rest }).valve v) := by
  show execValveEffect dt ep s = _
  unfold execValveEffect
  simp only [h]

/-- What becomes of the ground at a switch's effective time. -/
def State.groundSwitch (v : Effect) (s : State) : State :=
  if v.rateOnly then s.effectiveRate v else if v.on then s.effectiveOn v else s.effectiveOff v

theorem exec_effectiveSwitch {dt : Nat} {v : Effect} {rest : List Effect}
    (h : takeEffect ep (min (s.elapse dt).now (s.elapse dt).pse.cur.tick) (s.elapse dt).gle.effQ = some (v, rest)) :
    exec (.effectiveSwitch dt ep) s =
      .next ((((s.elapse dt).onGle fun g => { g with effQ := rest }).groundSwitch v).armCheck) := by
  show execEffectiveSwitch dt ep s = _
  unfold execEffectiveSwitch
  simp only [h]; rfl

theorem exec_segmentMaxExpiry {dt : Nat} {p : Strip} (hr : (s.elapse dt).isReady 5 = true)
    (hp : (s.elapse dt).strip ep = some p) (hw : p.waiting = false)
    (hk : p.startTick + (s.elapse dt).mpg.segMax * 200000 ≤ (s.elapse dt).pse.cur.tick) :
    exec (.segmentMaxExpiry dt ep) s =
      (let u := s.elapse dt
       let k := p.startTick + u.mpg.segMax * 200000
       .next (u.cutStrip ep p k (u.centreAt ep k).1 (u.centreAt ep k).2)) := by
  show execSegmentMaxExpiry dt ep s = _
  unfold execSegmentMaxExpiry
  simp only [hp]
  rw [State.when_pos (by simp only [hr, hw, Bool.not_false, Bool.and_true, Bool.true_and]; exact decide_eq_true hk)]
  rfl

theorem exec_pwmGridEdge {dt n : Nat} (hr : ((s.elapse dt).dyn (localBase + n)).pwmRun = true)
    (hp : ((s.elapse dt).product ((s.elapse dt).entry (localBase + n)).product).pwmPeriod ≠ 0) :
    exec (.pwmGridEdge dt n) s = .next ((s.elapse dt).gridEdge n) := by
  show execPwmGridEdge dt n s = _
  unfold execPwmGridEdge
  dsimp only
  rw [State.when_pos (by simp [hr, hp])]

theorem exec_probeEvaluation {dt : Nat} (hd : (s.elapse dt).probeDue ep = true) (hs : (s.elapse dt).served ep = true) :
    exec (.probeEvaluation dt ep) s = .next (((s.elapse dt).countEval.evaluate ep).refreshLoad) := by
  show execProbeEvaluation dt ep s = _
  unfold execProbeEvaluation
  dsimp only
  rw [State.when_pos (by simp [hd, hs])]

/-! ### A switch at its effective time -/

/-- The state of an endpoint after a switch at the ground. -/
def EpDyn.switched (v : Effect) (sec : Nat) (d : EpDyn) : EpDyn :=
  if v.rateOnly then d else if v.on then d.comeOn sec else { d with effOn := false }

theorem EpDyn.comeOn_effOn (sec : Nat) (d : EpDyn) : (d.comeOn sec).effOn = true := by
  unfold EpDyn.comeOn
  split
  · assumption
  · rfl

theorem EpDyn.switched_effOn (v : Effect) (sec : Nat) (d : EpDyn) :
    (d.switched v sec).effOn = if v.rateOnly then d.effOn else v.on := by
  unfold EpDyn.switched
  split
  · rfl
  · split
    · next h => rw [EpDyn.comeOn_effOn, h]
    · next h => exact (Bool.eq_false_iff.mpr h).symm

theorem EpDyn.switched_heldOn (v : Effect) (sec : Nat) (d : EpDyn) : (d.switched v sec).heldOn = d.heldOn := by
  unfold EpDyn.switched EpDyn.comeOn
  split
  · rfl
  · split
    · split <;> rfl
    · rfl

theorem EpDyn.switched_effSec {v : Effect} {sec : Nat} {d : EpDyn} (h1 : v.rateOnly = false) (h2 : v.on = true)
    (h3 : d.effOn = false) : (d.switched v sec).effSec = sec := by
  unfold EpDyn.switched EpDyn.comeOn
  simp [h1, h2, h3]

/-- What is scheduled to change in an endpoint's state at its switch, before anything at the ground follows it. -/
def State.switchDyn (v : Effect) (s : State) : State :=
  if v.rateOnly then s else s.onDyn v.ep (EpDyn.switched v (s.entry v.ep).section_)

theorem State.groundSwitch_groundWork (s : State) (v : Effect) : (s.switchDyn v).GroundWork v.ep (s.groundSwitch v) := by
  unfold State.switchDyn State.groundSwitch
  by_cases hr : v.rateOnly = true
  · simp only [hr, if_true]
    exact (State.effectiveRate_stripWork s v).groundWork
  · by_cases ho : v.on = true
    · have hf : EpDyn.switched v (s.entry v.ep).section_ = EpDyn.comeOn (s.entry v.ep).section_ := by
        funext d; unfold EpDyn.switched; simp [hr, ho]
      simp only [hr, ho, if_true, Bool.false_eq_true, if_false, hf]
      exact State.effectiveOn_groundWork s v
    · have hf : EpDyn.switched v (s.entry v.ep).section_ = fun d => { d with effOn := false } := by
        funext d; unfold EpDyn.switched; simp [hr, ho]
      simp only [hr, ho, Bool.false_eq_true, if_false, hf]
      exact State.effectiveOff_groundWork s v

theorem State.switchDyn_dyn (s : State) (v : Effect) :
    (s.switchDyn v).dyn v.ep = (s.dyn v.ep).switched v (s.entry v.ep).section_ := by
  unfold State.switchDyn
  split
  · next h => unfold EpDyn.switched; simp [h]
  · rw [State.onDyn_dyn]

theorem State.switchDyn_dyn_ne (s : State) {v : Effect} {k : Nat} (hk : k ≠ v.ep) : (s.switchDyn v).dyn k = s.dyn k := by
  unfold State.switchDyn
  split
  · rfl
  · exact State.onDyn_dyn_ne _ _ _ _ hk

theorem State.switchDyn_frame (s : State) (v : Effect) :
    s.switchDyn v = { s with gle := { s.gle with dyn := (s.switchDyn v).gle.dyn } } := by
  unfold State.switchDyn
  split <;> rfl

theorem State.armCheck_strip (s : State) (k : Nat) : s.armCheck.strip k = s.strip k := by
  unfold State.strip; rw [State.armCheck_mpg]

/-! ### The statement -/

/-- R16, R108: the valve alone joins or leaves its product's demand, which is up to date again. -/
theorem valveEffect_answers (dt ep : Nat) (s : State) (v : Effect) (rest : List Effect)
    (h : takeEffect ep (s.elapse dt).now (s.elapse dt).gle.valveQ = some (v, rest)) :
    let u := s.elapse dt
    ∃ t : State, exec (.valveEffect dt ep) s = .next t ∧ t.gle.valveQ = rest ∧ (t.dyn v.ep).inDemand = v.on ∧
      (v.on = true → (t.dyn v.ep).demandRate = v.rate ∧ (t.dyn v.ep).demandDuty = v.duty) ∧
      (t.dyn v.ep).heldOn = (u.dyn v.ep).heldOn ∧ (∀ k, k ≠ v.ep → t.dyn k = u.dyn k) ∧ t.DemandFresh ∧
      t = { u with gle := t.gle, lca := t.lca, icu := t.icu } := by
  intro u
  set b : State := u.onGle fun g => { g with valveQ := rest }
  have hd : (b.valve v).dyn v.ep = (u.dyn v.ep).valved v := by rw [State.valve_dyn, State.onDyn_dyn]; rfl
  have hf := State.valve_frame b v
  refine ⟨b.valve v, exec_valveEffect h, ?_, ?_, fun hon => ?_, ?_, fun k hk => ?_, State.valve_fresh b v, ?_⟩
  · rw [hf]; rfl
  · rw [hd, EpDyn.valved_inDemand]
  · rw [hd]; unfold EpDyn.valved; simp [hon]
  · rw [hd, EpDyn.valved_heldOn]
  · rw [State.valve_dyn, State.onDyn_dyn_ne _ _ _ _ hk]; rfl
  · generalize b.valve v = t at hf ⊢
    rw [hf]; rfl

/-- R15, R127: the switch reaches the ground, and with it the strip of its endpoint alone. -/
theorem effectiveSwitch_answers (dt ep : Nat) (s : State) (v : Effect) (rest : List Effect)
    (h : takeEffect ep (min (s.elapse dt).now (s.elapse dt).pse.cur.tick) (s.elapse dt).gle.effQ = some (v, rest)) :
    let u := s.elapse dt
    ∃ t : State, exec (.effectiveSwitch dt ep) s = .next t ∧ t.gle.effQ = rest ∧
      (t.dyn v.ep).effOn = (if v.rateOnly then (u.dyn v.ep).effOn else v.on) ∧
      (v.rateOnly = false → v.on = true → (u.dyn v.ep).effOn = false → (t.dyn v.ep).effSec = (u.entry v.ep).section_) ∧
      (t.dyn v.ep).heldOn = (u.dyn v.ep).heldOn ∧ (∀ k, k ≠ v.ep → t.dyn k = u.dyn k) ∧
      (v.rateOnly = false → v.on = false → t.strip v.ep = none) ∧ (∀ k, k ≠ v.ep → t.strip k = u.strip k) ∧
      (v.rateOnly = true → t.gle.sections = u.gle.sections ∧ t.gle.dyn = u.gle.dyn ∧ (u.strip v.ep = none → t.mpg = u.mpg)) ∧
      (v.rateOnly = false → v.on = true → u.strip v.ep = none → u.coverageLayer v.ep = none → t.mpg = u.mpg) ∧
      (v.rateOnly = false → v.on = true → u.strip v.ep = none → u.validAt v.tick = false →
        (∀ q ∈ u.epochs, v.tick < q.tick → q.valid = false) → ∀ l, u.coverageLayer v.ep = some l →
        t.strip v.ep = some { layer := l, waiting := true, rate := v.rate }) ∧
      t = { u with gle := t.gle, mpg := t.mpg, gnb := t.gnb, dlk := t.dlk, hre := t.hre, icu := t.icu, out := t.out } := by
  intro u
  set b : State := u.onGle fun g => { g with effQ := rest }
  have hw : (b.switchDyn v).GroundWork v.ep (b.groundSwitch v).armCheck :=
    (State.groundSwitch_groundWork b v).trans (State.armCheck_groundWork _ _)
  have hd : (b.groundSwitch v).armCheck.dyn v.ep = (u.dyn v.ep).switched v (u.entry v.ep).section_ := by
    rw [hw.dyn, State.switchDyn_dyn]; rfl
  refine ⟨(b.groundSwitch v).armCheck, exec_effectiveSwitch h, ?_, ?_, fun h1 h2 h3 => ?_, ?_, fun k hk => ?_, fun h1 h2 => ?_,
    fun k hk => ?_, fun h1 => ?_, fun h1 h2 h3 h4 => ?_, fun h1 h2 h3 h4 h5 l hl => ?_, ?_⟩
  · rw [hw.effQ, State.switchDyn_frame]; rfl
  · rw [hd, EpDyn.switched_effOn]
  · rw [hd, EpDyn.switched_effSec h1 h2 h3]
  · rw [hd, EpDyn.switched_heldOn]
  · rw [hw.dyn, State.switchDyn_dyn_ne _ hk]; rfl
  · rw [State.armCheck_strip]
    unfold State.groundSwitch
    simp only [h1, h2, Bool.false_eq_true, if_false]
    exact State.effectiveOff_strip b v
  · rw [hw.others k hk, State.switchDyn_frame]; rfl
  · have hg : b.groundSwitch v = b.effectiveRate v := by unfold State.groundSwitch; simp [h1]
    have hf := (State.effectiveRate_stripWork b v).frame
    rw [hg, State.armCheck_frame]
    refine ⟨?_, ?_, fun hn => ?_⟩
    · show (b.effectiveRate v).gle.sections = _
      rw [hf]; rfl
    · show (b.effectiveRate v).gle.dyn = _
      rw [hf]; rfl
    · show (b.effectiveRate v).mpg = _
      rw [State.effectiveRate_noStrip b hn]; rfl
  · have hm := State.effectiveOn_mpg b (v := v) h3
    have hl : b.coverageLayer v.ep = none := h4
    rw [hl] at hm
    rw [State.armCheck_mpg]
    unfold State.groundSwitch
    simp only [h1, h2, if_true, Bool.false_eq_true, if_false]
    exact hm
  · have hm := State.effectiveOn_mpg b (v := v) h3
    have hl : b.coverageLayer v.ep = some l := hl
    rw [hl] at hm
    rw [State.armCheck_strip]
    unfold State.groundSwitch
    simp only [h1, h2, if_true, Bool.false_eq_true, if_false]
    unfold State.strip
    rw [hm]
    exact State.openStrip_strip_waiting (b.onDyn v.ep _) h4 h5
  · have hf := hw.frame
    rw [State.switchDyn_frame] at hf
    generalize (b.groundSwitch v).armCheck = t at hf ⊢
    rw [hf]; rfl

/-- R127: the strip is cut at SEG_MAX_MS and goes on from there. -/
theorem segmentMaxExpiry_answers (dt ep : Nat) (s : State) (p : Strip) :
    let u := s.elapse dt
    let k := p.startTick + u.mpg.segMax * 200000
    u.isReady 5 = true → u.strip ep = some p → p.waiting = false → 0 < u.mpg.segMax → k ≤ u.pse.cur.tick →
    ∃ t : State, exec (.segmentMaxExpiry dt ep) s = .next t ∧
      (∃ q : Strip, t.strip ep = some q ∧ q.startTick = k ∧ q.first = false ∧ q.layer = p.layer ∧ q.rate = p.rate) ∧
      t.mpg.covSeq = u.mpg.covSeq + 1 ∧ (∀ j, j ≠ ep → t.strip j = u.strip j) ∧
      t = { u with mpg := t.mpg, dlk := t.dlk, hre := t.hre, icu := t.icu, out := t.out } := by
  intro u k hr hp hw hm hk
  have hne : p.startTick ≠ k := by show p.startTick ≠ p.startTick + u.mpg.segMax * 200000; omega
  have hs := State.cutStrip_stripWork u ep p k (u.centreAt ep k).1 (u.centreAt ep k).2
  refine ⟨_, exec_segmentMaxExpiry hr hp hw hk, ⟨_, State.cutStrip_strip .., ?_⟩, ?_, hs.others, hs.frame⟩
  · unfold Strip.next
    rw [if_neg hne]
    exact ⟨rfl, rfl, rfl, rfl⟩
  · exact State.cutStrip_covSeq u _ _ hne

/-- R107: on its grid the pulse closes, opens or stays. -/
theorem pwmGridEdge_answers (dt n : Nat) (s : State) :
    let u := s.elapse dt
    let ep := localBase + n
    let d := u.dyn ep
    d.pwmRun = true → (u.product (u.entry ep).product).pwmPeriod ≠ 0 →
    ∃ t : State, exec (.pwmGridEdge dt n) s = .next t ∧
      (d.pwmOpen = true → d.pwmDuty ≠ 1000 → u.gridCloses n = true → (t.dyn ep).pwmOpen = false) ∧
      (d.pwmOpen = true → d.pwmDuty ≠ 1000 → u.gridCloses n = false → t = u) ∧
      (d.pwmOpen = false → u.gridOpens n = true →
        (t.dyn ep).pwmOpen = (d.duty != 0) ∧ (t.dyn ep).pwmDuty = d.duty ∧
          (t.dyn ep).pwmOpenTick = gridLast (u.gridPeriod n) (u.gridOffset n) u.now) ∧
      (d.pwmOpen = false → u.gridOpens n = false → t = u) ∧
      ((t.dyn ep).pwmOpen ≠ d.pwmOpen → (u.chan n).carried = false → u.localPath n = true →
        Tbl.get false u.lsb.reversed (u.bankOf n) = false → (t.chan n).out = (t.dyn ep).pwmOpen) ∧
      (t.dyn ep).heldOn = d.heldOn ∧ (∀ k, k ≠ ep → t.dyn k = u.dyn k) ∧ (∀ k, k ≠ n → t.chan k = u.chan k) ∧
      t = { u with gle := { u.gle with dyn := t.gle.dyn }, lsb := { u.lsb with chans := t.lsb.chans } } := by
  intro u ep d hr hp
  have hw := State.gridEdge_gridWork u n
  refine ⟨u.gridEdge n, exec_pwmGridEdge hr hp, fun ho hd hg => ?_, fun ho hd hg => ?_, fun ho hg => ?_, fun ho hg => ?_,
    fun hne hc hp hv => State.gridEdge_out hr hne hc hp hv, by rw [hw.pulse], hw.dyns, hw.chans, hw.frame⟩
  · rw [State.gridEdge_of_open ho hd, if_pos hg, State.pulseEdge_dyn, State.onDyn_dyn]; rfl
  · rw [State.gridEdge_of_open ho hd, if_neg (by simp [hg])]
  · rw [State.gridEdge_of_closed ho, if_pos hg, State.pulseEdge_dyn, State.onDyn_dyn]
    exact ⟨rfl, rfl, rfl⟩
  · rw [State.gridEdge_of_closed ho, if_neg (by simp [hg])]

/-- R20, R102-R104: the probe moves to its next sample, or, where R20 does not hold, the endpoint closes. -/
theorem probeEvaluation_answers (dt ep : Nat) (s : State) (p : Probe) :
    let u := s.elapse dt
    let d := u.dyn ep
    u.probeDue ep = true → u.served ep = true → d.probe = some p → p.held = none → d.staged = none → d.stagedDelays = none → d.onEv = none →
    d.offEv = none → (u.delayCal (2 * ep)).staged = none → (u.delayCal (2 * ep + 1)).staged = none → u.gle.poseOk = false →
    (d.heldOn = false →
      ∃ (t : State) (q : Probe), exec (.probeEvaluation dt ep) s = .next t ∧ (t.dyn ep).probe = some q ∧ q.held = none ∧
        q.next = (p.next + max 1 (u.spacing ep 1) + 1999) / 2000 * 2000 ∧
        q.due = q.next - (u.leadOf ep + u.spacing ep u.gle.probeSteps) ∧
        (∃ r : TestRes, q.last = some (p.next, r) ∧ r.on = false) ∧ t.dyn ep = { d with probe := some q } ∧
        (∀ k, k ≠ ep → t.dyn k = u.dyn k)) ∧
    (d.heldOn = true → (∀ s0 r0, p.last = some (s0, r0) → r0.on = true) → (u.entry ep).feeder = false →
      u.feedersOf (u.entry ep).section_ = [] → u.escOverflow < 16384 →
      ∃ t : State, exec (.probeEvaluation dt ep) s = .next t ∧ t.Closes ep (u.earliest ep)) := by
  intro u d hdue hserved hprobe hheld hst hsd hon hoff h0 h1 hpose
  have hi : d.idle = true := by unfold EpDyn.idle; simp [hon, hoff]
  have hev : u.countEval.evaluate ep = u.countEval.evalSample ep p.next p.last :=
    State.evaluate_idle hprobe hheld hst hsd hon hoff h0 h1
  have hx := exec_probeEvaluation (s := s) (dt := dt) hdue hserved
  have hx : exec (.probeEvaluation dt ep) s = .next (u.countEval.evalSample ep p.next p.last).refreshLoad := by rw [hx, ← hev]
  refine ⟨fun hh => ?_, fun hh hl hfeed hno hover => ?_⟩
  · obtain ⟨r, hr, he⟩ := State.evalSample_stays (s := u.countEval) (ep := ep) (sk := p.next) (last := p.last) hpose hi hh
    rw [he] at hx
    have hd : ∀ k, (u.countEval.advanceProbe ep p.next r).refreshLoad.dyn k = (u.countEval.advanceProbe ep p.next r).dyn k :=
      (State.refreshLoad_loadWork _).dyn
    have hq := State.advanceProbe_dyn (s := u.countEval) (sk := p.next) (r := r) hprobe
    refine ⟨_, u.probeAfter ep p.next r p, hx, ?_, hheld, rfl, rfl, ⟨r, rfl, hr⟩, ?_, fun k hk => ?_⟩
    · rw [hd, hq]; rfl
    · rw [hd, hq]; rfl
    · rw [hd, State.advanceProbe_dyn_ne hk]; rfl
  · have hc := State.evalSample_closes (s := u.countEval) (ep := ep) (sk := p.next) hpose hl hi hh hover hfeed hno
    have hd := (State.refreshLoad_loadWork (u.countEval.evalSample ep p.next p.last)).dyn ep
    exact ⟨_, hx, hc.congr (by rw [hd]) (by rw [hd]) (by rw [hd])⟩

/-- Settles O45, form by form: valve effect, effective switch, SEG_MAX_MS, PWM grid edge and probe evaluation. -/
theorem effectsAndProbesRun : Obligations.EffectsAndProbesRun := by
  unfold Obligations.EffectsAndProbesRun
  refine ⟨valveEffect_answers, effectiveSwitch_answers, segmentMaxExpiry_answers, pwmGridEdge_answers, ?_⟩
  intro dt ep s p u d hdue hserved hprobe hheld hst hsd hon hoff h0 h1 hpose
  obtain ⟨hstays, hcloses⟩ := probeEvaluation_answers dt ep s p hdue hserved hprobe hheld hst hsd hon hoff h0 h1 hpose
  refine ⟨hstays, fun hh hl hfeed hno hover => ?_⟩
  obtain ⟨t, hx, e, hc⟩ := hcloses hh hl hfeed hno hover
  exact ⟨t, e, hx, hc⟩

end Sys2Proof.Machine

namespace Sys2Proof.Machine

variable (s : State)

/-! ### What scheduling events may change -/

/-- A change of the escapement's events and of what they count, which leaves R20 where it stands. -/
structure State.Schedules (s t : State) : Prop where
  frame : t = { s with gle := t.gle, esc := t.esc, icu := t.icu }
  poseOk : t.gle.poseOk = s.gle.poseOk
  poseLimit : t.gle.poseLimit = s.gle.poseLimit

theorem State.Schedules.refl : s.Schedules s := ⟨rfl, rfl, rfl⟩

theorem State.Schedules.trans {a b c : State} (h : a.Schedules b) (g : b.Schedules c) : a.Schedules c :=
  ⟨by rw [g.frame, h.frame], g.poseOk.trans h.poseOk, g.poseLimit.trans h.poseLimit⟩

theorem State.DemandWork.schedules {s t : State} (h : s.DemandWork t) : s.Schedules t := by
  rw [h]; exact ⟨rfl, rfl, rfl⟩

theorem State.onDyn_schedules (k : Nat) (f : EpDyn → EpDyn) : s.Schedules (s.onDyn k f) := ⟨rfl, rfl, rfl⟩
theorem State.onSection_schedules (k : Nat) (f : Section → Section) : s.Schedules (s.onSection k f) := ⟨rfl, rfl, rfl⟩
theorem State.gleFault_schedules (bit src : Nat) : s.Schedules (s.gleFault bit src) := (State.gleFault_demandWork ..).schedules

theorem State.onEsc_schedules (f : Esc → Esc) : s.Schedules (s.onEsc f) := ⟨rfl, rfl, rfl⟩

theorem State.raise_schedules (n : Nat) : s.Schedules (s.raise n) := by
  rw [State.raise_frame]; exact ⟨rfl, rfl, rfl⟩

theorem State.noteLate_schedules (ep late : Nat) : s.Schedules (s.noteLate ep late) :=
  .trans (b := s.onGle fun g =>
      { g with lateCount := count32 g.lateCount, lateMax := min 0xFFFFFFFF (max g.lateMax (late / usTicks)) }) ⟨rfl, rfl, rfl⟩ <|
    (State.gleFault_schedules ..).trans (State.onSection_schedules ..)

theorem State.countIns_schedules (r : Ins) : s.Schedules (s.countIns r) := by
  cases r with
  | stored => exact .refl s
  | ignored => exact .refl s
  | cancelled => exact ⟨rfl, rfl, rfl⟩
  | full =>
    exact .trans (b := s.onGle fun g => { g with pendingFullCount := count32 g.pendingFullCount }) ⟨rfl, rfl, rfl⟩
      (State.gleFault_schedules ..)
  | far => exact (State.onEsc_schedules ..).trans (State.raise_schedules ..)

theorem State.insertRaw_schedules (ep : Nat) (retime : Bool) (e : PEvent) : s.Schedules (s.insertRaw ep retime e).2 :=
  (State.onDyn_schedules ..).trans (State.countIns_schedules ..)

theorem State.shiftOn_schedules (m delta : Nat) : s.Schedules (s.shiftOn m delta) := by
  unfold State.shiftOn
  split
  · split
    · exact .refl s
    · exact (State.onDyn_schedules ..).trans (State.noteLate_schedules ..)
  · exact .refl s

theorem State.shiftMembers_schedules (ep delta : Nat) : s.Schedules (s.shiftMembers ep delta) := by
  unfold State.shiftMembers
  split
  · exact .refl s
  · exact (State.noteLate_schedules ..).trans (foldl_related _ .refl .trans (fun s m => State.shiftOn_schedules s m delta) _)

theorem State.cancelOff_schedules (f : Nat) : s.Schedules (s.cancelOff f) := State.onDyn_schedules ..

theorem State.feed_schedules (f : Nat) (e : PEvent) (r : Ins × State) : r.2.Schedules (State.feed f e r).2 := by
  unfold State.feed
  dsimp only
  split <;> exact State.insertRaw_schedules ..

theorem State.openFeeder_schedules (ep tick f : Nat) (r : Ins × State) : r.2.Schedules (State.openFeeder ep tick f r).2 :=
  State.feed_schedules ..

theorem State.closeFeeder_schedules (ep f : Nat) (r : Ins × State) : r.2.Schedules (State.closeFeeder ep f r).2 := by
  unfold State.closeFeeder
  dsimp only
  split
  · split
    · exact State.feed_schedules ..
    · exact .refl _
  · split
    · exact (State.onDyn_schedules ..).trans (State.cancelOff_schedules ..)
    · split
      · exact State.feed_schedules ..
      · exact .refl _

theorem State.closeFeeders_schedules (ep : Nat) (r : Ins × State) : r.2.Schedules (State.closeFeeders ep r).2 :=
  foldl_related_snd .refl .trans (fun r f => State.closeFeeder_schedules ep f r) _ r

theorem State.openFeeders_schedules (ep tick : Nat) (r : Ins × State) : r.2.Schedules (State.openFeeders ep tick r).2 := by
  unfold State.openFeeders
  dsimp only
  exact (foldl_related _ .refl .trans State.cancelOff_schedules _).trans
    (foldl_related_snd .refl .trans (fun r f => State.openFeeder_schedules ep tick f r) _ (_, _))

theorem State.afterCancel_schedules (ep tick : Nat) : s.Schedules (s.afterCancel ep tick) := by
  unfold State.afterCancel
  split
  · exact .refl s
  · split
    · exact State.openFeeders_schedules ep tick (.cancelled, s)
    · exact State.closeFeeders_schedules ep (.cancelled, s)

theorem State.orRefuse_schedules {e : PEvent} {before : State} {r : Ins × State} (h : before.Schedules r.2) :
    before.Schedules (State.orRefuse e before r).2 := by
  unfold State.orRefuse
  split
  · exact h
  · split
    · exact State.countIns_schedules before .full
    · exact State.countIns_schedules before .far
    · exact h

theorem State.openWith_schedules (ep : Nat) (retime : Bool) (e : PEvent) : s.Schedules (s.openWith ep retime e).2 := by
  unfold State.openWith
  extract_lets moves need delta q t
  have h : s.Schedules q.2 := (State.shiftMembers_schedules s ep delta).trans (State.insertRaw_schedules ..)
  split
  · refine State.orRefuse_schedules ?_
    split
    · exact h.trans (foldl_related_snd .refl .trans (fun r f => State.openFeeder_schedules ep _ f r) _ _)
    · exact h.trans (State.openFeeders_schedules ..)
  · exact (State.insertRaw_schedules ..).trans (State.afterCancel_schedules ..)
  · exact State.insertRaw_schedules ..

theorem State.closeWith_schedules (ep : Nat) (retime : Bool) (e : PEvent) : s.Schedules (s.closeWith ep retime e).2 := by
  unfold State.closeWith
  dsimp only
  have h := State.insertRaw_schedules s ep retime e
  split
  · split
    · exact State.orRefuse_schedules (h.trans (State.closeFeeders_schedules ..))
    · exact h
  · exact h.trans (State.afterCancel_schedules ..)
  · exact h

theorem State.insert_schedules (ep : Nat) (retime : Bool) (e : PEvent) : s.Schedules (s.insert ep retime e).2 := by
  unfold State.insert
  dsimp only
  split
  · exact State.insertRaw_schedules ..
  · split
    · split
      · exact State.insertRaw_schedules ..
      · exact State.openWith_schedules ..
    · exact State.closeWith_schedules ..

theorem State.shut_schedules (ep : Nat) : s.Schedules (s.shut ep) := by
  unfold State.shut
  extract_lets t d v
  have hv : t.Schedules v := by
    unfold v
    split
    · exact State.insert_schedules ..
    · exact .refl t
  exact (State.onDyn_schedules ..).trans (hv.trans (State.onDyn_schedules ..))

theorem State.closeAll_schedules : s.Schedules s.closeAll.2 :=
  foldl_related s .refl .trans (fun s ep => (State.shut_schedules s ep).trans (State.onDyn_schedules ..)) _

theorem State.startProbe_schedules (ep : Nat) : s.Schedules (s.startProbe ep) := State.onDyn_schedules ..

theorem State.retimeOne_schedules (ep : Nat) (ev : Option PEvent) : s.Schedules (s.retimeOne ep ev) := by
  unfold State.retimeOne
  split
  · split
    · exact .refl s
    · dsimp only
      split
      · exact .refl s
      · split
        · exact (State.insert_schedules ..).trans (State.noteLate_schedules ..)
        · exact State.insert_schedules ..
  · exact .refl s

theorem State.retimeAll_schedules (ep : Nat) : s.Schedules (s.retimeAll ep) := by
  unfold State.retimeAll
  extract_lets d one
  have h (on : Bool) (s : State) : s.Schedules (one on s) := State.retimeOne_schedules ..
  split
  · extract_lets firstOn f
    split <;> exact (h _ s).trans (h ..)
  · exact h ..
  · exact h ..
  · exact .refl s

end Sys2Proof.Machine

namespace Sys2Proof.Machine

variable (s : State)

/-! ### A pose epoch in MPG (R126, R127) -/

theorem State.Reports.mapWork {s t : State} (h : s.Reports t) : s.MapWork t := h.shares.frame

theorem State.cutLayer_mapWork (l : Nat) (q : PoseState) (w : Word) : s.MapWork (s.cutLayer l q w) := by
  refine foldl_related s State.MapWork.refl .trans (fun s ep => ?_) _
  split
  · split
    · exact (State.passCut_stripWork ..).frame
    · exact .refl s
  · exact .refl s

theorem State.advancePass_mapWork (q : PoseState) (valid : Bool) (l : Nat) : s.MapWork (s.advancePass q valid l) :=
  (State.cutLayer_mapWork ..).trans <| (State.onLayer_rasters ..).shares.frame.trans (State.raise_reports _).mapWork

theorem State.mapEpoch_mapWork (q : PoseState) (valid : Bool) : s.MapWork (s.mapEpoch q valid) := by
  unfold State.mapEpoch
  extract_lets s1 asked waits s2
  have h1 : s.MapWork s1 := by
    refine foldl_related s State.MapWork.refl .trans (fun s ep => ?_) _
    split
    · exact .refl s
    · exact (State.stripEpoch_stripWork ..).frame
  have h2 : s1.MapWork s2 := by
    refine foldl_related s1 State.MapWork.refl .trans (fun s l => ?_) _
    dsimp only
    split
    · exact State.advancePass_mapWork ..
    · split
      · exact (State.onLayer_rasters ..).shares.frame
      · exact .refl s
  exact h1.trans <| h2.trans <| .trans (b := s2.onMpg fun m => { m with passWaits := [] }) rfl <|
    foldl_related _ State.MapWork.refl .trans (fun s w => (State.finishAt_reports ..).mapWork) waits

/-! ### Descriptors that end together -/

theorem State.finishAll_reports (status detail : Nat) (ws : List (Nat × Word)) : s.Reports (s.finishAll status detail ws) := by
  induction ws generalizing s with
  | nil => exact State.Reports.refl
  | cons w ws ih => exact (State.finishAt_reports ..).trans (ih _)

/-! ### The pose that is published (R172-R174) -/

theorem State.sendFrame_pse (f : Frame) : (s.sendFrame f).pse = s.pse := rfl

theorem State.sendTeb_pse (type : Nat) (body : List Fld) (records : List (List Fld)) :
    (s.sendTeb type body records).pse = s.pse := by
  unfold State.sendTeb
  dsimp only
  split
  · split <;> split <;> rfl
  · rfl

theorem State.raise_pse (n : Nat) : (s.raise n).pse = s.pse := by rw [State.raise_frame]

theorem State.report_pse (op flags tick : Nat) (p : List Fld) : (s.report op flags tick p).pse = s.pse := by
  rw [State.report_frame]

/-- PSE once it has published the pose of a tick: what it had shown goes to the history, and nothing else of what it keeps of
the past changes. -/
structure Pse.Published (tick : Nat) (p q : Pse) : Prop where
  cur : q.cur.tick = tick
  epochTick : q.epochTick = some tick
  epoch : q.epoch = BitVec.ofNat 32 (tick / 1000000)
  hist : q.hist = if p.epochTick.isSome then (p.cur :: p.hist).take 64 else p.hist
  model : q.model = p.model
  modelWaits : q.modelWaits = p.modelWaits
  resetFlag : q.resetFlag = false

theorem State.publish_published (f : Filter) : s.pse.Published f.pose.tick (s.publish f).pse := by
  unfold State.publish
  extract_lets q valid old last shown pq s1 s2 s3
  have h1 : s.pse.Published f.pose.tick s1.pse := ⟨rfl, rfl, rfl, rfl, rfl, rfl, rfl⟩
  have h2 : s2.pse = s1.pse := by
    refine foldl_related (R := fun a b => b.pse = a.pse) s1 (fun _ => rfl) (fun h g => g.trans h) (fun s c => ?_) _
    split
    · rfl
    · exact State.raise_pse ..
  have h3 : s3.pse = s2.pse := by
    unfold s3
    rw [State.raise_pse, State.report_pse]
  have h4 : s3.pse = s1.pse := h3.trans h2
  split
  · rw [State.sendTeb_pse, h4]; exact h1
  · rw [h4]; exact h1

/-- A prediction to a tick stands at it or beyond. -/
theorem Pse.le_predict (p : Pse) (f : Filter) (tick : Nat) : tick ≤ (p.predict f tick).pose.tick := by
  unfold Pse.predict
  split
  · assumption
  · dsimp only
    split
    · exact Nat.le_refl _
    · split
      · split <;> exact Nat.le_refl _
      · exact Nat.le_refl _

theorem Pse.le_run (p : Pse) (ms : List PFix) (f : Filter) (tick : Nat) : tick ≤ (p.run ms f tick).pose.tick :=
  Pse.le_predict ..

end Sys2Proof.Machine

namespace Sys2Proof.Machine

variable (s : State)

/-! ### What the fusion of a measurement may change (R155, R167, R171) -/

/-- What PSE keeps of measurements and sources changes, with what is raised, recorded and reported; the published poses, the
model and what waits for an epoch do not. -/
def State.Fuses (s t : State) : Prop :=
  t = { s with pse := { s.pse with filters := t.pse.filters, fixes := t.pse.fixes, srcs := t.pse.srcs, fault := t.pse.fault,
                                   rejectCount := t.pse.rejectCount, resetFlag := t.pse.resetFlag },
               icu := t.icu, evr := t.evr, nv := t.nv, hre := t.hre, out := t.out }

theorem State.Fuses.refl : s.Fuses s := rfl

theorem State.Fuses.trans {a b c : State} (h : a.Fuses b) (g : b.Fuses c) : a.Fuses c := by
  unfold State.Fuses at *; rw [g, h]

theorem State.Records.fuses {s t : State} (h : s.Records t) : s.Fuses t := by
  unfold State.Records at h
  rw [h]; rfl

theorem State.Reports.fuses {s t : State} (h : s.Reports t) : s.Fuses t := h.records.fuses

theorem State.onPsrc_fuses (k : Nat) (f : PSource → PSource) : s.Fuses (s.onPsrc k f) := rfl
theorem State.countReject_fuses (k : Nat) : s.Fuses (s.countReject k) := rfl
theorem State.addFix_fuses (m : PFix) : s.Fuses (s.onPse fun p => p.addFix m) := rfl
theorem State.reinitFix_fuses (m : PFix) : s.Fuses (s.onPse fun p => { (p.addFix m) with resetFlag := true }) := rfl

theorem State.pseFault_fuses (bit src : Nat) : s.Fuses (s.pseFault bit src) :=
  .trans (b := s.onPse fun p => { p with fault := setFlag p.fault s.cycle bit }) rfl (State.raise_reports _).fuses

theorem State.reinit_fuses (ks : List Nat) (isPos : Bool) : s.Fuses (s.reinit ks isPos) := by
  unfold State.reinit
  split
  · exact .refl s
  · next k _ =>
    extract_lets c oldest tick pose q a m t v
    have hv : t.Fuses v := foldl_related t State.Fuses.refl .trans (fun s j => State.onPsrc_fuses ..) _
    exact (State.reinitFix_fuses s m).trans <| hv.trans <| (State.pseFault_fuses ..).trans
      (State.Reports.fuses (State.faultReport_frame ..))

theorem State.checkRun_fuses (src : Nat) : s.Fuses (s.checkRun src) := by
  unfold State.checkRun
  extract_lets c ks
  split
  · exact .refl s
  · split
    · exact (State.onPsrc_fuses ..).trans <| (State.pseFault_fuses ..).trans (State.record_records ..).fuses
    · split
      · exact .refl s
      · split
        · exact State.reinit_fuses ..
        · exact .refl s

theorem State.noteTook_fuses (tick : Nat) (t : Took) : s.Fuses (s.noteTook tick t) := by
  unfold State.noteTook
  split
  · exact (State.countReject_fuses ..).trans (State.pseFault_fuses ..)
  · split
    · exact State.onPsrc_fuses ..
    · exact (State.countReject_fuses ..).trans <| (State.pseFault_fuses ..).trans <| (State.onPsrc_fuses ..).trans
        (State.checkRun_fuses ..)

theorem State.noteSkipped_fuses (tick src : Nat) : s.Fuses (s.noteSkipped tick src) :=
  (State.countReject_fuses ..).trans (State.onPsrc_fuses ..)

theorem State.countRejects_fuses (ks : List Nat) : s.Fuses (ks.foldl (fun s k => s.countReject k) s) :=
  foldl_related s State.Fuses.refl .trans State.countReject_fuses ks

theorem State.takeFix_fuses (m : PFix) : s.Fuses (s.takeFix m).2 := by
  unfold State.takeFix
  split
  · exact (State.countRejects_fuses ..).trans (State.pseFault_fuses ..)
  · exact (State.addFix_fuses ..).trans <|
      (foldl_related _ State.Fuses.refl .trans (fun s => State.noteSkipped_fuses s _) _).trans
        (foldl_related _ State.Fuses.refl .trans (fun s => State.noteTook_fuses s _) _)

theorem State.takeSpeed_fuses (e k : Nat) : s.Fuses (State.takeSpeed e s k) := by
  unfold State.takeSpeed
  split
  · exact State.takeFix_fuses ..
  · exact .refl s

/-! ### R20 (R20, R21) -/

/-- What R20 is judged by stays as it is, and so does how it stands. -/
structure State.PoseKept (s t : State) : Prop where
  pse : t.pse = s.pse
  prs : t.prs = s.prs
  poseOk : t.gle.poseOk = s.gle.poseOk
  poseLimit : t.gle.poseLimit = s.gle.poseLimit

theorem State.PoseKept.trans {a b c : State} (h : a.PoseKept b) (g : b.PoseKept c) : a.PoseKept c :=
  ⟨g.pse.trans h.pse, g.prs.trans h.prs, g.poseOk.trans h.poseOk, g.poseLimit.trans h.poseLimit⟩

theorem State.Schedules.poseKept {s t : State} (h : s.Schedules t) : s.PoseKept t :=
  ⟨by rw [h.frame], by rw [h.frame], h.poseOk, h.poseLimit⟩

theorem State.Reports.poseKept {s t : State} (h : s.Reports t) : s.PoseKept t := by
  unfold State.Reports at h
  rw [h]; exact ⟨rfl, rfl, rfl, rfl⟩

theorem State.LoadWork.poseKept {s t : State} (h : s.LoadWork t) : s.PoseKept t := by
  rw [h]; exact ⟨rfl, rfl, rfl, rfl⟩

theorem State.armCheck_poseKept : s.PoseKept s.armCheck := by
  rw [State.armCheck_frame]; exact ⟨rfl, rfl, rfl, rfl⟩

/-- GLE's view of R20 is up to date. -/
def State.PoseSettled (s : State) : Prop := s.gle.poseOk = s.r20

theorem State.PoseKept.settled {s t : State} (h : s.PoseKept t) (hs : s.PoseSettled) : t.PoseSettled := by
  have hr : t.r20 = s.r20 := by
    unfold State.r20 State.isReady State.posUnc
    rw [h.pse, h.prs, h.poseLimit]
  unfold State.PoseSettled
  rw [h.poseOk, hr]; exact hs

theorem State.startProbes_poseKept : s.PoseKept s.startProbes :=
  (foldl_related s State.Schedules.refl .trans State.startProbe_schedules _).poseKept.trans
    (State.refreshLoad_loadWork _).poseKept

/-- R20 as it now holds, with the source that says so. -/
def State.setPose (ok : Bool) (s : State) : State := (s.onGle fun g => { g with poseOk := ok }).raise 69

theorem State.setPose_pse (ok : Bool) : (s.setPose ok).pse = s.pse := by
  unfold State.setPose
  rw [State.raise_frame]; rfl

theorem State.setPose_settled : (s.setPose s.r20).PoseSettled := by
  unfold State.setPose
  rw [State.raise_frame]; rfl

/-- What follows R20's change leaves it as it stands. -/
theorem State.poseCheck_cases : s.poseCheck = s ∧ s.PoseSettled ∨ (s.setPose s.r20).PoseKept s.poseCheck := by
  unfold State.poseCheck
  extract_lets ok s1 s2 r
  split
  · next h => exact .inl ⟨rfl, h.symm⟩
  · split
    · next h =>
      have h1 : s.setPose s.r20 = s1 := by unfold State.setPose; rw [show s.r20 = true from h]
      rw [h1]
      split
      · exact .inr (State.startProbes_poseKept _)
      · exact .inr (State.Reports.refl).poseKept
    · next h =>
      have h2 : s.setPose s.r20 = s2 := by
        unfold State.setPose
        rw [show s.r20 = false from by simpa using h]
      rw [h2]
      exact .inr <| (State.closeAll_schedules _).poseKept.trans <| (State.gleFault_schedules ..).poseKept.trans
        (State.Reports.poseKept (State.faultReport_frame ..))

theorem State.poseCheck_settled : s.poseCheck.PoseSettled := by
  rcases State.poseCheck_cases s with ⟨h, hs⟩ | h
  · rw [h]; exact hs
  · exact h.settled (State.setPose_settled s)

theorem State.poseCheck_pse : s.poseCheck.pse = s.pse := by
  rcases State.poseCheck_cases s with ⟨h, -⟩ | h
  · rw [h]
  · exact h.pse.trans (State.setPose_pse ..)

end Sys2Proof.Machine

namespace Sys2Proof.Machine

variable (s : State)

/-! ### Repeaters and the pose (R273) -/

theorem State.repFault_pse (r : Nat) : (s.repFault r).pse = s.pse := State.raise_pse _ _

theorem State.repResume_pse (r : Nat) : (s.repResume r).pse = s.pse := by
  unfold State.repResume
  dsimp only
  split <;> rfl

theorem State.repRate_pse (r rate : Nat) : (s.repRate r rate).pse = s.pse := by
  unfold State.repRate
  split
  · exact State.repFault_pse ..
  · rfl

theorem State.repIntegrate_pse : s.repIntegrate.pse = s.pse := by
  refine foldl_related (R := fun a b => b.pse = a.pse) s (fun _ => rfl) (fun h g => g.trans h) (fun s r => ?_) _
  dsimp only
  split
  · split
    · exact State.repResume_pse ..
    · rw [State.repRate_pse]
      exact State.repResume_pse ..
  · rfl

/-! ### Demand up to the end of a command -/

theorem State.DemandFresh.congr {s t : State} (h : s.DemandFresh) (hd : t.gle.demand = s.gle.demand)
    (ho : ∀ p, t.demandOf p = s.demandOf p) : t.DemandFresh := by
  intro p h1 h2
  rw [hd, ho]; exact h p h1 h2

theorem State.LoadWork.fresh {s t : State} (h : s.LoadWork t) (hs : s.DemandFresh) : t.DemandFresh :=
  hs.congr (by rw [h]) h.demandOf

theorem State.Reports.fresh {s t : State} (h : s.Reports t) (hs : s.DemandFresh) : t.DemandFresh :=
  hs.congr (by rw [h]) fun p => by rw [h]; rfl

theorem State.armCheck_fresh {s : State} (hs : s.DemandFresh) : s.armCheck.DemandFresh := by
  rw [State.armCheck_frame]; exact hs

/-! ### A pose epoch (R154-R174) -/

/-- The end of a pose epoch: R20 is settled, demand brought up to date, and the MODELs that waited complete. -/
def State.epochEnd (ws : List (Nat × Word)) (s : State) : State :=
  State.finishAll stOk 0 ws ((s.poseCheck.refreshDemand).refreshLoad).armCheck

theorem State.epochEnd_poseKept (ws : List (Nat × Word)) : s.poseCheck.PoseKept (s.epochEnd ws) :=
  (State.refreshDemand_demandWork _).schedules.poseKept.trans <| (State.refreshLoad_loadWork _).poseKept.trans <|
    (State.armCheck_poseKept _).trans (State.finishAll_reports ..).poseKept

theorem State.epochEnd_pse (ws : List (Nat × Word)) : (s.epochEnd ws).pse = s.pse :=
  (State.epochEnd_poseKept s ws).pse.trans (State.poseCheck_pse s)

theorem State.epochEnd_settled (ws : List (Nat × Word)) : (s.epochEnd ws).PoseSettled :=
  (State.epochEnd_poseKept s ws).settled (State.poseCheck_settled s)

theorem State.epochEnd_fresh (ws : List (Nat × Word)) : (s.epochEnd ws).DemandFresh :=
  (State.finishAll_reports ..).fresh <| State.armCheck_fresh <|
    (State.refreshLoad_loadWork _).fresh (State.refreshDemand_fresh _)

/-- PSE as a pose epoch finds it once the MODELs that waited are in force (R161). -/
structure Pse.Entered (p q : Pse) : Prop where
  waits : q.modelWaits = []
  kept : p.modelWaits = [] → q.model = p.model ∧ q.cur = p.cur ∧ q.epochTick = p.epochTick
  applied : ∀ w, p.modelWaits.getLast? = some w → q.model = w.model ∧ q.hist = [] ∧ q.epochTick = none

theorem Pse.Entered.fuses {p : Pse} {s t : State} (hp : p.Entered s.pse) (h : s.Fuses t) : p.Entered t.pse := by
  rw [h]
  exact ⟨hp.waits, hp.kept, hp.applied⟩

/-- A pose epoch publishes the pose of its tick under the model then in force, and ends as `epochEnd` says. -/
theorem State.poseEpoch_publishes (e : Nat) : ∃ (x : State) (ws : List (Nat × Word)) (p : Pse) (tick : Nat),
    s.poseEpoch e = x.epochEnd ws ∧ e ≤ tick ∧ s.pse.Entered p ∧ p.Published tick x.pse := by
  unfold State.poseEpoch
  extract_lets waits s1 s2 s3 f fs s4 s5 s6 s7 s8
  have h1 : s1.pse = { s.pse with modelWaits := [] } := by
    show { s.repIntegrate.pse with modelWaits := [] } = _
    rw [State.repIntegrate_pse]
  have h2 : s.pse.Entered s2.pse := by
    unfold s2
    split
    · next w hw =>
      have hs : (s1.applyModel w.model e).pse.modelWaits = s1.pse.modelWaits := rfl
      refine ⟨by rw [hs, h1], fun hn => ?_, fun v hv => ?_⟩
      · have : waits = [] := hn
        rw [this] at hw; cases hw
      · have : some w = some v := hw.symm.trans hv
        cases this
        exact ⟨rfl, rfl, rfl⟩
    · next hw =>
      refine ⟨by rw [h1], fun _ => by rw [h1]; exact ⟨rfl, rfl, rfl⟩, fun v hv => ?_⟩
      have : none = some v := hw.symm.trans hv
      cases this
  have h3 : s2.Fuses s3 := foldl_related s2 State.Fuses.refl .trans (fun s k => State.takeSpeed_fuses s e k) _
  clear_value s3
  have h4 : s.pse.Entered s4.pse := h2.fuses (h3.trans rfl)
  have h5 : s4.pse.Published f.pose.tick s5.pse := State.publish_published s4 f
  have h6 : s6.pse = s5.pse := by
    unfold s6
    split
    · rfl
    · rw [(foldl_related s5 State.Schedules.refl .trans (fun s ep => State.retimeAll_schedules s ep) _).frame]
  have h7 : s7.pse = s6.pse := by
    unfold s7
    split
    · rw [State.mapEpoch_mapWork s6 s6.pse.cur s6.pse.valid]
    · rfl
  exact ⟨s7, _, s4.pse, f.pose.tick, rfl, Pse.le_run .., h4, by rw [h7, h6]; exact h5⟩

theorem exec_poseEpoch {dt : Nat} {s : State} (hr : (s.elapse dt).isReady 4 = true)
    (hk : ∀ k, (s.elapse dt).pse.epochTick = some k → k < (s.elapse dt).now / 1000000 * 1000000) :
    exec (.poseEpoch dt) s = .next ((s.elapse dt).poseEpoch ((s.elapse dt).now / 1000000 * 1000000)) := by
  show execPoseEpoch dt s = _
  unfold execPoseEpoch
  dsimp only
  rw [State.when_pos]
  rw [hr, Bool.true_and]
  split
  · next k h => exact decide_eq_true (hk k h)
  · rfl

end Sys2Proof.Machine

namespace Sys2Proof.Machine

/-! ### What a descriptor of PSE finds once it heads its ring -/

theorem State.settle_pse (u : State) (ring : Nat) : (u.settle ring).pse = u.pse := by rw [State.settle_eq]

theorem State.settle_originFree (u : State) (ring : Nat) : (u.settle ring).originFree = u.originFree := by
  rw [State.settle_eq]; rfl

theorem State.settle_isStale (u : State) (ring tick : Nat) : (u.settle ring).isStale tick = u.isStale tick := by
  rw [State.settle_eq]; rfl

/-! ### Pose epochs (R20, R108, R154, R174) -/

/-- R154, R161, R173, R174: the pose of the epoch, under the model then in force, R20 and demand settled with it. -/
theorem poseEpoch_answers (dt : Nat) (s : State) :
    let u := s.elapse dt
    let e := u.now / 1000000 * 1000000
    u.isReady 4 = true → (∀ k, u.pse.epochTick = some k → k < e) →
    ∃ t : State, exec (.poseEpoch dt) s = .next t ∧ t.pse.epochTick = some t.pse.cur.tick ∧ e ≤ t.pse.cur.tick ∧
      t.pse.epoch = BitVec.ofNat 32 (t.pse.cur.tick / 1000000) ∧ t.pse.modelWaits = [] ∧ t.pse.resetFlag = false ∧
      (u.pse.modelWaits = [] → t.pse.model = u.pse.model ∧ (u.pse.epochTick ≠ none → u.pse.cur ∈ t.pse.hist)) ∧
      (∀ w, u.pse.modelWaits.getLast? = some w → t.pse.model = w.model ∧ t.pse.hist = []) ∧ t.PoseSettled ∧ t.DemandFresh := by
  intro u e hr hk
  obtain ⟨x, ws, p, tick, hx, hle, hent, hpub⟩ := State.poseEpoch_publishes u e
  have hpse : (u.poseEpoch e).pse = x.pse := by rw [hx, State.epochEnd_pse]
  refine ⟨u.poseEpoch e, exec_poseEpoch hr hk, ?_⟩
  rw [hpse, hx]
  refine ⟨by rw [hpub.epochTick, hpub.cur], hpub.cur.symm ▸ hle, by rw [hpub.epoch, hpub.cur], hpub.modelWaits.trans hent.waits,
    hpub.resetFlag, fun hn => ?_, fun w hw => ?_, State.epochEnd_settled x ws, State.epochEnd_fresh x ws⟩
  · obtain ⟨hmodel, hcur, htick⟩ := hent.kept hn
    refine ⟨hpub.model.trans hmodel, fun hne => ?_⟩
    have hsome : p.epochTick.isSome = true := by rw [htick]; exact Option.isSome_iff_ne_none.mpr hne
    rw [hpub.hist, hsome, hcur]
    exact List.mem_cons_self
  · obtain ⟨hmodel, hhist, htick⟩ := hent.applied w hw
    exact ⟨hpub.model.trans hmodel, by rw [hpub.hist, htick, hhist]; rfl⟩

/-! ### The end of an exclusion (R171) -/

theorem exec_exclusionExpiry {dt k j : Nat} {s : State} (h : ((s.elapse dt).psrc j).excludedUntil = some k)
    (hk : k ≤ (s.elapse dt).now) :
    exec (.exclusionExpiry dt j) s = .next ((s.elapse dt).onPsrc j fun c => { c with excludedUntil := none, rejects := 0 }) := by
  show execExclusionExpiry dt j s = _
  unfold execExclusionExpiry
  simp only [h]
  rw [State.when_pos (decide_eq_true hk)]

/-- R171: the source alone is readmitted, its rejections counted afresh. -/
theorem exclusionExpiry_answers (dt k j : Nat) (s : State) :
    let u := s.elapse dt
    (u.psrc j).excludedUntil = some k → k ≤ u.now →
    ∃ t : State, exec (.exclusionExpiry dt j) s = .next t ∧
      t.psrc j = { u.psrc j with excludedUntil := none, rejects := 0 } ∧ (∀ i, i ≠ j → t.psrc i = u.psrc i) ∧
      t = { u with pse := { u.pse with srcs := t.pse.srcs } } := by
  intro u h hk
  exact ⟨_, exec_exclusionExpiry h hk, State.onPsrc_psrc .., fun i hi => State.onPsrc_psrc_ne _ _ _ _ hi, rfl⟩

/-! ### External fixes (R155, R175) -/

/-- The tick of an EXT_FIX: its own, or the present one where it names none. -/
def extFixTick (d : DescBits) (now : Nat) : Nat := if dfield d 16 8 = 0 then now else dfield d 16 8

/-- The outcome codes of an EXT_FIX's three quantities in DETAIL, each as `given` says where its sigma gives it. -/
def extFixDetail (d : DescBits) (given : Nat) : Nat :=
  let c (o : Nat) : Nat := if dfield d o 2 = 0 then 5 else given
  c 44 + 16 * c 46 + 256 * c 48

/-- The code of one quantity, given where its sigma is not 0. -/
theorem code_given {α : Type} {c : Bool → Nat} {given : Nat} (ht : c true = given) (hf : c false = 5) (sigma : Nat) (x : α) :
    c (if sigma = 0 then none else some x).isSome = if sigma = 0 then 5 else given := by
  split
  · exact hf
  · exact ht

/-- A code that depends only on whether its quantity is given fills DETAIL as `extFixDetail` says. -/
theorem extFixDetail_eq (d : DescBits) (tick given : Nat) {c : Bool → Nat} (ht : c true = given) (hf : c false = 5) :
    c (parseExtFix d tick).pos.isSome + 16 * c (parseExtFix d tick).hdg.isSome + 256 * c (parseExtFix d tick).spd.isSome =
      extFixDetail d given := by
  unfold parseExtFix extFixDetail
  dsimp only
  rw [code_given ht hf, code_given ht hf, code_given ht hf]

/-- Rejections that count change PSE_REJECT and nothing else. -/
theorem State.countRejects_onPse (s : State) (ks : List Nat) :
    ∃ r, ks.foldl (fun s k => s.countReject k) s = s.onPse fun p => { p with rejectCount := r } :=
  foldl_related (R := fun a b => ∃ r, b = a.onPse fun p => { p with rejectCount := r }) s (fun s => ⟨s.pse.rejectCount, rfl⟩)
    (fun ⟨_, h⟩ ⟨r, g⟩ => ⟨r, by rw [g, h]; rfl⟩) (fun _ _ => ⟨_, rfl⟩) ks

theorem State.onPse_raise_icu (s : State) (f : Pse → Pse) (n : Nat) : ((s.onPse f).raise n).icu = (s.raise n).icu := by
  have hp : (s.onPse f).powered (srcDomain n) = s.powered (srcDomain n) := rfl
  unfold State.raise
  rw [hp]
  split <;> rfl

theorem State.pseFault_eq (s : State) (bit src : Nat) :
    s.pseFault bit src =
      { s with pse := { s.pse with fault := setFlag s.pse.fault s.cycle bit }, icu := (s.raise src).icu } := by
  unfold State.pseFault
  rw [State.raise_frame, State.onPse_raise_icu]; rfl

/-- A stale fix counts and sets its fault (R155, R177). -/
theorem State.takeFix_stale {s : State} {m : PFix} (h : s.isStale m.tick = true) :
    ∃ r, s.takeFix m = (none, { s with pse := { s.pse with rejectCount := r, fault := setFlag s.pse.fault s.cycle 3 },
                                       icu := (s.raise 135).icu }) := by
  obtain ⟨r, hr⟩ := State.countRejects_onPse s m.sources
  refine ⟨r, ?_⟩
  unfold State.takeFix
  rw [if_pos h, hr, State.pseFault_eq, State.onPse_raise_icu]; rfl

/-- A fix for a vehicle whose model is not in force, which changes nothing. -/
def State.noVehicle (s : State) (m : PFix) : Bool := m.vehicle && (s.pse.dueAt m.tick).vehModel.isNone && !s.isStale m.tick

/-- What a measurement of an EXT_FIX becomes. -/
def State.answerFix (ring : Nat) (m : PFix) (s : State) : State :=
  let c (given : Bool) : Nat := if given then 4 else 5
  let r := s.takeFix m
  if s.noVehicle m then s.finishHead ring stOk (c m.pos.isSome + 16 * c m.hdg.isSome + 256 * c m.spd.isSome) 0
  else r.2.finishHead ring stOk
    (outcomeOf m.pos.isSome 2 r.1 + 16 * outcomeOf m.hdg.isSome 3 r.1 + 256 * outcomeOf m.spd.isSome 4 r.1) 0

theorem exec_extFix {dt ring : Nat} {s : State} {d : Slot} (hd : (s.elapse dt).headRuns ring 0x0C d)
    (hc : checksPass (((s.elapse dt).settle ring).extFixChecks d.desc)) :
    exec (.extFix dt ring) s =
      .next (((s.elapse dt).settle ring).answerFix ring (parseExtFix d.desc (extFixTick d.desc (s.elapse dt).now))) := by
  show execExtFix dt ring s = _
  unfold execExtFix
  rw [State.runDesc_headRuns hd, State.checked_pass hc, State.settle_now]
  rfl

section
variable {s : State} {d : DescBits} {tick : Nat} (ring : Nat)

/-- A stale fix counts and sets its fault (R155, R177). -/
theorem State.answerFix_stale (hs : s.isStale tick = true) :
    ∃ r, s.answerFix ring (parseExtFix d tick) =
      ({ s with pse := { s.pse with rejectCount := r, fault := setFlag s.pse.fault s.cycle 3 },
                icu := (s.raise 135).icu } : State).finishHead ring stOk (extFixDetail d 1) 0 := by
  have hm : s.isStale (parseExtFix d tick).tick = true := hs
  have hno : ¬s.noVehicle (parseExtFix d tick) = true := by simp [State.noVehicle, hm]
  obtain ⟨r, hr⟩ := State.takeFix_stale hm
  refine ⟨r, ?_⟩
  unfold State.answerFix
  dsimp only
  rw [if_neg hno, hr, ← extFixDetail_eq d tick 1 (c := fun given => if given then 1 else 5) rfl rfl]
  rfl

/-- A fix of the vehicle needs a model of it (R175). -/
theorem State.answerFix_noVehicle (hs : s.isStale tick = false) (hv : (dfield d 50 1).testBit 1 = true)
    (hn : (s.pse.dueAt tick).vehModel = none) :
    s.answerFix ring (parseExtFix d tick) = s.finishHead ring stOk (extFixDetail d 4) 0 := by
  have hyes : s.noVehicle (parseExtFix d tick) = true := by
    show ((dfield d 50 1).testBit 1 && (s.pse.dueAt tick).vehModel.isNone && !s.isStale tick) = true
    rw [hs, hv, hn]; rfl
  unfold State.answerFix
  dsimp only
  rw [if_pos hyes, ← extFixDetail_eq d tick 4 (c := fun given => if given then 4 else 5) rfl rfl]

/-- Whatever becomes of it, a fix completes OK with what its fusion may change. -/
theorem State.answerFix_fuses (m : PFix) : ∃ (v : State) (detail : Nat),
    s.answerFix ring m = v.finishHead ring stOk detail 0 ∧ s.Fuses v := by
  unfold State.answerFix
  dsimp only
  split
  · exact ⟨s, _, rfl, .refl s⟩
  · exact ⟨_, _, rfl, State.takeFix_fuses s m⟩

end

/-- R155, R175, R177: a fix older than the history only counts; any other is judged, or names a vehicle without a model. -/
theorem extFix_answers (dt ring : Nat) (s : State) (d : Slot) :
    let u := s.elapse dt
    let b := u.settle ring
    let tick := extFixTick d.desc u.now
    u.headRuns ring 0x0C d → checksPass (b.extFixChecks d.desc) →
    (64000000 < u.now - tick ∨ tick < u.pse.histFloor →
      ∃ v : State, exec (.extFix dt ring) s = .next (v.finishHead ring 0x00 (extFixDetail d.desc 1) 0) ∧
        v.pse = { u.pse with rejectCount := v.pse.rejectCount, fault := setFlag u.pse.fault u.cycle 3 } ∧
        v = { b with pse := v.pse, icu := (b.raise 135).icu }) ∧
    (u.now - tick ≤ 64000000 → u.pse.histFloor ≤ tick →
      ((dfield d.desc 50 1).testBit 1 = true → (u.pse.dueAt tick).vehModel = none →
        exec (.extFix dt ring) s = .next (b.finishHead ring 0x00 (extFixDetail d.desc 4) 0)) ∧
      ∃ (v : State) (detail : Nat), exec (.extFix dt ring) s = .next (v.finishHead ring 0x00 detail 0) ∧
        v = { b with pse := v.pse, icu := v.icu, hre := v.hre, out := v.out, evr := v.evr, nv := v.nv }) := by
  intro u b tick hd hc
  have hx : exec (.extFix dt ring) s = .next (b.answerFix ring (parseExtFix d.desc tick)) := exec_extFix hd hc
  have hpse : b.pse = u.pse := State.settle_pse u ring
  have hcycle : b.cycle = u.cycle := by unfold State.cycle; rw [State.settle_now]
  have hstale : b.isStale tick = (decide (64000000 < u.now - tick) || decide (tick < u.pse.histFloor)) :=
    State.settle_isStale u ring tick
  refine ⟨fun hold => ?_, fun hnow hfloor => ⟨fun hv hn => ?_, ?_⟩⟩
  · obtain ⟨r, hr⟩ := State.answerFix_stale (s := b) (d := d.desc) (tick := tick) ring (by rw [hstale]; simpa using hold)
    rw [hx, hr, ← hcycle, ← hpse]
    exact ⟨_, rfl, rfl, rfl⟩
  · have hs : b.isStale tick = false := by
      rw [hstale, decide_eq_false (by omega), decide_eq_false (by omega)]; rfl
    rw [hx, State.answerFix_noVehicle ring hs hv (hpse ▸ hn)]; rfl
  · obtain ⟨v, detail, hv, hf⟩ := State.answerFix_fuses (s := b) ring (parseExtFix d.desc tick)
    refine ⟨v, detail, by rw [hx, hv]; rfl, ?_⟩
    unfold State.Fuses at hf
    generalize b = c at hf ⊢
    rw [hf]

/-! ### The geometry (R158, R159, R161) -/

theorem exec_geometrySet_model {dt ring : Nat} {s : State} {d : Slot} (hd : (s.elapse dt).headRuns ring 0x0E d)
    (h0 : dfield d.desc 16 1 = 0) (hc : checksPass (((s.elapse dt).settle ring).modelChecks d.desc)) :
    exec (.geometrySet dt ring) s =
      .next ((((s.elapse dt).settle ring).onPse fun p =>
        { p with modelWaits := p.modelWaits ++ [{ ring, index := d.index, model := parseModel d.desc }] }).startHead ring []) := by
  show execGeometrySet dt ring s = _
  unfold execGeometrySet
  rw [State.runDesc_headRuns hd, h0]
  exact congrArg _ (State.checked_pass hc)

theorem exec_geometrySet_origin {dt ring : Nat} {s : State} {d : Slot} (hd : (s.elapse dt).headRuns ring 0x0E d)
    (h1 : dfield d.desc 16 1 = 1) (hc : checksPass (originChecks d.desc)) :
    exec (.geometrySet dt ring) s =
      .next (if (s.elapse dt).originFree then
        (((s.elapse dt).settle ring).onPse fun p =>
          { p with originSet := true, originLat := dsfield d.desc 20 4, originLon := dsfield d.desc 24 4,
                   originHeight := dsfield d.desc 28 4 }).finishHead ring stOk 0 0
        else ((s.elapse dt).settle ring).finishHead ring stAborted 1 0) := by
  show execGeometrySet dt ring s = _
  unfold execGeometrySet
  rw [State.runDesc_headRuns hd, h1, ← State.settle_originFree _ ring]
  exact congrArg _ (State.checked_pass hc)

/-- R158, R161: a MODEL waits for an epoch; an ORIGIN is set only while nothing is placed by the old one. -/
theorem geometrySet_answers (dt ring : Nat) (s : State) (d : Slot) :
    let u := s.elapse dt
    let b := u.settle ring
    u.headRuns ring 0x0E d →
    (dfield d.desc 16 1 = 0 → checksPass (b.modelChecks d.desc) →
      ∃ v : State, exec (.geometrySet dt ring) s = .next (v.startHead ring []) ∧
        v.pse.modelWaits = u.pse.modelWaits ++ [{ ring, index := d.index, model := parseModel d.desc }] ∧
        v = { b with pse := { u.pse with modelWaits := v.pse.modelWaits } }) ∧
    (dfield d.desc 16 1 = 1 → checksPass (originChecks d.desc) →
      (u.originFree = true →
        ∃ v : State, exec (.geometrySet dt ring) s = .next (v.finishHead ring 0x00 0 0) ∧ v.pse.originSet = true ∧
          v.pse.originLat = dsfield d.desc 20 4 ∧ v.pse.originLon = dsfield d.desc 24 4 ∧ v.pse.originHeight = dsfield d.desc 28 4 ∧
          v = { b with pse := { u.pse with originSet := true, originLat := v.pse.originLat, originLon := v.pse.originLon,
                                           originHeight := v.pse.originHeight } }) ∧
      (u.originFree = false → exec (.geometrySet dt ring) s = .next (b.finishHead ring 0x08 1 0))) := by
  intro u b hd
  have hpse : b.pse = u.pse := State.settle_pse u ring
  refine ⟨fun h0 hc => ⟨_, exec_geometrySet_model hd h0 hc, ?_, ?_⟩, fun h1 hc => ⟨fun hfree => ?_, fun hfree => ?_⟩⟩
  · rw [← hpse]; rfl
  · rw [← hpse]; rfl
  · refine ⟨_, (exec_geometrySet_origin hd h1 hc).trans (by rw [if_pos hfree]; rfl), rfl, rfl, rfl, rfl, ?_⟩
    rw [← hpse]; rfl
  · rw [exec_geometrySet_origin hd h1 hc, if_neg (by rw [hfree]; exact Bool.false_ne_true)]; rfl

/-- Settles O47, form by form: a pose epoch, the end of an exclusion, EXT_FIX and GEOMETRY_SET. -/
theorem poseIsPublished : Obligations.PoseIsPublished := by
  unfold Obligations.PoseIsPublished
  exact ⟨poseEpoch_answers, exclusionExpiry_answers, extFix_answers, geometrySet_answers⟩

end Sys2Proof.Machine

namespace Sys2Proof.Machine

variable {s s0 u : State} {dt : Nat}

/-! ### What a step can do -/

/-- What a command may answer in a state: a next state that keeps what `Kept` names, or a power-on reset of such a
state. -/
inductive Steps (s : State) : Answer → Prop
  | keeps {t : State} (h : Kept s t) : Steps s (.next t)
  | powerOn {u : State} (h : Kept s u) : Steps s (.next (u.powerOn 1))
  | aonFail {u : State} (h : Kept s u) : Steps s (.next u.aonFail)

theorem Kept.elapsed (s : State) (dt : Nat) : Kept s (s.elapse dt) := State.elapse_kept dt (Kept.refl s)

/-- A guarded operation, from what it does to this one state. -/
theorem Kept.whenever {c : Bool} {f : State → State} (hf : Kept s0 (f u)) (h : Kept s0 u) : Kept s0 (u.when c f) := by
  cases c
  · exact h
  · exact hf

theorem Kept.checks {ring : Nat} {cs : List (Bool × Nat)} {k : State → State} (hk : Kept s0 (k u)) (h : Kept s0 u) :
    Kept s0 (u.checked ring cs k) := by
  unfold State.checked
  split
  · exact State.finishHead_kept _ _ _ _ _ h
  · exact hk

theorem Kept.buffered {ring : Nat} {buf : HostRead} {k : List Byte → State → State} (hk : ∀ b, Kept s0 (k b u))
    (h : Kept s0 u) : Kept s0 (u.withBuffer ring buf k) := by
  cases buf with
  | data b => exact hk b
  | error => exact State.finishHead_kept _ _ _ _ _ (State.dmaError_kept _ h)

theorem Kept.released (ks : List Nat) (h : Kept s0 u) : Kept s0 (ks.foldl (fun s k => s.releaseTile k) u) :=
  foldl_kept _ _ (fun _ _ _ h => State.releaseTile_kept _ _ h) h

/-- A command whose guard fails lets the time pass (assumption log 3). -/
theorem Steps.idle : Steps s (.next (s.elapse dt)) := .keeps (Kept.elapsed s dt)

/-- A command that acts under a guard. -/
theorem Steps.guarded {c : Bool} {f : State → State} (hf : ∀ u, Kept s u → Kept s (f u)) :
    Steps s (.next ((s.elapse dt).when c f)) :=
  .keeps (Kept.whenever (hf _ (Kept.elapsed s dt)) (Kept.elapsed s dt))

/-- The command of a descriptor's row. -/
theorem Steps.descriptor {ring op : Nat} {f : Slot → State → State} (hf : ∀ d u, Kept s u → Kept s (f d u)) :
    Steps s (.next ((s.elapse dt).runDesc ring op f)) := by
  have h := Kept.elapsed s dt
  have hu : Kept s (if ((s.elapse dt).startable ring).isSome then (s.elapse dt).settle ring else s.elapse dt) :=
    ite_kept _ (State.settle_kept _ _ h) h
  refine .keeps ?_
  unfold State.runDesc
  refine ite_kept _ ?_ h
  dsimp only
  split
  · exact ite_kept _ (hf _ _ hu) hu
  · exact hu

/-- Device ticks go back only to 0 at a power-on reset, and the wall count and the identity of the part stand. -/
def State.TimeGoesOn (s t : State) : Prop :=
  (s.tbu.tick ≤ t.tbu.tick ∨ t.tbu.tick = 0 ∧ (t.prs.cause = 1 ∨ t.prs.cause = 11)) ∧ s.tbu.wall ≤ t.tbu.wall ∧
    t.sys.part = s.sys.part ∧ t.sys.uid = s.sys.uid

theorem Steps.timeGoesOn {a : Answer} (h : Steps s a) : ∃ t : State, a = .next t ∧ s.TimeGoesOn t := by
  cases h with
  | keeps h => exact ⟨_, rfl, .inl h.tick, h.wall, h.part, h.uid⟩
  | powerOn h => exact ⟨_, rfl, .inr ⟨rfl, .inl rfl⟩, h.wall, h.part, h.uid⟩
  | aonFail h => exact ⟨_, rfl, .inr ⟨rfl, .inr rfl⟩, h.wall, h.part, h.uid⟩

end Sys2Proof.Machine

namespace Sys2Proof.Machine

variable {s : State} {dt ring : Nat}

/-! ### Rings -/

theorem execFenceDone_steps : Steps s (execFenceDone dt ring s) := by
  dsimp only [execFenceDone]
  split
  · exact .guarded fun _ h => State.finishAt_kept _ _ _ _ _ _ h
  · exact .idle

theorem execFenceTimeout_steps : Steps s (execFenceTimeout dt ring s) := by
  dsimp only [execFenceTimeout]
  split
  · exact .guarded fun _ h => State.finishAt_kept _ _ _ _ _ _ h
  · exact .idle

theorem execNotBeforeReached_steps : Steps s (execNotBeforeReached dt ring s) := by
  dsimp only [execNotBeforeReached]
  split
  · exact .guarded (State.rejudge_kept _)
  · exact .idle

theorem execHeldDescriptorReady_steps : Steps s (execHeldDescriptorReady dt ring s) := by
  dsimp only [execHeldDescriptorReady]
  split
  · split
    · exact .guarded (State.rejudge_kept _)
    · exact .idle
  · exact .idle

theorem execFenceAfterRelease_steps : Steps s (execFenceAfterRelease dt ring s) := by
  dsimp only [execFenceAfterRelease]
  split
  · exact .guarded (State.rejudge_kept _)
  · exact .idle

theorem execReportWriteFail_steps : Steps s (execReportWriteFail dt ring s) := by
  dsimp only [execReportWriteFail]
  split
  · exact .guarded fun _ h => State.dmaError_kept _ (State.covDrop_kept _ _ (State.raise_kept _ _ (State.onHre_kept _
      (State.onRing_kept _ _ _ (State.onOut_kept _ h)))))
  · exact .idle

/-! ### Time -/

theorem execSlewDone_steps : Steps s (execSlewDone dt s) := by
  dsimp only [execSlewDone]
  split
  · exact .guarded fun _ h => State.timeNote_kept _ _ _ (State.raise_kept _ _
      (State.onTbu_kept _ (Tbu.rebase_tick ..) (Tbu.rebase_wall ..) h))
  · exact .idle

theorem execSuspectRunTimeout_steps : Steps s (execSuspectRunTimeout dt s) := by
  dsimp only [execSuspectRunTimeout]
  split
  · exact .guarded State.rejectRun_kept
  · exact .idle

/-! ### Endpoints and the escapement -/

theorem execEndpointLoad_steps (buf : HostRead) : Steps s (execEndpointLoad dt ring buf s) :=
  .descriptor fun _ _ h => ite_kept _
    (Kept.checks (Kept.buffered (fun _ => Kept.checks (State.loadAll_kept _ _ _ _ h) h) h) h)
    (Kept.checks (State.loadAll_kept _ _ _ _ h) h)

theorem execSectionSet_steps (buf : HostRead) : Steps s (execSectionSet dt ring buf s) :=
  .descriptor fun _ _ h => ite_kept _
    (Kept.checks (Kept.buffered (fun _ => Kept.checks (State.setSections_kept _ _ _ _ h) h) h) h)
    (Kept.checks (State.setSections_kept _ _ _ _ h) h)

theorem execProductSet_steps : Steps s (execProductSet dt ring s) :=
  .descriptor fun _ _ h => Kept.checks (State.finishHead_kept _ _ _ _ _ (State.armCheck_kept _ (State.refreshDemand_kept _
    (State.refreshLoad_kept _ (State.endPulses_kept _ _
      (ite_kept _ (State.closeProduct_kept _ _ (State.onGle_kept _ h)) (State.onGle_kept _ h))))))) h

theorem execEscSlotExecute_steps (ep : Nat) : Steps s (execEscSlotExecute dt ep s) := by
  dsimp only [execEscSlotExecute]
  split
  · exact .keeps (State.execute_kept _ _ _ (Kept.elapsed s dt))
  · exact .idle

theorem execEscDispatch_steps (ep : Nat) : Steps s (execEscDispatch dt ep s) := by
  dsimp only [execEscDispatch]
  split
  · exact .guarded (State.dispatch_kept _ _)
  · exact .idle

theorem execValveEffect_steps (ep : Nat) : Steps s (execValveEffect dt ep s) := by
  dsimp only [execValveEffect]
  split
  · exact .keeps (State.valve_kept _ _ (State.onGle_kept _ (Kept.elapsed s dt)))
  · exact .idle

theorem execEffectiveSwitch_steps (ep : Nat) : Steps s (execEffectiveSwitch dt ep s) := by
  dsimp only [execEffectiveSwitch]
  split
  · next rest _ =>
    have h := State.onGle_kept (fun g => { g with effQ := rest }) (Kept.elapsed s dt)
    exact .keeps (State.armCheck_kept _ (ite_kept _ (State.effectiveRate_kept _ _ h)
      (ite_kept _ (State.effectiveOn_kept _ _ h) (State.effectiveOff_kept _ _ h))))
  · exact .idle

/-! ### Layers and tiles -/

theorem execArenaGrant_steps : Steps s (execArenaGrant dt ring s) :=
  .descriptor fun _ _ h => Kept.checks (State.finishHead_kept _ _ _ _ _ (State.backAll_kept _ (State.onMpg_kept _ h))) h

theorem execArenaQuota_steps : Steps s (execArenaQuota dt ring s) :=
  .descriptor fun _ _ h => Kept.checks (State.finishHead_kept _ _ _ _ _ (State.backLayer_kept _ _ (State.clearOver_kept _ _
    (ite_kept _ (State.mpgFault_kept _ _ _ (State.onLayer_kept _ _ _ h)) (State.onLayer_kept _ _ _ h))))) h

theorem execTileImport_steps (buf : HostRead) : Steps s (execTileImport dt ring buf s) :=
  .descriptor fun _ _ h => Kept.checks (Kept.buffered (fun _ =>
    ite_kept _ (State.importDeltas_kept _ _ _ _ h) (State.importWhole_kept _ _ _ _ _ h)) h) h

theorem execTileExport_steps (destOk : Bool) : Steps s (execTileExport dt ring destOk s) :=
  .descriptor fun _ _ h => Kept.checks (ite_kept _ h (ite_kept _ (State.finishHead_kept _ _ _ _ _ (State.dmaError_kept _ h))
    (State.finishHead_kept _ _ _ _ _ (ite_kept _
      (State.backAll_kept _ (State.clearOver_kept _ _ (Kept.released _ (State.exportTiles_kept _ _ _ _ h))))
      (State.exportTiles_kept _ _ _ _ h))))) h

theorem execTileRelease_steps : Steps s (execTileRelease dt ring s) :=
  .descriptor fun _ _ h => Kept.checks (State.finishHead_kept _ _ _ _ _ (State.backAll_kept _ (State.clearOver_kept _ _
    (Kept.released _ h)))) h

theorem execTargetMark_steps (buf : HostRead) : Steps s (execTargetMark dt ring buf s) :=
  .descriptor fun _ _ h => ite_kept _
    (Kept.checks (Kept.buffered (fun _ => Kept.checks (State.markAll_kept _ _ _ _ h) h) h) h)
    (Kept.checks (State.markAll_kept _ _ _ _ h) h)

theorem execFetchRetry_steps (layer : Nat) (tx ty : Int) (read : TileRead) :
    Steps s (execFetchRetry dt layer tx ty read s) := by
  dsimp only [execFetchRetry]
  split
  · exact .guarded (State.fetched_kept _ _)
  · exact .idle

theorem execSegmentMaxExpiry_steps (ep : Nat) : Steps s (execSegmentMaxExpiry dt ep s) := by
  dsimp only [execSegmentMaxExpiry]
  split
  · exact .guarded fun _ h => State.cutStrip_kept _ _ _ _ _ _ h
  · exact .idle

/-! ### The pose and GNSS -/

theorem execExtFix_steps : Steps s (execExtFix dt ring s) :=
  .descriptor fun _ _ h => Kept.checks (ite_kept _ (State.finishHead_kept _ _ _ _ _ h)
    (State.finishHead_kept _ _ _ _ _ (State.takeFix_kept _ _ h))) h

theorem execGeometrySet_steps : Steps s (execGeometrySet dt ring s) := by
  refine .descriptor fun d u h => ?_
  split
  · exact Kept.checks (State.startHead_kept _ _ _ (State.onPse_kept _ h)) h
  · exact Kept.checks (ite_kept _ (State.finishHead_kept _ _ _ _ _ (State.onPse_kept _ h))
      (State.finishHead_kept _ _ _ _ _ h)) h
  · exact Kept.checks h h

theorem execExclusionExpiry_steps (source : Nat) : Steps s (execExclusionExpiry dt source s) := by
  dsimp only [execExclusionExpiry]
  split
  · exact .guarded fun _ h => State.onPsrc_kept _ _ _ h
  · exact .idle

theorem execEphemerisLoad_steps (buf : HostRead) : Steps s (execEphemerisLoad dt ring buf s) :=
  .descriptor fun _ _ h => Kept.checks (Kept.buffered (fun _ =>
    Kept.checks (State.startHead_kept _ _ _ (State.onGnb_kept _ h)) h) h) h

theorem execNavMessage_steps (m : NavMessage) : Steps s (execNavMessage dt m s) := by
  dsimp only [execNavMessage]
  split
  · exact .guarded (State.navMessage_kept _ _)
  · exact .idle

theorem execBurstStart_steps : Steps s (execBurstStart dt s) :=
  have h := State.armCheck_kept _ (Kept.elapsed s dt)
  .keeps (Kept.whenever (State.setHdg_kept _ _ _ (State.raise_kept _ _ (State.onGnb_kept _ h))) h)

theorem execBurstExit_steps : Steps s (execBurstExit dt s) :=
  have h := State.armCheck_kept _ (Kept.elapsed s dt)
  .keeps (Kept.whenever (State.raise_kept _ _ (State.onGnb_kept _ h)) h)

/-! ### Links -/

theorem execPortLinkChange_steps (link port : Nat) (word : LinkWord) :
    Steps s (execPortLinkChange dt link port word s) := by
  dsimp only [execPortLinkChange]
  have h := Kept.elapsed s dt
  exact .keeps (ite_kept _ (Kept.whenever (State.fieldWord_kept _ _ _ h) h)
    (Kept.whenever (State.deviceWord_kept _ _ _ h) h))

theorem execDelayReq_steps (link port : Nat) (f : TebHead) (t1 t2 t3 : Nat) :
    Steps s (execDelayReq dt link port f t1 t2 t3 s) := by
  dsimp only [execDelayReq]
  have h := Kept.elapsed s dt
  exact .keeps (ite_kept _
    (Kept.whenever (ite_kept _ (State.badField_kept _ _ h) (State.answerField_kept _ _ _ _ _ _ h)) h)
    (Kept.whenever (State.delayFrame_kept _ _ _ _ (fun _ _ => State.sendDelay_kept _ _ _ _) h) h))

theorem execDelayResp_steps (port : Nat) (f : TebHead) (t1 t2 t3 t4 : Nat) :
    Steps s (execDelayResp dt port f t1 t2 t3 t4 s) :=
  .guarded fun _ h => State.delayFrame_kept _ _ _ _ (fun _ _ h => ite_kept _ (State.onDport_kept _ _ _ h) h) h

theorem execNodeWriteResend_steps : Steps s (execNodeWriteResend dt ring s) := by
  dsimp only [execNodeWriteResend]
  split
  · exact .guarded fun _ h => State.sendWrite_kept _ _ (State.onFlp_kept _ h)
  · exact .idle

theorem execNodeWriteTimeout_steps : Steps s (execNodeWriteTimeout dt ring s) := by
  dsimp only [execNodeWriteTimeout]
  split
  · exact .keeps (State.finishAt_kept _ _ _ _ _ _ (State.onFlp_kept _ (Kept.elapsed s dt)))
  · exact .idle

theorem execHeartbeatReceive_steps (port : Nat) (f : Heartbeat) : Steps s (execHeartbeatReceive dt port f s) :=
  .guarded fun _ h => State.tebecia_kept _ _ _ _ _ _ _ (fun _ _ => State.fewerHops_kept _ _)
    (fun _ _ _ => State.takeHeartbeat_kept _ _ _) h

theorem execPoseFrameReceive_steps (port : Nat) (f : PoseFrame) : Steps s (execPoseFrameReceive dt port f s) :=
  .guarded fun _ h => State.tebecia_kept _ _ _ _ _ _ _ (fun _ _ h => h) (fun _ _ _ => State.takePose_kept _ _) h

theorem execCoverageFrameReceive_steps (port : Nat) (f : CoverageFrame) : Steps s (execCoverageFrameReceive dt port f s) :=
  .guarded fun _ h => State.tebecia_kept _ _ _ _ _ _ _ (fun _ _ h => h)
    (fun _ _ _ h => foldl_kept _ _ (fun _ _ _ h => State.mergeFromLink_kept _ _ h) (State.covGap_kept _ _ _ _ h)) h

theorem execSiblingLost_steps (identity : Nat) : Steps s (execSiblingLost dt identity s) := by
  dsimp only [execSiblingLost]
  split
  · exact .guarded (State.loseSibling_kept _ _)
  · exact .idle

theorem execMasterOffsetLoRead_steps : Steps s (execMasterOffsetLoRead dt s) :=
  .guarded fun _ h => State.readOut_kept _ _ (Kept.whenever (State.onDlk_kept _ h) h)

/-! ### Load channels -/

theorem execDirectSwitch_steps (buf : HostRead) : Steps s (execDirectSwitch dt ring buf s) := by
  dsimp only [execDirectSwitch]
  split
  · exact .keeps (State.endHead_kept _ _ _ _ (Kept.elapsed s dt))
  · exact .descriptor fun _ _ h => ite_kept _
      (Kept.checks (Kept.buffered (fun _ => Kept.checks (State.switchWait_kept _ _ _ _ _ h) h) h) h)
      (Kept.checks (State.switchWait_kept _ _ _ _ _ h) h)

theorem execDirectSwitchExecute_steps : Steps s (execDirectSwitchExecute dt ring s) := by
  dsimp only [execDirectSwitchExecute]
  split
  · exact .guarded (State.switchNow_kept _)
  · exact .idle

theorem execKeeperExpiry_steps (channel : Nat) : Steps s (execKeeperExpiry dt channel s) := by
  dsimp only [execKeeperExpiry]
  split
  · exact .guarded (State.keeperEnds_kept _)
  · exact .idle

/-! ### Feedback, regulators and calibration -/

theorem execCapDataRead_steps (timer : Nat) : Steps s (execCapDataRead dt timer s) :=
  .guarded fun _ h => State.readOut_kept _ _ (Kept.whenever (State.onCap_kept _ _ _ h) h)

theorem execComparePulseEnd_steps (comparator : Nat) : Steps s (execComparePulseEnd dt comparator s) := by
  dsimp only [execComparePulseEnd]
  split
  · exact .guarded fun _ h => State.onCmp_kept _ _ _ h
  · exact .idle

theorem execRegSample_steps (context : Nat) : Steps s (execRegSample dt context s) := by
  dsimp only [execRegSample]
  split
  · exact .guarded (State.regSample_kept _ _)
  · exact .idle

theorem execCalPolicy_steps : Steps s (execCalPolicy dt ring s) := by
  refine .descriptor fun d u h => ?_
  dsimp only
  split
  · exact Kept.checks (State.finishHead_kept _ _ _ _ _ (State.setDelayPol_kept _ _ _ h)) h
  · exact Kept.checks (State.finishHead_kept _ _ _ _ _ (State.setMeterPol_kept _ _ h)) h
  · exact Kept.checks h h

theorem execCoilSample_steps (channel : Nat) (codes : List Nat) : Steps s (execCoilSample dt channel codes s) := by
  dsimp only [execCoilSample]
  split
  · exact .guarded (State.coilResult_kept _ _)
  · exact .idle

theorem execFlowStep_steps (product : Nat) : Steps s (execFlowStep dt product s) := by
  dsimp only [execFlowStep]
  split
  · exact .guarded (State.flowSamples_kept _ _)
  · exact .idle

/-! ### Interrupts and the event recorder -/

theorem execCoalesceTimeout_steps (source : Nat) : Steps s (execCoalesceTimeout dt source s) := by
  dsimp only [execCoalesceTimeout]
  split
  · exact .guarded fun _ h => State.onSrc_kept _ _ _ h
  · exact .idle

theorem execTgtClaimRead_steps (target : Nat) : Steps s (execTgtClaimRead dt target s) := by
  refine .guarded fun u h => ?_
  dsimp only
  split
  · exact State.readOut_kept _ _ (State.onSrc_kept _ _ _ (State.onTarget_kept _ _ _ h))
  · exact State.readOut_kept _ _ (State.onTarget_kept _ _ _ h)

theorem execRecordCommit_steps (readBackOk : Bool) : Steps s (execRecordCommit dt readBackOk s) := by
  have h := Kept.elapsed s dt
  dsimp only [execRecordCommit]
  split
  · next hr =>
    exact .keeps (State.nextStaged_kept _ (ite_kept _ (State.commitRec_kept _ _ hr h) (State.failRec_kept _ _ h)))
  · exact .idle

theorem execEvrPowerUpScan_steps : Steps s (execEvrPowerUpScan dt s) := by
  have h := Kept.elapsed s dt
  dsimp only [execEvrPowerUpScan, State.when]
  split
  · next hc =>
    have hn : s.evr.inFlight = none := by simpa using (Bool.and_eq_true_iff.mp hc).2
    exact .keeps (State.powerUpScan_kept _ hn h)
  · exact .idle

/-! ### The ward and resets -/

theorem execWardOpen_steps : Steps s (execWardOpen dt ring s) :=
  .descriptor fun _ _ h => ite_kept _ h (Kept.checks (State.finishHead_kept _ _ _ _ _
    (ite_kept _ (State.onPrs_kept _ (State.setWard_kept _ _ h)) h)) h)

theorem execWardClose_steps : Steps s (execWardClose dt ring s) :=
  .descriptor fun _ _ h =>
    have undone := State.undoWarded_kept _ h
    ite_kept _ (Kept.checks (State.finishHead_kept _ _ _ _ _
      (ite_kept _ (State.unopen_kept _ undone) (State.setWard_kept _ _ undone))) h) h

theorem execPlannedResetBegin_steps : Steps s (execPlannedResetBegin dt s) := by
  dsimp only [execPlannedResetBegin]
  split
  · exact .guarded (State.beginPlanned_kept _)
  · exact .idle

theorem execAonFail_steps : Steps s (execAonFail dt s) := by
  dsimp only [execAonFail, State.when]
  split
  · exact .aonFail (Kept.elapsed s dt)
  · exact .idle

theorem execSupervisor_steps (domain : Nat) : Steps s (execSupervisor dt domain s) := by
  have h := Kept.elapsed s dt
  dsimp only [execSupervisor, State.when, State.supervisor]
  split
  · split
    · exact .aonFail h
    · exact .keeps (State.dieReset_kept _ _ (State.onPrs_kept _ h))
  · exact .idle

/-! ### Every command -/

/-- Every command answers with a next state, and but for a power-on reset keeps what `Kept` names. -/
theorem exec_steps (i : Instr) (s : State) : Steps s (exec i s) := by
  cases i with
  | nop dt ring => exact .descriptor fun _ _ h => Kept.checks (State.finishHead_kept _ _ _ _ _ h) h
  | fence dt ring => exact .descriptor fun _ _ h => Kept.checks (State.startHead_kept _ _ _ h) h
  | fenceDone dt ring => exact execFenceDone_steps
  | fenceTimeout dt ring => exact execFenceTimeout_steps
  | endpointLoad dt ring buf => exact execEndpointLoad_steps _
  | sectionSet dt ring buf => exact execSectionSet_steps _
  | productSet dt ring => exact execProductSet_steps
  | arenaGrant dt ring => exact execArenaGrant_steps
  | arenaQuota dt ring => exact execArenaQuota_steps
  | tileImport dt ring buf => exact execTileImport_steps _
  | tileExport dt ring destOk => exact execTileExport_steps _
  | tileRelease dt ring => exact execTileRelease_steps
  | targetMark dt ring buf => exact execTargetMark_steps _
  | passAdvance dt ring =>
    exact .descriptor fun _ _ h => Kept.checks (State.startHead_kept _ _ _ (State.onMpg_kept _ h)) h
  | extFix dt ring => exact execExtFix_steps
  | ephemerisLoad dt ring buf => exact execEphemerisLoad_steps _
  | geometrySet dt ring => exact execGeometrySet_steps
  | bankLoad dt ring =>
    exact .descriptor fun _ _ h => Kept.checks
      (State.finishHead_kept _ _ _ _ _ (State.onCtx_kept _ _ _ (State.hostDiscards_kept _ _ h))) h
  | bankSwap dt ring => exact .descriptor fun _ _ h => Kept.checks (State.bankSwap_kept _ _ _ h) h
  | injectStart dt ring =>
    exact .descriptor fun _ _ h => Kept.checks
      (ite_kept _ (State.startHead_kept _ _ _ (State.onCtx_kept _ _ _ h)) (State.finishHead_kept _ _ _ _ _ h)) h
  | traceArm dt ring =>
    exact .descriptor fun _ _ h => Kept.checks
      (ite_kept _ (State.finishHead_kept _ _ _ _ _ (State.onTrace_kept _ _ _ h))
        (ite_kept _ (State.finishHead_kept _ _ _ _ _ h) (State.finishHead_kept _ _ _ _ _ (State.onTrace_kept _ _ _ h)))) h
  | directSwitch dt ring buf => exact execDirectSwitch_steps _
  | directSwitchExecute dt ring => exact execDirectSwitchExecute_steps
  | nodeWrite dt ring =>
    exact .descriptor fun _ _ h => Kept.checks
      (ite_kept _
        (ite_kept _ (State.startWriteNode_kept _ _ _ (State.wardAccept_kept _ h))
          (State.finishHead_kept _ _ _ _ _ (State.wardRefuse_kept _ h)))
        (State.startWriteNode_kept _ _ _ h)) h
  | nodeWriteResend dt ring => exact execNodeWriteResend_steps
  | nodeWriteTimeout dt ring => exact execNodeWriteTimeout_steps
  | calPolicy dt ring => exact execCalPolicy_steps
  | timeSet dt ring =>
    exact .descriptor fun _ _ h => ite_kept _ h (Kept.checks
      (ite_kept _ (State.steer_kept _ _ _ _ _ _ _ (State.startHead_kept _ _ _ (State.onTbu_kept _ rfl rfl h)))
        (ite_kept _ (State.finishHead_kept _ _ _ _ _ h)
          (ite_kept _ (State.finishHead_kept _ _ _ _ _ h)
            (State.steer_kept _ _ _ _ _ _ _ (State.startHead_kept _ _ _ h))))) h)
  | timeSetRelease dt ring =>
    exact .descriptor fun _ _ h => ite_kept _
      (Kept.checks (State.finishHead_kept _ _ _ _ _ (ite_kept _ (State.endForce_kept _ h) h)) h) h
  | wardOpen dt ring => exact execWardOpen_steps
  | wardClose dt ring => exact execWardClose_steps
  | recordRead dt ring destOk =>
    exact .descriptor fun _ _ h => Kept.checks
      (ite_kept _ (State.finishHead_kept _ _ _ _ _ (State.copyRecords_kept _ _ _ h))
        (State.finishHead_kept _ _ _ _ _ (State.dmaError_kept _ h))) h
  | doorbell dt ring index =>
    exact .guarded fun _ h =>
      have h := State.hostActivity_kept _ h
      ite_kept _ (State.raise_kept _ _ (State.hreFault_kept _ _ h))
        (ite_kept _ (State.onRing_kept _ _ _ h) (State.onRing_kept _ _ _ h))
  | descriptorFetch dt ring desc =>
    exact .guarded fun _ h => ite_kept _ (State.settle_kept _ _ (State.onRing_kept _ _ _ h))
      (State.settle_kept _ _ (State.faultReport_kept _ _ _ _ _ _
        (State.raise_kept _ _ (State.hreFault_kept _ _ (State.onRing_kept _ _ _ h)))))
  | descFetchFail dt ring =>
    exact .guarded fun _ h => State.settle_kept _ _ (State.faultReport_kept _ _ _ _ _ _
      (State.raise_kept _ _ (State.dmaError_kept _ (State.onRing_kept _ _ _ h))))
  | notBeforeReached dt ring => exact execNotBeforeReached_steps
  | heldDescriptorReady dt ring => exact execHeldDescriptorReady_steps
  | fenceAfterRelease dt ring => exact execFenceAfterRelease_steps
  | backlogDrain dt ring => exact .guarded fun _ h => State.drainLoop_kept _ _ _ h
  | reportWriteFail dt ring => exact execReportWriteFail_steps
  | shadowWrite dt ring => exact .guarded fun _ h => State.onRing_kept _ _ _ (State.hostWrite_kept _ _ h)
  | ringEnable dt ring value => exact .guarded (State.ringEnable_kept _ _)
  | ringDisable dt ring value => exact .guarded (State.ringDisable_kept _ _)
  | ringDrained dt ring => exact .guarded fun _ h => State.onRing_kept _ _ _ h
  | hostHbWrite dt value => exact .guarded State.hostActivity_kept
  | devHbTick dt => exact .guarded fun _ h => State.onHre_kept _ h
  | hostLost dt => exact .guarded State.loseHost_kept
  | continueLimitExpiry dt => exact .guarded fun _ h => State.safeAction_kept _ (State.onHre_kept _ h)
  | resume dt value => exact .guarded State.resume_kept
  | pcieLinkDown dt => exact .guarded State.linkDown_kept
  | pcieLinkUp dt speed width => exact .guarded (State.linkRise_kept _ _)
  | flr dt => exact .guarded (State.plan_kept _ _)
  | perst dt =>
    exact .guarded fun _ h =>
      have h := State.onPrs_kept _ h
      ite_kept _ (State.linkDown_kept _ h) h
  | tickLoRead dt => exact .guarded fun _ h => State.readOut_kept _ _ (State.onTbu_kept _ rfl rfl h)
  | optimeLoRead dt => exact .guarded fun _ h => State.readOut_kept _ _ (State.onTbu_kept _ rfl rfl h)
  | masterOffsetLoRead dt => exact execMasterOffsetLoRead_steps
  | pllLock dt => exact .guarded fun _ h => State.onPrs_kept _ (State.onTbu_kept _ rfl rfl h)
  | secondInstant dt => exact .guarded State.secondInstant_kept
  | tpEnableWrite dt value => exact .guarded (State.tpCfgWrite_kept _)
  | slewDone dt => exact execSlewDone_steps
  | holdLimit dt => exact .guarded State.enterFreerun_kept
  | suspectRunTimeout dt => exact execSuspectRunTimeout_steps
  | optimeTick dt => exact .guarded fun _ h => State.onTbu_kept _ rfl rfl h
  | optimePersist dt => exact .guarded fun _ h => State.onEvr_kept _ rfl (State.persistOptime_kept _ h)
  | poseEpoch dt => exact .guarded (State.poseEpoch_kept _)
  | exclusionExpiry dt source => exact execExclusionExpiry_steps _
  | gleEnableWrite dt value => exact .guarded (State.gleCtrl_kept _)
  | probeEvaluation dt ep =>
    exact .guarded fun _ h => State.refreshLoad_kept _ (State.evaluate_kept _ _ (State.countEval_kept _ h))
  | overflowMigrate dt ep => exact .guarded fun _ h => State.onDyn_kept _ _ _ h
  | escSlotExecute dt ep => exact execEscSlotExecute_steps _
  | escDispatch dt ep => exact execEscDispatch_steps _
  | pwmGridEdge dt channel => exact .guarded (State.gridEdge_kept _)
  | valveEffect dt ep => exact execValveEffect_steps _
  | effectiveSwitch dt ep => exact execEffectiveSwitch_steps _
  | segmentMaxExpiry dt ep => exact execSegmentMaxExpiry_steps _
  | tileFetchDone dt layer tx ty read => exact .guarded (State.fetched_kept _ _)
  | fetchRetry dt layer tx ty read => exact execFetchRetry_steps _ _ _ _
  | writebackDue dt layer tx ty evict destOk => exact .guarded (State.writeBackDue_kept _ _ _)
  | unbackedDrop dt => exact .guarded State.dropOldest_kept
  | mergeQueueDrain dt => exact .guarded State.drainOne_kept
  | layerCfgWrite dt layer value => exact .guarded (State.layerCfg_kept _ _)
  | mapFailure dt => exact .guarded (State.failDomain_kept _)
  | gnssMeasEpoch dt m => exact .guarded (State.measEpoch_kept _ _ _)
  | navMessage dt m => exact execNavMessage_steps _
  | interferenceClear dt band => exact .guarded fun _ h => State.raise_kept _ _ (State.onGnb_kept _ h)
  | isbHoldExpiry dt system => exact .guarded fun _ h => State.onGnb_kept _ h
  | notchEngage dt notch offsetKhz depthDb aboveDb =>
    exact .guarded fun _ h =>
      ite_kept _ (State.onNotch_kept _ _ _ h) (State.raise_kept _ _ (State.onNotch_kept _ _ _ h))
  | notchRelease dt notch => exact .guarded fun _ h => State.raise_kept _ _ (State.onNotch_kept _ _ _ h)
  | antOpen dt antenna milliamp =>
    exact .guarded fun _ h =>
      have h := State.sampleBias_kept _ _ _ h
      ite_kept _ (State.setBias_kept _ _ _ h) h
  | antShort dt antenna milliamp => exact .guarded fun _ h => State.setBias_kept _ _ _ (State.onGnb_kept _ h)
  | antBiasRetry dt antenna milliamp =>
    exact .guarded fun _ h =>
      have h := State.onGnb_kept _ h
      ite_kept _ (State.sampleBias_kept _ _ _ (State.setBias_kept _ _ _ h)) h
  | burstStart dt => exact execBurstStart_steps
  | burstWindow dt m => exact .guarded (State.measEpoch_kept _ _ _)
  | burstExit dt => exact execBurstExit_steps
  | portLinkChange dt link port word => exact execPortLinkChange_steps _ _ _
  | beatSend dt =>
    exact .guarded fun _ h => State.onPrs_kept _
      (foldl_kept _ _ (fun _ _ _ h => State.sendBeat_kept _ _ _ h) (State.onFlp_kept _ h))
  | commandFrameSend dt port node =>
    exact .guarded fun _ h => State.onNode_kept _ _ _ _ (State.sendCommand_kept _ _ _ _ h)
  | ackWaitExpiry dt port node =>
    exact .guarded fun _ h => State.onNode_kept _ _ _ _
      (foldl_kept _ _ (fun _ _ _ h => State.sendCommand_kept _ _ _ _ h) h)
  | unacked dt port node => exact .guarded fun _ h => State.countUnacked_kept _ _ _ (State.onNode_kept _ _ _ _ h)
  | nodeReport dt port r =>
    exact .guarded fun _ h => ite_kept _ (State.badField_kept _ _ h) (State.takeReport_kept _ _ _ h)
  | nodeLost dt port node =>
    exact .guarded fun _ h => State.nodePathLost_kept _ _ _ (State.record_kept _ _ _ _
      (State.fieldStatus_kept _ _ _ _ _ (State.raise_kept _ _ (State.onNode_kept _ _ _ _ h))))
  | nodeRelease dt port node =>
    exact .guarded fun _ h => State.fieldStatus_kept _ _ _ _ _ (State.raise_kept _ _
      (State.holdNodeOff_kept _ _ _ (State.queueRec_kept _ _ _ _ (State.onNode_kept _ _ _ _ h))))
  | dupNodeClear dt port node => exact .guarded fun _ h => State.onNode_kept _ _ _ _ h
  | fieldRingChange dt pair closed =>
    exact .guarded fun _ h => State.fieldStatus_kept _ _ _ _ _ (State.raise_kept _ _ (State.onPort_kept _ _ _ h))
  | delayReq dt link port h t1 t2 t3 => exact execDelayReq_steps _ _ _ _ _ _
  | writeResp dt port h status data =>
    exact .guarded fun _ h => ite_kept _ (State.badField_kept _ _ h) (State.takeWriteResp_kept _ _ _ _ _ h)
  | heartbeatSend dt => exact .guarded (State.sendHeartbeat_kept _)
  | heartbeatReceive dt port h => exact execHeartbeatReceive_steps _ _
  | dupIdClear dt => exact .guarded fun _ h => State.checkMaster_kept _ (State.onDlk_kept _ h)
  | siblingLost dt identity => exact execSiblingLost_steps _
  | classPresenceElection dt => exact .guarded State.election_kept
  | tebeciaRingChange dt closed =>
    exact .guarded fun _ h => State.dlkStatus_kept _ _ _ _ _ (State.raise_kept _ _ (State.onDlk_kept _ h))
  | poseFrameReceive dt port p => exact execPoseFrameReceive_steps _ _
  | coverageFrameSend dt =>
    exact .guarded fun _ h => ite_kept _ (State.sendCoverage_kept _ h) (State.dropDeltas_kept _ h)
  | coverageFrameReceive dt port c => exact execCoverageFrameReceive_steps _ _
  | hardShortTrip dt channel milliamp =>
    exact .guarded fun _ h => State.heat_kept _ _ (State.tripAny_kept _ _ _ (State.sample_kept _ _ _ h))
  | limitTrip dt channel current =>
    exact .guarded fun _ h => State.heat_kept _ _ (State.trip_kept _ _ _ (State.sample_kept _ _ _ h))
  | latchTrip dt channel current => exact .guarded fun _ h => State.trip_kept _ _ _ (State.sample_kept _ _ _ h)
  | overtempTrip dt channel celsius => exact .guarded fun _ h => State.tripAny_kept _ _ _ (State.onChan_kept _ _ _ h)
  | wireModelUpdate dt channel milliamps celsius => exact .guarded (State.wireMs_kept _ _ _ _)
  | curveRetry dt channel => exact .guarded fun _ h => State.chanBack_kept _ _ (State.onChan_kept _ _ _ h)
  | retryRestore dt channel => exact .guarded fun _ h => State.onChan_kept _ _ _ h
  | inrushEnd dt channel => exact .guarded fun _ h => State.onChan_kept _ _ _ h
  | pullinEnd dt channel => exact .guarded fun _ h => State.onChan_kept _ _ _ h
  | bankOverload dt bank load => exact .guarded (State.overload_kept _ _)
  | bankDip dt sag =>
    exact .guarded fun _ h => State.record_kept _ _ _ _ (State.lsbFault_kept _ _ _ (State.onLsb_kept _ h))
  | openLoadIndication dt channel kind probe =>
    exact .guarded fun _ h => State.indicate_kept _ _ _ _ _ (State.onLsb_kept _ h)
  | bankCutoff dt supply vbat10mV =>
    exact .guarded fun _ h =>
      have h := State.onLsb_kept _ h
      ite_kept _ h (State.supplyCut_kept _ _ h)
  | bankReturn dt supply vbat =>
    exact .guarded fun _ h =>
      have h := State.onLsb_kept _ h
      ite_kept _ (State.supplyReturn_kept _ _ h) h
  | reverseBattery dt bank vbat10mV => exact .guarded (State.reverse_kept _ _)
  | ambientStale dt => exact .guarded fun _ h => State.lsbFault_kept _ _ _ (State.onLsb_kept _ h)
  | keeperExpiry dt channel => exact execKeeperExpiry_steps _
  | keeperTrip dt load => exact .guarded fun _ h => State.keeperTripped_kept _ _ _ (State.sample_kept _ _ _ h)
  | keeperSupplyLoss dt vbat =>
    exact .guarded fun _ h =>
      have h := State.onLsb_kept _ h
      State.keeperDies_kept _ _ (ite_kept _ h (State.supplyCut_kept _ _ h))
  | lsbClearWrite dt value => exact .guarded (State.lsbClear_kept _)
  | feedbackEdge dt channel inputB levelA levelB => exact .guarded (State.feedbackEdge_kept _ _ _ _)
  | standstill dt channel =>
    exact .guarded fun _ h => State.raise_kept _ _ (State.onFch_kept _ _ _ (State.releaseEdge_kept _ _ h))
  | fbuModeWrite dt channel value => exact .guarded (State.chCfg_kept _ _)
  | sincosSample dt channel sin cos => exact .guarded (State.scTake_kept _ _ _)
  | cmpWrite dt comparator toCfg value => exact .guarded (State.cmpWrite_kept _ _ _)
  | probeEnableWrite dt probe value => exact .guarded (State.probeCfg_kept _ _)
  | probeLatch dt probe rising =>
    exact .guarded fun _ h =>
      have taken := State.capture_kept _ _ _ h
      have sampled := State.channelSample_kept _ _ _ _ _ (State.raise_kept _ _ taken)
      ite_kept _ (ite_kept _ (State.onProbe_kept _ _ _ (State.releaseTimer_kept _ _ sampled)) sampled) taken
  | captureEdge dt input level => exact .guarded (State.timersMeet_kept _ _ _)
  | capDataRead dt timer => exact execCapDataRead_steps _
  | capCfgWrite dt timer value => exact .guarded (State.capCfg_kept _ _)
  | auxSelWrite dt out ball value =>
    exact .guarded fun _ h => ite_kept _ (State.auxoSel_kept _ _ _ h) (State.auxiSel_kept _ _ _ h)
  | repeaterPulse dt repeater => exact .guarded fun _ h => State.onRep_kept _ _ _ h
  | repeaterSourceFail dt repeater => exact .guarded fun _ h => State.repFault_kept _ _ (State.onRep_kept _ _ _ h)
  | ainSample dt input microvolt => exact .guarded (State.ainTake_kept _ _)
  | feedbackSample dt ain index =>
    exact .guarded fun _ h => ite_kept _ (State.ainReport_kept _ _ h) (State.channelSample_kept _ _ _ _ _ h)
  | regSample dt context => exact execRegSample_steps _
  | regOutput dt context => exact .guarded (State.regOutput_kept _)
  | ctxEnableWrite dt context value => exact .guarded (State.ctxCfg_kept _ _)
  | ctxDisableWrite dt context value => exact .guarded (State.ctxCfg_kept _ _)
  | traceBlock dt quarter destOk => exact .guarded (State.traceOut_kept _ _)
  | ctlLoss dt => exact .guarded State.ctlLoss_kept
  | coilSample dt channel codes => exact execCoilSample_steps _ _
  | flowStep dt product => exact execFlowStep_steps _
  | meterUpdate dt context =>
    exact .guarded fun _ h =>
      have h := State.meterUpdate_kept _ _ h
      ite_kept _ h (State.swapsNow_kept _ _ h)
  | coalesceTimeout dt source => exact execCoalesceTimeout_steps _
  | extintEdge dt k rising heldCycles => exact .guarded fun _ h => State.onSrc_kept _ _ _ h
  | icuCommit dt target => exact .keeps (State.commitTarget_kept _ _ (Kept.elapsed s dt))
  | tgtClaimRead dt target => exact execTgtClaimRead_steps _
  | tgtEoiWrite dt target value => exact .guarded fun _ h => State.recommit_kept _ _ (fun _ _ => State.eoi_kept _ _) h
  | icuSwiWrite dt value => exact .guarded (State.swi_kept _)
  | icuPendWrite dt w value =>
    exact .guarded fun _ h => State.recommit_kept _ _ (fun _ _ => State.pendWrite_kept _ _ _) h
  | srcTargetWrite dt source value =>
    exact .guarded fun _ h => State.recommit_kept _ _ (fun _ _ => State.srcCfgWrite_kept _ _ _) h
  | tgtParkWrite dt target value =>
    exact .guarded fun _ h => State.recommit_kept _ _ (fun _ _ => State.tgtCfgWrite_kept _ _ _) h
  | parkGraceExpiry dt source => exact .guarded fun _ h => State.onSrc_kept _ _ _ h
  | msixUnmask dt entry => exact .guarded (State.unmask_kept _)
  | recordCommit dt readBackOk => exact execRecordCommit_steps _
  | evrPowerUpScan dt => exact execEvrPowerUpScan_steps
  | snapSelWrite dt value => exact .guarded (State.snapSel_kept _)
  | snapCommitWrite dt value => exact .guarded (State.snapCommit_kept _)
  | domainEnableWrite dt value => exact .guarded (State.domainEnWrite_kept _)
  | domainFailure dt domain => exact .guarded (State.failDomain_kept _)
  | functionReady dt bit => exact .guarded (State.functionReady_kept _)
  | powerOn dt => exact .powerOn (Kept.elapsed s dt)
  | porNRelease dt svcJ => exact .guarded (State.release_kept _)
  | rootClock dt => exact .guarded State.rootClock_kept
  | coreSupply dt => exact .guarded (State.dieReset_kept _)
  | thermalWarn dt celsius => exact .guarded (State.dieTemp_kept _)
  | thermal dt celsius => exact .guarded fun _ h => State.dieReset_kept _ _ (State.dieTemp_kept _ _ h)
  | supervisor dt domain => exact execSupervisor_steps _
  | aonFail dt => exact execAonFail_steps
  | hostRequest dt value => exact .guarded (State.resetCtl_kept _)
  | domainResetRequest dt value => exact .guarded (State.resetCtl_kept _)
  | plannedResetBegin dt => exact execPlannedResetBegin_steps
  | internalResetRelease dt => exact .guarded fun _ h => State.onPrs_kept _ h
  | powerFailWarning dt => exact .guarded State.powerFail_kept
  | powerFailRecover dt => exact .guarded fun _ h => State.raise_kept _ _ (State.onPrs_kept _ h)
  | beatOutToggle dt => exact .guarded fun _ h => State.onPrs_kept _ h
  | beatCtlWrite dt value => exact .guarded fun _ h => State.onPrs_kept _ h
  | keySwChange dt pressed => exact .guarded fun _ h => State.onPrs_kept _ h
  | keyPressTimer dt => exact .guarded State.keyStood_kept
  | keyTimeout dt => exact .guarded fun _ h => State.prsFault_kept _ _ (State.setWard_kept _ _ h)
  | wardExpiry dt => exact .guarded (State.setWard_kept _)
  | sealCheck dt follows => exact .guarded (State.sealTest_kept _)
  | registerWrite dt offset value allBytes => exact .guarded (State.regWrite_kept _ _)
  | tpPulseEnd dt => exact .guarded fun _ h => State.onTbu_kept _ rfl rfl h
  | comparePulseEnd dt comparator => exact execComparePulseEnd_steps _
  | channelPwmEdge dt channel => exact .guarded (State.pwmEdge_kept _)
  | antBiasRecover dt antenna milliamp =>
    exact .guarded fun _ h => State.setBias_kept _ _ _ (State.sampleBias_kept _ _ _ h)
  | linkDelayMeasure dt port => exact .guarded fun _ h => State.sendDelay_kept _ _ _ _ (State.onDport_kept _ _ _ h)
  | delayResp dt port h t1 t2 t3 t4 => exact execDelayResp_steps _ _ _ _ _ _

/-- Settles O60: the empty queue idles, and every command at its front steps. -/
theorem everyCommandCompletesInOrder : Obligations.EveryCommandCompletesInOrder := by
  unfold Obligations.EveryCommandCompletesInOrder
  intro s
  unfold step
  split
  · exact ⟨s, rfl, .inl (Nat.le_refl _), Nat.le_refl _, rfl, rfl⟩
  · next c rest _ => exact (exec_steps c { s with pending := rest }).timeGoesOn

end Sys2Proof.Machine

namespace Sys2Proof.Machine

/-! ### Clocks and counts (R24, R25, R28, R44) -/

/-- The answer of a command whose guard holds. -/
theorem next_when {u : State} {c : Bool} {f : State → State} (h : c = true) :
    (.next (u.when c f) : Answer) = .next (f u) := by rw [State.when_pos h]

theorem and_decide {b : Bool} {p : Prop} [Decidable p] (hb : b = true) (hp : p) : (b && decide p) = true := by
  rw [hb, decide_eq_true hp]; rfl

/-- Settles O12: each command runs under the guard that its premises give. -/
theorem clocksAndCountsRun : Obligations.ClocksAndCountsRun := by
  unfold Obligations.ClocksAndCountsRun
  refine ⟨fun dt s => rfl, ?_, ?_, ?_, ?_⟩
  · intro dt s u hr
    exact next_when hr
  · intro dt s u hr hk
    exact next_when (and_decide hr hk)
  · intro dt s u hr hk
    exact next_when (and_decide hr hk)
  · intro dt s u ha hk
    exact next_when (and_decide ha hk)

/-! ### Power-on reset and the release of POR_N (R25, R29, R358, R362, R363) -/

/-- Settles O20: a power-on reset builds its state from what is outside the block and in the MRAM. -/
theorem powerOnAndRelease : Obligations.PowerOnAndRelease := by
  unfold Obligations.PowerOnAndRelease
  refine ⟨?_, ?_, ?_⟩
  · intro dt s u
    refine ⟨u.powerOn 1, rfl, ?_⟩
    and_intros <;> rfl
  · intro dt svcJ s u hr
    exact next_when (congrArg not hr)
  · intro dt s u hr ha
    refine ⟨u.aonFail, next_when (by rw [hr, ha]; rfl), ?_⟩
    and_intros <;> rfl

/-! ### The state right after reset (R25, R58, R340, R341, R358) -/

theorem RecInv.empty : RecInv {} none where
  wf := rfl
  place := by intro k r h; cases h
  flight := by intro r h; cases h

theorem State.reset_isReady (k : Nat) : State.reset.isReady k = false := by
  show (0#14).getLsbD k = false
  exact BitVec.getLsbD_zero

/-- Settles O56: every table of the reset state is empty, so what it holds is the default. -/
theorem resetIsSound : Obligations.ResetIsSound := by
  unfold Obligations.ResetIsSound
  exact ⟨RecInv.empty, rfl, rfl, rfl, rfl, rfl, rfl, fun _ => ⟨rfl, rfl⟩, fun _ => rfl, State.reset_isReady, fun _ => rfl⟩

end Sys2Proof.Machine

namespace Sys2Proof.Machine

variable {s t : State}

/-! ### What the balance may change (R34-R41, R48) -/

theorem State.Reports.tbu (h : s.Reports t) : t.tbu = s.tbu := by
  unfold State.Reports at h; rw [h]

theorem State.Records.tbu (h : s.Records t) : t.tbu = s.tbu := by
  unfold State.Records at h; rw [h]

/-- A change of TBU, with what it raises and reports. -/
def State.BalanceWork (s t : State) : Prop := t = { s with tbu := t.tbu, icu := t.icu, hre := t.hre, out := t.out }

theorem State.BalanceWork.trans {a b c : State} (h : a.BalanceWork b) (g : b.BalanceWork c) : a.BalanceWork c := by
  unfold State.BalanceWork at *; rw [g, h]

theorem State.Reports.balanceWork (h : s.Reports t) : s.BalanceWork t := by
  unfold State.Reports at h
  rw [h]; rfl

theorem State.onTbu_balanceWork (s : State) (f : Tbu → Tbu) : s.BalanceWork (s.onTbu f) := rfl

/-- A change of TBU with what is then raised and reported. -/
theorem State.Reports.afterTbu {f : Tbu → Tbu} (h : (s.onTbu f).Reports t) : s.BalanceWork t :=
  (s.onTbu_balanceWork f).trans h.balanceWork

theorem State.timeEvent_reports (code a b c d : Nat) : s.Reports (s.timeEvent code a b c d) := State.report_reports ..
theorem State.timeNote_reports (code : Nat) (old : Tbu) : s.Reports (s.timeNote code old) := State.timeEvent_reports ..

/-- An event of the balance: its source and its TIME_EVENT. -/
theorem State.raiseNote_reports (n code : Nat) (old : Tbu) : s.Reports ((s.raise n).timeNote code old) :=
  (State.raise_reports n).trans (State.timeNote_reports code old)

theorem State.Reports.unless {c : Prop} [Decidable c] (h : s.Reports t) : s.Reports (if c then s else t) := by
  split
  · exact .refl
  · exact h

theorem State.noteBalance_reports (old : Tbu) : s.Reports (s.noteBalance old) :=
  (State.raiseNote_reports 465 1 old).unless.trans (State.raiseNote_reports 470 5 old).unless

theorem State.setBalance_reports (b : BalState) (k : Nat) :
    (s.onTbu fun t => { t with bal := b, source := k }).Reports (s.setBalance b k) := State.noteBalance_reports _

/-- Leaving a source sets the state, and what counts from the loss. -/
theorem State.unlock_tbu (s : State) (b : BalState) :
    ∃ unc tick, (s.unlock b).tbu = { s.tbu with srcUnc := unc, lossTick := tick, bal := b } := by
  unfold State.unlock
  split
  · exact ⟨_, _, (State.setBalance_reports b _).tbu⟩
  · exact ⟨_, _, (State.setBalance_reports b _).tbu⟩

theorem State.unlock_balanceWork (s : State) (b : BalState) : s.BalanceWork (s.unlock b) := by
  unfold State.unlock
  split
  · exact (s.onTbu_balanceWork _).trans (State.setBalance_reports b _).afterTbu
  · exact (State.setBalance_reports b _).afterTbu

/-! ### Calendar time (R27, R37) -/

theorem Tbu.calAt_base {t : Tbu} (h : t.calValid = true) : t.calAt t.calTick = t.calBase := by
  unfold Tbu.calAt
  simp [h]

/-- The balance's model with another slew from a tick on. -/
def Tbu.reslew (t : Tbu) (tick : Nat) (rate : Int) (e : Option Nat) : Tbu := { t.rebase tick with slew := rate, slewEnd := e }

theorem Tbu.reslew_frame (t : Tbu) (tick : Nat) (rate : Int) (e : Option Nat) :
    t.reslew tick rate e =
      { t with calBase := (t.reslew tick rate e).calBase, calTick := (t.reslew tick rate e).calTick, slew := rate, slewEnd := e } := by
  unfold Tbu.reslew Tbu.rebase
  split <;> rfl

/-- A change of rate leaves the calendar time of its tick. -/
theorem Tbu.reslew_calAt (t : Tbu) (tick : Nat) (rate : Int) (e : Option Nat) : (t.reslew tick rate e).calAt tick = t.calAt tick := by
  unfold Tbu.reslew Tbu.rebase
  split
  · next h => exact Tbu.calAt_base (t := { t with calBase := t.calAt tick, calTick := tick, slew := rate, slewEnd := e }) h
  · next h =>
    unfold Tbu.calAt
    rw [if_neg h, if_neg h]

/-! ### Second instants (R37, R43, R395) -/

/-- TBU once a pulse has been emitted at a tick. -/
def Tbu.pulsed (t : Tbu) (tick cycle : Nat) : Tbu :=
  let run := t.tpRunning || t.tpEnable
  { t with lastEmitted := some tick, minGap := 0, ppsStepNext := false,
           status := if t.ppsStepNext then setFlag t.status cycle 0 else t.status,
           tpRunning := run, tpCount := if t.tpRunning then t.tpCount + 1 else if run then 1 else t.tpCount,
           tpActive := run || t.tpActive, tpEdge := if run then tick else t.tpEdge }

theorem State.emitPulse_eq (s : State) : s.emitPulse = (s.onTbu fun t => t.pulsed s.now s.cycle).raise 464 := rfl

theorem State.emitPulse_tbu (s : State) : s.emitPulse.tbu = s.tbu.pulsed s.now s.cycle := by
  rw [State.emitPulse_eq, (State.raise_reports 464).tbu]; rfl

theorem State.emitPulse_frame (s : State) : s.emitPulse = { s with tbu := s.emitPulse.tbu, icu := s.emitPulse.icu } := by
  rw [State.emitPulse_eq, State.raise_frame]; rfl

/-- TP_OUT takes part in every pulse once it runs or is enabled. -/
theorem Tbu.pulsed_run {t : Tbu} (tick cycle : Nat) (h : t.tpRunning = true ∨ t.tpEnable = true) :
    (t.pulsed tick cycle).tpRunning = true ∧
      (t.pulsed tick cycle).tpCount = (if t.tpRunning then t.tpCount + 1 else 1) ∧
      (t.pulsed tick cycle).tpActive = true ∧ (t.pulsed tick cycle).tpEdge = tick := by
  have hr : (t.tpRunning || t.tpEnable) = true := by simpa using h
  simp [Tbu.pulsed, hr]

/-- A second instant before its step and its pulse: with source HOST the balance has left LOCKED (R34). -/
def State.atInstant (s : State) : State := (s.onTbu fun t => { t with lastInstant := some s.now }).hostHoldover

theorem State.atInstant_tbu (s : State) : ∃ unc tick b,
    s.atInstant.tbu = { s.tbu with lastInstant := some s.now, srcUnc := unc, lossTick := tick, bal := b } := by
  unfold State.atInstant State.hostHoldover
  split
  · obtain ⟨unc, tick, h⟩ := (s.onTbu fun t => { t with lastInstant := some s.now }).unlock_tbu .holdover
    exact ⟨unc, tick, _, h⟩
  · exact ⟨_, _, _, rfl⟩

theorem State.atInstant_now (s : State) : s.atInstant.now = s.now := by
  obtain ⟨_, _, _, h⟩ := s.atInstant_tbu
  unfold State.now; rw [h]

theorem State.atInstant_pend (s : State) : s.atInstant.tbu.pend = s.tbu.pend := by
  obtain ⟨_, _, _, h⟩ := s.atInstant_tbu
  rw [h]

theorem State.atInstant_calAt (s : State) (tick : Nat) : s.atInstant.tbu.calAt tick = s.tbu.calAt tick := by
  obtain ⟨_, _, _, h⟩ := s.atInstant_tbu
  rw [h]; rfl

/-- But for a LOCKED balance of source HOST the instant is only noted. -/
theorem State.atInstant_eq (h : ¬(s.tbu.bal = .locked ∧ s.tbu.source = 1)) :
    s.atInstant = s.onTbu fun t => { t with lastInstant := some s.now } := if_neg h

theorem State.secondInstant_emits (h : s.atInstant.tbu.pend = none) : s.secondInstant = s.atInstant.emitPulse := by
  unfold State.atInstant at h
  unfold State.secondInstant
  simp only [h]; rfl

theorem State.secondInstant_steps {p : PendStep} (h : s.atInstant.tbu.pend = some p) (he : p.atEdge = true) :
    s.secondInstant = (s.atInstant.applyStep p).emitPulse := by
  unfold State.atInstant at h
  unfold State.secondInstant
  simp only [h, he, if_true]; rfl

/-- Ending a slew: TBU's rate where one runs. -/
theorem State.endSlew_tbu (s : State) : s.endSlew.tbu = if s.tbu.slewEnd.isSome then s.tbu.reslew s.now 0 none else s.tbu := by
  unfold State.endSlew
  split
  · exact (State.raiseNote_reports 467 4 s.tbu).tbu
  · rfl

theorem State.endSlew_now (s : State) : s.endSlew.now = s.now := by
  unfold State.now
  rw [State.endSlew_tbu]
  split
  · rw [Tbu.reslew_frame]
  · rfl

/-- A step that is not the first setting: the calendar time of the tick less the error, and the source in charge (R37). -/
theorem State.applyStep_tbu {p : PendStep} (h : p.first = false) :
    (s.applyStep p).tbu =
      { s.endSlew.tbu.locked p.source p.unc p.utc with
        calValid := true, calBase := s.tbu.calAt s.now - p.d, calTick := s.endSlew.now, stepTick := some s.endSlew.now, pend := none,
        ppsStepNext := true } := by
  unfold State.applyStep
  extract_lets old oldCal new s1 s2 newCal s3 s4 s5
  have h5 : s3.Reports s5 := by
    have h4 : s3.Reports s4 := (State.raise_reports 466).trans (State.timeEvent_reports ..)
    simp only [s5]
    split
    · exact h4.trans (State.timeEvent_reports ..)
    · exact h4
  have hnew : new = s.tbu.calAt s.now - p.d := by simp only [new, h, Bool.false_eq_true, if_false]
  rw [(State.finishAll_reports ..).tbu, (State.finishAll_reports ..).tbu, (State.noteBalance_reports _).tbu, h5.tbu,
    (State.record_records ..).tbu, ← hnew]
  rfl

theorem State.applyStep_now {p : PendStep} (h : p.first = false) : (s.applyStep p).now = s.now := by
  refine Eq.trans ?_ s.endSlew_now
  unfold State.now
  rw [State.applyStep_tbu h]; rfl

theorem State.applyStep_calAt {p : PendStep} (h : p.first = false) :
    (s.applyStep p).tbu.calAt s.now = s.tbu.calAt s.now - p.d := by
  have hx := State.applyStep_tbu (s := s) h
  rw [State.endSlew_now] at hx
  rw [hx]
  exact Tbu.calAt_base (t := { s.endSlew.tbu.locked p.source p.unc p.utc with
    calValid := true, calBase := s.tbu.calAt s.now - p.d, calTick := s.now, stepTick := some s.now, pend := none,
    ppsStepNext := true }) rfl

/-- R43, R395: with no step waiting the instant emits a pulse, and TP_OUT takes part in it. -/
theorem secondInstant_pulse (dt : Nat) (s : State) :
    let u := s.elapse dt
    u.tbu.instantDue u.now = true → u.tbu.pend = none → ¬ (u.tbu.bal = .locked ∧ u.tbu.source = 1) →
    ∃ t : State, exec (.secondInstant dt) s = .next t ∧ t.tbu.lastInstant = some u.now ∧ t.tbu.lastEmitted = some u.now ∧
      t.tbu.ppsStepNext = false ∧ t.tbu.bal = u.tbu.bal ∧ t.tbu.calBase = u.tbu.calBase ∧ t.tbu.calTick = u.tbu.calTick ∧
      (u.tbu.tpRunning = true ∨ u.tbu.tpEnable = true →
        t.tbu.tpRunning = true ∧ t.tbu.tpCount = (if u.tbu.tpRunning then u.tbu.tpCount + 1 else 1) ∧ t.tbu.tpActive = true ∧
          t.tbu.tpEdge = u.now) ∧
      t = { u with tbu := t.tbu, icu := t.icu } := by
  intro u hdue hpend hbal
  have hx := State.atInstant_eq (s := u) hbal
  have hp : u.atInstant.tbu.pend = none := by rw [hx]; exact hpend
  refine ⟨u.atInstant.emitPulse, (next_when hdue).trans (congrArg _ (State.secondInstant_emits hp)), ?_⟩
  rw [State.emitPulse_tbu, hx]
  refine ⟨rfl, rfl, rfl, rfl, rfl, rfl, fun hrun => Tbu.pulsed_run _ _ hrun, ?_⟩
  rw [State.emitPulse_frame, State.emitPulse_tbu]; rfl

/-- R37: a step within 500 ms moves calendar time by its error, then the pulse goes out. -/
theorem secondInstant_step (dt : Nat) (s : State) (p : PendStep) :
    let u := s.elapse dt
    u.tbu.instantDue u.now = true → u.tbu.pend = some p → p.first = false → p.d.natAbs ≤ 500000000 →
    u.tbu.calValid = true →
    ∃ t : State, exec (.secondInstant dt) s = .next t ∧ t.tbu.pend = none ∧ t.tbu.calAt u.now = u.tbu.calAt u.now - p.d ∧
      t.tbu.stepTick = some u.now ∧ t.tbu.bal = .locked ∧ t.tbu.source = p.source ∧ t.tbu.lastEmitted = some u.now := by
  intro u hdue hpend hfirst hd _
  have hedge : p.atEdge = true := by unfold PendStep.atEdge; rw [hfirst, decide_eq_true hd]; rfl
  have hp : u.atInstant.tbu.pend = some p := u.atInstant_pend.trans hpend
  have hnow : (u.atInstant.applyStep p).now = u.now := (State.applyStep_now hfirst).trans u.atInstant_now
  have hcal : (u.atInstant.applyStep p).tbu.calAt u.now = u.tbu.calAt u.now - p.d := by
    rw [← u.atInstant_calAt, ← u.atInstant_now, State.applyStep_calAt hfirst]
  have htbu := State.applyStep_tbu (s := u.atInstant) hfirst
  refine ⟨(u.atInstant.applyStep p).emitPulse, (next_when hdue).trans (congrArg _ (State.secondInstant_steps hp hedge)), ?_⟩
  rw [State.emitPulse_tbu, hnow]
  refine ⟨?_, hcal, ?_, ?_, ?_, rfl⟩
  · show (u.atInstant.applyStep p).tbu.pend = none
    rw [htbu]
  · show (u.atInstant.applyStep p).tbu.stepTick = some u.now
    rw [htbu, ← u.atInstant_now, ← u.atInstant.endSlew_now]
  · show (u.atInstant.applyStep p).tbu.bal = .locked
    rw [htbu]; rfl
  · show (u.atInstant.applyStep p).tbu.source = p.source
    rw [htbu]; rfl

/-! ### The balance (R34, R37, R40, R41) -/

theorem State.timeNote_frame {f : Tbu → Tbu} {n code : Nat} {old : Tbu} {t : State}
    (h : t = ((s.onTbu f).raise n).timeNote code old) : t.tbu = f s.tbu ∧ s.BalanceWork t := by
  have hr : (s.onTbu f).Reports t := h ▸ State.raiseNote_reports n code old
  exact ⟨hr.tbu, hr.afterTbu⟩

theorem exec_slewDone {dt e : Nat} (h : (s.elapse dt).tbu.slewEnd = some e) (he : e ≤ (s.elapse dt).now) :
    exec (.slewDone dt) s =
      .next ((((s.elapse dt).onTbu fun t => t.reslew e 0 none).raise 467).timeNote 4 (s.elapse dt).tbu) := by
  show execSlewDone dt s = _
  unfold execSlewDone
  simp only [h]
  exact next_when (decide_eq_true he)

/-- R37, R40: the rate of a slew ends at the tick at which it was due. -/
theorem slewDone_ends (dt e : Nat) (s : State) :
    let u := s.elapse dt
    u.tbu.slewEnd = some e → e ≤ u.now →
    ∃ t : State, exec (.slewDone dt) s = .next t ∧ t.tbu.slew = 0 ∧ t.tbu.slewEnd = none ∧ t.tbu.calAt e = u.tbu.calAt e ∧
      t.tbu.bal = u.tbu.bal ∧ t = { u with tbu := t.tbu, icu := t.icu, hre := t.hre, out := t.out } := by
  intro u h he
  obtain ⟨htbu, hframe⟩ := State.timeNote_frame (s := u) (f := fun t => t.reslew e 0 none) (n := 467) (code := 4) (old := u.tbu) rfl
  refine ⟨_, exec_slewDone h he, ?_, ?_, ?_, ?_, hframe⟩
  all_goals rw [htbu]
  · rfl
  · rfl
  · exact Tbu.reslew_calAt ..
  · rw [Tbu.reslew_frame]

/-- R34, R47: HOLDOVER ends in FREERUN, with HOLD_EXPIRED. -/
theorem State.enterFreerun_holdover (h : s.tbu.bal = .holdover) :
    s.enterFreerun.tbu = { s.tbu with bal := .freerun, status := setFlag s.tbu.status s.cycle 2 } ∧
      s.BalanceWork s.enterFreerun := by
  let f (t : Tbu) : Tbu := { t with status := setFlag t.status s.cycle 2 }
  have hx : s.enterFreerun = ((s.onTbu f).raise 468).setBalance .freerun s.tbu.source := if_pos h
  have hr := (State.raise_reports (s := s.onTbu f) 468)
  have hb := State.setBalance_reports (s := (s.onTbu f).raise 468) .freerun s.tbu.source
  rw [hx]
  refine ⟨?_, hr.afterTbu.trans hb.afterTbu⟩
  rw [hb.tbu]
  show ({ ((s.onTbu f).raise 468).tbu with bal := .freerun, source := s.tbu.source } : Tbu) = _
  rw [hr.tbu]; rfl

theorem holdLimit_freeruns (dt : Nat) (s : State) :
    let u := s.elapse dt
    u.tbu.bal = .holdover → u.tbu.lossTick + u.tbu.holdLimit * 200000000 ≤ u.now →
    ∃ t : State, exec (.holdLimit dt) s = .next t ∧ t.tbu = { u.tbu with bal := .freerun, status := setFlag u.tbu.status u.cycle 2 } ∧
      t = { u with tbu := t.tbu, icu := t.icu, hre := t.hre, out := t.out } := by
  intro u hb hk
  exact ⟨u.enterFreerun, next_when (and_decide (by rw [hb]; rfl) hk), State.enterFreerun_holdover hb⟩

/-- R41: a suspect run is discarded, with its TIME_EVENT. -/
theorem State.rejectRun_some {r : SuspectRun} (h : s.tbu.suspect = some r) :
    s.rejectRun = (((s.onTbu fun t => { t with suspect := none }).raise 469).timeNote 7 s.tbu) :=
  if_pos (by rw [h]; rfl)

theorem suspectRunTimeout_discards (dt : Nat) (s : State) (r : SuspectRun) :
    let u := s.elapse dt
    u.tbu.suspect = some r → r.lastTick + 400000000 ≤ u.now →
    ∃ t : State, exec (.suspectRunTimeout dt) s = .next t ∧ t.tbu = { u.tbu with suspect := none } ∧
      t = { u with tbu := t.tbu, icu := t.icu, hre := t.hre, out := t.out } := by
  intro u h hk
  refine ⟨u.rejectRun, ?_, State.timeNote_frame (State.rejectRun_some h)⟩
  show execSuspectRunTimeout dt s = _
  unfold execSuspectRunTimeout
  simp only [show (s.elapse dt).tbu.suspect = some r from h]
  exact next_when (decide_eq_true hk)

/-! ### The time pulse's settings (R43, R49) -/

theorem State.tpCfgWrite_idle {v : Word} (hv : bit v 0 = true) (h : s.tbu.tpRunning = false) :
    s.tpCfgWrite v = { s with tbu := { s.tbu with tpEnable := true, tpPol := bit v 1, tpWidth := nearest 1 500 (bits v 2 9) } } := by
  unfold State.tpCfgWrite State.onTbu
  simp [h, hv]

theorem State.tpCfgWrite_running {v : Word} (hv : bit v 0 = true) (h : s.tbu.tpRunning = true) :
    s.tpCfgWrite v = { s with tbu := { s.tbu with tpEnable := true, status := setFlag s.tbu.status s.cycle 4 } } := by
  unfold State.tpCfgWrite State.onTbu
  simp [h, hv]

theorem exec_tpEnableWrite {dt : Nat} {v : Word} (hh : (s.elapse dt).hostUp = true) (hv : bit v 0 = true) :
    exec (.tpEnableWrite dt v) s = .next ((s.elapse dt).tpCfgWrite v) :=
  next_when (Bool.and_eq_true_iff.mpr ⟨hh, hv⟩)

/-- Settles O13, form by form: second instants, TP_ENABLE, and the ends of a slew, of holdover and of a suspect run. -/
theorem balanceFollowsItsRules : Obligations.BalanceFollowsItsRules := by
  unfold Obligations.BalanceFollowsItsRules
  refine ⟨secondInstant_pulse, secondInstant_step, ?_, ?_, slewDone_ends, holdLimit_freeruns, suspectRunTimeout_discards⟩
  · intro dt v s u hh hv hr
    rw [exec_tpEnableWrite hh hv, State.tpCfgWrite_idle hv hr]
  · intro dt v s u hh hv hr
    rw [exec_tpEnableWrite hh hv, State.tpCfgWrite_running hv hr]

end Sys2Proof.Machine

namespace Sys2Proof.Machine

variable {s t : State} {d : Slot} {f : Slot → Slot} {l : List Slot} {ring : Nat}

/-! ### A descriptor that has started stays in its ring (R66-R68) -/

theorem onFirst_keeps (h : d.waiting = false) (hd : d ∈ l) : d ∈ onFirst f l := by
  induction l with
  | nil => cases hd
  | cons e l ih =>
    unfold onFirst
    split
    · next he =>
      have hne : d ≠ e := fun hde => by rw [hde, he] at h; cases h
      exact List.mem_cons_of_mem _ ((List.mem_cons.mp hd).resolve_left hne)
    · rcases List.mem_cons.mp hd with rfl | hd
      · exact List.mem_cons_self
      · exact List.mem_cons_of_mem _ (ih hd)

theorem onFirst_changes (h : l.find? Slot.waiting = some d) : f d ∈ onFirst f l := by
  induction l with
  | nil => cases h
  | cons e l ih =>
    rw [List.find?_cons] at h
    unfold onFirst
    split at h
    · next he =>
      cases h
      rw [if_pos he]
      exact List.mem_cons_self
    · next he =>
      rw [if_neg (by simpa using he)]
      exact List.mem_cons_of_mem _ (ih h)

theorem Slot.waiting_started (h : d.stage = .started) : d.waiting = false := by
  unfold Slot.waiting
  rw [h]; rfl

/-- Judging heads changes none but waiting slots. -/
theorem State.settleLoop_started (n : Nat) (h : d.stage = .started) (hd : d ∈ (s.ring ring).slots) :
    d ∈ ((s.settleLoop ring n).ring ring).slots := by
  induction n generalizing s with
  | zero => exact hd
  | succ n ih =>
    have hfirst (f : Slot → Slot) : d ∈ ((s.onRing ring fun r => { r with slots := onFirst f r.slots }).ring ring).slots := by
      rw [State.onRing_ring]
      exact onFirst_keeps (Slot.waiting_started h) hd
    unfold State.settleLoop
    split
    · exact hd
    · split
      · split
        · exact hfirst _
        · exact ih (hfirst _)
      · exact hd

/-- Completions leave a ring for finished slots only. -/
theorem State.flushLoop_started (n : Nat) (hr : ring < 16) (h : d.stage = .started) (hd : d ∈ (s.ring ring).slots) :
    d ∈ ((s.flushLoop ring n).ring ring).slots := by
  induction n generalizing s with
  | zero => exact hd
  | succ n ih =>
    unfold State.flushLoop
    split
    · exact hd
    · next e l hs =>
      split
      · next he =>
        refine ih ?_
        rw [State.complete_ring _ _ hr, State.onRing_ring]
        rw [hs] at hd
        have hne : d ≠ e := fun hde => by rw [hde, he] at h; cases h
        exact (List.mem_cons.mp hd).resolve_left hne
      · exact hd

theorem State.settle_started (hr : ring < 16) (h : d.stage = .started) (hd : d ∈ (s.ring ring).slots) :
    d ∈ ((s.settle ring).ring ring).slots :=
  State.flushLoop_started _ hr h (State.settleLoop_started _ h hd)

theorem State.startHead_started (marks : List (Nat × Word)) (hr : ring < 16) (hh : (s.ring ring).head = some d) :
    ∃ x ∈ ((s.startHead ring marks).ring ring).slots, x.index = d.index ∧ x.stage = .started := by
  refine ⟨{ d with stage := .started, startTick := s.now, marks }, State.settle_started hr rfl ?_, rfl, rfl⟩
  rw [State.onRing_ring]
  exact onFirst_changes hh

/-! ### Slews (R37) -/

variable {source unc : Nat} {off e : Int} {utc : Option Int} {w : Option (Nat × Word)} {old : Tbu}

/-- The balance's model as a slew of the error `e` starts. -/
def Tbu.slewing (t : Tbu) (e : Int) (tick : Nat) : Tbu :=
  t.reslew tick (if 0 < e then -((max 1 t.slewMax : Nat) : Int) else (max 1 t.slewMax : Nat))
    (some (tick + (e.natAbs * secTicks + max 1 t.slewMax - 1) / max 1 t.slewMax))

theorem State.startSlew_tbu (h : e ≠ 0) : (s.startSlew e old).tbu = s.tbu.slewing e s.now := by
  unfold State.startSlew
  rw [if_neg h]
  exact (State.raiseNote_reports (s := s.onTbu fun t => t.slewing e s.now) 467 3 old).unless.tbu

theorem State.startSlew_zero (s : State) (old : Tbu) : s.startSlew 0 old = s.endSlew := rfl

/-- A slew's start changes the rate and the reference of calendar time only, and moves no calendar time. -/
theorem State.startSlew_rate (s : State) (e : Int) (old : Tbu) :
    (∃ base tick rate k, (s.startSlew e old).tbu = { s.tbu with calBase := base, calTick := tick, slew := rate, slewEnd := k }) ∧
      (s.startSlew e old).tbu.calAt s.now = s.tbu.calAt s.now := by
  by_cases h : e = 0
  · rw [h, State.startSlew_zero, State.endSlew_tbu]
    split
    · exact ⟨⟨_, _, _, _, Tbu.reslew_frame ..⟩, Tbu.reslew_calAt ..⟩
    · exact ⟨⟨_, _, _, _, rfl⟩, rfl⟩
  · rw [State.startSlew_tbu h]
    exact ⟨⟨_, _, _, _, Tbu.reslew_frame ..⟩, Tbu.reslew_calAt ..⟩

/-- The rate runs against the error. -/
theorem State.startSlew_sign (s : State) (e : Int) (old : Tbu) :
    let t := (s.startSlew e old).tbu
    (0 < e → t.slew < 0 ∧ t.slewEnd.isSome = true) ∧ (e < 0 → 0 < t.slew ∧ t.slewEnd.isSome = true) ∧
      (e = 0 → s.tbu.slewEnd = none → t.slewEnd = none) := by
  intro t
  have hm : (0 : Int) < (max 1 s.tbu.slewMax : Nat) := by omega
  have hslew (h : e ≠ 0) : t.slew = (if 0 < e then -((max 1 s.tbu.slewMax : Nat) : Int) else (max 1 s.tbu.slewMax : Nat)) ∧
      t.slewEnd.isSome = true := by
    show (s.startSlew e old).tbu.slew = _ ∧ (s.startSlew e old).tbu.slewEnd.isSome = true
    rw [State.startSlew_tbu h]
    exact ⟨rfl, rfl⟩
  refine ⟨fun h => ?_, fun h => ?_, fun h hk => ?_⟩
  · obtain ⟨hrate, hend⟩ := hslew (by omega)
    rw [hrate, if_pos h]
    exact ⟨by omega, hend⟩
  · obtain ⟨hrate, hend⟩ := hslew (by omega)
    rw [hrate, if_neg (by omega)]
    exact ⟨hm, hend⟩
  · show (s.startSlew e old).tbu.slewEnd = none
    rw [h, State.startSlew_zero, State.endSlew_tbu, hk]
    exact hk

/-! ### Steering with no step waiting (R37) -/

theorem State.steer_first (hp : s.tbu.pend = none) (hc : s.tbu.calValid = false) :
    s.steer source off unc utc false w =
      { s with tbu := { s.tbu with pend := some { d := off, source, unc, first := true, utc, waiters := w.toList } } } := by
  unfold State.steer
  simp only [hp, List.nil_append]
  exact if_pos hc

theorem State.steer_steps (hp : s.tbu.pend = none) (hc : s.tbu.calValid = true)
    (he : s.tbu.stepThresh * 1000 < (s.timeError off).natAbs) :
    s.steer source off unc utc false w =
      { s with tbu := { s.tbu with
          pend := some { d := s.timeError off, source, unc, first := false, utc, waiters := w.toList } } } := by
  unfold State.steer
  simp only [hp, List.nil_append]
  rw [if_neg (by simp [hc]), if_neg (by omega)]; rfl

/-- TBU with the step gone and a source locked. -/
def State.lockedTo (s : State) (source unc : Nat) (utc : Option Int) : State :=
  s.onTbu fun t => Tbu.locked { t with pend := none } source unc utc

/-- A small error locks the balance and slews; the rest of it raises and reports. -/
theorem State.steer_slews (hp : s.tbu.pend = none) (hc : s.tbu.calValid = true)
    (he : (s.timeError off).natAbs ≤ s.tbu.stepThresh * 1000) :
    (s.steer source off unc utc false w).tbu =
      ((s.lockedTo source unc utc).startSlew (s.timeError off) { s.tbu with pend := none }).tbu := by
  unfold State.steer
  simp only [hp, hc, Bool.true_eq_false, if_false, he, and_self, if_true]
  rw [(State.finishAll_reports ..).tbu, (State.finishAll_reports ..).tbu, (State.noteBalance_reports _).tbu]
  rfl

theorem State.steer_locks (hp : s.tbu.pend = none) (hc : s.tbu.calValid = true)
    (he : (s.timeError off).natAbs ≤ s.tbu.stepThresh * 1000) :
    let t := s.steer source off unc utc false w
    t.tbu.bal = .locked ∧ t.tbu.source = source ∧ t.tbu.srcUnc = unc ∧ t.tbu.pend = none ∧ t.tbu.calAt s.now = s.tbu.calAt s.now ∧
      (0 < s.timeError off → t.tbu.slew < 0 ∧ t.tbu.slewEnd.isSome = true) ∧
      (s.timeError off < 0 → 0 < t.tbu.slew ∧ t.tbu.slewEnd.isSome = true) ∧
      (s.timeError off = 0 → s.tbu.slewEnd = none → t.tbu.slewEnd = none) := by
  intro t
  have ht : t.tbu = ((s.lockedTo source unc utc).startSlew (s.timeError off) { s.tbu with pend := none }).tbu :=
    State.steer_slews hp hc he
  obtain ⟨⟨base, tick, rate, k, hrate⟩, hcal⟩ :=
    (s.lockedTo source unc utc).startSlew_rate (s.timeError off) { s.tbu with pend := none }
  rw [ht]
  refine ⟨?_, ?_, ?_, ?_, hcal, State.startSlew_sign ..⟩
  all_goals rw [hrate]; rfl

/-! ### TIME_SET (R46) -/

/-- What TIME_SET does once its checks have passed: cases 3 to 6 of R46. -/
def State.answerTimeSet (ring : Nat) (d : Slot) (b : State) : State :=
  if dFlag d.desc 2 then
    ((b.onTbu fun t => { t with hostForced := true }).startHead ring []).steer 4
      (b.timeSetOffset d.desc) (dfield d.desc 32 4) (timeSetUtc d.desc) false (some (ring, d.index))
  else if b.tbu.hostForced then b.finishHead ring stAborted 2 0
  else if b.tbu.gnssValid then b.finishHead ring stAborted 1 0
  else
    (b.startHead ring []).steer 1
      (b.timeSetOffset d.desc) (dfield d.desc 32 4) (timeSetUtc d.desc) false (some (ring, d.index))

theorem State.settle_timeSetOffset (s : State) (ring : Nat) (x : DescBits) :
    (s.settle ring).timeSetOffset x = s.timeSetOffset x := by
  unfold State.timeSetOffset
  rw [State.settle_now]

section Run
variable {dt : Nat} (hd : (s.elapse dt).headRuns ring 0x16 d)
  (hc : checksPass (((s.elapse dt).settle ring).timeSetChecks d.desc))
include hd hc

theorem exec_timeSet (h : (dFlag d.desc 4 && !dFlag d.desc 2) = false) :
    exec (.timeSet dt ring) s = .next (((s.elapse dt).settle ring).answerTimeSet ring d) := by
  show execTimeSet dt ring s = _
  unfold execTimeSet
  rw [State.runDesc_headRuns hd]
  simp only [h, Bool.false_eq_true, if_false]
  rw [State.checked_pass hc]; rfl

theorem exec_timeSetRelease (h2 : dFlag d.desc 2 = false) (h4 : dFlag d.desc 4 = true) :
    exec (.timeSetRelease dt ring) s =
      .next ((if (s.elapse dt).tbu.hostForced then ((s.elapse dt).settle ring).endForce else (s.elapse dt).settle ring).finishHead
        ring stOk 0 0) := by
  show execTimeSetRelease dt ring s = _
  unfold execTimeSetRelease
  rw [State.runDesc_headRuns hd]
  simp only [h2, h4, Bool.not_false, Bool.and_self, if_true]
  rw [State.checked_pass hc, (State.settle_reports ring).tbu]

end Run

/-- HOST_FORCED ends: the forced step and the source that is lost (R34, R46; log 154), before any TIME_SET is answered. -/
def State.unforced (s : State) : State :=
  let t := s.onTbu fun t =>
    { t with hostForced := false, noTest := true,
             pend := if (s.tbu.pend.filter fun p => p.source == 4).isSome then none else t.pend }
  if t.tbu.bal = .locked then t.unlock .holdover else t

theorem State.endForce_reports (s : State) : s.unforced.Reports s.endForce := by
  unfold State.endForce
  extract_lets drop
  cases drop with
  | some p => exact State.finishAll_reports ..
  | none => exact .refl

theorem State.unforced_balanceWork (s : State) : s.BalanceWork s.unforced := by
  unfold State.unforced
  extract_lets t
  split
  · exact (s.onTbu_balanceWork _).trans (t.unlock_balanceWork _)
  · exact s.onTbu_balanceWork _

theorem State.unforced_tbu (s : State) :
    ∃ unc tick b, (s.tbu.bal = .locked → b = .holdover) ∧
      s.unforced.tbu =
        { s.tbu with
          hostForced := false, noTest := true, srcUnc := unc, lossTick := tick, bal := b,
          pend := if (s.tbu.pend.filter fun p => p.source == 4).isSome then none else s.tbu.pend } := by
  unfold State.unforced
  extract_lets t
  split
  · obtain ⟨unc, tick, h⟩ := t.unlock_tbu .holdover
    exact ⟨unc, tick, _, fun _ => rfl, h⟩
  · next h => exact ⟨_, _, _, fun hb => absurd hb h, rfl⟩

/-- A forced step that waits falls away, any other stays (log 154). -/
theorem filter_forced {o : Option PendStep} {p : PendStep} (h : o = some p) :
    (if (o.filter fun p => p.source == 4).isSome then none else o) = if p.source = 4 then none else some p := by
  subst h
  by_cases hp : p.source = 4 <;> simp [Option.filter, hp]

/-! ### TIME_SET, case by case -/

section Cases
variable {dt : Nat} (hd : (s.elapse dt).headRuns ring 0x16 d)
  (hc : checksPass (((s.elapse dt).settle ring).timeSetChecks d.desc))
include hd hc

theorem timeSet_forces (h2 : dFlag d.desc 2 = true) (h4 : dFlag d.desc 4 = false) :
    ∃ v : State, exec (.timeSet dt ring) s =
        .next (v.steer 4 ((s.elapse dt).timeSetOffset d.desc) (dfield d.desc 32 4) (timeSetUtc d.desc) false
          (some (ring, d.index))) ∧
      v.tbu = { (s.elapse dt).tbu with hostForced := true } ∧
      ∃ x ∈ (v.ring ring).slots, x.index = d.index ∧ x.stage = .started := by
  refine ⟨(((s.elapse dt).settle ring).onTbu fun t => { t with hostForced := true }).startHead ring [], ?_, ?_,
    State.startHead_started [] hd.1 (State.headRuns_settle hd).1⟩
  · rw [exec_timeSet hd hc (by rw [h4]; rfl), State.answerTimeSet, if_pos h2, State.settle_timeSetOffset]
  · rw [(State.startHead_reports ..).tbu]
    show ({ ((s.elapse dt).settle ring).tbu with hostForced := true } : Tbu) = _
    rw [(State.settle_reports ring).tbu]

theorem timeSet_steers (h2 : dFlag d.desc 2 = false) (h4 : dFlag d.desc 4 = false) (hf : (s.elapse dt).tbu.hostForced = false)
    (hg : (s.elapse dt).tbu.gnssValid = false) :
    ∃ v : State, exec (.timeSet dt ring) s =
        .next (v.steer 1 ((s.elapse dt).timeSetOffset d.desc) (dfield d.desc 32 4) (timeSetUtc d.desc) false
          (some (ring, d.index))) ∧
      v.tbu = (s.elapse dt).tbu ∧ ∃ x ∈ (v.ring ring).slots, x.index = d.index ∧ x.stage = .started := by
  refine ⟨((s.elapse dt).settle ring).startHead ring [], ?_, (State.startHead_reports ..).tbu.trans (State.settle_reports ring).tbu,
    State.startHead_started [] hd.1 (State.headRuns_settle hd).1⟩
  rw [exec_timeSet hd hc (by rw [h4]; rfl), State.answerTimeSet, (State.settle_reports ring).tbu, State.settle_timeSetOffset]
  simp only [h2, hf, hg, Bool.false_eq_true, if_false]

theorem timeSet_forced (h2 : dFlag d.desc 2 = false) (h4 : dFlag d.desc 4 = false) (hf : (s.elapse dt).tbu.hostForced = true) :
    exec (.timeSet dt ring) s = .next (((s.elapse dt).settle ring).finishHead ring 0x08 2 0) := by
  rw [exec_timeSet hd hc (by rw [h4]; rfl), State.answerTimeSet, (State.settle_reports ring).tbu]
  simp only [h2, hf, Bool.false_eq_true, if_false, if_true]; rfl

theorem timeSet_overruled (h2 : dFlag d.desc 2 = false) (h4 : dFlag d.desc 4 = false) (hf : (s.elapse dt).tbu.hostForced = false)
    (hg : (s.elapse dt).tbu.gnssValid = true) :
    exec (.timeSet dt ring) s = .next (((s.elapse dt).settle ring).finishHead ring 0x08 1 0) := by
  rw [exec_timeSet hd hc (by rw [h4]; rfl), State.answerTimeSet, (State.settle_reports ring).tbu]
  simp only [h2, hf, hg, Bool.false_eq_true, if_false, if_true]; rfl

theorem timeSetRelease_unforced (h2 : dFlag d.desc 2 = false) (h4 : dFlag d.desc 4 = true)
    (hf : (s.elapse dt).tbu.hostForced = false) :
    exec (.timeSetRelease dt ring) s = .next (((s.elapse dt).settle ring).finishHead ring 0x00 0 0) := by
  rw [exec_timeSetRelease hd hc h2 h4, hf]; rfl

theorem timeSetRelease_releases (h2 : dFlag d.desc 2 = false) (h4 : dFlag d.desc 4 = true)
    (hf : (s.elapse dt).tbu.hostForced = true) :
    ∃ v : State, exec (.timeSetRelease dt ring) s = .next (v.finishHead ring 0x00 0 0) ∧ v.tbu.hostForced = false ∧
      v.tbu.noTest = true ∧ ((s.elapse dt).tbu.bal = .locked → v.tbu.bal = .holdover) ∧
      (∀ p, (s.elapse dt).tbu.pend = some p → v.tbu.pend = if p.source = 4 then none else some p) ∧
      ((s.elapse dt).settle ring).BalanceWork v := by
  obtain ⟨unc, tick, b, hb, htbu⟩ := ((s.elapse dt).settle ring).unforced_tbu
  rw [← (State.endForce_reports _).tbu, (State.settle_reports ring).tbu] at htbu
  rw [(State.settle_reports ring).tbu] at hb
  refine ⟨((s.elapse dt).settle ring).endForce, ?_, ?_, ?_, ?_, ?_,
    (State.unforced_balanceWork _).trans (State.endForce_reports _).balanceWork⟩
  · rw [exec_timeSetRelease hd hc h2 h4, hf]; rfl
  all_goals rw [htbu]
  · exact hb
  · exact fun p hp => filter_forced hp

end Cases

/-- Settles O14: TIME_SET case by case, and the steering it asks for. -/
theorem timeSetFollowsItsCases : Obligations.TimeSetFollowsItsCases := by
  unfold Obligations.TimeSetFollowsItsCases
  refine ⟨?_, fun source unc off utc w s hp =>
    ⟨State.steer_first hp, fun hc => ⟨State.steer_steps hp hc, State.steer_locks hp hc⟩⟩⟩
  intro dt ring s d u b off hd hc
  exact ⟨timeSet_forces hd hc, timeSet_forced hd hc, timeSet_overruled hd hc, timeSet_steers hd hc,
    timeSetRelease_unforced hd hc, timeSetRelease_releases hd hc⟩

end Sys2Proof.Machine

namespace Sys2Proof.Machine

variable {s t : State} {d : Slot} {f : Slot → Slot} {l : List Slot} {ring c : Nat}

/-! ### A report that its ring takes at once (R53, R74, R76) -/

/-- `t` is `s` after a report has left into the next slot of ring `c`: the newest write, with the ring's next sequence
number and the flag of an earlier drop; nothing else moves but the ring and its interrupt source. -/
structure State.Wrote (c : Nat) (rp : Report) (s t : State) : Prop where
  host : t.out.host = .report c ((s.ring c).slotAddr (s.ring c).prod)
    { rp with flags := rp.flags + b2n (s.ring c).dropped, seq := (s.ring c).seq } :: s.out.host
  ring : t.ring c = { s.ring c with dropped := false, seq := (s.ring c).seq + 1, prod := (s.ring c).prod + 1 }
  others : ∀ n, n ≠ c → t.ring n = s.ring n
  srcs : ∀ n, n ≠ c → t.src n = s.src n
  frame : t = { s with out := t.out, hre := { s.hre with rings := t.hre.rings }, icu := { s.icu with srcs := t.icu.srcs } }

theorem State.raise_src_ne {n k : Nat} (h : k ≠ n) : (s.raise n).src k = s.src k := by
  unfold State.raise
  split
  · exact State.onSrc_src_ne s n k _ h
  · rfl

theorem State.raise_srcs (n : Nat) : (s.raise n).icu = { s.icu with srcs := (s.raise n).icu.srcs } := by
  unfold State.raise
  split <;> rfl

theorem State.enqueue_wrote (rp : Report) (hb : (s.ring c).backlog = []) (hf : (s.ring c).used < (s.ring c).size) :
    s.Wrote c rp (s.enqueue c rp) := by
  have hfull : (s.ring c).isFull = false := decide_eq_false (Nat.not_le.mpr hf)
  unfold State.enqueue State.writeReport
  simp only [hb, hfull, and_self, if_true]
  refine ⟨?_, ?_, ?_, ?_, ?_⟩
  · rw [State.raise_frame, State.onRing_ring]
    rfl
  · rw [State.raise_ring, State.onRing_ring]
    show (fun r : Ring => { r with seq := r.seq + 1, prod := r.prod + 1 }) ((s.onRing c _).ring c) = _
    rw [State.onRing_ring]
  · intro n hn
    rw [State.raise_ring, State.onRing_ring_ne _ _ _ _ hn]
    exact State.onRing_ring_ne s c n _ hn
  · exact fun n hn => State.raise_src_ne hn
  · rw [State.raise_frame, State.raise_srcs]
    rfl

theorem Ring.used_succ_le (r : Ring) : (r.prod + 1 - r.cons).toNat ≤ r.used + 1 := by
  unfold Ring.used
  bv_omega

/-- A ring that takes more reports than one takes the others after it. -/
theorem State.Wrote.ringTakes {rp : Report} {n : Nat} (h : s.Wrote c rp t) (hs : s.ringTakes c (n + 1)) : t.ringTakes c n := by
  obtain ⟨he, hb, hu⟩ := hs
  have := (s.ring c).used_succ_le
  unfold State.ringTakes
  rw [h.ring]
  refine ⟨he, hb, ?_⟩
  show ((s.ring c).prod + 1 - (s.ring c).cons).toNat + n ≤ (s.ring c).size
  omega

theorem State.ringTakes.of_le {m n : Nat} (h : s.ringTakes c n) (hm : m ≤ n) : s.ringTakes c m := by
  obtain ⟨he, hb, hu⟩ := h
  exact ⟨he, hb, by omega⟩

theorem State.complete_wrote (h : (s.ring ring).complMode = 0) (hs : s.ringTakes (16 + (s.ring ring).complRing) 1) :
    s.Wrote (16 + (s.ring ring).complRing) (completionReport ring d) (s.complete ring d) := by
  obtain ⟨he, hb, hu⟩ := hs
  have hc : (s.ring ring).completes d = true := by simp [Ring.completes, h]
  unfold State.complete
  simp only [hc, he, if_true]
  exact State.enqueue_wrote _ hb (by omega)

/-! ### Completions in ring order (R66) -/

/-- What a write to host memory reports. -/
def HostWrite.payload : HostWrite → List Fld
  | .report _ _ r => r.payload
  | _ => []

theorem State.flushLoop_stays {n : Nat} (h : ∀ d ∈ (s.ring ring).slots.head?, d.stage ≠ .finished) : s.flushLoop ring n = s := by
  cases n with
  | zero => rfl
  | succ n =>
    unfold State.flushLoop
    split
    · rfl
    · next d t hs =>
      rw [hs] at h
      rw [if_neg (h d rfl)]

/-- Ring `ring` with other slots. -/
def State.withSlots (ring : Nat) (l : List Slot) (s : State) : State := s.onRing ring fun r => { r with slots := l }

@[simp] theorem State.withSlots_ring : (s.withSlots ring l).ring ring = { s.ring ring with slots := l } := State.onRing_ring ..

theorem State.withSlots_ring_ne {k : Nat} (h : k ≠ ring) : (s.withSlots ring l).ring k = s.ring k :=
  State.onRing_ring_ne s ring k _ h

/-- A change of rings alone. -/
def State.RingWork (s t : State) : Prop := t = { s with hre := { s.hre with rings := t.hre.rings } }

theorem State.RingWork.trans {a b c : State} (h : a.RingWork b) (g : b.RingWork c) : a.RingWork c := by
  unfold State.RingWork at *
  rw [g, h]

theorem State.withSlots_ringWork : s.RingWork (s.withSlots ring l) := rfl

theorem State.RingWork.out (h : s.RingWork t) : t.out = s.out := by rw [h]

theorem State.RingWork.src (h : s.RingWork t) (n : Nat) : t.src n = s.src n := by rw [h]; rfl

theorem State.RingWork.wrote {u : State} {rp : Report} (h : s.RingWork t) (g : t.Wrote c rp u) :
    u = { s with out := u.out, hre := { s.hre with rings := u.hre.rings }, icu := { s.icu with srcs := u.icu.srcs } } := by
  have hu := g.frame
  rw [h] at hu
  exact hu

theorem State.flushLoop_cons {n : Nat} (hs : (s.ring ring).slots = d :: l) (hd : d.stage = .finished) :
    s.flushLoop ring (n + 1) = ((s.withSlots ring l).complete ring d).flushLoop ring n := by
  conv_lhs => unfold State.flushLoop
  rw [hs]
  simp only [hd, if_true]
  rfl

/-- A submission ring's slots are nothing to its report ring. -/
theorem State.withSlots_ringTakes {n : Nat} (hr : ring < 16) (h : s.ringTakes (16 + (s.ring ring).complRing) n) :
    (s.withSlots ring l).ringTakes (16 + ((s.withSlots ring l).ring ring).complRing) n := by
  unfold State.ringTakes
  rw [State.withSlots_ring]
  show ((s.withSlots ring l).ring (16 + (s.ring ring).complRing)).isEnabled = true ∧ _
  rw [State.withSlots_ring_ne (by omega)]
  exact h

/-- Completions are written for the finished slots at the front of a ring, and stop at the first other one. -/
theorem State.flushLoop_writes {done rest : List Slot} {n : Nat} (hr : ring < 16) (hs : (s.ring ring).slots = done ++ rest)
    (hd : ∀ d ∈ done, d.stage = .finished) (hrest : ∀ d ∈ rest.head?, d.stage ≠ .finished) (hm : (s.ring ring).complMode = 0)
    (ht : s.ringTakes (16 + (s.ring ring).complRing) done.length) :
    ((s.flushLoop ring (done.length + n)).ring ring).slots = rest ∧
      ∃ ws : List HostWrite, (s.flushLoop ring (done.length + n)).out.host = ws ++ s.out.host ∧
        ws.reverse.map HostWrite.payload = done.map fun d => (completionReport ring d).payload := by
  induction done generalizing s with
  | nil =>
    rw [List.nil_append] at hs
    rw [State.flushLoop_stays (by rw [hs]; exact hrest)]
    exact ⟨hs, [], rfl, rfl⟩
  | cons d done ih =>
    rw [List.cons_append] at hs
    have htu := State.withSlots_ringTakes (l := done ++ rest) hr ht
    have hmu : ((s.withSlots ring (done ++ rest)).ring ring).complMode = 0 := by rw [State.withSlots_ring]; exact hm
    have hw := State.complete_wrote (d := d) hmu (htu.of_le (by simp))
    have hv := State.complete_ring (s := s.withSlots ring (done ++ rest)) ring d hr
    obtain ⟨w, hout, hpay⟩ : ∃ w : HostWrite, ((s.withSlots ring (done ++ rest)).complete ring d).out.host = w :: s.out.host ∧
        w.payload = (completionReport ring d).payload := ⟨_, hw.host, rfl⟩
    obtain ⟨hslots, ws, houts, hpays⟩ := ih (by rw [hv, State.withSlots_ring]) (fun x hx => hd x (List.mem_cons_of_mem _ hx))
      (by rw [hv]; exact hmu) (by rw [hv]; exact hw.ringTakes htu)
    rw [List.length_cons, Nat.add_right_comm, State.flushLoop_cons hs (hd d List.mem_cons_self)]
    refine ⟨hslots, ws ++ [w], ?_, ?_⟩
    · rw [houts, hout, List.append_assoc, List.singleton_append]
    · rw [List.reverse_append, List.map_append, hpays, List.map_cons, ← hpay]
      rfl

/-- Settles O6: flushing has fuel for every slot of the ring, so it stops at the first one that has not finished. -/
theorem completionsInRingOrder : Obligations.CompletionsInRingOrder := by
  unfold Obligations.CompletionsInRingOrder
  intro ring s done rest c hr hs hd hrest hm ht
  have h := State.flushLoop_writes (n := rest.length) hr hs hd hrest hm ht
  rw [← List.length_append, ← hs] at h
  exact h

end Sys2Proof.Machine

namespace Sys2Proof.Machine

variable {s t : State} {d e : Slot} {f : Slot → Slot} {l : List Slot} {ring k : Nat}

/-! ### The verdict on a head (R66, R68) -/

section Verdict
variable (hk : readyBitOf d.desc = some k)

theorem State.judge_unlisted (h : readyBitOf d.desc = none) : s.judge ring d = .ends 0x06 d.opcode := by
  unfold State.judge
  rw [h]
  rfl

include hk

theorem State.judge_absent {o : Nat} (ha : s.absentOffset d.desc = some o) : s.judge ring d = .ends 0x07 o := by
  unfold State.judge
  rw [hk, ha]
  rfl

variable (ha : s.absentOffset d.desc = none)
include ha

theorem State.judge_far (h : d.fetchTick + 2 ^ 32 < dNotBefore d.desc) : s.judge ring d = .ends 0x07 8 := by
  unfold State.judge
  rw [hk, ha]
  exact if_pos h

variable (hn : dNotBefore d.desc ≤ d.fetchTick + 2 ^ 32)
include hn

theorem State.judge_early (h : s.now < dNotBefore d.desc) : s.judge ring d = .stage .heldNotBefore := by
  unfold State.judge
  rw [hk, ha]
  exact (if_neg (Nat.not_lt.mpr hn)).trans (if_pos h)

variable (hb : dNotBefore d.desc ≤ s.now)
include hb

theorem State.judge_unready (h : s.isReady k = false) :
    s.judge ring d = if dFlag d.desc 0 then .ends 0x01 k else .stage .heldNotReady := by
  unfold State.judge
  rw [hk, ha]
  exact (if_neg (Nat.not_lt.mpr hn)).trans <| (if_neg (Nat.not_lt.mpr hb)).trans (if_pos h)

theorem State.judge_ready (h : s.isReady k = true) :
    s.judge ring d = if (s.ring ring).fenced then .stage .heldFence
      else if (s.ring ring).ordered k then .stage .queued else .stage .startable := by
  unfold State.judge
  rw [hk, ha]
  exact (if_neg (Nat.not_lt.mpr hn)).trans <| (if_neg (Nat.not_lt.mpr hb)).trans (if_neg (by rw [h]; exact Bool.noConfusion))

end Verdict

/-- Settles O8: one lemma for each condition of R68, in their order. -/
theorem headIsJudgedInOrder : Obligations.HeadIsJudgedInOrder := by
  unfold Obligations.HeadIsJudgedInOrder
  exact fun s ring d =>
    ⟨State.judge_unlisted, fun k hk =>
      ⟨fun o => State.judge_absent hk, fun ha =>
        ⟨State.judge_far hk ha, fun hn =>
          ⟨State.judge_early hk ha hn, fun hb => ⟨State.judge_unready hk ha hn hb, State.judge_ready hk ha hn hb⟩⟩⟩⟩⟩

/-! ### NOP and FENCE (R65, R69) -/

theorem exec_nop {dt : Nat} (h : (s.elapse dt).headRuns ring 0x01 d) :
    exec (.nop dt ring) s = .next (((s.elapse dt).settle ring).checked ring (flagCheck d.desc 0x02 :: zeroBytes d.desc 16 48)
      fun s => s.finishHead ring stOk 0 0) :=
  congrArg Host.Outcome.next (State.runDesc_headRuns h)

theorem exec_fence {dt : Nat} (h : (s.elapse dt).headRuns ring 0x02 d)
    (hc : checksPass (flagCheck d.desc 0x02 :: (zeroBytes d.desc 18 2 ++ zeroBytes d.desc 24 40))) :
    exec (.fence dt ring) s =
      .next (((s.elapse dt).settle ring).startHead ring (((s.elapse dt).settle ring).fenceMarks ring d)) :=
  congrArg Host.Outcome.next ((State.runDesc_headRuns h).trans (State.checked_pass hc))

theorem State.mem_fenceMarks {n : Nat} {i : Word} : (n, i) ∈ s.fenceMarks ring d ↔
    n < 16 ∧ (dfield d.desc 16 2).testBit n = true ∧ i = if n = ring then d.index else (s.ring n).prod := by
  unfold State.fenceMarks
  simp only [List.mem_map, List.mem_filter, List.mem_range, Prod.mk.injEq]
  constructor
  · rintro ⟨m, ⟨hm, hb⟩, rfl, hi⟩
    exact ⟨hm, hb, hi.symm⟩
  · rintro ⟨hn, hb, hi⟩
    exact ⟨n, ⟨hn, hb⟩, rfl, hi.symm⟩

theorem State.outstanding_eq : s.outstanding d = ((d.marks.filter fun m => !s.markDone m).map fun m => 2 ^ m.1).sum :=
  List.sum_eq_foldl.symm

theorem exec_fenceDone {dt : Nat} (h : (s.elapse dt).runningFence ring = some d)
    (hm : ∀ m ∈ d.marks, (s.elapse dt).markDone m = true) :
    exec (.fenceDone dt ring) s = .next ((s.elapse dt).finishAt ring d.index 0x00 0 0) := by
  show execFenceDone dt ring s = _
  unfold execFenceDone
  simp only [h]
  exact next_when (List.all_eq_true.mpr hm)

theorem exec_fenceTimeout {dt : Nat} (h : (s.elapse dt).runningFence ring = some d)
    (hm : ∃ m ∈ d.marks, (s.elapse dt).markDone m = false) (hz : dfield d.desc 20 4 ≠ 0)
    (ht : d.startTick + dfield d.desc 20 4 * 200 ≤ (s.elapse dt).now) :
    exec (.fenceTimeout dt ring) s = .next ((s.elapse dt).finishAt ring d.index 0x08 ((s.elapse dt).outstanding d) 0) := by
  have hall : d.marks.all (s.elapse dt).markDone = false := List.all_eq_false.mpr (by simpa using hm)
  show execFenceTimeout dt ring s = _
  unfold execFenceTimeout
  simp only [h]
  exact next_when (by simp [hz, ht, hall, usTicks])

/-- Settles O4: NOP and FENCE by their checks, a running FENCE by its marks. -/
theorem nopAndFenceRun : Obligations.NopAndFenceRun := by
  unfold Obligations.NopAndFenceRun
  refine ⟨fun dt ring s d h => ⟨fun hc => ?_, fun o hf => ?_⟩, fun dt ring s d h hc => ?_, fun dt ring s d h hm => ?_,
    fun dt ring s d h hm hz ht => ?_⟩
  · rw [exec_nop h, State.checked_pass hc]
    rfl
  · rw [exec_nop h, State.checked_fail hf]
    rfl
  · exact ⟨_, exec_fence h hc, fun n i => State.mem_fenceMarks⟩
  · exact exec_fenceDone h hm
  · rw [exec_fenceTimeout h hm hz ht, State.outstanding_eq]

end Sys2Proof.Machine

namespace Sys2Proof.Machine

variable {s t : State} {d e : Slot} {f : Slot → Slot} {l : List Slot} {ring : Nat}

/-! ### A head that is judged startable (R68) -/

section
variable {op : Nat} (h : s.headRuns ring op d)
include h

theorem State.headRuns.ring_lt : ring < 16 := h.1
theorem State.headRuns.opcode : d.opcode = op := h.2.2.2.2.1
theorem State.headRuns.head : (s.ring ring).head = some d := h.2.2.1
theorem State.headRuns.waiting : d.waiting = true := List.find?_some h.head

end

theorem State.settleLoop_stage {n : Nat} {g : Stage} (hh : (s.ring ring).head = some e)
    (he : e.stage = .queued ∨ e.stage = .startable) (hj : s.judge ring e = .stage g) :
    s.settleLoop ring (n + 1) = s.onRing ring fun r => { r with slots := onFirst (fun d => { d with stage := g }) r.slots } := by
  unfold State.settleLoop
  rw [hh]
  simp only [he, hj, if_true]

theorem Ring.head_length {r : Ring} (h : r.head = some e) : ∃ n, r.slots.length = n + 1 :=
  Nat.exists_eq_succ_of_ne_zero fun h0 => by
    rw [Ring.head, List.length_eq_zero_iff.mp h0] at h
    cases h

/-- A head that R68 puts at a stage is settled there. -/
theorem State.settle_stage {g : Stage} (hh : (s.ring ring).head = some e) (he : e.stage = .queued ∨ e.stage = .startable)
    (hj : s.judge ring e = .stage g) :
    s.settle ring = (s.withSlots ring (onFirst (fun d => { d with stage := g }) (s.ring ring).slots)).flush ring := by
  obtain ⟨n, hn⟩ := Ring.head_length hh
  unfold State.settle
  rw [hn, State.settleLoop_stage hh he hj]
  rfl

theorem onFirst_head (h : l.find? Slot.waiting = some d) (hf : (f d).waiting = true) :
    (onFirst f l).find? Slot.waiting = some (f d) := by
  induction l with
  | nil => cases h
  | cons e l ih =>
    rw [List.find?_cons] at h
    unfold onFirst
    split at h
    · next he =>
      cases h
      rw [if_pos he, List.find?_cons, hf]
    · next he =>
      rw [if_neg (by simpa using he), List.find?_cons, he, ih h]

/-- Whether some slot meets a condition that no waiting slot meets does not turn on the head. -/
theorem onFirst_any {p : Slot → Bool} (hp : ∀ d, d.waiting = true → p d = false)
    (hf : ∀ d, d.waiting = true → (f d).waiting = true) :
    (onFirst f l).any p = l.any p := by
  induction l with
  | nil => rfl
  | cons e l ih =>
    unfold onFirst
    split
    · next he => simp only [List.any_cons, hp e he, hp _ (hf e he)]
    · simp only [List.any_cons, ih]

theorem Slot.waiting_not_started (h : d.waiting = true) : (d.stage == .started) = false := by
  unfold Slot.waiting at h
  cases hs : d.stage <;> simp_all

/-- A head that waits at another stage changes no verdict. -/
theorem State.judge_onFirst {d : Slot} (hf : ∀ d, d.waiting = true → (f d).waiting = true) :
    (s.withSlots ring (onFirst f (s.ring ring).slots)).judge ring d = s.judge ring d := by
  have hfen : (({ s.ring ring with slots := onFirst f (s.ring ring).slots } : Ring)).fenced = (s.ring ring).fenced :=
    onFirst_any (fun e he => by rw [Slot.waiting_not_started he]; rfl) hf
  have hord (b : Nat) : (({ s.ring ring with slots := onFirst f (s.ring ring).slots } : Ring)).ordered b = (s.ring ring).ordered b :=
    onFirst_any (fun e he => by rw [Slot.waiting_not_started he]; rfl) hf
  unfold State.judge
  rw [State.withSlots_ring, hfen]
  simp only [hord]
  rfl

/-- A hold at the head that has ended leaves the head startable. -/
theorem State.rejudge_startable (hr : ring < 16) (hh : (s.ring ring).head = some d)
    (hj : s.judge ring { d with stage := .queued } = .stage .startable) :
    ((s.rejudge ring).ring ring).head = some { d with stage := .startable } := by
  have hq : ((s.withSlots ring (onFirst (fun d => { d with stage := .queued }) (s.ring ring).slots)).ring ring).head =
      some { d with stage := .queued } := by
    rw [State.withSlots_ring]
    exact onFirst_head (f := fun d => { d with stage := .queued }) hh rfl
  show (((s.withSlots ring (onFirst (fun d => { d with stage := .queued }) (s.ring ring).slots)).settle ring).ring ring).head = _
  rw [State.settle_stage hq (.inl rfl) ((State.judge_onFirst fun _ _ => rfl).trans hj)]
  refine (State.flushLoop_keeps ring _ hr).1.trans ?_
  rw [State.withSlots_ring]
  exact onFirst_head (f := fun d => { d with stage := .startable }) (d := { d with stage := .queued }) hq rfl

/-! ### A NOP alone on its ring (R53, R70, R71, R74) -/

theorem State.flush_stays (h : ∀ d ∈ (s.ring ring).slots.head?, d.stage ≠ .finished) : s.flush ring = s :=
  State.flushLoop_stays h

/-- A lone startable head is settled as it stands. -/
theorem State.settle_alone {op : Nat} (h : s.headRuns ring op d) (hs : (s.ring ring).slots = [d]) :
    s.settle ring = s.withSlots ring [d] := by
  obtain ⟨-, -, hh, hst, -, hj⟩ := h
  have hd : onFirst (fun d => { d with stage := .startable }) [d] = [d] :=
    onFirst_same (by rw [← hs]; exact hh) (by rw [← hst])
  rw [State.settle_stage hh (.inr hst) hj, hs, hd]
  refine State.flush_stays fun e he => ?_
  rw [State.withSlots_ring] at he
  cases he
  rw [hst]
  exact Stage.noConfusion

theorem State.settleLoop_none {n : Nat} (h : (s.ring ring).head = none) : s.settleLoop ring n = s := by
  cases n with
  | zero => rfl
  | succ n =>
    unfold State.settleLoop
    rw [h]

/-- A lone head that completes leaves its ring with its COMPLETION. -/
theorem State.finishHead_alone {st d1 d2 : Nat} (hs : (s.ring ring).slots = [d]) (hw : d.waiting = true) :
    s.finishHead ring st d1 d2 =
      ((s.withSlots ring [s.finishSlot st d1 d2 s.now d]).withSlots ring []).complete ring (s.finishSlot st d1 d2 s.now d) := by
  have hslots : ((s.withSlots ring [s.finishSlot st d1 d2 s.now d]).ring ring).slots = [s.finishSlot st d1 d2 s.now d] := by
    rw [State.withSlots_ring]
  have hfirst : onFirst (s.finishSlot st d1 d2 s.now) [d] = [s.finishSlot st d1 d2 s.now d] := if_pos hw
  calc s.finishHead ring st d1 d2
      = (s.withSlots ring (onFirst (s.finishSlot st d1 d2 s.now) (s.ring ring).slots)).settle ring := rfl
    _ = (s.withSlots ring [s.finishSlot st d1 d2 s.now d]).settle ring := by rw [hs, hfirst]
    _ = (s.withSlots ring [s.finishSlot st d1 d2 s.now d]).flushLoop ring 1 := by
      unfold State.settle State.flush
      rw [State.settleLoop_none (by rw [Ring.head, hslots]; rfl), hslots]
      rfl
    _ = _ := State.flushLoop_cons hslots rfl

/-- The COMPLETION of a fetched descriptor (R71). -/
theorem completionReport_finishSlot {st d1 d2 start : Nat} (h : d.fetchFailSeq = none) :
    completionReport ring (s.finishSlot st d1 d2 start d) =
      { opcode := 0x40, tick := s.now,
        payload := [fld 16 1 ring, fld 17 1 st, fld 18 1 d.opcode, fld 20 4 (dSeq d.desc).toNat, fld 24 4 d1, fld 28 4 d2,
          fld 32 8 start, fld 40 8 s.cal] } := by
  unfold completionReport State.finishSlot
  simp only [h, Option.isSome_none, Option.getD_none, Bool.false_eq_true, if_false]
  rfl

theorem exec_nop_alone {dt : Nat} (hd : (s.elapse dt).headRuns ring 0x01 d) (hs : ((s.elapse dt).ring ring).slots = [d])
    (hc : checksPass (flagCheck d.desc 0x02 :: zeroBytes d.desc 16 48)) :
    ∃ v : State, (s.elapse dt).RingWork v ∧ v.ring ring = { (s.elapse dt).ring ring with slots := [] } ∧
      (∀ n, n ≠ ring → v.ring n = (s.elapse dt).ring n) ∧
      exec (.nop dt ring) s = .next (v.complete ring ((s.elapse dt).finishSlot 0x00 0 0 (s.elapse dt).now d)) := by
  refine ⟨(((s.elapse dt).withSlots ring [d]).withSlots ring
      [(s.elapse dt).finishSlot 0x00 0 0 (s.elapse dt).now d]).withSlots ring [],
    State.withSlots_ringWork.trans (State.withSlots_ringWork.trans State.withSlots_ringWork), ?_, ?_, ?_⟩
  · simp only [State.withSlots_ring]
  · intro n hn
    simp only [State.withSlots_ring_ne hn]
  · rw [exec_nop hd, State.checked_pass hc, State.settle_alone hd hs, State.finishHead_alone (by simp) hd.waiting]
    rfl

/-- Settles O5: the head is settled as it stands, and completes into the next slot of its report ring. -/
theorem nopCompletionIsReported : Obligations.NopCompletionIsReported := by
  unfold Obligations.NopCompletionIsReported
  intro dt ring s d u c hd hs hf hc hm ht
  have hr := hd.ring_lt
  obtain ⟨v, hwork, hv, hne, hexec⟩ := exec_nop_alone hd hs hc
  have hvc : 16 + (v.ring ring).complRing = c := by rw [hv]
  have hcr : v.ring c = u.ring c := hne c (by omega)
  have h : v.Wrote c (completionReport ring (u.finishSlot 0x00 0 0 u.now d)) (v.complete ring (u.finishSlot 0x00 0 0 u.now d)) := by
    rw [← hvc]
    refine State.complete_wrote (by rw [hv]; exact hm) ?_
    unfold State.ringTakes
    rw [hvc, hcr]
    exact ht
  refine ⟨_, hexec, ?_, ?_, ?_, ?_, ?_, ?_, hwork.wrote h⟩
  · rw [h.others ring (by omega), hv]
  · rw [h.ring, hcr]
  · rw [h.ring, hcr]
  · rw [h.host, hcr, completionReport_finishSlot hf, hd.opcode, hwork.out]
    simp only [Nat.zero_add]
    rfl
  · intro n hn hnc
    rw [h.others n hnc, hne n hn]
  · intro n hn
    rw [h.srcs n hn, hwork.src]

end Sys2Proof.Machine

namespace Sys2Proof.Machine

variable {s t : State} {d : Slot} {ring dt : Nat}

@[simp] theorem State.hreFault_ring (i n : Nat) : (s.hreFault i).ring n = s.ring n := rfl

/-! ### Descriptors fetched (R57, R63, R396) -/

theorem exec_descriptorFetch {desc : DescBits} (h : (s.elapse dt).canFetch ring = true)
    (hq : dSeq desc = ((s.elapse dt).ring ring).seq) :
    exec (.descriptorFetch dt ring desc) s = .next (((s.elapse dt).onRing ring fun r =>
      { r with cons := r.cons + 1, seq := r.seq + 1,
               slots := r.slots ++ [{ desc, index := ((s.elapse dt).ring ring).cons, fetchTick := (s.elapse dt).now }] }).settle ring) :=
  (next_when h).trans (congrArg Host.Outcome.next (if_pos hq))

/-- The state in which a descriptor with another SEQ leaves its ring (R63). -/
def State.seqGap (ring : Nat) (desc : DescBits) (s : State) : State :=
  (s.onRing ring fun r =>
    { r with cons := r.cons + 1, mode := .error,
             slots := r.slots ++ [s.finishSlot stSeqGap (s.ring ring).seq.toNat 0 0
               { desc, index := (s.ring ring).cons, fetchTick := s.now }] }).hreFault 0

theorem State.seqGap_ring (desc : DescBits) : (s.seqGap ring desc).ring ring =
    { s.ring ring with
      cons := (s.ring ring).cons + 1, mode := .error,
      slots := (s.ring ring).slots ++ [s.finishSlot stSeqGap (s.ring ring).seq.toNat 0 0
        { desc, index := (s.ring ring).cons, fetchTick := s.now }] } := by
  rw [State.seqGap, State.hreFault_ring, State.onRing_ring]

theorem State.seqGap_ring_ne {n : Nat} (desc : DescBits) (h : n ≠ ring) : (s.seqGap ring desc).ring n = s.ring n := by
  rw [State.seqGap, State.hreFault_ring]
  exact State.onRing_ring_ne s ring n _ h

theorem exec_descriptorFetch_gap {desc : DescBits} (h : (s.elapse dt).canFetch ring = true)
    (hq : dSeq desc ≠ ((s.elapse dt).ring ring).seq) :
    exec (.descriptorFetch dt ring desc) s = .next (((((s.elapse dt).seqGap ring desc).raise ring).faultReport 0x0101 ring ring
      ((s.elapse dt).ring ring).seq.toNat (dSeq desc).toNat).settle ring) :=
  (next_when h).trans (congrArg Host.Outcome.next (if_neg hq))

/-- The state in which a failed read of a descriptor leaves its ring (R396). -/
def State.fetchFailed (ring : Nat) (s : State) : State :=
  (s.onRing ring fun r =>
    { r with mode := .error,
             slots := r.slots ++ [s.finishSlot stDmaError 0 0 0
               { desc := 0, index := (s.ring ring).cons, fetchTick := s.now, fetchFailSeq := some (s.ring ring).seq }] }).hreFault 1

theorem State.fetchFailed_ring : (s.fetchFailed ring).ring ring =
    { s.ring ring with
      mode := .error,
      slots := (s.ring ring).slots ++ [s.finishSlot stDmaError 0 0 0
        { desc := 0, index := (s.ring ring).cons, fetchTick := s.now, fetchFailSeq := some (s.ring ring).seq }] } := by
  rw [State.fetchFailed, State.hreFault_ring, State.onRing_ring]

theorem State.fetchFailed_ring_ne {n : Nat} (h : n ≠ ring) : (s.fetchFailed ring).ring n = s.ring n := by
  rw [State.fetchFailed, State.hreFault_ring]
  exact State.onRing_ring_ne s ring n _ h

theorem exec_descFetchFail (h : (s.elapse dt).canFetch ring = true) :
    exec (.descFetchFail dt ring) s = .next (((((s.elapse dt).fetchFailed ring).raise 53).raise ring).faultReport 0x0103 ring 53
      ((s.elapse dt).ring ring).seq.toNat ((s.elapse dt).ring ring).cons.toNat |>.settle ring) :=
  next_when h

/-! ### Held heads (R18, R61, R68) -/

theorem State.heldAt_head {g : Stage} (hr : ring < 16) (hh : (s.ring ring).head = some d) (hg : d.stage = g) :
    s.heldAt ring g = some d := by
  unfold State.heldAt
  simp only [hr, hh, hg, if_true]

theorem exec_notBeforeReached (h : (s.elapse dt).heldAt ring .heldNotBefore = some d) (hn : dNotBefore d.desc ≤ (s.elapse dt).now) :
    exec (.notBeforeReached dt ring) s = .next ((s.elapse dt).rejudge ring) := by
  show execNotBeforeReached dt ring s = _
  unfold execNotBeforeReached
  simp only [h]
  exact next_when (decide_eq_true hn)

theorem exec_heldDescriptorReady {k : Nat} (h : (s.elapse dt).heldAt ring .heldNotReady = some d)
    (hk : readyBitOf d.desc = some k) (hb : (s.elapse dt).isReady k = true) :
    exec (.heldDescriptorReady dt ring) s = .next ((s.elapse dt).rejudge ring) := by
  show execHeldDescriptorReady dt ring s = _
  unfold execHeldDescriptorReady
  simp only [h, hk]
  exact next_when hb

theorem exec_fenceAfterRelease (h : (s.elapse dt).heldAt ring .heldFence = some d)
    (hf : ((s.elapse dt).ring ring).fenced = false) :
    exec (.fenceAfterRelease dt ring) s = .next ((s.elapse dt).rejudge ring) := by
  show execFenceAfterRelease dt ring s = _
  unfold execFenceAfterRelease
  simp only [h]
  exact next_when (by rw [hf]; rfl)

/-- Settles O7: the three ways a fetch can go, and the three holds, each judged again when it ends. -/
theorem descriptorsAreFetchedAndHeld : Obligations.DescriptorsAreFetchedAndHeld := by
  unfold Obligations.DescriptorsAreFetchedAndHeld
  refine ⟨?_, ?_, ?_, ?_⟩
  · intro dt ring desc s u r h hq
    exact ⟨_, exec_descriptorFetch h hq, State.onRing_ring .., fun n hn => State.onRing_ring_ne _ _ _ _ hn, rfl⟩
  · intro dt ring desc s u r h hq
    have hring := State.seqGap_ring (s := u) (ring := ring) desc
    exact ⟨u.seqGap ring desc, exec_descriptorFetch_gap h hq, by rw [hring], by rw [hring], by rw [hring],
      ⟨_, by rw [hring], rfl, rfl, rfl, rfl⟩, rfl, fun n hn => State.seqGap_ring_ne desc hn, rfl⟩
  · intro dt ring s u r h
    have hring := State.fetchFailed_ring (s := u) (ring := ring)
    exact ⟨u.fetchFailed ring, exec_descFetchFail h, by rw [hring], by rw [hring], by rw [hring],
      ⟨_, by rw [hring], rfl, rfl, rfl⟩, rfl, fun n hn => State.fetchFailed_ring_ne hn, rfl⟩
  · intro dt ring s d u hr hh hj
    refine ⟨fun ⟨hs, hn⟩ => ?_, fun ⟨hs, k, hk, hb⟩ => ?_, fun ⟨hs, hf⟩ => ?_⟩
    · exact ⟨_, exec_notBeforeReached (State.heldAt_head hr hh hs) hn, State.rejudge_startable hr hh hj⟩
    · exact ⟨_, exec_heldDescriptorReady (State.heldAt_head hr hh hs) hk hb, State.rejudge_startable hr hh hj⟩
    · exact ⟨_, exec_fenceAfterRelease (State.heldAt_head hr hh hs) hf, State.rejudge_startable hr hh hj⟩

end Sys2Proof.Machine

namespace Sys2Proof.Machine

variable {s t : State} {ring dt : Nat}

/-! ### Doorbells and host activity (R54, R56, R79, R80) -/

/-- HOST_STATE after an activity of the host (R80). -/
def HostState.heard : HostState → HostState
  | .unarmed => .present
  | .lostContinue => .present
  | .lostSafe => .safeHold
  | .present => .present
  | .safeHold => .safeHold

theorem State.raise_hre (n : Nat) : (s.raise n).hre = s.hre := by rw [State.raise_frame]

/-- The timer restarted and HOST_STATE brought back (R79, R80). -/
def State.heard (s : State) : State :=
  s.onHre fun h => { h with timerArmed := true, timerTick := s.now, hostState := h.hostState.heard }

theorem State.hostActivity_eq : s.hostActivity =
    if s.hre.hostState = .lostContinue ∨ s.hre.hostState = .lostSafe then s.heard.raise 49 else s.heard := by
  unfold State.hostActivity State.heard
  cases h : s.hre.hostState <;> simp [h, HostState.heard, State.onHre]

theorem State.onHre_raise_icu (f : Hre → Hre) (n : Nat) : ((s.onHre f).raise n).icu = (s.raise n).icu := by
  have hp : (s.onHre f).powered (srcDomain n) = s.powered (srcDomain n) := rfl
  unfold State.raise
  rw [hp]
  split <;> rfl

theorem State.hostActivity_hre : s.hostActivity.hre = s.heard.hre := by
  rw [State.hostActivity_eq]
  split
  · exact State.raise_hre _
  · rfl

theorem State.hostActivity_icu : s.hostActivity.icu =
    if s.hre.hostState = .lostContinue ∨ s.hre.hostState = .lostSafe then (s.raise 49).icu else s.icu := by
  rw [State.hostActivity_eq]
  split
  · exact State.onHre_raise_icu ..
  · rfl

theorem State.hostActivity_frame : s.hostActivity = { s with hre := s.hostActivity.hre, icu := s.hostActivity.icu } := by
  rw [State.hostActivity_eq]
  split
  · rw [State.raise_frame]
    rfl
  · rfl

end Sys2Proof.Machine

namespace Sys2Proof.Machine

variable {s t : State} {ring dt c : Nat}

/-! ### Doorbells (R54, R56) -/

theorem State.hostActivity_ring (n : Nat) : s.hostActivity.ring n = s.ring n := by
  unfold State.ring
  rw [State.hostActivity_hre]
  rfl

theorem exec_doorbell {index : Word} (hu : (s.elapse dt).hostUp = true) (hr : ring < 32) :
    exec (.doorbell dt ring index) s = .next
      (if (((s.elapse dt).ring ring).refuses (decide (16 ≤ ring)) index) = true then ((s.elapse dt).hostActivity.hreFault 2).raise 54
      else if ring < 16 then (s.elapse dt).hostActivity.onRing ring fun r => { r with prod := index }
      else (s.elapse dt).hostActivity.onRing ring fun r => { r with cons := index }) := by
  rw [← State.hostActivity_ring]
  exact next_when (and_decide hu hr)

/-- An index of a ring moved by a doorbell. -/
theorem State.hostActivity_onRing (f : Ring → Ring) :
    let t := s.hostActivity.onRing ring f
    t.ring ring = f (s.ring ring) ∧ (∀ n, n ≠ ring → t.ring n = s.ring n) ∧ t.hre.timerArmed = true ∧ t.hre.timerTick = s.now ∧
      t = { s with hre := t.hre, icu := t.icu } := by
  refine ⟨?_, fun n hn => ?_, ?_, ?_, ?_⟩
  · rw [State.onRing_ring, State.hostActivity_ring]
  · rw [State.onRing_ring_ne _ _ _ _ hn, State.hostActivity_ring]
  · show s.hostActivity.hre.timerArmed = true
    rw [State.hostActivity_hre]
    rfl
  · show s.hostActivity.hre.timerTick = s.now
    rw [State.hostActivity_hre]
    rfl
  · rw [State.hostActivity_frame]
    rfl

theorem doorbell_moves (dt ring : Nat) (index : Word) (s : State) :
    let u := s.elapse dt
    u.hostUp = true → ring < 32 → (u.ring ring).refuses (decide (16 ≤ ring)) index = false →
    ∃ t : State, exec (.doorbell dt ring index) s = .next t ∧
      t.ring ring = (if ring < 16 then { u.ring ring with prod := index } else { u.ring ring with cons := index }) ∧
      (∀ n, n ≠ ring → t.ring n = u.ring n) ∧ t.hre.timerArmed = true ∧ t.hre.timerTick = u.now ∧
      t = { u with hre := t.hre, icu := t.icu } := by
  intro u hu hr hf
  rw [exec_doorbell hu hr, if_neg (by rw [hf]; exact Bool.noConfusion)]
  by_cases h : ring < 16
  · rw [if_pos h, if_pos h]
    exact ⟨_, rfl, State.hostActivity_onRing _⟩
  · rw [if_neg h, if_neg h]
    exact ⟨_, rfl, State.hostActivity_onRing _⟩

theorem doorbell_refused (dt ring : Nat) (index : Word) (s : State) :
    let u := s.elapse dt
    u.hostUp = true → ring < 32 → (u.ring ring).refuses (decide (16 ≤ ring)) index = true →
    ∃ t : State, exec (.doorbell dt ring index) s = .next t ∧ (∀ n, t.ring n = u.ring n) ∧
      t.hre.fault = setFlag u.hre.fault u.cycle 2 ∧ t = { u with hre := t.hre, icu := t.icu } := by
  intro u hu hr hf
  rw [exec_doorbell hu hr, if_pos hf]
  refine ⟨_, rfl, fun n => ?_, ?_, ?_⟩
  · rw [State.raise_ring, State.hreFault_ring, State.hostActivity_ring]
  · rw [State.raise_hre, State.hostActivity_frame]
    show setFlag u.hostActivity.hre.fault u.cycle 2 = _
    rw [State.hostActivity_hre]
    rfl
  · rw [State.raise_frame, State.hostActivity_frame]
    rfl

/-! ### Shadows (R55) -/

theorem shadowWrite_writes (dt ring : Nat) (s : State) :
    let u := s.elapse dt
    let r := u.ring ring
    ring < 32 → u.hostUp = true → r.mode ≠ .disabled → r.shadow ≠ 0 → r.ownIndex ring ≠ r.shadowVal →
    r.isIdle = true ∨ r.shadowTick + 200 ≤ u.now →
    ∃ t : State, exec (.shadowWrite dt ring) s = .next t ∧
      t.out.host = HostWrite.shadow ring r.shadow (if ring < 16 then r.cons else r.prod) :: u.out.host ∧
      (t.ring ring).shadowVal = (if ring < 16 then r.cons else r.prod) ∧ (∀ n, n ≠ ring → t.ring n = u.ring n) ∧
      t = { u with out := { u.out with host := t.out.host }, hre := { u.hre with rings := t.hre.rings } } := by
  intro u r hr hu hm hs hi hd
  have hg : (decide (ring < 32) && u.hostUp && r.mode != .disabled && r.shadow != 0 && r.ownIndex ring != r.shadowVal &&
      (r.isIdle || decide (r.shadowTick + usTicks ≤ u.now))) = true := by
    simp only [Bool.and_eq_true, Bool.or_eq_true, decide_eq_true_eq, bne_iff_ne]
    exact ⟨⟨⟨⟨⟨hr, hu⟩, hm⟩, hs⟩, hi⟩, hd⟩
  exact ⟨_, next_when hg, rfl, by rw [State.onRing_ring]; rfl, fun n hn => State.onRing_ring_ne _ _ _ _ hn, rfl⟩

/-! ### Backlogs (R76) -/

/-- Reports of ring `c`'s backlog have left, none has entered it. -/
structure State.Drains (c : Nat) (s t : State) : Prop where
  host : ∃ newer, t.out.host = newer ++ s.out.host
  backlog : (t.ring c).backlog.length ≤ (s.ring c).backlog.length
  others : ∀ n, n ≠ c → t.ring n = s.ring n
  frame : t = { s with out := { s.out with host := t.out.host }, hre := { s.hre with rings := t.hre.rings }, icu := t.icu }

theorem State.Drains.refl : s.Drains c s := ⟨⟨[], rfl⟩, Nat.le_refl _, fun _ _ => rfl, rfl⟩

theorem State.Drains.trans {u : State} (h : s.Drains c t) (g : t.Drains c u) : s.Drains c u := by
  obtain ⟨x, hx⟩ := h.host
  obtain ⟨y, hy⟩ := g.host
  refine ⟨⟨y ++ x, by rw [hy, hx, List.append_assoc]⟩, g.backlog.trans h.backlog,
    fun n hn => (g.others n hn).trans (h.others n hn), ?_⟩
  have hu := g.frame
  rw [h.frame] at hu
  exact hu

/-- The oldest report of the backlog leaves. -/
def State.backlogOut (c : Nat) (rp : Report) (rest : List Report) (s : State) : State :=
  (s.onRing c fun q => { q with backlog := rest }).writeReport c rp

section
variable {rp : Report} {rest : List Report}

theorem State.backlogOut_host : (s.backlogOut c rp rest).out.host =
    HostWrite.report c ((s.ring c).slotAddr (s.ring c).prod) { rp with seq := (s.ring c).seq } :: s.out.host := by
  unfold State.backlogOut State.writeReport
  rw [State.raise_frame, State.onRing_ring]
  rfl

theorem State.backlogOut_backlog : ((s.backlogOut c rp rest).ring c).backlog = rest := by
  unfold State.backlogOut State.writeReport
  rw [State.raise_ring, State.onRing_ring]
  show ((s.onRing c fun q => { q with backlog := rest }).ring c).backlog = rest
  rw [State.onRing_ring]

theorem State.backlogOut_drains (h : (s.ring c).backlog = rp :: rest) : s.Drains c (s.backlogOut c rp rest) := by
  refine ⟨⟨[_], State.backlogOut_host⟩, ?_, fun n hn => ?_, ?_⟩
  · rw [State.backlogOut_backlog, h]
    exact Nat.le_succ _
  · unfold State.backlogOut State.writeReport
    rw [State.raise_ring, State.onRing_ring_ne _ _ _ _ hn]
    exact State.onRing_ring_ne s c n _ hn
  · unfold State.backlogOut State.writeReport
    rw [State.raise_frame]
    rfl

theorem State.drainLoop_cons {n : Nat} (h : (s.ring c).backlog = rp :: rest) (hf : (s.ring c).isFull = false) :
    s.drainLoop c (n + 1) = (s.backlogOut c rp rest).drainLoop c n := by
  conv_lhs => unfold State.drainLoop
  rw [h]
  simp only [hf, Bool.false_eq_true, if_false]
  rfl

end

theorem State.drainLoop_drains (n : Nat) : s.Drains c (s.drainLoop c n) := by
  induction n generalizing s with
  | zero => exact .refl
  | succ n ih =>
    unfold State.drainLoop
    split
    · exact .refl
    · next rp rest hb =>
      split
      · exact .refl
      · exact (State.backlogOut_drains hb).trans ih

theorem backlogDrain_drains (dt ring : Nat) (s : State) (rp : Report) (rest : List Report) :
    let u := s.elapse dt
    let r := u.ring ring
    16 ≤ ring → ring < 32 → r.isEnabled = true → r.backlog = rp :: rest → r.used < r.size →
    ∃ (t : State) (newer : List HostWrite), exec (.backlogDrain dt ring) s = .next t ∧
      t.out.host = newer ++ HostWrite.report ring (r.slotAddr r.prod) { rp with seq := r.seq } :: u.out.host ∧
      (t.ring ring).backlog.length ≤ rest.length ∧ (∀ n, n ≠ ring → t.ring n = u.ring n) ∧
      t = { u with out := { u.out with host := t.out.host }, hre := { u.hre with rings := t.hre.rings }, icu := t.icu } := by
  intro u r h16 h32 he hb hf
  have hg : (isReportRing ring && r.isEnabled) = true := by simp [isReportRing, h16, h32, he]
  have hexec : exec (.backlogDrain dt ring) s = .next ((u.backlogOut ring rp rest).drainLoop ring rest.length) := by
    refine (next_when hg).trans (congrArg Host.Outcome.next ?_)
    rw [hb]
    exact State.drainLoop_cons hb (decide_eq_false (Nat.not_le.mpr hf))
  have hlater := State.drainLoop_drains (s := u.backlogOut ring rp rest) (c := ring) rest.length
  have hall := (State.backlogOut_drains hb).trans hlater
  obtain ⟨newer, hn⟩ := hlater.host
  refine ⟨_, newer, hexec, ?_, ?_, hall.others, hall.frame⟩
  · rw [hn, State.backlogOut_host]
  · exact hlater.backlog.trans (Nat.le_of_eq (congrArg List.length State.backlogOut_backlog))

/-! ### A failed report write (R76, R85) -/

theorem setBit_getLsbD (w : Word) {i : Nat} (h : i < 32) : (setBit w i).getLsbD i = true := by
  unfold setBit
  rw [BitVec.getLsbD_or, BitVec.getLsbD_ofNat, Nat.testBit_two_pow_self]
  simp [h]

theorem State.dmaError_ring (n : Nat) : s.dmaError.ring n = s.ring n := State.raise_ring ..

theorem State.dmaError_hre : s.dmaError.hre = { s.hre with fault := setFlag s.hre.fault s.cycle 1 } := State.raise_hre _

theorem State.covDrop_hre (op : Nat) : ∃ k, (s.covDrop op).hre = { s.hre with covDrop := k } := by
  unfold State.covDrop
  split
  · exact ⟨_, State.raise_hre _⟩
  · exact ⟨_, rfl⟩

/-- A change of HRE and of interrupt sources alone. -/
def State.HreWork (s t : State) : Prop := t = { s with hre := t.hre, icu := t.icu }

theorem State.HreWork.trans {a b c : State} (h : a.HreWork b) (g : b.HreWork c) : a.HreWork c := by
  unfold State.HreWork at *
  rw [g, h]

theorem State.raise_hreWork (n : Nat) : s.HreWork (s.raise n) := by
  unfold State.HreWork
  rw [State.raise_frame]

theorem State.covDrop_hreWork (op : Nat) : s.HreWork (s.covDrop op) := State.covDrop_frame op
theorem State.dmaError_hreWork : s.HreWork s.dmaError := State.dmaError_frame

/-- The newest report of a ring is taken back: its slot and its sequence number are free again (assumption log 8). -/
def State.takenBack (ring : Nat) (rest : List HostWrite) (s : State) : State :=
  ((s.onOut fun o => { o with host := rest }).onHre fun h => { h with rqDrop := Tbl.modify 0 h.rqDrop (ring - 16) count32 }).onRing ring
    fun r => { r with seq := r.seq - 1, prod := r.prod - 1, dropped := true }

theorem State.takenBack_ring (rest : List HostWrite) : (s.takenBack ring rest).ring ring =
    { s.ring ring with seq := (s.ring ring).seq - 1, prod := (s.ring ring).prod - 1, dropped := true } :=
  State.onRing_ring ..

theorem State.takenBack_ring_ne {n : Nat} (rest : List HostWrite) (h : n ≠ ring) : (s.takenBack ring rest).ring n = s.ring n :=
  State.onRing_ring_ne _ ring n _ h

theorem exec_reportWriteFail {rp : Report} {rest : List HostWrite} (h16 : 16 ≤ ring) (h32 : ring < 32)
    (he : ((s.elapse dt).ring ring).isEnabled = true) (hp : ((s.elapse dt).ring ring).prod ≠ ((s.elapse dt).ring ring).cons)
    (ht : takeReport ring (s.elapse dt).out.host = some (rp, rest)) :
    exec (.reportWriteFail dt ring) s =
      .next ((((s.elapse dt).takenBack ring rest).raise (16 + ring)).covDrop rp.opcode).dmaError := by
  show execReportWriteFail dt ring s = _
  unfold execReportWriteFail
  simp only [ht]
  exact next_when (by simp [isReportRing, h16, h32, he, hp])

theorem reportWriteFail_frees (dt ring : Nat) (s : State) (rp : Report) (rest : List HostWrite) :
    let u := s.elapse dt
    let r := u.ring ring
    16 ≤ ring → ring < 32 → r.isEnabled = true → r.prod ≠ r.cons → takeReport ring u.out.host = some (rp, rest) →
    ∃ t : State, exec (.reportWriteFail dt ring) s = .next t ∧ t.out.host = rest ∧
      t.ring ring = { r with seq := r.seq - 1, prod := r.prod - 1, dropped := true } ∧
      Tbl.get 0 t.hre.rqDrop (ring - 16) = count32 (Tbl.get 0 u.hre.rqDrop (ring - 16)) ∧
      (∀ n, n ≠ ring → t.ring n = u.ring n) ∧ t.hre.fault.w.getLsbD 1 = true ∧
      t = { u with out := { u.out with host := rest }, hre := t.hre, icu := t.icu } := by
  intro u r h16 h32 he hp ht
  have hring (n : Nat) : ((((u.takenBack ring rest).raise (16 + ring)).covDrop rp.opcode).dmaError).ring n =
      (u.takenBack ring rest).ring n := by
    rw [State.dmaError_ring, State.covDrop_ring, State.raise_ring]
  have hwork : (u.takenBack ring rest).HreWork (((u.takenBack ring rest).raise (16 + ring)).covDrop rp.opcode).dmaError :=
    (State.raise_hreWork _).trans ((State.covDrop_hreWork _).trans State.dmaError_hreWork)
  obtain ⟨k, hk⟩ := State.covDrop_hre (s := (u.takenBack ring rest).raise (16 + ring)) rp.opcode
  refine ⟨_, exec_reportWriteFail h16 h32 he hp ht, ?_, ?_, ?_, fun n hn => ?_, ?_, ?_⟩
  · rw [hwork]
    rfl
  · rw [hring, State.takenBack_ring]
  · rw [State.dmaError_hre, hk, State.raise_hre]
    exact Tbl.get_modify_same
  · rw [hring, State.takenBack_ring_ne rest hn]
  · rw [State.dmaError_hre]
    exact setBit_getLsbD _ (by decide)
  · rw [hwork]
    rfl

/-- Settles O9: doorbells, shadows, backlogs and failed writes, each by its own lemma. -/
theorem doorbellsAndReportRings : Obligations.DoorbellsAndReportRings := by
  unfold Obligations.DoorbellsAndReportRings
  exact ⟨doorbell_moves, doorbell_refused, shadowWrite_writes, backlogDrain_drains, reportWriteFail_frees⟩

end Sys2Proof.Machine

namespace Sys2Proof.Machine

variable {s t : State}

/-! ### What reports leave of HRE (R75, R76, R85, R86) -/

theorem setFlag_keeps {f : Flags} {i : Nat} (cyc k : Nat) (h : f.w.getLsbD i = true) : (setFlag f cyc k).w.getLsbD i = true := by
  show (f.w ||| BitVec.ofNat 32 (2 ^ k)).getLsbD i = true
  rw [BitVec.getLsbD_or, h, Bool.true_or]

/-- What reporting may change of HRE: rings, counters of drops, and fault flags that set. -/
structure Hre.Reported (h g : Hre) : Prop where
  frame : g = { h with rings := g.rings, rptDrop := g.rptDrop, rqDrop := g.rqDrop, covDrop := g.covDrop, fault := g.fault }
  faults : ∀ i, h.fault.w.getLsbD i = true → g.fault.w.getLsbD i = true

theorem Hre.Reported.refl (h : Hre) : h.Reported h := ⟨rfl, fun _ x => x⟩

theorem Hre.Reported.trans {a b c : Hre} (h : a.Reported b) (g : b.Reported c) : a.Reported c :=
  ⟨by rw [g.frame, h.frame], fun i x => g.faults i (h.faults i x)⟩

theorem Hre.Reported.of_eq {a b : Hre} (h : b = a) : a.Reported b := h ▸ .refl a

theorem Hre.Reported.hostState {a b : Hre} (h : a.Reported b) : b.hostState = a.hostState := by rw [h.frame]
theorem Hre.Reported.lostTimeMs {a b : Hre} (h : a.Reported b) : b.lostTimeMs = a.lostTimeMs := by rw [h.frame]

theorem State.raise_reported (n : Nat) : s.hre.Reported (s.raise n).hre := .of_eq (State.raise_hre n)

theorem State.covDrop_reported (op : Nat) : s.hre.Reported (s.covDrop op).hre := by
  obtain ⟨k, hk⟩ := State.covDrop_hre (s := s) op
  rw [hk]
  exact ⟨rfl, fun _ h => h⟩

theorem State.onRing_reported (n : Nat) (f : Ring → Ring) : s.hre.Reported (s.onRing n f).hre := ⟨rfl, fun _ h => h⟩

theorem State.dropRouted_reported (op : Nat) : s.hre.Reported (s.dropRouted op).hre := by
  unfold State.dropRouted
  split
  · exact .trans ⟨rfl, fun _ h => setFlag_keeps _ _ h⟩ (State.covDrop_reported op)
  · exact .refl _

theorem State.dropQueued_reported (ring op : Nat) : s.hre.Reported (s.dropQueued ring op).hre :=
  .trans ⟨rfl, fun _ h => setFlag_keeps _ _ h⟩ ((State.raise_reported _).trans (State.covDrop_reported op))

theorem State.writeReport_reported (ring : Nat) (rp : Report) : s.hre.Reported (s.writeReport ring rp).hre := by
  unfold State.writeReport
  rw [State.raise_hre]
  exact ⟨rfl, fun _ h => h⟩

theorem State.enqueue_reported (ring : Nat) (rp : Report) : s.hre.Reported (s.enqueue ring rp).hre := by
  unfold State.enqueue
  dsimp only
  split
  · exact (State.onRing_reported ..).trans (State.writeReport_reported ..)
  · split
    · exact State.onRing_reported ..
    · exact State.dropQueued_reported ..

theorem State.report_reported (op flags tick : Nat) (p : List Fld) : s.hre.Reported (s.report op flags tick p).hre := by
  unfold State.report
  dsimp only
  split
  · exact State.enqueue_reported ..
  · exact State.dropRouted_reported _

theorem State.faultReport_reported (a b c d e : Nat) : s.hre.Reported (s.faultReport a b c d e).hre := State.report_reported ..

/-! ### What the recorder leaves of HRE (R349-R351, R354) -/

theorem State.enterStaging_hre (r : Rec) : (s.enterStaging r).hre = s.hre := by
  unfold State.enterStaging
  dsimp only
  split
  · rfl
  · exact State.raise_hre _

theorem State.stage_hre (r : Rec) : (s.stage r).hre = s.hre := by
  unfold State.stage
  split
  · split
    · rfl
    · exact State.enterStaging_hre r
  · split
    · exact State.enterStaging_hre _
    · exact State.enterStaging_hre r

theorem State.recordReport_reported (r : Rec) (fold : Bool) (tick : Nat) : s.hre.Reported (s.recordReport r fold tick).hre :=
  State.report_reported ..

theorem State.tryFold_reported {code source : Nat} (h : s.tryFold code source = some t) : s.hre.Reported t.hre := by
  unfold State.tryFold at h
  extract_lets tick op at h
  split at h
  · cases h
  · split at h
    · cases h
      split
      · exact State.recordReport_reported (s := s.onEvr _) ..
      · exact .refl _
    · split at h
      · cases h
        dsimp only
        split
        · exact State.recordReport_reported (s := s.onNv _) ..
        · exact .refl _
      · split at h
        · split at h
          · cases h
            exact .refl _
          · cases h
        · cases h

theorem State.record_reported (code source : Nat) (fixed : List (Nat × Word)) : s.hre.Reported (s.record code source fixed).hre := by
  unfold State.record
  split
  · split
    · next h => exact State.tryFold_reported h
    · exact .of_eq (State.stage_hre _)
  · exact .refl _

end Sys2Proof.Machine

namespace Sys2Proof.Machine

variable {s t : State} {dt : Nat}

/-! ### Host activity and the device's heartbeat (R79, R80) -/

theorem exec_hostHbWrite (v : Word) (h : (s.elapse dt).hostUp = true) :
    exec (.hostHbWrite dt v) s = .next (s.elapse dt).hostActivity :=
  next_when h

theorem exec_devHbTick (hr : (s.elapse dt).isReady 1 = true) (ht : (s.elapse dt).hre.devHbTick + 200000 ≤ (s.elapse dt).now) :
    exec (.devHbTick dt) s = .next ((s.elapse dt).onHre fun h => { h with devHb := h.devHb + 1, devHbTick := h.devHbTick + 200000 }) :=
  next_when (and_decide hr ht)

/-! ### The host is lost (R80, R81) -/

/-- HOST_STATE, its counter and its flag at the loss of the host. -/
def State.hostGone (new : HostState) (s : State) : State :=
  s.onHre fun h =>
    { h with hostState := new, hostLostCount := count32 h.hostLostCount, fault := setFlag h.fault s.cycle 4,
             continueTick := if new = .lostContinue then s.now else h.continueTick }

/-- The loss of the host but for the safe action: with the FAULT report and the record. -/
def State.hostLostAs (new : HostState) (s : State) : State :=
  (((s.hostGone new).raise 48).faultReport 0x0102 new.code 48 s.hre.lostTimeMs 0).record 0x0201 new.code []

theorem State.loseHost_safe (h : s.hre.hostState = .safeHold ∨ s.hre.policySafe = true) :
    s.loseHost = (s.hostLostAs .lostSafe).safeAction := by
  unfold State.loseHost
  simp only [h, if_true]
  rfl

theorem State.loseHost_continue (h : ¬(s.hre.hostState = .safeHold ∨ s.hre.policySafe = true)) :
    s.loseHost = s.hostLostAs .lostContinue := by
  unfold State.loseHost
  simp only [h, if_false]
  rfl

section
variable (new : HostState)

theorem State.hostLostAs_records : s.Records (s.hostLostAs new) :=
  .trans (b := s.hostGone new) rfl <| (State.raise_reports _).records.trans <|
    (State.Reports.records (State.report_reports ..)).trans (State.record_records ..)

theorem State.hostLostAs_reported : (s.hostGone new).hre.Reported (s.hostLostAs new).hre := by
  unfold State.hostLostAs
  exact (State.raise_reported 48).trans <| (State.faultReport_reported ..).trans (State.record_reported ..)

theorem State.hostLostAs_hostState : (s.hostLostAs new).hre.hostState = new :=
  (State.hostLostAs_reported new).hostState

theorem State.hostLostAs_count : (s.hostLostAs new).hre.hostLostCount = count32 s.hre.hostLostCount := by
  rw [(State.hostLostAs_reported new).frame]
  rfl

theorem State.hostLostAs_fault : (s.hostLostAs new).hre.fault.w.getLsbD 4 = true :=
  (State.hostLostAs_reported new).faults 4 (setBit_getLsbD _ (by decide))

end

theorem exec_hostLost (ha : (s.elapse dt).hre.timerArmed = true)
    (hs : (s.elapse dt).hre.hostState = .present ∨ (s.elapse dt).hre.hostState = .safeHold)
    (ht : (s.elapse dt).hre.timerTick + (s.elapse dt).hre.lostTimeMs * 200000 ≤ (s.elapse dt).now) :
    exec (.hostLost dt) s = .next (s.elapse dt).loseHost := by
  refine next_when ?_
  unfold Hre.lostDue
  rw [ha]
  exact and_decide (by simpa using hs) ht

/-! ### RESUME (R81) -/

theorem State.resume_schedules : (s.onHre fun h => { h with hostState := .present }).Schedules s.resume := by
  unfold State.resume
  refine foldl_related _ State.Schedules.refl State.Schedules.trans (fun s ep => ?_) _
  split
  · exact .refl s
  · exact State.insert_schedules ..

theorem exec_resume {v : Word} (hu : (s.elapse dt).hostUp = true) (hv : bit v 0 = true)
    (hs : (s.elapse dt).hre.hostState = .safeHold) : exec (.resume dt v) s = .next (s.elapse dt).resume := by
  have hst : s.hre.hostState = .safeHold := hs
  exact next_when (by simp [hu, hv, hst])

/-- Settles O15: reports and records leave HOST_STATE, its counters and its set flags; scheduling leaves HRE and the channels. -/
theorem hostPresenceMoves : Obligations.HostPresenceMoves := by
  unfold Obligations.HostPresenceMoves
  refine ⟨?_, ?_, ?_, ?_, ?_, ?_⟩
  · intro dt v s u hu
    exact ⟨_, exec_hostHbWrite v hu, State.hostActivity_hre, State.hostActivity_icu, State.hostActivity_frame⟩
  · intro dt s u hr ht
    exact exec_devHbTick hr ht
  · intro dt s u ha hs hp ht
    have hr := State.hostLostAs_records (s := u) .lostContinue
    refine ⟨u.hostLostAs .lostContinue, ?_, State.hostLostAs_hostState _, ?_, State.hostLostAs_count _,
      State.hostLostAs_fault _, ?_, ?_, ?_⟩
    · rw [exec_hostLost ha (.inl hs) ht, State.loseHost_continue (by rw [hs, hp]; simp)]
    · rw [(State.hostLostAs_reported _).frame]
      rfl
    · rw [hr]
    · rw [hr]
    · exact hr
  · intro dt s u ha hs ht
    refine ⟨u.hostLostAs .lostSafe, ?_, State.hostLostAs_hostState _, State.hostLostAs_count _, State.hostLostAs_fault _,
      State.hostLostAs_records _⟩
    rw [exec_hostLost ha (hs.elim .inr fun h => .inl h.1) ht, State.loseHost_safe (hs.imp id And.right)]
  · intro dt s u hs ht
    exact next_when (and_decide (by rw [hs]; rfl) (by rw [Nat.mul_assoc]; exact ht))
  · intro dt v s u hu hv hs
    refine ⟨_, exec_resume hu hv hs, ?_, ?_⟩
    · rw [State.resume_schedules.frame]
      rfl
    · rw [State.resume_schedules.frame]
      rfl

end Sys2Proof.Machine

namespace Sys2Proof.Machine

variable {s t : State} {dt : Nat}

/-! ### Ready bits (R360) -/

theorem State.putReady_isReady {b : Nat} (v : Bool) (k : Nat) (hb : b < 14) :
    (s.putReady b v).isReady k = if k = b then v else s.isReady k := by
  have hbit : (BitVec.ofNat 14 (2 ^ b)).getLsbD k = decide (k = b) := by
    rw [BitVec.getLsbD_ofNat, Nat.testBit_two_pow]
    by_cases h : k = b
    · simp [h, hb]
    · simp [h, Ne.symm h]
  unfold State.putReady State.isReady
  cases v with
  | false =>
    show (s.prs.ready &&& ~~~(BitVec.ofNat 14 (2 ^ b))).getLsbD k = _
    rw [BitVec.getLsbD_and, BitVec.getLsbD_not, hbit]
    by_cases h : k = b
    · simp [h]
    · by_cases hk : k < 14
      · simp [h, hk]
      · simp [h, hk, BitVec.getLsbD_of_ge _ _ (Nat.not_lt.mp hk)]
  | true =>
    show (s.prs.ready ||| BitVec.ofNat 14 (2 ^ b)).getLsbD k = _
    rw [BitVec.getLsbD_or, hbit]
    by_cases h : k = b <;> simp [h]

theorem State.raise_isReady (n k : Nat) : (s.raise n).isReady k = s.isReady k := by
  rw [State.raise_frame]
  rfl

/-! ### Backlogs dropped (R59, R83) -/

theorem State.dropAll_work (l : List Report) : s.Reports (s.dropAll l) ∧ s.hre.Reported (s.dropAll l).hre := by
  induction l generalizing s with
  | nil => exact ⟨.refl, .refl _⟩
  | cons r l ih =>
    obtain ⟨h, g⟩ := @ih (s.dropRouted r.opcode)
    exact ⟨(State.dropRouted_reports _).trans h, (State.dropRouted_reported _).trans g⟩

theorem State.dropBacklogs_reports : s.Reports s.dropBacklogs :=
  foldl_related s (fun _ => .refl) .trans (fun _ _ => .trans (State.onRing_reports ..) (State.dropAll_work _).1) _

theorem State.dropBacklogs_reported : s.hre.Reported s.dropBacklogs.hre :=
  foldl_related (R := fun s t => s.hre.Reported t.hre) s (fun s => .refl s.hre) .trans
    (fun s _ => .trans (State.onRing_reported (s := s) ..) (State.dropAll_work _).2) _

/-! ### PCIe link-down (R83) -/

/-- HRE after a PCIe link-down. -/
def Hre.unlinked (cyc : Nat) (h : Hre) : Hre :=
  { h with linkUp := false, linkSpeed := 0, linkWidth := 0, rings := [], msix := [], msixEnable := false, msixFuncMask := false,
           pba := 0, fault := setFlag h.fault cyc 5 }

theorem Hre.unlinked_fault (cyc : Nat) (h : Hre) : (h.unlinked cyc).fault.w.getLsbD 5 = true := setBit_getLsbD _ (by decide)

theorem Hre.unlinked_hostState (cyc : Nat) (h : Hre) : (h.unlinked cyc).hostState = h.hostState := rfl
theorem Hre.unlinked_lostTimeMs (cyc : Nat) (h : Hre) : (h.unlinked cyc).lostTimeMs = h.lostTimeMs := rfl

/-- A link-down once the backlogs are gone and the running descriptors have lost their rings. -/
def State.cutLink (s : State) : State := ((s.onHre (Hre.unlinked s.cycle)).raise 51).putReady 1 false

theorem State.linkDown_eq : s.linkDown = s.dropBacklogs.orphan.cutLink := rfl

theorem State.cutLink_hre : s.cutLink.hre = s.hre.unlinked s.cycle := State.raise_hre _

theorem State.cutLink_frame : s.cutLink = { s with hre := s.cutLink.hre, icu := s.cutLink.icu, prs := s.cutLink.prs } := by
  unfold State.cutLink
  rw [State.raise_frame]
  rfl

theorem State.cutLink_cause : s.cutLink.prs.cause = s.prs.cause := by
  unfold State.cutLink
  rw [State.raise_frame]
  rfl

/-- What loses its ring at a link-down waits in blocks other than HRE (R83). -/
theorem State.orphan_frame : s.orphan =
    { s with tbu := s.orphan.tbu, pse := s.orphan.pse, gnb := s.orphan.gnb, mpg := s.orphan.mpg,
             lsb := { s.lsb with waits := s.orphan.lsb.waits }, flp := s.orphan.flp, rge := s.orphan.rge } := rfl

theorem State.linkDown_hre : ∃ cyc, s.linkDown.hre = s.dropBacklogs.hre.unlinked cyc := by
  exact ⟨s.dropBacklogs.orphan.cycle, by rw [State.linkDown_eq, State.cutLink_hre, State.orphan_frame]⟩

/-- What a link-down leaves as it is. -/
theorem State.linkDown_keeps : s.linkDown.gle = s.gle ∧ s.linkDown.lsb.chans = s.lsb.chans ∧ s.linkDown.nv = s.nv ∧
    s.linkDown.prs.cause = s.prs.cause := by
  have h := State.dropBacklogs_reports (s := s)
  rw [State.linkDown_eq, State.cutLink_cause, State.cutLink_frame, State.orphan_frame, h]
  exact ⟨rfl, rfl, rfl, rfl⟩

theorem State.linkDown_ring (n : Nat) : s.linkDown.ring n = {} := by
  obtain ⟨_, h⟩ := State.linkDown_hre (s := s)
  unfold State.ring
  rw [h]
  rfl

theorem State.linkDown_unready : s.linkDown.isReady 1 = false := State.putReady_isReady false 1 (by decide)

theorem exec_pcieLinkDown (h : (s.elapse dt).hre.linkUp = true) : exec (.pcieLinkDown dt) s = .next (s.elapse dt).linkDown :=
  next_when h

theorem pcieLinkDown_unlinks (dt : Nat) (s : State) :
    let u := s.elapse dt
    u.hre.linkUp = true →
    ∃ t : State, exec (.pcieLinkDown dt) s = .next t ∧ t.hre.linkUp = false ∧ (∀ n, (t.ring n).mode = .disabled) ∧
      t.hre.msixEnable = false ∧ t.hre.fault.w.getLsbD 5 = true ∧ t.isReady 1 = false ∧ t.hre.hostState = u.hre.hostState ∧
      t.hre.lostTimeMs = u.hre.lostTimeMs ∧ t.gle = u.gle ∧ t.lsb.chans = u.lsb.chans ∧ t.nv = u.nv := by
  intro u h
  obtain ⟨hgle, hchans, hnv, -⟩ := State.linkDown_keeps (s := u)
  obtain ⟨cyc, hhre⟩ := State.linkDown_hre (s := u)
  refine ⟨_, exec_pcieLinkDown h, ?_, fun n => by rw [State.linkDown_ring], ?_, ?_, State.linkDown_unready, ?_, ?_,
    hgle, hchans, hnv⟩
  all_goals rw [hhre]
  · rfl
  · rfl
  · exact Hre.unlinked_fault ..
  · rw [Hre.unlinked_hostState, State.dropBacklogs_reported.hostState]
  · rw [Hre.unlinked_lostTimeMs, State.dropBacklogs_reported.lostTimeMs]

/-! ### PCIe link-up (R79, R360) -/

theorem exec_pcieLinkUp {speed width : Nat} (h1 : (s.elapse dt).prs.running = true) (h2 : (s.elapse dt).powered 1 = true)
    (h3 : (s.elapse dt).prs.inReset = false) (h4 : (s.elapse dt).hre.linkUp = false) :
    exec (.pcieLinkUp dt speed width) s = .next ((s.elapse dt).linkRise speed width) :=
  next_when (c := (s.elapse dt).prs.running && (s.elapse dt).powered 1 && !(s.elapse dt).prs.inReset && !(s.elapse dt).hre.linkUp)
    (by rw [h1, h2, h3, h4]; rfl)

theorem State.linkRise_unready {speed width : Nat} (h : s.isReady 1 = false) : s.linkRise speed width =
    (((s.onHre fun h => { h with linkUp := true, linkSpeed := speed % 8, linkWidth := width % 16, devHbTick := s.now }).putReady 1
      true).raise 52) := by
  have hne : s.isReady 1 ≠ true := by rw [h]; exact Bool.noConfusion
  exact (if_neg hne).trans (if_neg (by decide))

theorem pcieLinkUp_links (dt speed width : Nat) (s : State) :
    let u := s.elapse dt
    u.prs.running = true → u.powered 1 = true → u.prs.inReset = false → u.hre.linkUp = false → u.isReady 1 = false →
    ∃ t : State, exec (.pcieLinkUp dt speed width) s = .next t ∧
      t.hre = { u.hre with linkUp := true, linkSpeed := speed % 8, linkWidth := width % 16, devHbTick := u.now } ∧
      t.isReady 1 = true ∧ (∀ k, k ≠ 1 → t.isReady k = u.isReady k) ∧ t = { u with hre := t.hre, prs := t.prs, icu := t.icu } := by
  intro u h1 h2 h3 h4 h5
  rw [exec_pcieLinkUp h1 h2 h3 h4, State.linkRise_unready h5]
  refine ⟨_, rfl, State.raise_hre _, ?_, ?_, ?_⟩
  · rw [State.raise_isReady, State.putReady_isReady _ _ (by decide)]
    rfl
  · intro k hk
    rw [State.raise_isReady, State.putReady_isReady _ _ (by decide), if_neg hk]
    rfl
  · rw [State.raise_frame]
    rfl

/-! ### Function Level Reset and PERST_N (R84, R363, R365) -/

theorem flr_plans (dt : Nat) (s : State) :
    let u := s.elapse dt
    u.hostUp = true → u.prs.planned = none → u.prs.inReset = false →
    exec (.flr dt) s = .next { u with prs := { u.prs with planned := some { cause := 7, domains := 0, tick := u.now } } } := by
  intro u hu hp hr
  refine (next_when hu).trans (congrArg Host.Outcome.next (if_pos ?_))
  rw [hp, hr]
  rfl

theorem exec_perst (hr : (s.elapse dt).prs.running = true) (hl : (s.elapse dt).hre.linkUp = true) :
    exec (.perst dt) s = .next ((s.elapse dt).onPrs fun p => { p with cause := 8 }).linkDown :=
  (next_when hr).trans (congrArg Host.Outcome.next (if_pos hl))

theorem perst_unlinks (dt : Nat) (s : State) :
    let u := s.elapse dt
    u.prs.running = true → u.hre.linkUp = true →
    ∃ t : State, exec (.perst dt) s = .next t ∧ t.prs.cause = 8 ∧ t.hre.linkUp = false ∧ t.isReady 1 = false ∧
      (∀ n, (t.ring n).mode = .disabled) := by
  intro u hr hl
  obtain ⟨-, -, -, hcause⟩ := State.linkDown_keeps (s := u.onPrs fun p => { p with cause := 8 })
  obtain ⟨cyc, hhre⟩ := State.linkDown_hre (s := u.onPrs fun p => { p with cause := 8 })
  exact ⟨_, exec_perst hr hl, hcause, by rw [hhre]; rfl, State.linkDown_unready, fun n => by rw [State.linkDown_ring]⟩

/-- Settles O16: dropping backlogs and orphaning descriptors leave what the statement names. -/
theorem pcieLinkMoves : Obligations.PcieLinkMoves := by
  unfold Obligations.PcieLinkMoves
  exact ⟨pcieLinkDown_unlinks, pcieLinkUp_links, flr_plans, perst_unlinks⟩

end Sys2Proof.Machine

namespace Sys2Proof.Machine

variable {s t : State} {n : Nat}

/-! ### A channel's output (R239, R240, R244-R246) -/

theorem State.ChanWork.trans {a b c : State} (h : a.ChanWork n b) (g : b.ChanWork n c) : a.ChanWork n c := by
  refine ⟨?_, fun k hk => (g.others k hk).trans (h.others k hk)⟩
  have hc := g.frame
  rw [h.frame] at hc
  exact hc

theorem State.ChanWork.rge (h : s.ChanWork n t) : t.rge = s.rge := by rw [h.frame]
theorem State.ChanWork.gle (h : s.ChanWork n t) : t.gle = s.gle := by rw [h.frame]
theorem State.ChanWork.reversed (h : s.ChanWork n t) : t.lsb.reversed = s.lsb.reversed := by rw [h.frame]
theorem State.ChanWork.bankOf (h : s.ChanWork n t) : t.bankOf n = s.bankOf n := by rw [h.frame]; rfl
theorem State.ChanWork.now (h : s.ChanWork n t) : t.now = s.now := by rw [h.frame]; rfl

/-- What driving an output may change of its channel. -/
def Channel.Driven (c d : Channel) : Prop :=
  d = { c with out := d.out, onTick := d.onTick, offTick := d.offTick, inrush := d.inrush, inrushTick := d.inrushTick,
               pullin := d.pullin, pullinTick := d.pullinTick, hold := d.hold, openOff := d.openOff, shortBat := d.shortBat,
               sat := d.sat, openOn := d.openOn, coil := d.coil }

theorem Channel.Driven.refl (c : Channel) : c.Driven c := rfl

theorem Channel.Driven.trans {a b c : Channel} (h : a.Driven b) (g : b.Driven c) : a.Driven c := by
  unfold Channel.Driven at *
  rw [g, h]

section
variable {c d : Channel} (h : c.Driven d)
include h

theorem Channel.Driven.cmd : d.cmd = c.cmd := by rw [h]
theorem Channel.Driven.holding : d.holding = c.holding := by rw [h]
theorem Channel.Driven.context : d.context = c.context := by rw [h]
theorem Channel.Driven.keepTick : d.keepTick = c.keepTick := by rw [h]
theorem Channel.Driven.inSafe : d.inSafe = c.inSafe := by rw [h]
theorem Channel.Driven.prot : d.prot = c.prot := by rw [h]
theorem Channel.Driven.retriesUsed : d.retriesUsed = c.retriesUsed := by rw [h]
theorem Channel.Driven.level (tick : Nat) : d.level tick = c.level tick := by rw [h]; rfl
theorem Channel.Driven.inService : d.inService = c.inService := by rw [h]; rfl

end

theorem State.follow_driven (n : Nat) (fresh : Bool) : (s.chan n).Driven ((s.follow n fresh).chan n) := by
  unfold State.follow
  dsimp only
  split
  · exact .refl _
  · split
    · unfold State.turnOn
      rw [State.onChan_chan]
      rfl
    · split
      · unfold State.turnOff
        rw [State.onChan_chan]
        rfl
      · exact .refl _

/-! ### A command of the holder (R242, R245, R246) -/

/-- A channel with a new command, before its output follows. -/
def Channel.told (cmd : ChCmd) (tick : Nat) (c : Channel) : Channel :=
  { c with cmd, pwmTick := tick, setTick := tick, nextDuty := none, sat := false, carried := false }

theorem State.command_cases (n : Nat) (cmd : ChCmd) :
    s.command n cmd = (s.onChan n (Channel.told cmd s.now)).follow n true ∨
      ∃ p, s.command n cmd = ((s.onChan n (Channel.told cmd s.now)).follow n true).onChan n fun c =>
        { c with pullin := p, pullinTick := s.now, hold := false } := by
  unfold State.command
  dsimp only
  split
  · exact .inr ⟨_, rfl⟩
  · exact .inl rfl

theorem State.command_chanWork (n : Nat) (cmd : ChCmd) : s.ChanWork n (s.command n cmd) := by
  have hf := (State.onChan_chanWork s n (Channel.told cmd s.now)).trans (State.follow_chanWork _ n true)
  obtain h | ⟨p, h⟩ := State.command_cases (s := s) n cmd
  · rw [h]
    exact hf
  · rw [h]
    exact hf.trans (State.onChan_chanWork ..)

theorem State.command_driven (n : Nat) (cmd : ChCmd) : ((s.chan n).told cmd s.now).Driven ((s.command n cmd).chan n) := by
  have hf := State.follow_driven (s := s.onChan n (Channel.told cmd s.now)) n true
  rw [State.onChan_chan] at hf
  obtain h | ⟨p, h⟩ := State.command_cases (s := s) n cmd
  · rw [h]
    exact hf
  · rw [h, State.onChan_chan]
    exact hf.trans rfl

theorem State.command_out (cmd : ChCmd) (hr : Tbl.get false s.lsb.reversed (s.bankOf n) = false) :
    ((s.command n cmd).chan n).out =
      ((s.onChan n (Channel.told cmd s.now)).chanLive n && (s.onChan n (Channel.told cmd s.now)).wantsOn n) := by
  have hf := State.follow_out (s.onChan n (Channel.told cmd s.now)) (n := n) true hr
  obtain h | ⟨p, h⟩ := State.command_cases (s := s) n cmd
  · rw [h, hf]
  · rw [h, State.onChan_chan, hf]

/-- Whether a channel can be on is a matter of its protection, the keeper and its bank. -/
theorem State.ChanWork.chanLive (h : s.ChanWork n t) (hs : (t.chan n).inService = (s.chan n).inService)
    (hk : (t.chan n).keepTick = (s.chan n).keepTick) (hf : (t.chan n).inSafe = (s.chan n).inSafe) :
    t.chanLive n = s.chanLive n := by
  have hsup : t.supplied (t.bankOf n) = s.supplied (s.bankOf n) := by rw [h.frame]; rfl
  have hrdy : t.isReady 2 = s.isReady 2 := by rw [h.frame]; rfl
  unfold State.chanLive
  simp only [hs, hk, hf, hsup, hrdy]

/-- A channel that DIRECT_SWITCH holds is where its command puts it. -/
theorem State.command_level {cmd : ChCmd} (hh : (s.chan n).holding = .direct) (hs : (s.chan n).inSafe = false)
    (hr : Tbl.get false s.lsb.reversed (s.bankOf n) = false) (hl : (s.command n cmd).chanLive n = true) :
    ((s.command n cmd).chan n).out = ((s.command n cmd).chan n).level s.now := by
  have hd := State.command_driven (s := s) n cmd
  have hu : (s.onChan n (Channel.told cmd s.now)).chan n = (s.chan n).told cmd s.now := State.onChan_chan ..
  have hlive : (s.onChan n (Channel.told cmd s.now)).chanLive n = true := by
    rw [← hl, (State.command_chanWork n cmd).chanLive hd.inService hd.keepTick hd.inSafe,
      (State.onChan_chanWork s n _).chanLive (by rw [hu]; rfl) (by rw [hu]; rfl) (by rw [hu]; rfl)]
  have hesc : ((s.chan n).told cmd s.now).followsEsc = false := by simp [Channel.followsEsc, Channel.told, hh]
  have hsafe : ((s.chan n).told cmd s.now).inSafe = false := hs
  rw [State.command_out cmd hr, hlive, Bool.true_and, hd.level]
  unfold State.wantsOn
  simp only [hu, hesc, hsafe, Bool.false_eq_true, if_false]
  rfl

/-! ### A re-claim (R255, R256) -/

theorem State.reclaim_chanWork (n : Nat) : s.ChanWork n (s.reclaim n) := by
  unfold State.reclaim
  dsimp only
  split
  · exact State.onChan_chanWork ..
  · exact .refl s n

/-- A re-claim ends the keeper's hold and SAFE and leaves the holder. -/
theorem State.reclaim_chan (n : Nat) : ((s.reclaim n).chan n).keepTick = none ∧ ((s.reclaim n).chan n).inSafe = false ∧
    ((s.reclaim n).chan n).holding = (s.chan n).holding ∧ ((s.reclaim n).chan n).context = (s.chan n).context := by
  unfold State.reclaim
  dsimp only
  split
  · rw [State.onChan_chan]
    exact ⟨rfl, rfl, rfl, rfl⟩
  · next h =>
    simp only [Channel.isKept, Bool.or_eq_true, not_or, Bool.not_eq_true, Option.isSome_eq_false_iff, Option.isNone_iff_eq_none] at h
    exact ⟨h.1, h.2, rfl, rfl⟩

/-- A re-claimed channel takes its new command (R242). -/
theorem State.reclaim_command (n : Nat) (cmd : ChCmd) :
    let t := (s.reclaim n).command n cmd
    (t.chan n).cmd = cmd ∧ (t.chan n).keepTick = none ∧ (t.chan n).inSafe = false ∧ t.rge = s.rge ∧ t.gle = s.gle ∧
      (t.chanLive n = true → (s.chan n).holding = .direct → Tbl.get false s.lsb.reversed (s.bankOf n) = false →
        (t.chan n).out = (t.chan n).level s.now) := by
  obtain ⟨hk, hs, hh, -⟩ := State.reclaim_chan (s := s) n
  have hr := State.reclaim_chanWork (s := s) n
  have hw := hr.trans (State.command_chanWork n cmd)
  have hd := State.command_driven (s := s.reclaim n) n cmd
  refine ⟨hd.cmd, hd.keepTick.trans hk, hd.inSafe.trans hs, hw.rge, hw.gle, fun hl hdir hrev => ?_⟩
  rw [← hr.now]
  exact State.command_level (hh.trans hdir) hs (by rw [hr.reversed, hr.bankOf]; exact hrev) hl

end Sys2Proof.Machine

namespace Sys2Proof.Machine

variable {s t : State} {n : Nat} {e : SwEntry}

/-! ### What the operations of DIRECT_SWITCH may change (R242) -/

/-- Channels, contexts, the ground's effects to come and interrupt sources. -/
def State.SwitchFrame (s t : State) : Prop :=
  t = { s with lsb := { s.lsb with chans := t.lsb.chans }, gle := t.gle, rge := t.rge, icu := t.icu }

theorem State.SwitchFrame.refl (s : State) : s.SwitchFrame s := rfl

theorem State.SwitchFrame.trans {a b c : State} (h : a.SwitchFrame b) (g : b.SwitchFrame c) : a.SwitchFrame c := by
  unfold State.SwitchFrame at *
  rw [h] at g
  exact g

theorem State.SwitchFrame.now (h : s.SwitchFrame t) : t.now = s.now := by rw [h]; rfl

/-- An operation on channel `n`, which leaves the other channels as they are. -/
structure State.SwitchWork (n : Nat) (s t : State) : Prop where
  frame : s.SwitchFrame t
  others : ∀ k, k ≠ n → t.chan k = s.chan k

theorem State.SwitchWork.refl (n : Nat) (s : State) : s.SwitchWork n s := ⟨.refl s, fun _ _ => rfl⟩

theorem State.SwitchWork.trans {a b c : State} (h : a.SwitchWork n b) (g : b.SwitchWork n c) : a.SwitchWork n c :=
  ⟨h.frame.trans g.frame, fun k hk => (g.others k hk).trans (h.others k hk)⟩

theorem State.ChanWork.switchWork (h : s.ChanWork n t) : s.SwitchWork n t :=
  ⟨by unfold State.SwitchFrame; rw [h.frame], h.others⟩

/-- A change of contexts, effects to come and interrupt sources alone. -/
def State.PathWork (s t : State) : Prop := t = { s with gle := t.gle, rge := t.rge, icu := t.icu }

theorem State.PathWork.trans {a b c : State} (h : a.PathWork b) (g : b.PathWork c) : a.PathWork c := by
  unfold State.PathWork at *
  rw [g, h]

theorem State.PathWork.chan (h : s.PathWork t) (k : Nat) : t.chan k = s.chan k := by rw [h]; rfl

theorem State.PathWork.switchWork (h : s.PathWork t) (n : Nat) : s.SwitchWork n t :=
  ⟨by unfold State.SwitchFrame; rw [h], fun k _ => h.chan k⟩

/-! ### The target of a context (R288, R289) -/

theorem State.onCtx_pathWork (c : Nat) (f : Ctx → Ctx) : s.PathWork (s.onCtx c f) := rfl

theorem State.ctxFault_pathWork (c b : Nat) : s.PathWork (s.ctxFault c b) := by
  unfold State.ctxFault
  rw [State.raise_frame]
  rfl

theorem State.noteTarget_pathWork (c : Nat) : s.PathWork (s.noteTarget c) := by
  unfold State.noteTarget
  dsimp only
  split
  · rfl
  · split
    · exact (State.onCtx_pathWork ..).trans (State.ctxFault_pathWork ..)
    · rfl

/-- TGT_LOST and its fault bit are all that noting a target changes of its context. -/
theorem State.noteTarget_ctx (c : Nat) :
    ∃ lost f, (s.noteTarget c).ctx c = { s.ctx c with tgtLost := lost, faults := f } := by
  unfold State.noteTarget
  dsimp only
  split
  · exact ⟨_, _, rfl⟩
  · split
    · refine ⟨s.targetLost c, ?_⟩
      unfold State.ctxFault
      rw [State.raise_frame]
      show ∃ f, ((s.onCtx c _).onCtx c _).ctx c = _
      rw [State.onCtx_ctx, State.onCtx_ctx]
      exact ⟨_, rfl⟩
    · rw [State.onCtx_ctx]
      exact ⟨_, _, rfl⟩

theorem State.noteTarget_ctxOut (c : Nat) : (s.noteTarget c).ctxOut c = s.ctxOut c := by
  obtain ⟨lost, f, h⟩ := State.noteTarget_ctx (s := s) c
  have hw := State.noteTarget_pathWork (s := s) c
  have hp : (s.noteTarget c).powered 6 = s.powered 6 := by rw [hw]; rfl
  have ho : (s.noteTarget c).safeOut c = s.safeOut c := by rw [hw]; rfl
  unfold State.ctxOut
  rw [h, hp, ho]

/-! ### A channel back in service (R240, R398) -/

theorem State.noteChan_pathWork (k : Nat) : s.PathWork (s.noteChan k) := by
  unfold State.noteChan
  split
  · exact State.noteTarget_pathWork _
  · rfl

theorem State.pathBack_pathWork (ep : Nat) : s.PathWork (s.pathBack ep) := by
  unfold State.pathBack
  dsimp only
  split <;> rfl

theorem State.chanBack_work (n : Nat) : s.SwitchWork n (s.chanBack n) ∧ (s.chan n).Driven ((s.chanBack n).chan n) := by
  have hf := (State.follow_chanWork s n true).switchWork
  have hd := State.follow_driven (s := s) n true
  have hn := State.noteChan_pathWork (s := s.follow n true) n
  unfold State.chanBack
  dsimp only
  split
  · have hb := hn.trans (State.pathBack_pathWork (localBase + n))
    exact ⟨hf.trans (hb.switchWork n), by rw [hb.chan]; exact hd⟩
  · exact ⟨hf.trans (hn.switchWork n), by rw [hn.chan]; exact hd⟩

/-! ### CLEAR (R9, R242, R243) -/

theorem State.clearChan_switchWork (n : Nat) : s.SwitchWork n (s.clearChan n) := by
  unfold State.clearChan
  dsimp only
  split
  · exact (State.onChan_chanWork ..).switchWork
  · split
    · exact (State.onChan_chanWork ..).switchWork.trans (State.chanBack_work n).1
    · exact (State.onChan_chanWork ..).switchWork

/-- Outside the keeper's hold CLEAR re-arms the channel and leaves its command. -/
theorem State.clearChan_arms (hk : (s.chan n).keepTick = none) (hs : (s.chan n).inSafe = false) :
    ((s.clearChan n).chan n).prot = .armed ∧ ((s.clearChan n).chan n).retriesUsed = 0 ∧
      ((s.clearChan n).chan n).cmd = (s.chan n).cmd := by
  have hkept : (s.chan n).isKept = false := by simp [Channel.isKept, hk, hs]
  unfold State.clearChan
  simp only [hkept, Bool.false_and, Bool.false_eq_true, if_false]
  split
  · have hd := (State.chanBack_work (s := s.onChan n fun c =>
      { c with prot := .armed, retriesUsed := 0, clearSeen := false, keepTripped := false }) n).2
    rw [State.onChan_chan] at hd
    exact ⟨hd.prot, hd.retriesUsed, hd.cmd⟩
  · rw [State.onChan_chan]
    exact ⟨rfl, rfl, rfl⟩

variable {span : Nat}

theorem State.clearUnless_tripped (h : (s.chan n).tripTick.map (· / span) = some (s.now / span)) : s.clearUnless span n = s :=
  if_pos h

theorem State.clearUnless_clears (h : (s.chan n).tripTick.map (· / span) ≠ some (s.now / span)) :
    s.clearUnless span n = s.clearChan n :=
  if_neg h

theorem State.clearUnless_switchWork (span n : Nat) : s.SwitchWork n (s.clearUnless span n) := by
  unfold State.clearUnless
  split
  · exact .refl n s
  · exact State.clearChan_switchWork n

/-! ### One entry (R242) -/

/-- The command that OFF, ON, PWM and CURRENT give. -/
def SwEntry.command (e : SwEntry) : ChCmd :=
  match e.op with
  | 0 => .off
  | 1 => .on
  | 2 => .pwm e.value e.value2
  | _ => .current e.value e.value2

theorem State.unbind_eq (h : (s.chan n).holding = .regulator) : s.unbind n =
    (s.onCtx (s.chan n).context fun x => { x with bound := none, tgtLost := false }).onChan n fun c =>
      { c with holding := .direct, context := 0 } := if_pos h

theorem State.unbind_unbound (h : (s.chan n).holding ≠ .regulator) : s.unbind n = s := if_neg h

/-- OFF where no context holds the channel, ON, PWM and CURRENT: a re-claim with a command. -/
theorem State.applySwitch_command (h : e.op ≤ 3) (hc : e.op ≠ 0 ∨ (s.chan e.channel).holding ≠ .regulator) :
    s.applySwitch e = (s.reclaim e.channel).command e.channel e.command := by
  unfold State.applySwitch SwEntry.command
  obtain h0 | h0 | h0 | h0 : e.op = 0 ∨ e.op = 1 ∨ e.op = 2 ∨ e.op = 3 := by omega
  · obtain ⟨-, -, hh, -⟩ := State.reclaim_chan (s := s) e.channel
    simp only [h0]
    rw [State.unbind_unbound (by rw [hh]; exact hc.resolve_left (not_not_intro h0))]
  · simp only [h0]
  · simp only [h0]
  · simp only [h0]

theorem State.applySwitch_off (h : e.op = 0) :
    s.applySwitch e = ((s.reclaim e.channel).unbind e.channel).command e.channel .off := by
  unfold State.applySwitch
  simp only [h]

theorem State.applySwitch_bind (h : e.op = 4) : s.applySwitch e = s.bind e := by
  unfold State.applySwitch
  simp only [h]

theorem State.applySwitch_clear (h : e.op = 6) : s.applySwitch e = s.clearUnless 1 e.channel := by
  unfold State.applySwitch
  simp only [h]

theorem State.unbind_switchWork (n : Nat) : s.SwitchWork n (s.unbind n) := by
  unfold State.unbind
  dsimp only
  split
  · exact .trans ((State.onCtx_pathWork ..).switchWork n) (State.onChan_chanWork ..).switchWork
  · exact .refl n s

/-- A channel that a BIND hands to its context. -/
def Channel.given (e : SwEntry) (c : Channel) : Channel :=
  { c with holding := .regulator, context := e.context, bindCurrent := e.value == 1, bindArg := e.value2 }

/-- The state in which a channel has passed to its context, before it is driven. -/
def State.bound (e : SwEntry) (s : State) : State :=
  (s.onCtx e.context fun x => { x with bound := some e.channel }).onChan e.channel (Channel.given e)

theorem State.bound_chan : (s.bound e).chan e.channel = (s.chan e.channel).given e := State.onChan_chan ..

theorem State.bound_ctx : ((s.bound e).ctx e.context).bound = some e.channel := by
  show ((s.onCtx e.context _).ctx e.context).bound = _
  rw [State.onCtx_ctx]

theorem State.bind_eq (e : SwEntry) : s.bind e =
    ((s.bound e).command e.channel (boundCmd (e.value == 1) e.value2 ((s.bound e).ctxOut e.context))).noteTarget e.context := rfl

theorem State.bound_switchWork (e : SwEntry) : s.SwitchWork e.channel (s.bound e) :=
  .trans ((State.onCtx_pathWork ..).switchWork _) (State.onChan_chanWork ..).switchWork

theorem State.bind_switchWork (e : SwEntry) : s.SwitchWork e.channel (s.bind e) := by
  rw [State.bind_eq]
  exact (State.bound_switchWork e).trans <| (State.command_chanWork ..).switchWork.trans <|
    (State.noteTarget_pathWork _).switchWork _

theorem State.applySwitch_switchWork (e : SwEntry) : s.SwitchWork e.channel (s.applySwitch e) := by
  have hc (cmd : ChCmd) : s.SwitchWork e.channel ((s.reclaim e.channel).command e.channel cmd) :=
    ((State.reclaim_chanWork _).trans (State.command_chanWork ..)).switchWork
  unfold State.applySwitch
  dsimp only
  split
  · exact (State.reclaim_chanWork _).switchWork.trans <| (State.unbind_switchWork _).trans (State.command_chanWork ..).switchWork
  · exact hc _
  · exact hc _
  · exact hc _
  · exact State.bind_switchWork e
  · exact (State.reclaim_chanWork _).switchWork
  · exact State.clearUnless_switchWork ..

/-- A command to a channel is nothing to the contexts. -/
theorem State.ChanWork.ctx (h : s.ChanWork n t) (c : Nat) : t.ctx c = s.ctx c := by
  unfold State.ctx
  rw [h.rge]

theorem State.ChanWork.ctxOut (h : s.ChanWork n t) (c : Nat) : t.ctxOut c = s.ctxOut c := by
  rw [h.frame]
  rfl

/-- OFF takes the channel from its context. -/
theorem State.unbind_command (cmd : ChCmd) (h : (s.chan n).holding = .regulator) :
    (((s.unbind n).command n cmd).chan n).cmd = cmd ∧ (((s.unbind n).command n cmd).chan n).holding = .direct ∧
      (((s.unbind n).command n cmd).ctx (s.chan n).context).bound = none := by
  have hd := State.command_driven (s := s.unbind n) n cmd
  rw [(State.command_chanWork n cmd).ctx]
  rw [State.unbind_eq h] at hd ⊢
  rw [State.onChan_chan] at hd
  refine ⟨hd.cmd, hd.holding, ?_⟩
  show ((s.onCtx (s.chan n).context _).ctx (s.chan n).context).bound = none
  rw [State.onCtx_ctx]

/-- BIND hands the channel to its context, which drives it. -/
theorem State.bind_binds (e : SwEntry) :
    ((s.bind e).chan e.channel).holding = .regulator ∧ ((s.bind e).chan e.channel).context = e.context ∧
      ((s.bind e).ctx e.context).bound = some e.channel ∧
      ((s.bind e).chan e.channel).cmd = boundCmd (e.value == 1) e.value2 ((s.bind e).ctxOut e.context) := by
  have hw := State.command_chanWork (s := s.bound e) e.channel (boundCmd (e.value == 1) e.value2 ((s.bound e).ctxOut e.context))
  have hd := State.command_driven (s := s.bound e) e.channel (boundCmd (e.value == 1) e.value2 ((s.bound e).ctxOut e.context))
  rw [State.bound_chan] at hd
  rw [State.bind_eq, (State.noteTarget_pathWork _).chan, State.noteTarget_ctxOut, hw.ctxOut]
  obtain ⟨lost, f, hn⟩ := State.noteTarget_ctx (s := (s.bound e).command e.channel
    (boundCmd (e.value == 1) e.value2 ((s.bound e).ctxOut e.context))) e.context
  rw [hn, hw.ctx]
  exact ⟨hd.holding, hd.context, State.bound_ctx, hd.cmd⟩

/-- What one entry does (R242), and the CLEAR that loses against a new trip (R9, R243). -/
theorem applySwitch_acts (e : SwEntry) (s : State) :
    let c := s.chan e.channel
    let t := s.applySwitch e
    (∀ n, n ≠ e.channel → t.chan n = s.chan n) ∧
    (e.op ≤ 3 → e.op ≠ 0 ∨ c.holding ≠ .regulator →
      (t.chan e.channel).cmd = e.command ∧
      (t.chan e.channel).keepTick = none ∧ (t.chan e.channel).inSafe = false ∧ t.rge = s.rge ∧ t.gle = s.gle ∧
      (t.chanLive e.channel = true → c.holding = .direct → Tbl.get false s.lsb.reversed (s.bankOf e.channel) = false →
        (t.chan e.channel).out = (t.chan e.channel).level s.now)) ∧
    (e.op = 0 → c.holding = .regulator →
      (t.chan e.channel).cmd = .off ∧ (t.chan e.channel).holding = .direct ∧ (t.ctx c.context).bound = none) ∧
    (e.op = 4 → (t.chan e.channel).holding = .regulator ∧ (t.chan e.channel).context = e.context ∧
      (t.ctx e.context).bound = some e.channel ∧
      (t.chan e.channel).cmd = boundCmd (e.value == 1) e.value2 (t.ctxOut e.context)) ∧
    (e.op = 6 → c.tripTick = some s.now → t = s) ∧
    (e.op = 6 → c.tripTick ≠ some s.now → c.keepTick = none → c.inSafe = false →
      (t.chan e.channel).prot = .armed ∧ (t.chan e.channel).retriesUsed = 0 ∧ (t.chan e.channel).cmd = c.cmd) := by
  have htrip : (s.chan e.channel).tripTick.map (· / 1) = (s.chan e.channel).tripTick := by simp
  refine ⟨(State.applySwitch_switchWork e).others, fun h hc => ?_, fun h hh => ?_,
    fun h => ?_, fun h hx => ?_, fun h hx hk hs => ?_⟩
  · rw [State.applySwitch_command h hc]
    exact State.reclaim_command ..
  · obtain ⟨-, -, hrh, hrc⟩ := State.reclaim_chan (s := s) e.channel
    rw [State.applySwitch_off h, ← hrc]
    exact State.unbind_command .off (hrh.trans hh)
  · rw [State.applySwitch_bind h]
    exact State.bind_binds e
  · rw [State.applySwitch_clear h, State.clearUnless_tripped]
    rw [htrip, hx, Nat.div_one]
  · rw [State.applySwitch_clear h, State.clearUnless_clears (by rw [htrip, Nat.div_one]; exact hx)]
    exact State.clearChan_arms hk hs

end Sys2Proof.Machine

namespace Sys2Proof.Machine

variable {s t : State} {dt ring : Nat}

/-! ### All entries or none (R243) -/

theorem State.switchFold_frame (es : List SwEntry) (s : State) : s.SwitchFrame (es.foldl State.applySwitch s) :=
  foldl_related s State.SwitchFrame.refl State.SwitchFrame.trans (fun _ e => (State.applySwitch_switchWork e).frame) es

theorem State.switchFold_chan {n : Nat} {es : List SwEntry} (h : ∀ e ∈ es, e.channel ≠ n) (s : State) :
    (es.foldl State.applySwitch s).chan n = s.chan n := by
  induction es generalizing s with
  | nil => rfl
  | cons e es ih =>
    exact (ih (fun x hx => h x (List.mem_cons_of_mem _ hx)) _).trans
      ((State.applySwitch_switchWork e).others n (h e List.mem_cons_self).symm)

/-- A DIRECT_SWITCH that has left those that wait. -/
def State.unwait (w : SwWait) (s : State) : State := s.onLsb fun l => { l with waits := l.waits.erase w }

theorem State.unwait_firstDenied (w : SwWait) (es done : List SwEntry) :
    (s.unwait w).firstDenied done es = s.firstDenied done es := by
  induction es generalizing done with
  | nil => rfl
  | cons e es ih =>
    unfold State.firstDenied
    rw [ih]
    rfl

theorem exec_directSwitchExecute {w : SwWait} (h : (s.elapse dt).lsb.earliestWait ring = some w) (ht : w.tick ≤ (s.elapse dt).now) :
    exec (.directSwitchExecute dt ring) s = .next ((s.elapse dt).switchNow w) := by
  show execDirectSwitchExecute dt ring s = _
  unfold execDirectSwitchExecute
  simp only [h]
  exact next_when (decide_eq_true ht)

theorem State.switchNow_denied {w : SwWait} {e : SwEntry} (h : s.firstDenied [] w.entries = some e) :
    s.switchNow w = (s.unwait w).claimDenied.finishAt w.ring w.index 0x02 e.channel 0 := by
  rw [← State.unwait_firstDenied w] at h
  unfold State.unwait at h
  unfold State.switchNow State.unwait
  simp only [h]
  rfl

theorem State.switchNow_accepted {w : SwWait} (h : s.firstDenied [] w.entries = none) :
    s.switchNow w = (w.entries.foldl State.applySwitch (s.unwait w)).finishAt w.ring w.index 0x00 w.entries.length 0 := by
  rw [← State.unwait_firstDenied w] at h
  unfold State.unwait at h
  unfold State.switchNow State.unwait
  simp only [h]
  rfl

theorem State.onLsb_raise_icu (f : Lsb → Lsb) (n : Nat) : ((s.onLsb f).raise n).icu = (s.raise n).icu := by
  have hp : (s.onLsb f).powered (srcDomain n) = s.powered (srcDomain n) := rfl
  unfold State.raise
  rw [hp]
  split <;> rfl

theorem State.lsbFault_eq (b src : Nat) : s.lsbFault b src =
    { s with lsb := { s.lsb with fault := setFlag s.lsb.fault s.cycle b }, icu := (s.raise src).icu } := by
  unfold State.lsbFault
  rw [State.raise_frame, State.onLsb_raise_icu]
  rfl

theorem State.unwait_claimDenied (w : SwWait) : (s.unwait w).claimDenied =
    { s with lsb := { s.lsb with waits := s.lsb.waits.erase w, fault := setFlag s.lsb.fault s.cycle 6 }, icu := (s.raise 326).icu } := by
  unfold State.claimDenied
  rw [State.lsbFault_eq]
  unfold State.unwait
  rw [State.onLsb_raise_icu]
  rfl

theorem directSwitchExecute_acts (dt ring : Nat) (s : State) (w : SwWait) :
    let u := s.elapse dt
    u.lsb.earliestWait ring = some w → w.tick ≤ u.now →
    (∀ e, u.firstDenied [] w.entries = some e →
      ∃ v : State, exec (.directSwitchExecute dt ring) s = .next (v.finishAt w.ring w.index 0x02 e.channel 0) ∧
        v = { u with lsb := { u.lsb with waits := u.lsb.waits.erase w, fault := setFlag u.lsb.fault u.cycle 6 }, icu := (u.raise 326).icu }) ∧
    (u.firstDenied [] w.entries = none →
      ∃ v : State, exec (.directSwitchExecute dt ring) s = .next (v.finishAt w.ring w.index 0x00 w.entries.length 0) ∧
        v.lsb.waits = u.lsb.waits.erase w ∧ (∀ n, (∀ e ∈ w.entries, e.channel ≠ n) → v.chan n = u.chan n) ∧
        v = { u with lsb := v.lsb, gle := v.gle, rge := v.rge, icu := v.icu }) := by
  intro u hw ht
  rw [exec_directSwitchExecute hw ht]
  refine ⟨fun e he => ⟨(u.unwait w).claimDenied, ?_, State.unwait_claimDenied w⟩, fun hn => ?_⟩
  · rw [State.switchNow_denied he]
  · have hf := State.switchFold_frame w.entries (u.unwait w)
    refine ⟨w.entries.foldl State.applySwitch (u.unwait w), by rw [State.switchNow_accepted hn], ?_, fun n h => ?_, ?_⟩
    · rw [hf]
      rfl
    · exact State.switchFold_chan h _
    · generalize w.entries.foldl State.applySwitch (u.unwait w) = v at hf
      rw [hf]
      rfl

/-! ### LSB_CLEAR (R242, R258) -/

/-- CLEAR of some channels in their order. -/
def State.clears (l : List Nat) (s : State) : State := l.foldl (fun s n => s.clearUnless 2 n) s

theorem State.clears_frame (l : List Nat) (s : State) : s.SwitchFrame (s.clears l) :=
  foldl_related s State.SwitchFrame.refl State.SwitchFrame.trans (fun _ n => (State.clearUnless_switchWork 2 n).frame) l

theorem State.clears_others {n : Nat} {l : List Nat} (h : n ∉ l) (s : State) : (s.clears l).chan n = s.chan n := by
  induction l generalizing s with
  | nil => rfl
  | cons k l ih =>
    rw [List.mem_cons, not_or] at h
    exact (ih h.2 _).trans ((State.clearUnless_switchWork 2 k).others n h.1)

/-- A channel named once is cleared as it stood before. -/
theorem State.clears_chan {n : Nat} {l : List Nat} (hn : l.Nodup) (h : n ∈ l) (s : State) :
    ∃ u : State, u.chan n = s.chan n ∧ u.now = s.now ∧ (s.clears l).chan n = (u.clearUnless 2 n).chan n := by
  obtain ⟨a, b, rfl⟩ := List.append_of_mem h
  rw [List.nodup_middle, List.nodup_cons, List.mem_append, not_or] at hn
  obtain ⟨⟨ha, hb⟩, -⟩ := hn
  refine ⟨s.clears a, State.clears_others ha s, (State.clears_frame a s).now, ?_⟩
  show ((a ++ n :: b).foldl (fun s n => s.clearUnless 2 n) s).chan n = _
  rw [List.foldl_append]
  exact State.clears_others hb _

/-- The channels that a write of LSB_CLEAR names. -/
def State.clearedChans (s : State) (v : Word) : List Nat := (List.range (Config.loadChannels s.part)).filter fun n => bit v n

theorem State.mem_clearedChans {v : Word} {n : Nat} : n ∈ s.clearedChans v ↔ n < Config.loadChannels s.part ∧ bit v n = true := by
  unfold State.clearedChans
  rw [List.mem_filter, List.mem_range]

theorem State.clearedChans_nodup (v : Word) : (s.clearedChans v).Nodup := List.nodup_range.filter _

theorem exec_lsbClearWrite {v : Word} (h : (s.elapse dt).hostTo 7 = true) :
    exec (.lsbClearWrite dt v) s = .next ((s.elapse dt).clears ((s.elapse dt).clearedChans v)) :=
  next_when h

theorem lsbClearWrite_acts (dt : Nat) (v : Word) (s : State) :
    let u := s.elapse dt
    u.hostTo 7 = true →
    ∃ t : State, exec (.lsbClearWrite dt v) s = .next t ∧
      (∀ n, n < Config.loadChannels u.part → bit v n = true → (u.chan n).keepTick = none → (u.chan n).inSafe = false →
        (u.chan n).tripTick.map (fun k => k / 2) ≠ some u.cycle → (t.chan n).prot = .armed ∧ (t.chan n).retriesUsed = 0) ∧
      (∀ n, bit v n = false ∨ Config.loadChannels u.part ≤ n ∨ (u.chan n).tripTick.map (fun k => k / 2) = some u.cycle →
        t.chan n = u.chan n) ∧
      t = { u with lsb := { u.lsb with chans := t.lsb.chans }, gle := t.gle, rge := t.rge, icu := t.icu } := by
  intro u hu
  refine ⟨_, exec_lsbClearWrite hu, fun n hn hv hk hs ht => ?_, fun n h => ?_, State.clears_frame _ u⟩
  · obtain ⟨x, hx, hnow, hc⟩ := State.clears_chan (State.clearedChans_nodup v) (State.mem_clearedChans.mpr ⟨hn, hv⟩) u
    rw [← hx] at hk hs ht
    rw [hc, State.clearUnless_clears (by rw [hnow]; exact ht)]
    obtain ⟨hp, hr, -⟩ := State.clearChan_arms hk hs
    exact ⟨hp, hr⟩
  · by_cases hm : n ∈ u.clearedChans v
    · obtain ⟨hn, hv⟩ := State.mem_clearedChans.mp hm
      have ht : (u.chan n).tripTick.map (fun k => k / 2) = some u.cycle :=
        (h.resolve_left (by rw [hv]; exact Bool.noConfusion)).resolve_left (Nat.not_le.mpr hn)
      obtain ⟨x, hx, hnow, hc⟩ := State.clears_chan (State.clearedChans_nodup v) hm u
      rw [hc, State.clearUnless_tripped (by rw [hx, hnow]; exact ht), hx]
    · exact State.clears_others hm u

/-! ### The descriptor (R68, R241, R243) -/

variable {buf : HostRead} {d : Slot}

theorem exec_directSwitch_absent {o : Nat} (hr : ring < 16) (h : (s.elapse dt).headAbsent ring buf = some o) :
    exec (.directSwitch dt ring buf) s = .next ((s.elapse dt).endHead ring 0x07 o) := by
  show execDirectSwitch dt ring buf s = _
  unfold execDirectSwitch
  simp only [hr, if_true, h]
  rfl

theorem State.headAbsent_direct (hh : (s.ring ring).head = some d) (h : dFlag d.desc 3 = false) : s.headAbsent ring buf = none := by
  unfold State.headAbsent
  rw [hh]
  cases buf <;> simp [h]

theorem State.headAbsent_error : s.headAbsent ring .error = none := by
  unfold State.headAbsent
  cases (s.ring ring).head <;> rfl

/-- Entries that pass their checks name nothing absent. -/
theorem State.switchesAbsent_none {base : Nat} {es : List (Nat × List Byte)}
    (h : checksPass (es.flatMap fun e => s.switchChecks e.2 (base + e.1))) : s.switchesAbsent base es = none := by
  unfold State.switchesAbsent
  rw [List.findSome?_eq_none_iff]
  intro e he
  have hall (c : Bool × Nat) (hc : c ∈ s.switchChecks e.2 (base + e.1)) : c.1 = true := h c (List.mem_flatMap.mpr ⟨e, he, hc⟩)
  unfold State.switchChecks parseSwitch at hall
  simp only [List.mem_cons, List.not_mem_nil, or_false, forall_eq_or_imp, forall_eq] at hall
  obtain ⟨hchan, -, -, -, hctx, -⟩ := hall
  have hn : s.switchAbsent e.2 = none := by
    unfold State.switchAbsent
    rw [if_neg (by simpa [State.chanExists] using hchan), if_neg]
    rintro ⟨hop, habs⟩
    rw [if_pos hop, habs, Bool.and_false] at hctx
    cases hctx
  rw [hn]
  rfl

theorem State.headAbsent_data {bs : List Byte} (hh : (s.ring ring).head = some d)
    (h : s.switchesAbsent 8 (slices (bs.drop 8) 8 (dLength d.desc)) = none) : s.headAbsent ring (.data bs) = none := by
  unfold State.headAbsent
  rw [hh]
  simp only [h, ite_self]

/-- A DIRECT_SWITCH whose fields pass waits for its tick (R243). -/
theorem State.switchWait_waits (u : State) (ring at_ : Nat) (index : Word) (es : List SwEntry) :
    ∃ v : State, (u.settle ring).switchWait ring at_ index es = v.startHead ring [] ∧
      v.lsb.waits = u.lsb.waits ++ [{ ring, index, tick := if at_ ≤ u.now then (u.now / 2000 + 1) * 2000 else at_, entries := es }] ∧
      v = { u.settle ring with lsb := { u.lsb with waits := v.lsb.waits } } := by
  have hl : (u.settle ring).lsb = u.lsb := by rw [State.settle_eq]
  refine ⟨_, rfl, ?_, ?_⟩
  · rw [← State.settle_now (s := u) ring, ← hl]
    rfl
  · rw [← hl]
    rfl

theorem exec_directSwitch_direct (hd : (s.elapse dt).headRuns ring 0x13 d) (h3 : dFlag d.desc 3 = false)
    (hc : checksPass ([flagCheck d.desc 0x02, (inRange 1 5 (dLength d.desc), 2),
        (decide (dfield d.desc 16 8 ≤ ((s.elapse dt).settle ring).now + 2 ^ 32), 16)] ++
      (((slices (dBytes d.desc 24 40) 8 (min 5 (dLength d.desc))).flatMap fun e => ((s.elapse dt).settle ring).switchChecks e.2 (24 + e.1)) ++
        channelsOnce 24 (slices (dBytes d.desc 24 40) 8 (min 5 (dLength d.desc))) []))) :
    exec (.directSwitch dt ring buf) s = .next (((s.elapse dt).settle ring).switchWait ring (dfield d.desc 16 8) d.index
      ((slices (dBytes d.desc 24 40) 8 (min 5 (dLength d.desc))).map fun e => parseSwitch e.2)) := by
  show execDirectSwitch dt ring buf s = _
  unfold execDirectSwitch
  simp only [hd.ring_lt, if_true, State.headAbsent_direct hd.head h3]
  rw [State.runDesc_headRuns hd]
  simp only [h3, Bool.false_eq_true, if_false]
  rw [State.checked_pass hc]

theorem exec_directSwitch_indirect (hd : (s.elapse dt).headRuns ring 0x13 d) (h3 : dFlag d.desc 3 = true)
    (ha : (s.elapse dt).headAbsent ring buf = none) (hc : checksPass (((s.elapse dt).settle ring).switchIndirectChecks d.desc)) :
    exec (.directSwitch dt ring buf) s = .next (((s.elapse dt).settle ring).withBuffer ring buf fun bs v =>
      v.checked ring ((decide (wordAt bs 0 8 ≤ ((s.elapse dt).settle ring).now + 2 ^ 32), 0) ::
        (((slices (bs.drop 8) 8 (dLength d.desc)).flatMap fun e => v.switchChecks e.2 (8 + e.1)) ++
          channelsOnce 8 (slices (bs.drop 8) 8 (dLength d.desc)) [])) fun v =>
        v.switchWait ring (wordAt bs 0 8) d.index ((slices (bs.drop 8) 8 (dLength d.desc)).map fun e => parseSwitch e.2)) := by
  show execDirectSwitch dt ring buf s = _
  unfold execDirectSwitch
  simp only [hd.ring_lt, if_true, ha]
  rw [State.runDesc_headRuns hd]
  simp only [h3, if_true]
  rw [State.checked_pass hc]

theorem State.settle_part (u : State) (ring : Nat) : (u.settle ring).part = u.part := by
  rw [State.settle_eq]
  rfl

theorem State.settle_switchChecks (u : State) (ring : Nat) (e : List Byte) (base : Nat) :
    (u.settle ring).switchChecks e base = u.switchChecks e base := by
  rw [State.settle_eq]
  rfl

theorem directSwitch_direct (dt ring : Nat) (buf : HostRead) (s : State) (d : Slot) :
    let u := s.elapse dt
    let b := u.settle ring
    let n := dLength d.desc
    u.headRuns ring 0x13 d → dFlag d.desc 3 = false →
      checksPass ([flagCheck d.desc 0x02, (inRange 1 5 n, 2), (decide (dfield d.desc 16 8 ≤ b.now + 2 ^ 32), 16)] ++
        (((slices (dBytes d.desc 24 40) 8 (min 5 n)).flatMap fun e => b.switchChecks e.2 (24 + e.1)) ++
          channelsOnce 24 (slices (dBytes d.desc 24 40) 8 (min 5 n)) [])) →
      ∃ v : State, exec (.directSwitch dt ring buf) s = .next (v.startHead ring []) ∧
        v.lsb.waits = u.lsb.waits ++ [{ ring, index := d.index,
                                        tick := if dfield d.desc 16 8 ≤ u.now then (u.now / 2000 + 1) * 2000 else dfield d.desc 16 8,
                                        entries := (slices (dBytes d.desc 24 40) 8 (min 5 n)).map fun e => parseSwitch e.2 }] ∧
        v = { b with lsb := { u.lsb with waits := v.lsb.waits } } := by
  intro u b n hd h3 hc
  obtain ⟨v, hv, hw, hf⟩ := State.switchWait_waits u ring (dfield d.desc 16 8) d.index
    ((slices (dBytes d.desc 24 40) 8 (min 5 n)).map fun e => parseSwitch e.2)
  exact ⟨v, (exec_directSwitch_direct hd h3 hc).trans (congrArg Host.Outcome.next hv), hw, hf⟩

theorem directSwitch_indirect (dt ring : Nat) (buf : HostRead) (s : State) (d : Slot) :
    let u := s.elapse dt
    let b := u.settle ring
    let n := dLength d.desc
    u.headRuns ring 0x13 d → dFlag d.desc 3 = true →
      checksPass ([flagCheck d.desc 0x0A, (inRange 1 (Config.loadChannels u.part) n && lengthFits d.desc (8 + 8 * n), 2)] ++
        indirectChecks d.desc) →
      (buf = .error → exec (.directSwitch dt ring buf) s = .next (b.dmaError.finishHead ring 0x09 0 0)) ∧
      (∀ bs, buf = .data bs →
        checksPass ((decide (wordAt bs 0 8 ≤ b.now + 2 ^ 32), 0) ::
          (((slices (bs.drop 8) 8 n).flatMap fun e => b.switchChecks e.2 (8 + e.1)) ++ channelsOnce 8 (slices (bs.drop 8) 8 n) [])) →
        ∃ v : State, exec (.directSwitch dt ring buf) s = .next (v.startHead ring []) ∧
          v.lsb.waits = u.lsb.waits ++ [{ ring, index := d.index,
                                          tick := if wordAt bs 0 8 ≤ u.now then (u.now / 2000 + 1) * 2000 else wordAt bs 0 8,
                                          entries := (slices (bs.drop 8) 8 n).map fun e => parseSwitch e.2 }] ∧
          v = { b with lsb := { u.lsb with waits := v.lsb.waits } }) := by
  intro u b n hd h3 hc
  have hcb : checksPass (b.switchIndirectChecks d.desc) := by
    unfold State.switchIndirectChecks
    rw [State.settle_part]
    exact hc
  refine ⟨fun hb => ?_, fun bs hb hcs => ?_⟩
  · subst hb
    exact exec_directSwitch_indirect hd h3 State.headAbsent_error hcb
  · subst hb
    have hes := (checksPass_append.mp (checksPass_cons.mp hcs).2).1
    simp only [b, State.settle_switchChecks] at hes
    have habs : u.switchesAbsent 8 (slices (bs.drop 8) 8 n) = none := State.switchesAbsent_none hes
    obtain ⟨v, hv, hw, hf⟩ := State.switchWait_waits u ring (wordAt bs 0 8) d.index
      ((slices (bs.drop 8) 8 n).map fun e => parseSwitch e.2)
    refine ⟨v, ?_, hw, hf⟩
    rw [exec_directSwitch_indirect hd h3 (State.headAbsent_data hd.head habs) hcb, State.withBuffer_data,
      State.checked_pass hcs, hv]

/-- Settles O43: the descriptor, its execution, one entry, and LSB_CLEAR. -/
theorem directSwitchActs : Obligations.DirectSwitchActs := by
  unfold Obligations.DirectSwitchActs
  refine ⟨?_, ?_, directSwitchExecute_acts, applySwitch_acts, lsbClearWrite_acts⟩
  · intro dt ring o buf s u hr h
    exact exec_directSwitch_absent hr h
  · intro dt ring buf s d u b n hd
    exact ⟨directSwitch_direct dt ring buf s d hd, directSwitch_indirect dt ring buf s d hd⟩

end Sys2Proof.Machine

namespace Sys2Proof.Machine

variable {d : EpDyn} {now dwell : Nat} {free retime : Bool} {e a b : PEvent}

/-! ### Where an event is put (R109) -/

theorem EpDyn.ofKind_not (d : EpDyn) (on : Bool) : d.ofKind (!on) = if on then d.offEv else d.onEv := by
  cases on <;> rfl

/-- Only the event's own place matters once it is put there. -/
theorem EpDyn.put_without {x : PEvent} (h : x.on = e.on) : (d.without e.on).put x = d.put x := by
  unfold EpDyn.put EpDyn.without
  rw [h]
  cases e.on <;> rfl

theorem EpDyn.put_put {x y : PEvent} (h : x.on = y.on) : (d.put x).put y = d.put y := by
  unfold EpDyn.put
  rw [h]
  cases y.on <;> rfl

theorem EpDyn.put_ofKind (h : d.ofKind b.on = some b) : d.put b = d := by
  unfold EpDyn.ofKind at h
  unfold EpDyn.put
  cases hb : b.on <;> rw [hb] at h <;> rw [← h] <;> rfl

theorem EpDyn.without_none {on : Bool} (h : d.ofKind on = none) : d.without on = d := by
  unfold EpDyn.ofKind at h
  unfold EpDyn.without
  cases on <;> rw [← h] <;> rfl

/-- Both places are empty whichever is emptied first. -/
theorem EpDyn.without_both (d : EpDyn) (on : Bool) : (d.without on).without (!on) = { d with onEv := none, offEv := none } := by
  cases on <;> rfl

theorem EpDyn.store_near {t : Nat} (h : t ≤ now + 524288000) :
    d.store now free e t = (.stored, d.put { e with tick := t, far := false }) := by
  unfold EpDyn.store
  rw [if_neg (Nat.not_lt.mpr h)]

theorem EpDyn.store_far {t : Nat} (h : ¬ t ≤ now + 524288000) :
    d.store now free e t = if free then (.stored, d.put { e with tick := t, far := true }) else (.far, d) := by
  unfold EpDyn.store
  rw [if_pos (Nat.not_le.mp h)]

/-- Near events go to the wheel; the event they replace leaves no trace. -/
theorem EpDyn.store_without_near {t : Nat} (h : t ≤ now + 524288000) :
    (d.without e.on).store now free e t = (.stored, d.put { e with tick := t, far := false }) := by
  rw [EpDyn.store_near h, EpDyn.put_without (x := { e with tick := t, far := false }) rfl]

theorem EpDyn.dwelt_none (h : (if e.on then d.lastOff else d.lastOn) = none) : d.dwelt dwell e = e.tick := by
  unfold EpDyn.dwelt
  rw [h, ite_self]

theorem EpDyn.dwelt_some {k : Nat} (hne : e.on ≠ d.heldOn) (h : (if e.on then d.lastOff else d.lastOn) = some k) :
    d.dwelt dwell e = max e.tick (k + dwell) := by
  unfold EpDyn.dwelt
  rw [if_neg hne, h]

theorem EpDyn.dwelt_same (h : e.on = d.heldOn) : d.dwelt dwell e = e.tick := if_pos h

/-! ### The rows of R110 -/

/-- The place of an event that stands in the one after it. -/
theorem EpDyn.place_shift (hb : d.ofKind (!e.on) = some b) (h : a.tick < b.tick) :
    d.place now dwell free (some a) e = d.shiftFirst now dwell free b e := by
  unfold EpDyn.place
  simp only [hb, h, decide_true, if_true]

section
variable (hb : d.ofKind (!e.on) = some b)
include hb

theorem EpDyn.place_after (h : b.tick < e.tick) :
    d.place now dwell free none e = (d.without e.on).store now free e (max e.tick (b.tick + dwell)) := by
  unfold EpDyn.place
  simp only [hb, Bool.false_eq_true, if_false, Nat.not_le.mpr h]

theorem EpDyn.place_final (h : e.tick ≤ b.tick) (hd : b.dispatched = true) :
    d.place now dwell free none e = (d.without e.on).store now free e (b.tick + max dwell 2000) := by
  unfold EpDyn.place
  simp only [hb, Bool.false_eq_true, if_false, h, hd, if_true]

theorem EpDyn.place_cancels (h : e.tick ≤ b.tick) (hd : b.dispatched = false) (hc : e.on = true ∨ d.heldOn = false) :
    d.place now dwell free none e = (.cancelled, { d with onEv := none, offEv := none }) := by
  have hf : (!e.on && d.heldOn) = false := by
    obtain hc | hc := hc <;> simp [hc]
  unfold EpDyn.place
  simp only [hb, Bool.false_eq_true, if_false, h, if_true, hd, hf, EpDyn.without_both]

theorem EpDyn.place_replaces (h : e.tick ≤ b.tick) (hd : b.dispatched = false) (he : e.on = false) (hh : d.heldOn = true) :
    d.place now dwell free none e = ((d.without e.on).without true).store now free e e.tick := by
  have hf : (!e.on && d.heldOn) = true := by simp [he, hh]
  unfold EpDyn.place
  simp only [hb, Bool.false_eq_true, if_false, h, if_true, hd, hf]

end

theorem EpDyn.place_alone (hb : d.ofKind (!e.on) = none) :
    d.place now dwell free none e = (d.without e.on).store now free e (d.dwelt dwell e) := by
  unfold EpDyn.place
  simp only [hb]

/-- What an earlier opposite event does to the one after it, where nothing moves, leaves no trace once `e` is put: an event
listed under the wrong kind lands in the place `e` takes. -/
theorem EpDyn.put_follow {t : Nat} {x : PEvent} (hb : d.ofKind (!x.on) = some b) (h : t ≤ b.tick) :
    (d.follow (!x.on) t).put x = d.put x := by
  unfold EpDyn.follow
  rw [hb]
  dsimp only
  split
  · rfl
  · rw [Nat.max_eq_left h]
    by_cases hk : b.on = x.on
    · exact EpDyn.put_put hk
    · have hn : b.on = !x.on := by revert hk; cases b.on <;> cases x.on <;> simp
      rw [← hn] at hb
      exact congrArg (EpDyn.put · x) (EpDyn.put_ofKind hb)

/-- The first of two moves without reaching the second (R110). -/
theorem EpDyn.shiftFirst_before (hb : d.ofKind (!e.on) = some b) (hl : (if e.on then d.lastOff else d.lastOn) = none)
    (h : e.tick + max 1 dwell ≤ b.tick) (hn : e.tick ≤ now + 524288000) :
    d.shiftFirst now dwell free b e = (.stored, d.put { e with far := false }) := by
  have hlt : ¬ b.tick ≤ e.tick := by omega
  unfold EpDyn.shiftFirst
  simp only [EpDyn.dwelt_none hl, hlt, if_false]
  rw [EpDyn.store_near hn, EpDyn.put_follow (x := { e with far := false }) hb (by omega)]

/-- The first of two moves beyond the second: neither stands (R110). -/
theorem EpDyn.shiftFirst_beyond (h : b.tick ≤ e.tick) (hd : b.dispatched = false) :
    d.shiftFirst now dwell free b e = (.cancelled, { d with onEv := none, offEv := none }) := by
  have hle : b.tick ≤ d.dwelt dwell e := Nat.le_trans h (EpDyn.le_dwelt ..)
  unfold EpDyn.shiftFirst
  simp only [hle, if_true, hd, Bool.false_eq_true, if_false, EpDyn.without_both]

/-! ### An event joins those pending (R110) -/

/-- An event of a kind of which none is pending. -/
theorem EpDyn.insert_new (h : d.ofKind e.on = none) : d.insert now dwell free retime e = d.place now dwell free none e := by
  unfold EpDyn.insert
  rw [h]

/-- The new tick of a pending event, under the timing that it was scheduled with. -/
def PEvent.retimedAs (a e : PEvent) : PEvent := { e with delay := a.delay, transport := a.transport, leadUs := a.leadUs }

section
variable (ha : d.ofKind e.on = some a)
include ha

theorem EpDyn.insert_final (hd : a.dispatched = true) (hb : ∀ b, d.ofKind (!e.on) = some b → b.tick ≤ a.tick ∨ e.tick ≤ b.tick) :
    d.insert now dwell free retime e = (.ignored, d) := by
  unfold EpDyn.insert
  rw [ha]
  cases h : d.ofKind (!e.on) with
  | none => simp [hd]
  | some b =>
    have hbe : ¬ (a.tick < b.tick ∧ b.tick < e.tick) := by
      have := hb b h
      omega
    simp [hd, hbe]

theorem EpDyn.insert_third (hb : d.ofKind (!e.on) = some b) (h1 : a.tick < b.tick) (h2 : b.tick < e.tick) :
    d.insert now dwell free false e = (.full, d) := by
  unfold EpDyn.insert
  simp [ha, hb, h1, h2]

/-- The first of two pending events moves. -/
theorem EpDyn.insert_shifts {r : Ins × EpDyn} (hb : d.ofKind (!e.on) = some b) (h1 : a.tick < b.tick)
    (h2 : retime = true ∨ e.tick ≤ b.tick) (hd : a.dispatched = false)
    (hr : d.shiftFirst now dwell (free || a.far) b (a.retimedAs e) = r) (hf : r.1 ≠ .far) :
    d.insert now dwell free retime e = r := by
  have hg : (decide (a.tick < b.tick) && decide (b.tick < e.tick) && !retime) = false := by
    obtain h2 | h2 := h2
    · simp [h2]
    · simp [Nat.not_lt.mpr h2]
  have hp : d.place now dwell (free || a.far) (some a) (a.retimedAs e) = r := by
    rw [← hr]
    exact EpDyn.place_shift (e := a.retimedAs e) hb h1
  unfold EpDyn.insert
  simp only [ha, hb, hg, hd, Bool.false_eq_true, if_false]
  split
  · next h => exact absurd (congrArg Prod.fst (hp.symm.trans h)) hf
  · exact hp

end

/-- How an event joins those pending (R109, R110), clause by clause. -/
theorem EpDyn.insert_joins (d : EpDyn) (now dwell : Nat) (free retime : Bool) (e : PEvent) :
    let same := if e.on then d.onEv else d.offEv
    let other := if e.on then d.offEv else d.onEv
    let near (t : Nat) : Prop := t ≤ now + 524288000
    (∀ a, same = some a → a.dispatched = true → (∀ b, other = some b → b.tick ≤ a.tick ∨ e.tick ≤ b.tick) →
      d.insert now dwell free retime e = (.ignored, d)) ∧
    (∀ a b, same = some a → other = some b → a.tick < b.tick → b.tick < e.tick →
      (retime = false → d.insert now dwell free retime e = (.full, d)) ∧
      (retime = true → a.dispatched = false → b.dispatched = false →
        d.insert now dwell free retime e = (.cancelled, { d with onEv := none, offEv := none }))) ∧
    (∀ a b, same = some a → other = some b → a.tick < b.tick → a.dispatched = false → b.dispatched = false →
      e.on ≠ d.heldOn → (if e.on then d.lastOff else d.lastOn) = none → e.tick + max 1 dwell ≤ b.tick → near e.tick →
      d.insert now dwell free retime e =
        (.stored, d.put { e with delay := a.delay, transport := a.transport, leadUs := a.leadUs, far := false })) ∧
    (∀ b, same = none → other = some b → b.tick < e.tick → near (max e.tick (b.tick + dwell)) →
      d.insert now dwell free retime e = (.stored, d.put { e with tick := max e.tick (b.tick + dwell), far := false })) ∧
    (∀ b, same = none → other = some b → e.tick ≤ b.tick →
      (b.dispatched = false → e.on = true ∨ d.heldOn = false →
        d.insert now dwell free retime e = (.cancelled, { d with onEv := none, offEv := none })) ∧
      (b.dispatched = false → e.on = false → d.heldOn = true → near e.tick →
        d.insert now dwell free retime e = (.stored, { d with onEv := none, offEv := some { e with far := false } })) ∧
      (b.dispatched = true → near (b.tick + max dwell 2000) →
        d.insert now dwell free retime e = (.stored, d.put { e with tick := b.tick + max dwell 2000, far := false }))) ∧
    (∀ k, same = none → other = none → e.on ≠ d.heldOn → (if e.on then d.lastOff else d.lastOn) = some k →
      near (max e.tick (k + dwell)) →
      d.insert now dwell free retime e = (.stored, d.put { e with tick := max e.tick (k + dwell), far := false })) ∧
    (same = none → other = none → e.on = d.heldOn → ¬ near e.tick →
      (free = true → d.insert now dwell free retime e = (.stored, d.put { e with far := true })) ∧
      (free = false → d.insert now dwell free retime e = (.far, d))) := by
  intro same other near
  have ho : d.ofKind (!e.on) = other := EpDyn.ofKind_not ..
  rw [← ho]
  refine ⟨fun a ha hd hb => EpDyn.insert_final ha hd hb, fun a b ha hb h1 h2 => ⟨?_, ?_⟩,
    fun a b ha hb h1 h2 h3 h4 h5 h6 hn => ?_, fun b hs hb h hn => ?_, fun b hs hb h => ⟨?_, ?_, ?_⟩,
    fun k hs hb h1 h2 hn => ?_, fun hs hb h hn => ?_⟩
  · rintro rfl
    exact EpDyn.insert_third ha hb h1 h2
  · intro hr hda hdb
    exact EpDyn.insert_shifts ha hb h1 (.inl hr) hda (EpDyn.shiftFirst_beyond (Nat.le_of_lt h2) hdb) (by simp)
  · exact EpDyn.insert_shifts ha hb h1 (.inr (by omega)) h2 (EpDyn.shiftFirst_before (e := a.retimedAs e) hb h5 h6 hn) (by simp)
  · rw [EpDyn.insert_new hs, EpDyn.place_after hb h, EpDyn.store_without_near hn]
  · intro hd hc
    rw [EpDyn.insert_new hs, EpDyn.place_cancels hb h hd hc]
  · intro hd he hh hn
    rw [EpDyn.insert_new hs, EpDyn.place_replaces hb h hd he hh, EpDyn.store_near hn]
    unfold EpDyn.put EpDyn.without
    simp [he]
  · intro hd hn
    rw [EpDyn.insert_new hs, EpDyn.place_final hb h hd, EpDyn.store_without_near hn]
  · rw [EpDyn.insert_new hs, EpDyn.place_alone hb, EpDyn.dwelt_some h1 h2, EpDyn.store_without_near hn]
  · rw [EpDyn.insert_new hs, EpDyn.place_alone hb, EpDyn.dwelt_same h, EpDyn.store_far hn,
      EpDyn.put_without (x := { e with far := true }) rfl]
    refine ⟨fun hf => if_pos hf, fun hf => ?_⟩
    rw [if_neg (by simp [hf]), EpDyn.without_none hs]

end Sys2Proof.Machine

namespace Sys2Proof.Machine

variable {s : State} {ep dt : Nat} {e : PEvent}

/-! ### Far events move to the wheel (R109) -/

theorem PEvent.migrate_eq (now : Nat) (e : PEvent) :
    e.migrate now = if e.far = true ∧ e.tick ≤ now + 520000000 then { e with far := false } else e := by
  unfold PEvent.migrate
  simp only [Bool.and_eq_true, decide_eq_true_eq]

theorem exec_overflowMigrate (h : ∃ e ∈ ((s.elapse dt).dyn ep).events, e.far = true ∧ e.tick ≤ (s.elapse dt).now + 520000000) :
    exec (.overflowMigrate dt ep) s = .next ((s.elapse dt).onDyn ep fun d =>
      { d with onEv := d.onEv.map (PEvent.migrate (s.elapse dt).now), offEv := d.offEv.map (PEvent.migrate (s.elapse dt).now) }) :=
  next_when (by simpa using h)

theorem overflowMigrate_moves (dt ep : Nat) (s : State) :
    let u := s.elapse dt
    let d := u.dyn ep
    let f (e : PEvent) : PEvent := if e.far = true ∧ e.tick ≤ u.now + 520000000 then { e with far := false } else e
    (∃ e ∈ d.events, e.far = true ∧ e.tick ≤ u.now + 520000000) →
    ∃ t : State, exec (.overflowMigrate dt ep) s = .next t ∧ t.dyn ep = { d with onEv := d.onEv.map f, offEv := d.offEv.map f } ∧
      (∀ k, k ≠ ep → t.dyn k = u.dyn k) ∧ t = { u with gle := { u.gle with dyn := t.gle.dyn } } := by
  intro u d f h
  have hf : f = PEvent.migrate u.now := (funext (PEvent.migrate_eq u.now)).symm
  rw [hf]
  exact ⟨_, exec_overflowMigrate h, State.onDyn_dyn .., fun k hk => State.onDyn_dyn_ne _ _ _ _ hk, rfl⟩

/-! ### Records for a node (R215, R216) -/

theorem State.queueRecs_frame (p n : Nat) (rs : List CmdRec) (s : State) :
    rs.foldl (fun s r => s.queueRec p n r) s = { s with flp := (rs.foldl (fun s r => s.queueRec p n r) s).flp } :=
  foldl_related (R := fun s t => t = { s with flp := t.flp }) s (fun _ => rfl) (fun h g => by rw [g, h]) (fun _ _ => rfl) rs

/-- Records wait in the order in which they come. -/
theorem State.queueRecs_waiting (p n : Nat) (rs : List CmdRec) (s : State) :
    ((rs.foldl (fun s r => s.queueRec p n r) s).node p n).waiting = (s.node p n).waiting ++ rs := by
  induction rs generalizing s with
  | nil => exact (List.append_nil _).symm
  | cons r rs ih =>
    rw [List.foldl_cons, ih]
    unfold State.queueRec
    rw [State.onNode_node, List.append_assoc, List.singleton_append]

/-! ### Dispatch (R111) -/

/-- The pending event of a kind once it has been dispatched, or dropped. -/
def EpDyn.handed (on dropped : Bool) (d : EpDyn) : EpDyn := d.onEvent on fun x => { x with dispatched := true, dropped }

/-- The tag of a dispatched event (R311). -/
def EpDyn.tagged (e : PEvent) (d : EpDyn) : EpDyn :=
  if e.on then { d with tagOn := some (tagOf e.tick) } else { d with tagOff := some (tagOf e.tick) }

/-- An event of an endpoint stands as dispatched, dropped or not; ESC, FLP and ICU may have learnt of it. -/
structure State.HandsOver (ep : Nat) (e : PEvent) (dropped : Bool) (s t : State) : Prop where
  frame : t = { s with gle := { s.gle with dyn := t.gle.dyn }, esc := t.esc, flp := t.flp, icu := t.icu }
  event : (if e.on then (t.dyn ep).onEv else (t.dyn ep).offEv) = some { e with dispatched := true, dropped }
  held : (t.dyn ep).heldOn = (s.dyn ep).heldOn
  others : ∀ k, k ≠ ep → t.dyn k = s.dyn k

theorem State.HandsOver.later {dropped : Bool} {t v : State} (h : s.HandsOver ep e dropped t)
    (hv : v = { t with esc := v.esc, flp := v.flp, icu := v.icu }) : s.HandsOver ep e dropped v := by
  have hd (k : Nat) : v.dyn k = t.dyn k := by rw [hv]; rfl
  refine ⟨?_, by rw [hd]; exact h.event, by rw [hd]; exact h.held, fun k hk => by rw [hd]; exact h.others k hk⟩
  rw [h.frame] at hv
  rw [hv]

theorem State.onDyn_handsOver {dropped : Bool} (he : (if e.on then (s.dyn ep).onEv else (s.dyn ep).offEv) = some e) :
    s.HandsOver ep e dropped (s.onDyn ep (EpDyn.handed e.on dropped)) := by
  refine ⟨rfl, ?_, ?_, fun k hk => State.onDyn_dyn_ne _ _ _ _ hk⟩ <;> rw [State.onDyn_dyn] <;> unfold EpDyn.handed EpDyn.onEvent
  · split at he <;> simp_all
  · split <;> rfl

theorem State.HandsOver.tagged {dropped : Bool} {t : State} (h : s.HandsOver ep e dropped t) :
    s.HandsOver ep e dropped (t.onDyn ep (EpDyn.tagged e)) := by
  refine ⟨by rw [h.frame]; rfl, ?_, ?_, fun k hk => (State.onDyn_dyn_ne _ _ _ _ hk).trans (h.others k hk)⟩ <;>
    rw [State.onDyn_dyn] <;> unfold EpDyn.tagged
  · rw [← h.event]
    split <;> rfl
  · rw [← h.held]
    split <;> rfl

theorem State.HandsOver.queued {dropped : Bool} {t : State} (h : s.HandsOver ep e dropped t) (p n : Nat) (rs : List CmdRec) :
    s.HandsOver ep e dropped (rs.foldl (fun s r => s.queueRec p n r) t) := by
  have hf := State.queueRecs_frame p n rs t
  exact h.later (by rw [hf])

/-- An event goes to its node, where the port runs and the node takes it, and is dropped otherwise. -/
theorem State.dispatch_eq (s : State) (ep : Nat) (e : PEvent) :
    let p := ep / 65536
    let n := ep / 256 % 256
    let m := s.onDyn ep (EpDyn.handed e.on (s.portRuns p == false || s.nodeDrops p n))
    s.dispatch ep e =
      if s.portRuns p = false then m.portDrop p
      else if s.nodeDrops p n then m.countDrop p
      else (s.commandRecs ep e).foldl (fun s r => s.queueRec p n r)
        (if (s.dyn ep).stateBefore e != e.on then m.onDyn ep (EpDyn.tagged e) else m) := by
  intro p n m
  have hc (b : Bool) : (if b then m.onDyn ep (EpDyn.tagged e) else m).commandRecs ep e = s.commandRecs ep e := by cases b <;> rfl
  rw [← hc]
  rfl

theorem exec_escDispatch (hl : ep < localBase) (hf : ((s.elapse dt).dyn ep).first (fun x => !x.dispatched) = some e)
    (ht : e.tick ≤ (s.elapse dt).now + e.leadUs * 200) : exec (.escDispatch dt ep) s = .next ((s.elapse dt).dispatch ep e) := by
  have hlocal : isLocalEp ep = false := decide_eq_false (Nat.not_le.mpr hl)
  show execEscDispatch dt ep s = _
  unfold execEscDispatch
  simp only [hf]
  exact next_when (by rw [hlocal]; exact decide_eq_true ht)

theorem State.portDrop_esc (p : Nat) (s : State) : (s.portDrop p).esc =
    { s.esc with drop := Tbl.modify 0 s.esc.drop p count32, fault := setFlag s.esc.fault s.cycle 1 } := by
  unfold State.portDrop State.escFault
  rw [State.raise_frame]
  rfl

theorem State.portDrop_frame (p : Nat) (s : State) : s.portDrop p = { s with esc := (s.portDrop p).esc, icu := (s.portDrop p).icu } := by
  unfold State.portDrop State.escFault
  rw [State.raise_frame]
  rfl

/-- What a drop of an endpoint's event counts (R111, R115). -/
structure State.Drops (ep : Nat) (s t : State) : Prop where
  count : Tbl.get 0 t.esc.drop (ep / 65536) = count32 (Tbl.get 0 s.esc.drop (ep / 65536))
  flp : t.flp = s.flp
  fault : s.portRuns (ep / 65536) = false → t.esc.fault = setFlag s.esc.fault s.cycle 1

section
variable (he : (if e.on then (s.dyn ep).onEv else (s.dyn ep).offEv) = some e)
include he

/-- An event whose port is down, or whose node takes none, is dropped. -/
theorem State.dispatch_drops (h : (s.portRuns (ep / 65536) == false || s.nodeDrops (ep / 65536) (ep / 256 % 256)) = true) :
    s.HandsOver ep e true (s.dispatch ep e) ∧ s.Drops ep (s.dispatch ep e) := by
  have hm : s.HandsOver ep e true (s.onDyn ep (EpDyn.handed e.on true)) := State.onDyn_handsOver he
  rw [State.dispatch_eq]
  simp only [h]
  by_cases hp : s.portRuns (ep / 65536) = false
  · rw [if_pos hp]
    have hf := State.portDrop_frame (ep / 65536) (s.onDyn ep (EpDyn.handed e.on true))
    have hesc := State.portDrop_esc (ep / 65536) (s.onDyn ep (EpDyn.handed e.on true))
    refine ⟨hm.later (by rw [hf]), ?_, by rw [hf]; rfl, fun _ => by rw [hesc]; rfl⟩
    rw [hesc]
    exact Tbl.get_modify_same
  · have hn : s.nodeDrops (ep / 65536) (ep / 256 % 256) = true := by simpa [hp] using h
    rw [if_neg hp, if_pos hn]
    exact ⟨hm.later rfl, Tbl.get_modify_same, rfl, fun h => absurd h hp⟩

/-- Any other event goes to its node. -/
theorem State.dispatch_sends (h : (s.portRuns (ep / 65536) == false || s.nodeDrops (ep / 65536) (ep / 256 % 256)) = false) :
    s.HandsOver ep e false (s.dispatch ep e) ∧ ((s.dispatch ep e).node (ep / 65536) (ep / 256 % 256)).waiting =
      (s.node (ep / 65536) (ep / 256 % 256)).waiting ++ s.commandRecs ep e := by
  obtain ⟨hp, hn⟩ := Bool.or_eq_false_iff.mp h
  have hm : s.HandsOver ep e false (s.onDyn ep (EpDyn.handed e.on false)) := State.onDyn_handsOver he
  rw [State.dispatch_eq]
  simp only [h]
  rw [if_neg (by simpa using hp), if_neg (by simp [hn])]
  refine ⟨?_, ?_⟩
  · split
    · exact hm.tagged.queued ..
    · exact hm.queued ..
  · rw [State.queueRecs_waiting]
    split <;> rfl

end

/-- A remote event is dispatched, or dropped where its port is down or its node takes none (R111, R115). -/
theorem escDispatch_hands (dt ep : Nat) (s : State) (e : PEvent) :
    let u := s.elapse dt
    let d := u.dyn ep
    let p := ep / 65536
    let n := ep / 256 % 256
    let drops := u.portRuns p == false || u.nodeDrops p n
    ep < localBase → d.first (fun x => !x.dispatched) = some e → (if e.on then d.onEv else d.offEv) = some e →
    e.tick ≤ u.now + e.leadUs * 200 →
    ∃ t : State, exec (.escDispatch dt ep) s = .next t ∧
      (if e.on then (t.dyn ep).onEv else (t.dyn ep).offEv) = some { e with dispatched := true, dropped := drops } ∧
      (t.dyn ep).heldOn = d.heldOn ∧ (∀ k, k ≠ ep → t.dyn k = u.dyn k) ∧
      (drops = true → Tbl.get 0 t.esc.drop p = count32 (Tbl.get 0 u.esc.drop p) ∧ t.flp = u.flp) ∧
      (u.portRuns p = false → t.esc.fault = setFlag u.esc.fault u.cycle 1) ∧
      (drops = false → e.on = false →
        (t.node p n).waiting = (u.node p n).waiting ++
          [{ endpoint := ep % 256, kind := 2, tag := tagOf e.tick, value := 0, tick := e.tick, ep := some ep,
             effect := if (u.entry ep).feeder then none else some (e.groundEffect ep) }]) ∧
      (drops = false → e.on = true → e.duty = none →
        (t.node p n).waiting = (u.node p n).waiting ++
          [{ endpoint := ep % 256, kind := 1, tag := tagOf e.tick, value := 0, tick := e.tick, ep := some ep,
             effect := if (u.entry ep).feeder then none else some (e.groundEffect ep) }]) ∧
      t = { u with gle := { u.gle with dyn := t.gle.dyn }, esc := t.esc, flp := t.flp, icu := t.icu } := by
  intro u d p n drops hl hf he ht
  refine ⟨u.dispatch ep e, exec_escDispatch hl hf ht, ?_⟩
  cases hd : drops with
  | true =>
    obtain ⟨h, hdrop⟩ := State.dispatch_drops he hd
    exact ⟨h.event, h.held, h.others, fun _ => ⟨hdrop.count, hdrop.flp⟩, hdrop.fault, nofun, nofun, h.frame⟩
  | false =>
    obtain ⟨h, hw⟩ := State.dispatch_sends he hd
    have hp : u.portRuns p ≠ false := by simpa using (Bool.or_eq_false_iff.mp hd).1
    refine ⟨h.event, h.held, h.others, nofun, fun h => absurd h hp, fun _ hoff => ?_, fun _ hon hduty => ?_, h.frame⟩
    · rw [hw]
      unfold State.commandRecs
      rw [if_pos hoff]
    · rw [hw]
      unfold State.commandRecs
      rw [if_neg (by simp [hon]), hduty]

end Sys2Proof.Machine

namespace Sys2Proof.Machine

variable {s t : State} {ep n dt : Nat} {e : PEvent}

theorem localBase_add_sub (h : isLocalEp ep = true) : localBase + (ep - localBase) = ep :=
  Nat.add_sub_cancel' (of_decide_eq_true h)

/-! ### The local output of an event (R107) -/

/-- The pulse of a local endpoint at an event of its escapement. -/
def EpDyn.pulsed (e : PEvent) (was : Bool) (d : EpDyn) : EpDyn :=
  if e.on = false then { d with pwmRun := false, pwmOpen := false }
  else match e.duty with
    | some v => if was && d.pwmRun then d else { d with pwmRun := true, pwmOpen := true, pwmOpenTick := e.tick, pwmDuty := v }
    | none => { d with pwmRun := false, pwmOpen := false }

/-- A change of an endpoint's pulse alone. -/
def EpDyn.Pulses (d x : EpDyn) : Prop :=
  x = { d with pwmRun := x.pwmRun, pwmOpen := x.pwmOpen, pwmOpenTick := x.pwmOpenTick, pwmDuty := x.pwmDuty }

theorem EpDyn.pulsed_pulses (e : PEvent) (was : Bool) (d : EpDyn) : d.Pulses (d.pulsed e was) := by
  unfold EpDyn.pulsed
  split
  · rfl
  · split
    · split <;> rfl
    · rfl

/-- Without a duty no pulse runs. -/
theorem EpDyn.pulsed_pwmRun (was : Bool) (d : EpDyn) (h : e.duty = none) : (d.pulsed e was).pwmRun = false := by
  unfold EpDyn.pulsed
  rw [h]
  split <;> rfl

/-- An output that the escapement drives, before its coil is looked for. -/
def State.escOutput (n : Nat) (s : State) : State := (s.onChan n fun c => { c with carried := false }).follow n true

theorem State.escOutput_chanWork (n : Nat) (s : State) : s.ChanWork n (s.escOutput n) :=
  (State.onChan_chanWork ..).trans (State.follow_chanWork ..)

theorem State.escOutput_driven (n : Nat) (s : State) : ({ s.chan n with carried := false } : Channel).Driven ((s.escOutput n).chan n) := by
  have h := State.follow_driven (s := s.onChan n fun c => { c with carried := false }) n true
  rw [State.onChan_chan] at h
  exact h

theorem State.driveLocal_cases (ep : Nat) (e : PEvent) (was : Bool) (s : State) :
    let w := (s.onDyn ep (EpDyn.pulsed e was)).escOutput (ep - localBase)
    s.driveLocal ep e was = w ∨ s.driveLocal ep e was = w.onChan (ep - localBase) fun c => { c with coil := some w.now } := by
  intro w
  obtain ⟨b, h⟩ : ∃ b : Bool, s.driveLocal ep e was = if b then w.onChan (ep - localBase) fun c => { c with coil := some w.now } else w :=
    ⟨_, rfl⟩
  cases b with
  | false => exact .inl h
  | true => exact .inr h

/-- What an event does to a local endpoint's channel: its pulse and its output move. -/
structure State.LocalDrive (ep : Nat) (e : PEvent) (was : Bool) (s t : State) : Prop where
  chan : (s.onDyn ep (EpDyn.pulsed e was)).ChanWork (ep - localBase) t
  driven : ({ s.chan (ep - localBase) with carried := false } : Channel).Driven (t.chan (ep - localBase))
  out : (t.chan (ep - localBase)).out = (((s.onDyn ep (EpDyn.pulsed e was)).escOutput (ep - localBase)).chan (ep - localBase)).out

theorem State.driveLocal_localDrive (ep : Nat) (e : PEvent) (was : Bool) (s : State) :
    s.LocalDrive ep e was (s.driveLocal ep e was) := by
  have hw := State.escOutput_chanWork (ep - localBase) (s.onDyn ep (EpDyn.pulsed e was))
  have hd := State.escOutput_driven (ep - localBase) (s.onDyn ep (EpDyn.pulsed e was))
  obtain h | h := State.driveLocal_cases ep e was s
  · rw [h]
    exact ⟨hw, hd, rfl⟩
  · rw [h]
    refine ⟨hw.trans (State.onChan_chanWork ..), ?_, by rw [State.onChan_chan]⟩
    rw [State.onChan_chan]
    exact hd.trans rfl

theorem State.LocalDrive.dyn {was : Bool} (h : s.LocalDrive ep e was t) (k : Nat) :
    t.dyn k = (s.onDyn ep (EpDyn.pulsed e was)).dyn k := by
  unfold State.dyn
  rw [h.chan.gle]

/-- Whether a channel serves the escapement is no matter of its output. -/
theorem State.localPath_congr (h : s.ChanWork n t) (hd : ({ s.chan n with carried := false } : Channel).Driven (t.chan n)) :
    t.localPath n = s.localPath n := by
  unfold State.localPath
  simp only [h.chanLive hd.inService hd.keepTick hd.inSafe, hd.holding, hd.keepTick, hd.inSafe]

/-- A channel in service for the escapement is on where ESC holds its endpoint on and no pulse runs. -/
theorem State.escOutput_out (hp : s.localPath n = true) (hr : Tbl.get false s.lsb.reversed (s.bankOf n) = false)
    (hd : (s.dyn (localBase + n)).pwmRun = false) : ((s.escOutput n).chan n).out = (s.dyn (localBase + n)).heldOn := by
  have hp' : (s.onChan n fun c => { c with carried := false }).localPath n = true := by
    rw [← hp]
    exact State.localPath_congr (State.onChan_chanWork ..) (by rw [State.onChan_chan]; rfl)
  have hf : ((s.onChan n fun c => { c with carried := false }).chan n).followsEsc = true := by
    unfold State.localPath at hp'
    simp only [Bool.and_eq_true, Bool.not_eq_true', Option.isNone_iff_eq_none] at hp'
    obtain ⟨⟨⟨-, hh⟩, hk⟩, hs⟩ := hp'
    unfold Channel.followsEsc Channel.isKept
    rw [hh, hk, hs, State.onChan_chan]
    rfl
  unfold State.escOutput
  rw [State.follow_out (s.onChan n _) true hr, State.localPath_chanLive _ hp', Bool.true_and]
  unfold State.wantsOn
  rw [if_pos hf]
  have hd' : ((s.onChan n fun c => { c with carried := false }).dyn (localBase + n)).pwmRun = false := hd
  rw [hd']
  rfl

/-! ### The effects of an event (R15, R16) -/

/-- An event of an endpoint goes on to its valve and to the ground, or has no effect. -/
def State.takesEffect (ep : Nat) (e : PEvent) (s : State) : State :=
  if s.hasPath ep && !(s.entry ep).feeder && !e.dropped then
    let s := s.addValve (e.valveEffect ep)
    if isLocalEp ep then s.addEffect (e.groundEffect ep) else s
  else s.dropEffect ep e.tick

theorem State.addEffect_frame (v : Effect) (s : State) : s.addEffect v = { s with gle := { s.gle with effQ := (s.addEffect v).gle.effQ } } := by
  unfold State.addEffect State.onGle
  dsimp only
  split
  · rfl
  · split <;> rfl

theorem State.takesEffect_frame (ep : Nat) (e : PEvent) (s : State) : s.takesEffect ep e =
    { s with gle := { s.gle with valveQ := (s.takesEffect ep e).gle.valveQ, effQ := (s.takesEffect ep e).gle.effQ } } := by
  unfold State.takesEffect
  split
  · dsimp only
    split
    · rw [State.addEffect_frame]
      rfl
    · rfl
  · rfl

/-- An endpoint's event that reaches its valve. -/
def State.reaches (s : State) (ep : Nat) (e : PEvent) : Prop := s.hasPath ep = true ∧ (s.entry ep).feeder = false ∧ e.dropped = false

theorem State.takesEffect_of_reaches (h : s.reaches ep e) : s.takesEffect ep e =
    if isLocalEp ep then (s.addValve (e.valveEffect ep)).addEffect (e.groundEffect ep) else s.addValve (e.valveEffect ep) := by
  obtain ⟨hp, hf, hd⟩ := h
  unfold State.takesEffect
  rw [if_pos (by simp [hp, hf, hd])]

theorem State.takesEffect_of_not_reaches (h : ¬ s.reaches ep e) : s.takesEffect ep e = s.dropEffect ep e.tick := by
  unfold State.takesEffect
  rw [if_neg (by simpa [State.reaches] using h)]

/-- An ON at the ground cancels the later OFFs of its endpoint (R398). -/
theorem State.addEffect_on {v : Effect} (hr : v.rateOnly = false) (hon : v.on = true) : (s.addEffect v).gle.effQ =
    (s.gle.effQ.filter fun w => !(w.ep == v.ep && !w.on && decide (v.tick ≤ w.tick))) ++ [v] := by
  unfold State.addEffect
  simp only [hr, hon, Bool.false_eq_true, if_false, if_true, State.onGle_gle]

theorem State.addEffect_valveQ (v : Effect) : (s.addEffect v).gle.valveQ = s.gle.valveQ := by rw [State.addEffect_frame]

theorem PEvent.valveEffect_eq (e : PEvent) (ep : Nat) : e.valveEffect ep =
    { ep, tick := e.tick + 2000 * e.delay, on := e.on, rate := e.rate, duty := e.duty.getD 1000, delay := e.delay, exec := e.tick } := by
  unfold PEvent.valveEffect delayTicks
  rw [Nat.mul_comm]

/-! ### Execution (R107, R111) -/

/-- The state that an executed event sets. -/
def EpDyn.executed (e : PEvent) (d : EpDyn) : EpDyn :=
  if e.on then { d.without e.on with heldOn := true, duty := e.duty.getD 1000, rate := e.rate, lastOn := some e.tick }
  else { d.without e.on with heldOn := false, lastOff := some e.tick }

/-- An event executed, up to its effects. -/
def State.executes (ep : Nat) (e : PEvent) (s : State) : State :=
  if isLocalEp ep then (s.onDyn ep (EpDyn.executed e)).driveLocal ep e (s.dyn ep).heldOn else s.onDyn ep (EpDyn.executed e)

theorem EpDyn.executed_waits (e : PEvent) (d : EpDyn) :
    (d.executed e).owesOff = d.owesOff ∧ (d.executed e).probe = d.probe := by
  unfold EpDyn.executed EpDyn.without
  split <;> exact ⟨rfl, rfl⟩

/-- What an execution leaves of an endpoint's state but for its pulse. -/
theorem State.executes_dyn (ep : Nat) (e : PEvent) (s : State) : ((s.dyn ep).executed e).Pulses ((s.executes ep e).dyn ep) := by
  unfold State.executes
  split
  · rw [(State.driveLocal_localDrive ..).dyn, State.onDyn_dyn, State.onDyn_dyn]
    exact EpDyn.pulsed_pulses ..
  · rw [State.onDyn_dyn]
    rfl

theorem State.executes_dyn_ne {k : Nat} (hk : k ≠ ep) : (s.executes ep e).dyn k = s.dyn k := by
  unfold State.executes
  split
  · rw [(State.driveLocal_localDrive ..).dyn, State.onDyn_dyn_ne _ _ _ _ hk, State.onDyn_dyn_ne _ _ _ _ hk]
  · exact State.onDyn_dyn_ne _ _ _ _ hk

theorem State.executes_frame (ep : Nat) (e : PEvent) (s : State) : s.executes ep e =
    { s with gle := { s.gle with dyn := (s.executes ep e).gle.dyn }, lsb := (s.executes ep e).lsb } := by
  unfold State.executes
  split
  · have h := (State.driveLocal_localDrive ep e (s.dyn ep).heldOn (s.onDyn ep (EpDyn.executed e))).chan.frame
    rw [h]
    rfl
  · rfl

theorem State.executes_remote (h : isLocalEp ep = false) : (s.executes ep e).lsb = s.lsb := by
  unfold State.executes
  rw [if_neg (by simp [h])]
  rfl

theorem State.executes_chan_ne {k : Nat} (hk : k ≠ ep - localBase) : (s.executes ep e).chan k = s.chan k := by
  unfold State.executes
  split
  · exact (State.driveLocal_localDrive ..).chan.others k hk
  · rfl

/-- An execution leaves the path of its endpoint. -/
theorem State.executes_hasPath (ep : Nat) (e : PEvent) (s : State) : (s.executes ep e).hasPath ep = s.hasPath ep := by
  unfold State.executes
  split
  · next hl =>
    have h := State.driveLocal_localDrive ep e (s.dyn ep).heldOn (s.onDyn ep (EpDyn.executed e))
    have hle : localBase ≤ ep := of_decide_eq_true hl
    unfold State.hasPath
    rw [if_pos hle, if_pos hle, State.localPath_congr h.chan h.driven]
    rfl
  · rfl

theorem State.executes_out (hl : isLocalEp ep = true) (hduty : e.duty = none) (hp : s.localPath (ep - localBase) = true)
    (hr : Tbl.get false s.lsb.reversed (s.bankOf (ep - localBase)) = false) :
    ((s.executes ep e).chan (ep - localBase)).out = e.on := by
  have h := State.driveLocal_localDrive ep e (s.dyn ep).heldOn (s.onDyn ep (EpDyn.executed e))
  have hd : ((s.onDyn ep (EpDyn.executed e)).onDyn ep (EpDyn.pulsed e (s.dyn ep).heldOn)).dyn (localBase + (ep - localBase)) =
      ((s.dyn ep).executed e).pulsed e (s.dyn ep).heldOn := by
    rw [localBase_add_sub hl, State.onDyn_dyn, State.onDyn_dyn]
  unfold State.executes
  rw [if_pos hl, h.out, State.escOutput_out (s := (s.onDyn ep _).onDyn ep _) hp hr, hd]
  · rw [EpDyn.pulsed_pulses e]
    unfold EpDyn.executed
    cases e.on <;> rfl
  · rw [hd]
    exact EpDyn.pulsed_pwmRun _ _ hduty

/-- An event of an endpoint that owes no OFF and that a probe watches. -/
theorem State.execute_eq (hp : (s.dyn ep).probe ≠ none) (ho : (s.dyn ep).owesOff = false) :
    s.execute ep e = (s.executes ep e).takesEffect ep e := by
  have hd := State.executes_dyn ep e s
  unfold EpDyn.Pulses at hd
  obtain ⟨howes, hprobe⟩ := EpDyn.executed_waits e (s.dyn ep)
  have hdyn : ((s.executes ep e).takesEffect ep e).dyn ep = (s.executes ep e).dyn ep := by
    rw [State.takesEffect_frame]
    rfl
  have h1 : (((s.executes ep e).takesEffect ep e).dyn ep).owesOff = false := by rw [hdyn, hd]; exact howes.trans ho
  have h2 : (((s.executes ep e).takesEffect ep e).dyn ep).probe.isNone = false := by
    rw [hdyn, hd]
    exact Option.isNone_eq_false_iff.mpr (Option.isSome_iff_ne_none.mpr (by rw [hprobe]; exact hp))
  have hentry : (s.executes ep e).entry ep = s.entry ep := by rw [State.executes_frame]; rfl
  have h : s.execute ep e =
      (let w := (s.executes ep e).takesEffect ep e
       let w := if (w.dyn ep).owesOff then w.shut ep else w
       if (w.dyn ep).probe.isNone then w.applyWaiting ep else w) := by
    unfold State.takesEffect
    rw [hentry]
    rfl
  rw [h]
  simp only [h1, h2, Bool.false_eq_true, if_false]

theorem exec_escSlotExecute (hf : ((s.elapse dt).dyn ep).first
      (fun x => decide (x.tick ≤ (s.elapse dt).now) && (isLocalEp ep || x.dispatched)) = some e) :
    exec (.escSlotExecute dt ep) s = .next ((s.elapse dt).execute ep e) := by
  show execEscSlotExecute dt ep s = _
  unfold execEscSlotExecute
  simp only [hf]

/-- What stands of an endpoint's state once its event has executed. -/
theorem EpDyn.Pulses.executed_sets {d x : EpDyn} (h : (d.executed e).Pulses x) : x.heldOn = e.on ∧
    (if e.on then x.onEv else x.offEv) = none ∧ (if e.on then x.offEv else x.onEv) = (if e.on then d.offEv else d.onEv) ∧
    (if e.on then x.lastOn else x.lastOff) = some e.tick ∧
    (e.on = true → x.rate = e.rate ∧ x.duty = e.duty.getD 1000) ∧ x.effOn = d.effOn ∧ x.inDemand = d.inDemand := by
  unfold EpDyn.Pulses EpDyn.executed EpDyn.without at h
  rw [h]
  cases e.on with
  | false => exact ⟨rfl, rfl, rfl, rfl, nofun, rfl, rfl⟩
  | true => exact ⟨rfl, rfl, rfl, rfl, fun _ => ⟨rfl, rfl⟩, rfl, rfl⟩

/-- An event executed with its effects (R111). -/
def State.carriesOut (ep : Nat) (e : PEvent) (s : State) : State := (s.executes ep e).takesEffect ep e

theorem State.carriesOut_frame (ep : Nat) (e : PEvent) (s : State) : s.carriesOut ep e =
    { s with gle := { s.gle with dyn := (s.executes ep e).gle.dyn, valveQ := (s.carriesOut ep e).gle.valveQ,
                                 effQ := (s.carriesOut ep e).gle.effQ },
             lsb := (s.executes ep e).lsb } := by
  have ht := State.takesEffect_frame ep e (s.executes ep e)
  have hx := State.executes_frame ep e s
  unfold State.carriesOut
  generalize (s.executes ep e).takesEffect ep e = t at ht ⊢
  generalize s.executes ep e = x at ht hx ⊢
  rw [ht, hx]

theorem State.carriesOut_dyn (ep : Nat) (e : PEvent) (s : State) (k : Nat) : (s.carriesOut ep e).dyn k = (s.executes ep e).dyn k := by
  rw [State.carriesOut_frame]
  rfl

theorem State.carriesOut_lsb (ep : Nat) (e : PEvent) (s : State) : (s.carriesOut ep e).lsb = (s.executes ep e).lsb := by
  rw [State.carriesOut_frame]

theorem State.carriesOut_chan (ep : Nat) (e : PEvent) (s : State) (k : Nat) : (s.carriesOut ep e).chan k = (s.executes ep e).chan k := by
  unfold State.chan
  rw [State.carriesOut_lsb]

/-- An execution does not change whether its event reaches its valve. -/
theorem State.executes_reaches : (s.executes ep e).reaches ep e ↔ s.reaches ep e := by
  unfold State.reaches
  rw [State.executes_hasPath, State.executes_frame]
  rfl

theorem State.carriesOut_of_reaches (h : s.reaches ep e) : (s.carriesOut ep e).gle.valveQ = s.gle.valveQ ++ [e.valveEffect ep] ∧
    (isLocalEp ep = true → e.on = true → (s.carriesOut ep e).gle.effQ =
      (s.gle.effQ.filter fun w => !(w.ep == ep && !w.on && decide ((e.groundEffect ep).tick ≤ w.tick))) ++ [e.groundEffect ep]) ∧
    (isLocalEp ep = false → (s.carriesOut ep e).gle.effQ = s.gle.effQ) := by
  have hfr := State.executes_frame ep e s
  have hv : ((s.executes ep e).addValve (e.valveEffect ep)).gle.valveQ = s.gle.valveQ ++ [e.valveEffect ep] := by rw [hfr]; rfl
  have hq : ((s.executes ep e).addValve (e.valveEffect ep)).gle.effQ = s.gle.effQ := by rw [hfr]; rfl
  unfold State.carriesOut
  rw [State.takesEffect_of_reaches (State.executes_reaches.mpr h)]
  refine ⟨?_, fun hl hon => ?_, fun hl => ?_⟩
  · split
    · rw [State.addEffect_valveQ, hv]
    · exact hv
  · rw [if_pos hl, State.addEffect_on (v := e.groundEffect ep) rfl hon, hq]
    rfl
  · rw [if_neg (by simp [hl]), hq]

theorem State.carriesOut_of_not_reaches (h : ¬ s.reaches ep e) : (s.carriesOut ep e).gle.valveQ = s.gle.valveQ ∧
    (s.carriesOut ep e).gle.effQ = s.gle.effQ.filter fun v => !(v.ep == ep && v.exec == e.tick) := by
  have hfr := State.executes_frame ep e s
  unfold State.carriesOut
  rw [State.takesEffect_of_not_reaches fun hr => h (State.executes_reaches.mp hr)]
  rw [hfr]
  exact ⟨rfl, rfl⟩

/-- An event executes at its tick (R107, R111). -/
theorem escSlotExecute_executes (dt ep : Nat) (s : State) (e : PEvent) :
    let u := s.elapse dt
    let d := u.dyn ep
    let n := ep - localBase
    d.first (fun x => decide (x.tick ≤ u.now) && (isLocalEp ep || x.dispatched)) = some e →
    (if e.on then d.onEv else d.offEv) = some e → d.probe ≠ none → d.owesOff = false →
    ∃ t : State, exec (.escSlotExecute dt ep) s = .next t ∧ (t.dyn ep).heldOn = e.on ∧
      (if e.on then (t.dyn ep).onEv else (t.dyn ep).offEv) = none ∧
      (if e.on then (t.dyn ep).offEv else (t.dyn ep).onEv) = (if e.on then d.offEv else d.onEv) ∧
      (if e.on then (t.dyn ep).lastOn else (t.dyn ep).lastOff) = some e.tick ∧
      (e.on = true → (t.dyn ep).rate = e.rate ∧ (t.dyn ep).duty = e.duty.getD 1000) ∧
      (t.dyn ep).effOn = d.effOn ∧ (t.dyn ep).inDemand = d.inDemand ∧ (∀ k, k ≠ ep → t.dyn k = u.dyn k) ∧
      t.gle.valveQ = (if u.hasPath ep = true ∧ (u.entry ep).feeder = false ∧ e.dropped = false then
        u.gle.valveQ ++ [{ ep, tick := e.tick + 2000 * e.delay, on := e.on, rate := e.rate, duty := e.duty.getD 1000, delay := e.delay,
                           exec := e.tick }]
        else u.gle.valveQ) ∧
      (¬ (u.hasPath ep = true ∧ (u.entry ep).feeder = false ∧ e.dropped = false) →
        t.gle.effQ = u.gle.effQ.filter fun v => !(v.ep == ep && v.exec == e.tick)) ∧
      (isLocalEp ep = true → u.hasPath ep = true → (u.entry ep).feeder = false → e.dropped = false → e.on = true →
        t.gle.effQ = (u.gle.effQ.filter fun w =>
          !(w.ep == ep && !w.on && decide ((e.groundEffect ep).tick ≤ w.tick))) ++ [e.groundEffect ep]) ∧
      (isLocalEp ep = false →
        t = { u with gle := { u.gle with dyn := t.gle.dyn, valveQ := t.gle.valveQ, effQ := t.gle.effQ } } ∧
        (u.hasPath ep = true → (u.entry ep).feeder = false → e.dropped = false → t.gle.effQ = u.gle.effQ)) ∧
      (isLocalEp ep = true →
        (∀ j, j ≠ n → t.chan j = u.chan j) ∧
        t = { u with gle := { u.gle with dyn := t.gle.dyn, valveQ := t.gle.valveQ, effQ := t.gle.effQ }, lsb := t.lsb } ∧
        (e.duty = none → u.localPath n = true → Tbl.get false u.lsb.reversed (u.bankOf n) = false → (t.chan n).out = e.on)) := by
  intro u d n hf he hp ho
  have hfr := State.carriesOut_frame ep e u
  have hd : (d.executed e).Pulses ((u.carriesOut ep e).dyn ep) := by
    rw [State.carriesOut_dyn]
    exact State.executes_dyn ep e u
  obtain ⟨hheld, hdone, hother, hlast, hrate, heff, hdemand⟩ := hd.executed_sets
  refine ⟨u.carriesOut ep e, by rw [exec_escSlotExecute hf, State.execute_eq hp ho]; rfl, hheld, hdone, hother, hlast, hrate, heff, hdemand,
    fun k hk => ?_, ?_, fun h => (State.carriesOut_of_not_reaches h).2,
    fun hl h1 h2 h3 hon => (State.carriesOut_of_reaches ⟨h1, h2, h3⟩).2.1 hl hon, fun hl => ⟨?_, fun h1 h2 h3 => ?_⟩,
    fun hl => ⟨fun j hj => ?_, ?_, fun hduty hpath hr => ?_⟩⟩
  · rw [State.carriesOut_dyn, State.executes_dyn_ne hk]
  · rw [← PEvent.valveEffect_eq]
    split
    · next h => exact (State.carriesOut_of_reaches h).1
    · next h => exact (State.carriesOut_of_not_reaches h).1
  · have hl := State.executes_remote (s := u) (e := e) hl
    generalize u.carriesOut ep e = t at hfr ⊢
    rw [hfr, hl]
  · exact (State.carriesOut_of_reaches ⟨h1, h2, h3⟩).2.2 hl
  · rw [State.carriesOut_chan, State.executes_chan_ne hj]
  · generalize u.carriesOut ep e = t at hfr ⊢
    rw [hfr]
  · rw [State.carriesOut_chan]
    exact State.executes_out hl hduty hpath hr

end Sys2Proof.Machine

namespace Sys2Proof.Machine

/-- Settles O44: the insertion by the rows of R110, then the wheel, the dispatch and the execution of a slot. -/
theorem escapementEventsRun : Obligations.EscapementEventsRun := by
  unfold Obligations.EscapementEventsRun
  exact ⟨EpDyn.insert_joins, overflowMigrate_moves, escDispatch_hands, escSlotExecute_executes⟩

end Sys2Proof.Machine

namespace Sys2Proof.Machine

/-! ### What the escapement's events leave of an endpoint (R105, R109, R110) -/

/-- A change of an endpoint's pending events alone. -/
def EpDyn.Rescheduled (d x : EpDyn) : Prop := x = { d with onEv := x.onEv, offEv := x.offEv, owesOff := x.owesOff }

variable {d : EpDyn}

theorem EpDyn.Rescheduled.refl (d : EpDyn) : d.Rescheduled d := rfl

theorem EpDyn.Rescheduled.trans {a b c : EpDyn} (h : a.Rescheduled b) (g : b.Rescheduled c) : a.Rescheduled c := by
  unfold EpDyn.Rescheduled at *
  rw [g, h]

theorem EpDyn.Rescheduled.heldOn {x : EpDyn} (h : d.Rescheduled x) : x.heldOn = d.heldOn := by rw [h]

theorem EpDyn.put_rescheduled (e : PEvent) : d.Rescheduled (d.put e) := by
  unfold EpDyn.put
  split <;> rfl

theorem EpDyn.without_rescheduled (on : Bool) : d.Rescheduled (d.without on) := by
  unfold EpDyn.without
  split <;> rfl

theorem EpDyn.store_rescheduled (now : Nat) (free : Bool) (e : PEvent) (t : Nat) : d.Rescheduled (d.store now free e t).2 := by
  unfold EpDyn.store
  split
  · split
    · exact EpDyn.put_rescheduled _
    · exact .refl d
  · exact EpDyn.put_rescheduled _

theorem EpDyn.follow_rescheduled (on : Bool) (tick : Nat) : d.Rescheduled (d.follow on tick) := by
  unfold EpDyn.follow
  split
  · split
    · exact .refl d
    · exact EpDyn.put_rescheduled _
  · exact .refl d

theorem EpDyn.shiftFirst_rescheduled (now dwell : Nat) (free : Bool) (b e : PEvent) :
    d.Rescheduled (d.shiftFirst now dwell free b e).2 := by
  unfold EpDyn.shiftFirst
  dsimp only
  split
  · split
    · exact (EpDyn.without_rescheduled _).trans (EpDyn.store_rescheduled ..)
    · exact (EpDyn.without_rescheduled _).trans (EpDyn.without_rescheduled _)
  · exact (EpDyn.follow_rescheduled ..).trans (EpDyn.store_rescheduled ..)

theorem EpDyn.Rescheduled.ite {c : Prop} [Decidable c] {x y : Ins × EpDyn} (hx : d.Rescheduled x.2) (hy : d.Rescheduled y.2) :
    d.Rescheduled (if c then x else y).2 := by
  split
  · exact hx
  · exact hy

theorem EpDyn.place_rescheduled (now dwell : Nat) (free : Bool) (a : Option PEvent) (e : PEvent) :
    d.Rescheduled (d.place now dwell free a e).2 := by
  have hs (t : Nat) : d.Rescheduled ((d.without e.on).store now free e t).2 :=
    (EpDyn.without_rescheduled _).trans (EpDyn.store_rescheduled ..)
  have hboth (on : Bool) : d.Rescheduled ((d.without e.on).without on) :=
    (EpDyn.without_rescheduled _).trans (EpDyn.without_rescheduled _)
  have hoff (t : Nat) : d.Rescheduled (((d.without e.on).without true).store now free e t).2 :=
    (hboth true).trans (EpDyn.store_rescheduled ..)
  unfold EpDyn.place
  extract_lets d'
  split
  · exact .ite (EpDyn.shiftFirst_rescheduled ..) (.ite (.ite (hs _) (.ite (hoff _) (hboth _))) (hs _))
  · exact hs _

theorem EpDyn.insert_rescheduled (now dwell : Nat) (free retime : Bool) (e : PEvent) :
    d.Rescheduled (d.insert now dwell free retime e).2 := by
  unfold EpDyn.insert
  split
  · exact EpDyn.place_rescheduled ..
  · extract_lets beyond
    split
    · exact .refl d
    · split
      · exact .refl d
      · split
        · exact .refl d
        · exact EpDyn.place_rescheduled ..

/-! ### What an insertion may change -/

/-- A change of pending events alone, with what GLE and ESC count of it. -/
structure State.Reschedules (s t : State) : Prop where
  frame : t = { s with gle := { s.gle with dyn := t.gle.dyn, sections := t.gle.sections, fault := t.gle.fault, lateCount := t.gle.lateCount,
                                           lateMax := t.gle.lateMax, pendingFullCount := t.gle.pendingFullCount },
                       esc := t.esc, icu := t.icu }
  dyns : ∀ k, (s.dyn k).Rescheduled (t.dyn k)

variable (s : State)

theorem State.Reschedules.refl : s.Reschedules s := ⟨rfl, fun _ => .refl _⟩

theorem State.Reschedules.trans {a b c : State} (h : a.Reschedules b) (g : b.Reschedules c) : a.Reschedules c :=
  ⟨by rw [g.frame, h.frame], fun k => (h.dyns k).trans (g.dyns k)⟩

theorem State.onDyn_reschedules (k : Nat) (f : EpDyn → EpDyn) (hf : (s.dyn k).Rescheduled (f (s.dyn k))) :
    s.Reschedules (s.onDyn k f) := by
  refine ⟨rfl, fun j => ?_⟩
  by_cases hj : j = k
  · rw [hj, State.onDyn_dyn]
    exact hf
  · rw [State.onDyn_dyn_ne _ _ _ _ hj]
    exact .refl _

/-- What ICU learns of a change that leaves the endpoints alone. -/
theorem State.raise_reschedules (n : Nat) : s.Reschedules (s.raise n) := by
  rw [State.raise_frame]
  exact ⟨rfl, fun _ => .refl _⟩

theorem State.gleFault_reschedules (bit src : Nat) : s.Reschedules (s.gleFault bit src) :=
  .trans (b := s.onGle fun g => { g with fault := setFlag g.fault s.cycle bit }) ⟨rfl, fun _ => .refl _⟩ (State.raise_reschedules ..)

theorem State.noteLate_reschedules (ep late : Nat) : s.Reschedules (s.noteLate ep late) :=
  .trans (b := s.onGle fun g =>
      { g with lateCount := count32 g.lateCount, lateMax := min 0xFFFFFFFF (max g.lateMax (late / usTicks)) }) ⟨rfl, fun _ => .refl _⟩ <|
    (State.gleFault_reschedules ..).trans ⟨rfl, fun _ => .refl _⟩

theorem State.countIns_reschedules (r : Ins) : s.Reschedules (s.countIns r) := by
  cases r with
  | stored => exact .refl s
  | ignored => exact .refl s
  | cancelled => exact ⟨rfl, fun _ => .refl _⟩
  | full =>
    exact .trans (b := s.onGle fun g => { g with pendingFullCount := count32 g.pendingFullCount }) ⟨rfl, fun _ => .refl _⟩
      (State.gleFault_reschedules ..)
  | far => exact .trans (b := s.onEsc fun e => { e with fault := setFlag e.fault s.cycle 0 }) ⟨rfl, fun _ => .refl _⟩ (State.raise_reschedules ..)

theorem State.insertRaw_reschedules (ep : Nat) (retime : Bool) (e : PEvent) : s.Reschedules (s.insertRaw ep retime e).2 :=
  (State.onDyn_reschedules s ep _ (EpDyn.insert_rescheduled ..)).trans (State.countIns_reschedules ..)

theorem State.shiftOn_reschedules (m delta : Nat) : s.Reschedules (s.shiftOn m delta) := by
  unfold State.shiftOn
  split
  · split
    · exact .refl s
    · exact (State.onDyn_reschedules s m _ (by exact rfl)).trans (State.noteLate_reschedules ..)
  · exact .refl s

theorem State.shiftMembers_reschedules (ep delta : Nat) : s.Reschedules (s.shiftMembers ep delta) := by
  unfold State.shiftMembers
  split
  · exact .refl s
  · exact (State.noteLate_reschedules ..).trans (foldl_related _ .refl .trans (fun s m => State.shiftOn_reschedules s m delta) _)

theorem State.cancelOff_reschedules (f : Nat) : s.Reschedules (s.cancelOff f) := by
  refine State.onDyn_reschedules s f _ ?_
  split <;> rfl

theorem State.feed_reschedules (f : Nat) (e : PEvent) (r : Ins × State) : r.2.Reschedules (State.feed f e r).2 := by
  unfold State.feed
  dsimp only
  split <;> exact State.insertRaw_reschedules ..

theorem State.openFeeder_reschedules (ep tick f : Nat) (r : Ins × State) : r.2.Reschedules (State.openFeeder ep tick f r).2 :=
  State.feed_reschedules ..

theorem State.closeFeeder_reschedules (ep f : Nat) (r : Ins × State) : r.2.Reschedules (State.closeFeeder ep f r).2 := by
  unfold State.closeFeeder
  dsimp only
  split
  · split
    · exact State.feed_reschedules ..
    · exact .refl _
  · split
    · exact (State.onDyn_reschedules r.2 f _ (by exact rfl)).trans (State.cancelOff_reschedules ..)
    · split
      · exact State.feed_reschedules ..
      · exact .refl _

theorem State.closeFeeders_reschedules (ep : Nat) (r : Ins × State) : r.2.Reschedules (State.closeFeeders ep r).2 :=
  foldl_related_snd .refl .trans (fun r f => State.closeFeeder_reschedules ep f r) _ r

theorem State.openFeeders_reschedules (ep tick : Nat) (r : Ins × State) : r.2.Reschedules (State.openFeeders ep tick r).2 := by
  unfold State.openFeeders
  dsimp only
  exact (foldl_related _ .refl .trans State.cancelOff_reschedules _).trans
    (foldl_related_snd .refl .trans (fun r f => State.openFeeder_reschedules ep tick f r) _ (_, _))

theorem State.afterCancel_reschedules (ep tick : Nat) : s.Reschedules (s.afterCancel ep tick) := by
  unfold State.afterCancel
  split
  · exact .refl s
  · split
    · exact State.openFeeders_reschedules ep tick (.cancelled, s)
    · exact State.closeFeeders_reschedules ep (.cancelled, s)

theorem State.orRefuse_reschedules {e : PEvent} {before : State} {r : Ins × State} (h : before.Reschedules r.2) :
    before.Reschedules (State.orRefuse e before r).2 := by
  unfold State.orRefuse
  split
  · exact h
  · split
    · exact State.countIns_reschedules before .full
    · exact State.countIns_reschedules before .far
    · exact h

theorem State.openWith_reschedules (ep : Nat) (retime : Bool) (e : PEvent) : s.Reschedules (s.openWith ep retime e).2 := by
  unfold State.openWith
  extract_lets moves need delta q t
  have h : s.Reschedules q.2 := (State.shiftMembers_reschedules s ep delta).trans (State.insertRaw_reschedules ..)
  split
  · refine State.orRefuse_reschedules ?_
    split
    · exact h.trans (foldl_related_snd .refl .trans (fun r f => State.openFeeder_reschedules ep _ f r) _ _)
    · exact h.trans (State.openFeeders_reschedules ..)
  · exact (State.insertRaw_reschedules ..).trans (State.afterCancel_reschedules ..)
  · exact State.insertRaw_reschedules ..

theorem State.closeWith_reschedules (ep : Nat) (retime : Bool) (e : PEvent) : s.Reschedules (s.closeWith ep retime e).2 := by
  unfold State.closeWith
  dsimp only
  have h := State.insertRaw_reschedules s ep retime e
  split
  · split
    · exact State.orRefuse_reschedules (h.trans (State.closeFeeders_reschedules ..))
    · exact h
  · exact h.trans (State.afterCancel_reschedules ..)
  · exact h

theorem State.insert_reschedules (ep : Nat) (retime : Bool) (e : PEvent) : s.Reschedules (s.insert ep retime e).2 := by
  unfold State.insert
  dsimp only
  split
  · exact State.insertRaw_reschedules ..
  · split
    · split
      · exact State.insertRaw_reschedules ..
      · exact State.openWith_reschedules ..
    · exact State.closeWith_reschedules ..

/-- A forced OFF leaves all but the pending events. -/
theorem State.shut_reschedules (ep : Nat) : s.Reschedules (s.shut ep) := by
  unfold State.shut
  extract_lets t d v
  have ht : s.Reschedules t := by
    refine State.onDyn_reschedules s ep _ ?_
    split
    · split <;> rfl
    · rfl
  have hv : t.Reschedules v := by
    unfold v
    split
    · exact State.insert_reschedules ..
    · exact .refl t
  exact ht.trans (hv.trans (State.onDyn_reschedules v ep _ (by exact rfl)))

theorem State.cancelUndispatched_reschedules (ep : Nat) : s.Reschedules (s.cancelUndispatched ep) := by
  unfold State.cancelUndispatched
  extract_lets was keep t
  have ht : s.Reschedules t := State.onDyn_reschedules s ep _ (by exact rfl)
  split
  · exact ht.trans (State.closeFeeders_reschedules ep (.cancelled, t))
  · exact ht

theorem State.closeProduct_reschedules (p : Nat) : s.Reschedules (s.closeProduct p) := by
  unfold State.closeProduct
  extract_lets _ t
  have ht : s.Reschedules t := by
    refine foldl_related s .refl .trans (fun s ep => ?_) _
    split
    · exact State.shut_reschedules ..
    · exact .refl s
  refine ht.trans (foldl_related t .refl .trans (fun s f => ?_) _)
  split
  · exact State.shut_reschedules ..
  · exact .refl s

end Sys2Proof.Machine

namespace Sys2Proof.Machine

variable {s t : State} {ep dt ring : Nat} {d : Slot}

/-! ### What a command leaves of entries and products -/

/-- No entry and no product changes. -/
structure State.SetupStands (s t : State) : Prop where
  entries : t.gle.entries = s.gle.entries
  products : t.gle.products = s.gle.products

theorem State.SetupStands.refl (s : State) : s.SetupStands s := ⟨rfl, rfl⟩

theorem State.SetupStands.trans {a b c : State} (h : a.SetupStands b) (g : b.SetupStands c) : a.SetupStands c :=
  ⟨g.entries.trans h.entries, g.products.trans h.products⟩

theorem State.SetupStands.entry (h : s.SetupStands t) (k : Nat) : t.entry k = s.entry k := by
  unfold State.entry
  rw [h.entries]

theorem State.SetupStands.product (h : s.SetupStands t) (k : Nat) : t.product k = s.product k := by
  unfold State.product
  rw [h.products]

theorem State.Reschedules.setupStands (h : s.Reschedules t) : s.SetupStands t := ⟨by rw [h.frame], by rw [h.frame]⟩
theorem State.DemandWork.setupStands (h : s.DemandWork t) : s.SetupStands t := ⟨by rw [h], by rw [h]⟩
theorem State.LoadWork.setupStands (h : s.LoadWork t) : s.SetupStands t := ⟨by rw [h], by rw [h]⟩
theorem State.onDyn_setupStands (k : Nat) (f : EpDyn → EpDyn) : s.SetupStands (s.onDyn k f) := ⟨rfl, rfl⟩

theorem State.armCheck_gle (s : State) : s.armCheck.gle = s.gle := by rw [State.armCheck_frame]

theorem State.armCheck_setupStands (s : State) : s.SetupStands s.armCheck := ⟨by rw [State.armCheck_gle], by rw [State.armCheck_gle]⟩

theorem State.armCheck_dyn (s : State) (k : Nat) : s.armCheck.dyn k = s.dyn k := by
  unfold State.dyn
  rw [State.armCheck_gle]

theorem State.settle_gle (u : State) (ring : Nat) : (u.settle ring).gle = u.gle := by rw [State.settle_eq]

/-! ### A pass over endpoints -/

/-- A pass that does once for each endpoint what may be done twice. -/
theorem State.foldl_onDyn_dyn {g : Nat → EpDyn → EpDyn} (hg : ∀ k d, g k (g k d) = g k d) (l : List Nat) (s : State) (k : Nat) :
    (l.foldl (fun s ep => s.onDyn ep (g ep)) s).dyn k = if k ∈ l then g k (s.dyn k) else s.dyn k := by
  induction l generalizing s with
  | nil => rfl
  | cons a l ih =>
    rw [List.foldl_cons, ih]
    by_cases hk : k = a
    · subst hk
      simp [hg]
    · simp [State.onDyn_dyn_ne _ _ _ _ hk, hk]

theorem State.foldl_onDyn_frame (g : Nat → EpDyn → EpDyn) (l : List Nat) (s : State) :
    l.foldl (fun s ep => s.onDyn ep (g ep)) s =
      { s with gle := { s.gle with dyn := (l.foldl (fun s ep => s.onDyn ep (g ep)) s).gle.dyn } } :=
  foldl_related (R := fun s t => t = { s with gle := { s.gle with dyn := t.gle.dyn } }) s (fun _ => rfl) (fun h g => by rw [g, h])
    (fun _ _ => rfl) l

/-- What is not the thing an unlisted number stands for is listed. -/
theorem Tbl.mem_of_get {α : Type} {z : α} {l : Tbl α} {i : Nat} (h : Tbl.get z l i ≠ z) : (i, Tbl.get z l i) ∈ l := by
  induction l with
  | nil => exact absurd rfl h
  | cons e l ih =>
    obtain ⟨j, v⟩ := e
    unfold Tbl.get at h ⊢
    split at h
    · next hj => rw [if_pos hj, hj]; exact List.mem_cons_self
    · next hj => rw [if_neg hj]; exact List.mem_cons_of_mem _ (ih h)

/-! ### GLE_CTRL (R102, R116) -/

/-- The probe of an endpoint that starts to be probed now (R102). -/
def State.probeFrom (s : State) (ep : Nat) : Probe :=
  { next := ceilSlot (s.now + s.probeAhead ep), due := ceilSlot (s.now + s.probeAhead ep) - s.probeAhead ep }

/-- An endpoint with another probe, or none. -/
def EpDyn.withProbe (p : Option Probe) (d : EpDyn) : EpDyn := { d with probe := p }

/-- Endpoints that start to be probed do not change each other's start. -/
theorem State.startProbe_fold (l : List Nat) (s : State) : l.foldl (fun s ep => s.startProbe ep) s =
    l.foldl (fun t ep => t.onDyn ep (EpDyn.withProbe (some (s.probeFrom ep)))) s := by
  induction l generalizing s with
  | nil => rw [List.foldl_nil, List.foldl_nil]
  | cons a l ih =>
    have hp : (s.startProbe a).probeFrom = s.probeFrom := rfl
    rw [List.foldl_cons, List.foldl_cons, ih, hp]
    rfl

/-- The evaluated endpoints, as GLE goes over them. -/
def State.evaluatedEps (s : State) : List Nat := (s.gle.entries.filter fun e => e.2.evaluated).map Prod.fst

theorem State.mem_evaluatedEps (h : (s.entry ep).evaluated = true) : ep ∈ s.evaluatedEps := by
  have hne : s.entry ep ≠ {} := fun he => by rw [he] at h; cases h
  exact List.mem_map.mpr ⟨(ep, s.entry ep), List.mem_filter.mpr ⟨Tbl.mem_of_get hne, h⟩, rfl⟩

/-- The evaluated endpoints with a probe from now on. -/
def State.probed (s : State) : State := s.evaluatedEps.foldl (fun t ep => t.onDyn ep (EpDyn.withProbe (some (s.probeFrom ep)))) s

theorem State.startProbes_eq (s : State) : s.startProbes = s.probed.refreshLoad := by
  unfold State.startProbes State.probed
  rw [State.startProbe_fold]
  rfl

theorem State.probed_dyn (s : State) (k : Nat) :
    s.probed.dyn k = if k ∈ s.evaluatedEps then { s.dyn k with probe := some (s.probeFrom k) } else s.dyn k :=
  State.foldl_onDyn_dyn (g := fun ep => EpDyn.withProbe (some (s.probeFrom ep))) (fun _ _ => rfl) ..

theorem State.probed_frame (s : State) : s.probed = { s with gle := { s.gle with dyn := s.probed.gle.dyn } } :=
  State.foldl_onDyn_frame (fun ep => EpDyn.withProbe (some (s.probeFrom ep))) ..

/-- Every evaluated endpoint starts afresh. -/
theorem State.startProbes_probe (h : (s.entry ep).evaluated = true) : (s.startProbes.dyn ep).probe = some (s.probeFrom ep) := by
  rw [State.startProbes_eq, (State.refreshLoad_loadWork _).dyn, State.probed_dyn, if_pos (State.mem_evaluatedEps h)]

/-- What starting the probes may change. -/
theorem State.startProbes_stands (s : State) : s.SetupStands s.startProbes ∧ s.startProbes.gle.enable = s.gle.enable ∧
    ∀ k, (s.startProbes.dyn k).heldOn = (s.dyn k).heldOn := by
  have hl := State.refreshLoad_loadWork s.probed
  have hf := State.probed_frame s
  rw [State.startProbes_eq]
  refine ⟨.trans (b := s.probed) ?_ hl.setupStands, ?_, fun k => ?_⟩
  · rw [hf]
    exact ⟨rfl, rfl⟩
  · rw [hl, hf]
  · rw [hl.dyn, State.probed_dyn]
    split <;> rfl

/-- Endpoints that close keep their entries and the state that ESC holds. -/
theorem State.closeAll_stands (s : State) : s.SetupStands s.closeAll.2 ∧ ∀ k, (s.closeAll.2.dyn k).heldOn = (s.dyn k).heldOn := by
  refine foldl_related (R := fun s t => s.SetupStands t ∧ ∀ k, (t.dyn k).heldOn = (s.dyn k).heldOn) s (fun s => ⟨.refl s, fun _ => rfl⟩)
    (fun h g => ⟨h.1.trans g.1, fun k => (g.2 k).trans (h.2 k)⟩) (fun s ep => ?_) _
  have h := State.shut_reschedules s ep
  refine ⟨h.setupStands.trans (State.onDyn_setupStands ..), fun k => .trans ?_ (h.dyns k).heldOn⟩
  by_cases hk : k = ep
  · rw [hk, State.onDyn_dyn]
  · rw [State.onDyn_dyn_ne _ _ _ _ hk]

/-- GLE once it is disabled, its endpoints closing. -/
def State.gleOff (s : State) : State := s.closeAll.2.onGle fun g => { g with enable := false, running := false }

/-- No endpoint keeps its probe. -/
def State.endProbes (s : State) : State := (s.gle.dyn.map Prod.fst).foldl (fun s ep => s.onDyn ep (EpDyn.withProbe none)) s

theorem State.endProbes_dyn (s : State) (k : Nat) : s.endProbes.dyn k = { s.dyn k with probe := none } := by
  unfold State.endProbes
  rw [State.foldl_onDyn_dyn (g := fun _ => EpDyn.withProbe none) fun _ _ => rfl]
  split
  · rfl
  · next hk =>
    have hd : s.dyn k = {} := by
      by_contra hne
      exact hk (List.mem_map.mpr ⟨_, Tbl.mem_of_get hne, rfl⟩)
    rw [hd]

theorem State.endProbes_frame (s : State) : s.endProbes = { s with gle := { s.gle with dyn := s.endProbes.gle.dyn } } :=
  State.foldl_onDyn_frame (fun _ => EpDyn.withProbe none) (s.gle.dyn.map Prod.fst) s

theorem State.gleCtrl_off {v : Word} (hv : bit v 0 = false) (he : s.gle.enable = true) :
    s.gleCtrl v = s.gleOff.endProbes.refreshLoad := by
  unfold State.gleCtrl
  simp only [hv, he, Bool.false_eq_true, if_false]
  rfl

theorem State.gleCtrl_on {v : Word} (hv : bit v 0 = true) (he : s.gle.enable = false) :
    s.gleCtrl v = (s.onGle fun g => { g with enable := true, running := true }).startProbes := by
  unfold State.gleCtrl
  simp only [hv, he, Bool.true_eq_false, if_false, if_true]

theorem exec_gleEnableWrite (v : Word) (h : (s.elapse dt).hostTo 2 = true) :
    exec (.gleEnableWrite dt v) s = .next ((s.elapse dt).gleCtrl v) := next_when h

/-- GLE_CTRL.ENABLE starts or ends the probes. -/
theorem gleEnableWrite_acts (dt : Nat) (v : Word) (s : State) :
    let u := s.elapse dt
    u.hostTo 2 = true →
    (bit v 0 = u.gle.enable → exec (.gleEnableWrite dt v) s = .next u) ∧
    (bit v 0 = true → u.gle.enable = false →
      ∃ t : State, exec (.gleEnableWrite dt v) s = .next t ∧ t.gle.enable = true ∧
        (∀ ep, (u.entry ep).evaluated = true →
          (let ahead := u.leadOf ep + u.spacing ep u.gle.probeSteps
           (t.dyn ep).probe = some { next := ceilSlot (u.now + ahead), due := ceilSlot (u.now + ahead) - ahead })) ∧
        (∀ ep, t.entry ep = u.entry ep ∧ (t.dyn ep).heldOn = (u.dyn ep).heldOn)) ∧
    (bit v 0 = false → u.gle.enable = true →
      ∃ t : State, exec (.gleEnableWrite dt v) s = .next t ∧ t.gle.enable = false ∧ (∀ ep, (t.dyn ep).probe = none) ∧
        (∀ ep, t.entry ep = u.entry ep ∧ (t.dyn ep).heldOn = (u.dyn ep).heldOn)) := by
  intro u hh
  have hx := exec_gleEnableWrite v hh
  refine ⟨fun hv => ?_, fun hv he => ?_, fun hv he => ?_⟩
  · rw [hx]
    exact congrArg Host.Outcome.next (if_pos hv)
  · obtain ⟨hs, hen, hheld⟩ := State.startProbes_stands (u.onGle fun g => { g with enable := true, running := true })
    refine ⟨_, hx.trans (congrArg Host.Outcome.next (State.gleCtrl_on hv he)), hen, fun ep hev => State.startProbes_probe hev,
      fun ep => ⟨hs.entry ep, hheld ep⟩⟩
  · obtain ⟨hs, hheld⟩ := State.closeAll_stands u
    have hl := State.refreshLoad_loadWork u.gleOff.endProbes
    have hf := State.endProbes_frame u.gleOff
    refine ⟨_, hx.trans (congrArg Host.Outcome.next (State.gleCtrl_off hv he)), ?_, fun ep => ?_, fun ep => ⟨?_, ?_⟩⟩
    · rw [hl, hf]
      rfl
    · rw [hl.dyn, State.endProbes_dyn]
    · rw [hl.setupStands.entry, hf]
      exact hs.entry ep
    · rw [hl.dyn, State.endProbes_dyn]
      exact hheld ep

end Sys2Proof.Machine

namespace Sys2Proof.Machine

variable {s t : State} {ep dt ring : Nat} {d : Slot}

/-! ### PRODUCT_SET (R98, R99) -/

/-- A product's entry in the table. -/
def State.withProduct (p : Nat) (x : Product) (s : State) : State := s.onGle fun g => { g with products := Tbl.set {} g.products p x }

theorem State.follow_setupStands (n : Nat) (fresh : Bool) (s : State) : s.SetupStands (s.follow n fresh) := by
  have hg := (State.follow_chanWork s n fresh).gle
  exact ⟨by rw [hg], by rw [hg]⟩

theorem State.endPulses_setupStands (p : Nat) (s : State) : s.SetupStands (s.endPulses p) := by
  unfold State.endPulses
  split
  · refine foldl_related s .refl .trans (fun s n => ?_) _
    split
    · exact (State.onDyn_setupStands ..).trans (State.follow_setupStands ..)
    · exact .refl s
  · exact .refl s

/-- No pulse ends where the product has a period or no pulse runs (R89, R107). -/
theorem State.endPulses_none {p : Nat} (h : (s.product p).pwmPeriod ≠ 0 ∨ ∀ n, (s.dyn (localBase + n)).pwmRun = false) :
    s.endPulses p = s := by
  unfold State.endPulses
  split
  · next h0 =>
    have hr := h.resolve_left (not_not_intro h0)
    exact List.foldl_fixed' (fun n => if_neg (by simp [hr n])) _
  · rfl

/-- A product set: what no probe closes closes, and pulses without a period end. -/
def State.productIn (p : Nat) (x : Product) (s : State) : State :=
  (if (s.product p).enable && !x.enable then (s.withProduct p x).closeProduct p else s.withProduct p x).endPulses p

/-- Demand is no matter of APPLY_ARMED. -/
theorem State.DemandFresh.armCheck (h : s.DemandFresh) : s.armCheck.DemandFresh := by
  have hf := State.armCheck_frame s
  intro p h1 h2
  generalize s.armCheck = t at hf ⊢
  rw [hf]
  exact h p h1 h2

theorem exec_productSet (hd : (s.elapse dt).headRuns ring 0x05 d) (hc : checksPass (((s.elapse dt).settle ring).productChecks d.desc)) :
    exec (.productSet dt ring) s = .next (((((((s.elapse dt).settle ring).productIn (dfield d.desc 16 1)
      (parseProduct d.desc)).refreshLoad).refreshDemand).armCheck).finishHead ring 0x00 0 0) := by
  show execProductSet dt ring s = _
  unfold execProductSet
  rw [State.runDesc_headRuns hd, State.checked_pass hc]
  rfl

theorem State.productIn_stands (p : Nat) (x : Product) (s : State) : (s.withProduct p x).SetupStands (s.productIn p x) := by
  unfold State.productIn
  refine .trans ?_ (State.endPulses_setupStands ..)
  split
  · exact (State.closeProduct_reschedules ..).setupStands
  · exact .refl _

/-- No endpoint changes where the product stays in use and no pulse loses its period. -/
theorem State.productIn_dyn {p : Nat} {x : Product} (he : (s.product p).enable = false ∨ x.enable = true)
    (hp : x.pwmPeriod ≠ 0 ∨ ∀ n, (s.dyn (localBase + n)).pwmRun = false) (k : Nat) : (s.productIn p x).dyn k = s.dyn k := by
  have hx : (s.withProduct p x).product p = x := Tbl.get_set_same
  have hc : ((s.product p).enable && !x.enable) = false := by
    obtain he | he := he <;> simp [he]
  unfold State.productIn
  rw [hc, if_neg Bool.false_ne_true, State.endPulses_none (by rw [hx]; exact hp)]
  rfl

theorem productSet_sets (dt ring : Nat) (s : State) (d : Slot) :
    let u := s.elapse dt
    let b := u.settle ring
    u.headRuns ring 0x05 d → checksPass (b.productChecks d.desc) →
    ∃ v : State, exec (.productSet dt ring) s = .next (v.finishHead ring 0x00 0 0) ∧
      v.product (dfield d.desc 16 1) = parseProduct d.desc ∧ (∀ k, k ≠ dfield d.desc 16 1 → v.product k = u.product k) ∧
      (∀ p, 1 ≤ p → p ≤ 63 → Tbl.get 0 v.gle.demand p = min 0xFFFFFFFF (v.demandOf p)) ∧ (∀ k, v.entry k = u.entry k) ∧
      ((u.product (dfield d.desc 16 1)).enable = false ∨ (parseProduct d.desc).enable = true →
        (parseProduct d.desc).pwmPeriod ≠ 0 ∨ (∀ n, (u.dyn (localBase + n)).pwmRun = false) → ∀ k, v.dyn k = u.dyn k) := by
  intro u b hd hc
  have hb : b.gle = u.gle := State.settle_gle u ring
  have hload := State.refreshLoad_loadWork (b.productIn (dfield d.desc 16 1) (parseProduct d.desc))
  have hdemand := State.refreshDemand_demandWork (b.productIn (dfield d.desc 16 1) (parseProduct d.desc)).refreshLoad
  have hstands := (State.productIn_stands (dfield d.desc 16 1) (parseProduct d.desc) b).trans <|
    hload.setupStands.trans <| hdemand.setupStands.trans (State.armCheck_setupStands _)
  refine ⟨_, exec_productSet hd hc, ?_, fun k hk => ?_, ?_, fun k => ?_, fun he hp k => ?_⟩
  · rw [hstands.product]
    exact Tbl.get_set_same
  · rw [hstands.product]
    refine (Tbl.get_set_ne hk).trans ?_
    rw [hb]
    rfl
  · exact (State.refreshDemand_fresh _).armCheck
  · rw [hstands.entry]
    show Tbl.get {} b.gle.entries k = _
    rw [hb]
    rfl
  · have hbd (k : Nat) : b.dyn k = u.dyn k := by
      unfold State.dyn
      rw [hb]
    have hbp (k : Nat) : b.product k = u.product k := by
      unfold State.product
      rw [hb]
    rw [State.armCheck_dyn, hdemand.dyn, hload.dyn, State.productIn_dyn (by rw [hbp]; exact he) (by simpa only [hbd] using hp), hbd]

/-! ### Fields of a payload -/

/-- A field of a descriptor is its low byte and the rest. -/
theorem dfield_succ (x : DescBits) (off n : Nat) : dfield x off (n + 1) = dfield x off 1 + 256 * dfield x (off + 1) n := by
  unfold dfield
  have h1 : x.toNat / 2 ^ (8 * (off + 1)) = x.toNat / 2 ^ (8 * off) / 2 ^ 8 := by
    rw [Nat.div_div_eq_div_mul, ← Nat.pow_add, Nat.mul_add]
  have h2 : 2 ^ (8 * (n + 1)) = 2 ^ 8 * 2 ^ (8 * n) := by rw [← Nat.pow_add, Nat.mul_add, Nat.add_comm]
  rw [h1, h2, Nat.mod_mul]
  rfl

/-- A field of a payload's bytes is the descriptor's field at its place. -/
theorem wordAt_dBytes (x : DescBits) (off : Nat) {size o n : Nat} (h : o + n ≤ size) :
    wordAt (dBytes x off size) o n = dfield x (off + o) n := by
  induction n generalizing o with
  | zero => simp [wordAt, dfield, Nat.mod_one]
  | succ n ih =>
    have hlen : o < (dBytes x off size).length := by
      simp only [dBytes, List.length_map, List.length_range]
      omega
    have hget : (dBytes x off size)[o] = BitVec.ofNat 8 (dfield x (off + o) 1) := by simp [dBytes]
    have hbyte : dfield x (off + o) 1 < 2 ^ 8 := Nat.mod_lt _ (by decide)
    have ih := ih (o := o + 1) (by omega)
    unfold wordAt at ih ⊢
    rw [List.drop_eq_getElem_cons hlen, List.take_succ_cons, List.foldr_cons, ih, hget, BitVec.toNat_ofNat,
      Nat.mod_eq_of_lt hbyte, dfield_succ x (off + o) n, Nat.add_assoc]

/-- The first bytes of a payload. -/
theorem dBytes_take (x : DescBits) (off : Nat) {m n : Nat} (h : m ≤ n) : (dBytes x off n).take m = dBytes x off m := by
  unfold dBytes
  rw [← List.map_take, List.take_range, Nat.min_eq_left h]

/-! ### SECTION_SET (R96, R97) -/

/-- An entry of a section without LATCHED members has no latch event. -/
theorem State.latchSection_none {tick : Nat} {e : SecEntry} {r : Bool × State}
    (h : ∀ m ∈ r.2.sectionMembers e.section_, (r.2.entry m).mode ≠ .latched) : State.latchSection tick e r = r := by
  unfold State.latchSection
  rw [List.filter_eq_nil_iff.mpr fun m hm => by simpa using h m hm]
  rfl

/-- One section set. -/
def State.sectionIn (e : SecEntry) (s : State) : State := s.onSection e.section_ fun c => { c with state := e.state, latch := e.latch }

theorem State.setSections_one {tick : Nat} {e : SecEntry} (h : ∀ m ∈ s.sectionMembers e.section_, (s.entry m).mode ≠ .latched) :
    s.setSections ring tick [e] = (s.sectionIn e).armCheck.finishHead ring 0x00 0 0 := by
  unfold State.setSections
  rw [List.foldl_cons, List.foldl_nil, State.latchSection_none h]
  rfl

theorem exec_sectionSet_one {buf : HostRead} (hd : (s.elapse dt).headRuns ring 0x04 d) (h3 : dFlag d.desc 3 = false)
    (hn : dLength d.desc = 1)
    (hc : checksPass ([flagCheck d.desc 0x02, (inRange 1 10 1, 2), (decide (dfield d.desc 16 8 ≤ ((s.elapse dt).settle ring).now + 2 ^ 32), 16)] ++
      sectionChecks (dBytes d.desc 24 4) 24)) :
    exec (.sectionSet dt ring buf) s =
      .next (((s.elapse dt).settle ring).setSections ring (dfield d.desc 16 8) [parseSection (dBytes d.desc 24 4)]) := by
  have hs : slices (dBytes d.desc 24 40) 4 (min 10 1) = [(0, dBytes d.desc 24 4)] := by
    unfold slices
    rw [show min 10 1 = 1 from rfl, List.range_one, List.map_singleton, Nat.mul_zero, List.drop_zero, dBytes_take _ _ (by decide)]
  show execSectionSet dt ring buf s = _
  unfold execSectionSet
  rw [State.runDesc_headRuns hd]
  simp only [h3, Bool.false_eq_true, if_false, hn, hs, List.flatMap_cons, List.flatMap_nil, List.append_nil, List.map_cons, List.map_nil]
  rw [State.checked_pass hc]

theorem sectionSet_sets (dt ring : Nat) (buf : HostRead) (s : State) (d : Slot) :
    let u := s.elapse dt
    let b := u.settle ring
    let e := parseSection (dBytes d.desc 24 4)
    u.headRuns ring 0x04 d → dFlag d.desc 3 = false → dLength d.desc = 1 →
    checksPass ([flagCheck d.desc 0x02, (inRange 1 10 1, 2), (decide (dfield d.desc 16 8 ≤ b.now + 2 ^ 32), 16)] ++
      sectionChecks (dBytes d.desc 24 4) 24) →
    (∀ m ∈ u.sectionMembers e.section_, (u.entry m).mode ≠ .latched) →
    ∃ v : State, exec (.sectionSet dt ring buf) s = .next (v.finishHead ring 0x00 0 0) ∧
      v.section_ e.section_ = { u.section_ e.section_ with state := dfield d.desc 26 1, latch := (dfield d.desc 27 1).testBit 0 } ∧
      e.section_ = dfield d.desc 24 2 ∧ (∀ k, k ≠ e.section_ → v.section_ k = u.section_ k) ∧
      v = { b with gle := { u.gle with sections := v.gle.sections }, gnb := v.gnb } := by
  intro u b e hd h3 hn hc hm
  have hb : b.gle = u.gle := State.settle_gle u ring
  have hbm : ∀ m ∈ b.sectionMembers e.section_, (b.entry m).mode ≠ .latched := by
    unfold State.sectionMembers State.entry
    rw [hb]
    exact hm
  have hbs (k : Nat) : b.section_ k = u.section_ k := by
    unfold State.section_
    rw [hb]
  have hsec (k : Nat) : (b.sectionIn e).armCheck.section_ k = (b.sectionIn e).section_ k := by
    unfold State.section_
    rw [State.armCheck_gle]
  have hlt : wordAt (dBytes d.desc 24 4) 0 2 < 4096 := by
    have := (checksPass_append.mp hc).2 (decide (wordAt (dBytes d.desc 24 4) 0 2 < 4096), 25) (by simp [sectionChecks])
    simpa using this
  refine ⟨_, (exec_sectionSet_one hd h3 hn hc).trans (congrArg Host.Outcome.next (State.setSections_one hbm)), ?_, ?_, fun k hk => ?_, ?_⟩
  · rw [hsec]
    unfold State.sectionIn
    rw [State.onSection_section_, hbs, ← wordAt_dBytes d.desc 24 (size := 4) (o := 2) (by decide),
      ← wordAt_dBytes d.desc 24 (size := 4) (o := 3) (by decide)]
    rfl
  · rw [← wordAt_dBytes d.desc 24 (size := 4) (o := 0) (by decide)]
    exact Nat.mod_eq_of_lt hlt
  · rw [hsec, ← hbs]
    exact State.onSection_section_other _ _ _ _ hk
  · rw [State.armCheck_frame, ← hb]
    rfl

end Sys2Proof.Machine

namespace Sys2Proof.Machine

variable {s t : State} {ep dt ring n : Nat} {d : Slot} {en : Entry}

/-! ### What leaves the channels alone as well -/

/-- No entry, no product and no channel changes. -/
structure State.OffChannels (s t : State) : Prop extends s.SetupStands t where
  lsb : t.lsb = s.lsb

theorem State.OffChannels.refl (s : State) : s.OffChannels s := ⟨.refl s, rfl⟩

theorem State.OffChannels.trans {a b c : State} (h : a.OffChannels b) (g : b.OffChannels c) : a.OffChannels c :=
  ⟨h.toSetupStands.trans g.toSetupStands, g.lsb.trans h.lsb⟩

theorem State.Reschedules.offChannels (h : s.Reschedules t) : s.OffChannels t := ⟨h.setupStands, by rw [h.frame]⟩
theorem State.DemandWork.offChannels (h : s.DemandWork t) : s.OffChannels t := ⟨h.setupStands, by rw [h]⟩
theorem State.LoadWork.offChannels (h : s.LoadWork t) : s.OffChannels t := ⟨h.setupStands, by rw [h]⟩
theorem State.MapWork.offChannels (h : s.MapWork t) : s.OffChannels t := ⟨⟨by rw [h], by rw [h]⟩, by rw [h]⟩
theorem State.Reports.offChannels (h : s.Reports t) : s.OffChannels t := by
  unfold State.Reports at h
  exact ⟨⟨by rw [h], by rw [h]⟩, by rw [h]⟩

theorem State.onDyn_offChannels (k : Nat) (f : EpDyn → EpDyn) : s.OffChannels (s.onDyn k f) := ⟨State.onDyn_setupStands k f, rfl⟩
theorem State.armCheck_offChannels (s : State) : s.OffChannels s.armCheck := ⟨State.armCheck_setupStands s, by rw [State.armCheck_frame]⟩

theorem State.OffChannels.chan (h : s.OffChannels t) (k : Nat) : t.chan k = s.chan k := by
  unfold State.chan
  rw [h.lsb]

/-! ### Calibration at a load (R317) -/

/-- What a load does to the calibration of delays, with what it raises and reports. -/
def State.CalWork (s t : State) : Prop := t = { s with nv := t.nv, lca := t.lca, icu := t.icu, hre := t.hre, out := t.out }

theorem State.CalWork.refl (s : State) : s.CalWork s := rfl

theorem State.CalWork.trans {a b c : State} (h : a.CalWork b) (g : b.CalWork c) : a.CalWork c := by
  unfold State.CalWork at *
  rw [g, h]

theorem State.Reports.calWork (h : s.Reports t) : s.CalWork t := by
  unfold State.Reports at h
  rw [h]
  rfl

theorem State.lcaFault_calWork (bit src : Nat) (s : State) : s.CalWork (s.lcaFault bit src) :=
  .trans (b := s.onLca fun l => { l with fault := setFlag l.fault s.cycle bit }) rfl (State.raise_reports _).calWork

theorem State.delayResult_calWork (ep kind outcome after : Nat) (s : State) : s.CalWork (s.delayResult ep kind outcome after) := by
  unfold State.delayResult
  dsimp only
  split
  · exact (State.report_reports ..).calWork
  · exact .refl s

theorem State.discardCal_calWork (ep kind : Nat) (base : Option Nat) (s : State) : s.CalWork (s.discardCal ep kind base) :=
  (State.delayResult_calWork ..).trans <| .trans (b := State.onDelay ep kind (fun _ => { base }) _) rfl (State.lcaFault_calWork ..)

/-- Without KEEP_LEARNED a delay that changes loses what was learned of it. -/
theorem State.loadCal_calWork (ep kind loaded : Nat) (changes : Bool) (s : State) : s.CalWork (s.loadCal ep kind loaded false changes) := by
  unfold State.loadCal
  rw [if_neg Bool.false_ne_true]
  split
  · exact .trans (b := s.dropLearned ep kind) rfl (State.discardCal_calWork ..)
  · exact .refl s

theorem State.loadCal_unchanged (ep kind loaded : Nat) (s : State) : s.loadCal ep kind loaded false false = s := rfl

/-! ### An entry comes into force (R92, R95) -/

/-- A local endpoint's channel once an entry is in force: the escapement's, or DIRECT_SWITCH's where it was the escapement's
(R92). -/
def State.holdFor (ep : Nat) (en : Entry) (s : State) : State :=
  if isLocalEp ep then
    let n := ep - localBase
    if en.mode = .disabled then
      if (s.chan n).holding = .escapement then (s.onChan n fun c => { c with holding := .direct, cmd := .off }).follow n true else s
    else if (s.chan n).holding = .escapement then s
    else
      let kept := (s.chan n).isKept
      let s := s.reclaim n
      let on := kept && (s.chan n).commanded
      (s.onDyn ep fun d => { d with heldOn := on }).onChan n fun c => { c with holding := .escapement, carried := kept }
  else s

theorem State.holdFor_setupStands (ep : Nat) (en : Entry) (s : State) : s.SetupStands (s.holdFor ep en) := by
  unfold State.holdFor
  split
  · extract_lets n kept t on
    split
    · split
      · exact .trans (b := s.onChan n _) ⟨rfl, rfl⟩ (State.follow_setupStands ..)
      · exact .refl s
    · split
      · exact .refl s
      · have hg := (State.reclaim_chanWork (s := s) n).gle
        exact .trans (b := t) ⟨by rw [hg], by rw [hg]⟩ ⟨rfl, rfl⟩
  · exact .refl s

theorem State.holdFor_claims (hl : isLocalEp ep = true) (hm : en.mode ≠ .disabled) :
    ((s.holdFor ep en).chan (ep - localBase)).holding = .escapement := by
  unfold State.holdFor
  rw [if_pos hl, if_neg hm]
  split
  · assumption
  · dsimp only
    rw [State.onChan_chan]

theorem State.holdFor_releases (hl : isLocalEp ep = true) (hm : en.mode = .disabled)
    (hh : (s.chan (ep - localBase)).holding = .escapement) : ((s.holdFor ep en).chan (ep - localBase)).holding = .direct := by
  have hd := State.follow_driven (s := s.onChan (ep - localBase) fun c => { c with holding := .direct, cmd := .off }) (ep - localBase) true
  unfold State.holdFor
  rw [if_pos hl, if_pos hm, if_pos hh, hd.holding, State.onChan_chan]

/-- What an entry ends before it is in force: a strip's segment (R127). -/
def State.cutFor (ep : Nat) (s : State) : State :=
  match s.strip ep with
  | some p =>
    if p.waiting then s
    else
      let q := s.pse.cur
      let c := s.epCentre ep q
      if p.startTick < q.tick then s.cutStrip ep p q.tick c.1 c.2 else s
  | none => s

theorem State.cutFor_offChannels (ep : Nat) (s : State) : s.OffChannels (s.cutFor ep) := by
  unfold State.cutFor
  split
  · split
    · exact .refl s
    · dsimp only
      split
      · exact (State.cutStrip_stripWork ..).frame.offChannels
      · exact .refl s
  · exact .refl s

/-- An entry in its place, with nothing that waits. -/
def State.putEntry (ep : Nat) (en : Entry) (s : State) : State :=
  (s.onEntry ep fun _ => en).onDyn ep fun d => { d with staged := none, stagedDelays := none }

/-- An entry that writes no coverage ends the strip of its endpoint (R127). -/
def State.dropStrip (ep : Nat) (en : Entry) (s : State) : State :=
  if (s.strip ep).isSome && (s.coverageLayer ep).isNone && s.isReady 5 && (en.noCoverage || en.feeder || en.width == 0) then
    s.setStrip ep none
  else s

theorem State.dropStrip_offChannels (ep : Nat) (en : Entry) (s : State) : s.OffChannels (s.dropStrip ep en) := by
  unfold State.dropStrip
  split
  · exact ⟨⟨rfl, rfl⟩, rfl⟩
  · exact .refl s

/-- An entry in force, before its probe and its events follow. -/
def State.enterEntry (ep : Nat) (en : Entry) (s : State) : State :=
  (((s.cutFor ep).putEntry ep en).dropStrip ep en).holdFor ep en

theorem State.applyEntry_offChannels (ep : Nat) (en : Entry) (s : State) : (s.enterEntry ep en).OffChannels (s.applyEntry ep en) := by
  unfold State.applyEntry
  extract_lets old q c t1 t2 t3 n kept t4' on t4 t5 latch t6 t7
  have h4 : s.enterEntry ep en = t4 := rfl
  have h5 : t4.OffChannels t5 := by
    unfold t5
    split
    · split
      · exact State.onDyn_offChannels ..
      · exact State.onDyn_offChannels ..
    · exact State.onDyn_offChannels ..
  have h6 : t5.OffChannels t6 := by
    unfold t6
    split
    · exact (State.insert_reschedules ..).offChannels
    · exact .refl _
  have h7 : t6.OffChannels t7 := by
    unfold t7
    split
    · exact (State.insertRaw_reschedules ..).offChannels
    · exact .refl _
  rw [h4]
  refine h5.trans (h6.trans (h7.trans ?_))
  split
  · exact (State.refreshDemand_demandWork _).offChannels
  · exact (State.refreshLoad_loadWork _).offChannels.trans (State.refreshDemand_demandWork _).offChannels

end Sys2Proof.Machine

namespace Sys2Proof.Machine

variable {s t : State} {ep dt ring n : Nat} {d : Slot} {en : Entry}

/-! ### A loaded entry (R92, R95) -/

/-- An entry is in force for its endpoint alone, and its channel is held accordingly (R92). -/
structure State.Loaded (ep : Nat) (en : Entry) (s t : State) : Prop where
  own : t.entry ep = en
  others : ∀ k, k ≠ ep → t.entry k = s.entry k
  claims : isLocalEp ep = true → en.mode ≠ .disabled → (t.chan (ep - localBase)).holding = .escapement
  releases : isLocalEp ep = true → en.mode = .disabled → (s.chan (ep - localBase)).holding = .escapement →
    (t.chan (ep - localBase)).holding = .direct

theorem State.Loaded.then {v : State} (h : s.Loaded ep en t) (g : t.OffChannels v) : s.Loaded ep en v where
  own := (g.entry ep).trans h.own
  others k hk := (g.entry k).trans (h.others k hk)
  claims hl hm := by rw [g.chan]; exact h.claims hl hm
  releases hl hm hh := by rw [g.chan]; exact h.releases hl hm hh

theorem State.putEntry_entry (ep : Nat) (en : Entry) (s : State) : (s.putEntry ep en).entry ep = en := State.onEntry_entry s ep fun _ => en

theorem State.putEntry_entry_ne {k : Nat} (hk : k ≠ ep) : (s.putEntry ep en).entry k = s.entry k :=
  State.onEntry_entry_ne s ep k (fun _ => en) hk

theorem State.enterEntry_loaded (ep : Nat) (en : Entry) (s : State) : s.Loaded ep en (s.enterEntry ep en) := by
  have hc := State.cutFor_offChannels ep s
  have hq := State.dropStrip_offChannels ep en ((s.cutFor ep).putEntry ep en)
  have hs := hq.toSetupStands.trans (State.holdFor_setupStands ep en _)
  have hchan (k : Nat) : (((s.cutFor ep).putEntry ep en).dropStrip ep en).chan k = s.chan k := (hq.chan k).trans (hc.chan k)
  exact ⟨(hs.entry ep).trans (State.putEntry_entry ..), fun k hk => (hs.entry k).trans ((State.putEntry_entry_ne hk).trans (hc.entry k)),
    State.holdFor_claims, fun hl hm hh => State.holdFor_releases hl hm (by rw [hchan]; exact hh)⟩

theorem State.applyEntry_loaded (ep : Nat) (en : Entry) (s : State) : s.Loaded ep en (s.applyEntry ep en) :=
  (State.enterEntry_loaded ep en s).then (State.applyEntry_offChannels ep en s)

/-- An entry waits for an endpoint that is on to close under its old entry (R95). -/
theorem State.replaceEntry_waits (hh : (s.dyn ep).heldOn = true) :
    s.SetupStands (s.replaceEntry ep en) ∧ ((s.replaceEntry ep en).dyn ep).staged = some en := by
  have hc := State.cancelUndispatched_reschedules s ep
  have hon : ((s.cancelUndispatched ep).dyn ep).heldOn = true := (hc.dyns ep).heldOn.trans hh
  have hs := State.shut_reschedules (s.cancelUndispatched ep) ep
  unfold State.replaceEntry
  simp only [hon, Bool.not_true, Bool.and_false, Bool.false_eq_true, if_false]
  exact ⟨hc.setupStands.trans (hs.setupStands.trans (State.onDyn_setupStands ..)), by rw [State.onDyn_dyn]⟩

theorem State.loadEntry_latest (h : en = s.latestEntry ep) : s.loadEntry ep en = s := if_pos h

section
variable (hst : (s.dyn ep).staged = none) (hsd : (s.dyn ep).stagedDelays = none)
  (hne : en ≠ (s.entry ep).withDelays en.onDelay en.offDelay)
include hst hsd hne

/-- An entry that differs in more than its delays from the one in force, nothing waiting. -/
theorem State.loadEntry_new : s.loadEntry ep en =
    if (s.dyn ep).idle && !(s.dyn ep).heldOn then s.applyEntry ep en else s.replaceEntry ep en := by
  have hl : s.latestEntry ep = s.entry ep := by
    unfold State.latestEntry
    rw [hst, hsd]
  have hforce : en ≠ s.entry ep := fun h => hne (by rw [← h]; rfl)
  unfold State.loadEntry
  simp only [hl, hforce, hne, if_false]

theorem State.loadEntry_applies (hi : (s.dyn ep).idle = true) (hh : (s.dyn ep).heldOn = false) :
    s.loadEntry ep en = s.applyEntry ep en := by
  rw [State.loadEntry_new hst hsd hne, hi, hh]
  rfl

theorem State.loadEntry_replaces (hh : (s.dyn ep).heldOn = true) : s.loadEntry ep en = s.replaceEntry ep en := by
  rw [State.loadEntry_new hst hsd hne, hh, Bool.not_true, Bool.and_false, if_neg Bool.false_ne_true]

end

/-- Without KEEP_LEARNED an entry is loaded as it is given, after calibration. -/
theorem State.loadOne_eq (ep : Nat) (en : Entry) (s : State) : ∃ w, s.CalWork w ∧ s.loadOne false ep en = w.loadEntry ep en :=
  ⟨_, (State.loadCal_calWork ..).trans (State.loadCal_calWork ..), rfl⟩

theorem State.CalWork.dyn (h : s.CalWork t) (k : Nat) : t.dyn k = s.dyn k := by
  rw [h]
  rfl

theorem State.CalWork.offChannels (h : s.CalWork t) : s.OffChannels t := ⟨⟨by rw [h], by rw [h]⟩, by rw [h]⟩

theorem State.loadOne_latest (h : en = s.latestEntry ep) : s.loadOne false ep en = s := by
  have hon : (en.onDelay != (s.latestEntry ep).onDelay) = false := by rw [← h]; exact bne_self_eq_false _
  have hoff : (en.offDelay != (s.latestEntry ep).offDelay) = false := by rw [← h]; exact bne_self_eq_false _
  unfold State.loadOne
  simp only [hon, hoff, State.loadCal_unchanged]
  exact State.loadEntry_latest h

section
variable (hst : (s.dyn ep).staged = none) (hsd : (s.dyn ep).stagedDelays = none)
  (hne : en ≠ (s.entry ep).withDelays en.onDelay en.offDelay)
include hst hsd hne

/-- A new entry of an endpoint that is off and idle comes into force at once. -/
theorem State.loadOne_loaded (hi : (s.dyn ep).idle = true) (hh : (s.dyn ep).heldOn = false) : s.Loaded ep en (s.loadOne false ep en) := by
  obtain ⟨w, hw, h⟩ := State.loadOne_eq ep en s
  have ho := hw.offChannels
  have ha := State.applyEntry_loaded ep en w
  rw [h, State.loadEntry_applies (by rw [hw.dyn]; exact hst) (by rw [hw.dyn]; exact hsd) (by rw [ho.entry]; exact hne)
    (by rw [hw.dyn]; exact hi) (by rw [hw.dyn]; exact hh)]
  exact ⟨ha.own, fun k hk => (ha.others k hk).trans (ho.entry k), ha.claims,
    fun hl hm hesc => ha.releases hl hm (by rw [ho.chan]; exact hesc)⟩

/-- A new entry of an endpoint that is on waits. -/
theorem State.loadOne_waits (hh : (s.dyn ep).heldOn = true) :
    s.SetupStands (s.loadOne false ep en) ∧ ((s.loadOne false ep en).dyn ep).staged = some en := by
  obtain ⟨w, hw, h⟩ := State.loadOne_eq ep en s
  have ho := hw.offChannels
  have ha := State.replaceEntry_waits (s := w) (ep := ep) (en := en) (by rw [hw.dyn]; exact hh)
  rw [h, State.loadEntry_replaces (by rw [hw.dyn]; exact hst) (by rw [hw.dyn]; exact hsd) (by rw [ho.entry]; exact hne)
    (by rw [hw.dyn]; exact hh)]
  exact ⟨ho.toSetupStands.trans ha.1, ha.2⟩

end

/-! ### ENDPOINT_LOAD (R92-R95) -/

theorem exec_endpointLoad_one {buf : HostRead} (hd : (s.elapse dt).headRuns ring 0x03 d) (h3 : dFlag d.desc 3 = false)
    (hc : checksPass (loadDirectChecks d.desc)) (hn : dLength d.desc = 1) :
    exec (.endpointLoad dt ring buf) s = .next (((s.elapse dt).settle ring).loadAll ring (dFlag d.desc 5)
      [(epOf (dfield d.desc 16 4) (dFlag d.desc 4), parseEntry (dBytes d.desc 24 16))]) := by
  show execEndpointLoad dt ring buf s = _
  unfold execEndpointLoad
  rw [State.runDesc_headRuns hd]
  simp only [h3, Bool.false_eq_true, if_false]
  rw [State.checked_pass hc, hn]
  rfl

theorem State.settle_loadIndirectChecks (u : State) (ring : Nat) (x : DescBits) :
    (u.settle ring).loadIndirectChecks x = u.loadIndirectChecks x := by
  unfold State.loadIndirectChecks
  rw [State.settle_part]

theorem exec_endpointLoad_error (hd : (s.elapse dt).headRuns ring 0x03 d) (h3 : dFlag d.desc 3 = true)
    (hc : checksPass ((s.elapse dt).loadIndirectChecks d.desc)) :
    exec (.endpointLoad dt ring .error) s = .next (((s.elapse dt).settle ring).dmaError.finishHead ring 0x09 0 0) := by
  show execEndpointLoad dt ring .error s = _
  unfold execEndpointLoad
  rw [State.runDesc_headRuns hd]
  simp only [h3, if_true]
  rw [State.checked_pass (by rw [State.settle_loadIndirectChecks]; exact hc)]
  rfl

theorem State.loadAll_denied (keep : Bool) (h : s.escDenied ep en = true) :
    s.loadAll ring keep [(ep, en)] = s.claimDenied.finishHead ring 0x02 (ep - localBase) 0 := by
  have hf : ([(ep, en)].find? fun e => s.escDenied e.1 e.2) = some (ep, en) := List.find?_cons_of_pos h
  unfold State.loadAll
  rw [hf]
  rfl

theorem State.loadAll_one (keep : Bool) (h : s.escDenied ep en = false) :
    s.loadAll ring keep [(ep, en)] = (s.loadOne keep ep en).armCheck.finishHead ring 0x00 0 0 := by
  have hf : ([(ep, en)].find? fun e => s.escDenied e.1 e.2) = none := List.find?_cons_of_neg (by simp [h])
  unfold State.loadAll
  rw [hf]
  rfl

theorem isLocalEp_epOf (a : Nat) : isLocalEp (epOf a true) = true := decide_eq_true (Nat.le_add_right ..)

theorem endpointLoad_loads (dt ring : Nat) (buf : HostRead) (s : State) (d : Slot) :
    let u := s.elapse dt
    let b := u.settle ring
    let isLocal := dFlag d.desc 4
    let ep := epOf (dfield d.desc 16 4) isLocal
    let en := parseEntry (dBytes d.desc 24 16)
    let y := u.dyn ep
    u.headRuns ring 0x03 d →
    (dFlag d.desc 3 = false → checksPass (loadDirectChecks d.desc) → dLength d.desc = 1 →
      (u.escDenied ep en = true →
        exec (.endpointLoad dt ring buf) s = .next (b.claimDenied.finishHead ring 0x02 (ep - localBase) 0)) ∧
      (u.escDenied ep en = false → dFlag d.desc 5 = false →
        (en = u.latestEntry ep →
          ∃ v : State, exec (.endpointLoad dt ring buf) s = .next (v.finishHead ring 0x00 0 0) ∧ v = { b with gnb := v.gnb }) ∧
        (y.staged = none → y.stagedDelays = none → en ≠ (u.entry ep).withDelays en.onDelay en.offDelay →
          (y.onEv = none → y.offEv = none → y.heldOn = false →
            ∃ v : State, exec (.endpointLoad dt ring buf) s = .next (v.finishHead ring 0x00 0 0) ∧ v.entry ep = en ∧
              (∀ k, k ≠ ep → v.entry k = u.entry k) ∧
              (isLocal = true → en.mode ≠ .disabled → (v.chan (ep - localBase)).holding = .escapement) ∧
              (isLocal = true → en.mode = .disabled → (u.chan (ep - localBase)).holding = .escapement →
                (v.chan (ep - localBase)).holding = .direct)) ∧
          (y.heldOn = true →
            ∃ v : State, exec (.endpointLoad dt ring buf) s = .next (v.finishHead ring 0x00 0 0) ∧
              (v.dyn ep).staged = some en ∧ v.entry ep = u.entry ep ∧ (∀ k, k ≠ ep → v.entry k = u.entry k))))) ∧
    (dFlag d.desc 3 = true → checksPass (u.loadIndirectChecks d.desc) → buf = .error →
      exec (.endpointLoad dt ring buf) s = .next (b.dmaError.finishHead ring 0x09 0 0)) := by
  intro u b isLocal ep en y hd
  -- judging the head leaves what the load reads
  have hb : u.OffChannels b := (State.settle_reports ring).offChannels
  have hdyn : b.dyn ep = y := by
    show Tbl.get {} b.gle.dyn ep = Tbl.get {} u.gle.dyn ep
    rw [State.settle_gle]
  have hlatest : b.latestEntry ep = u.latestEntry ep := by
    unfold State.latestEntry
    rw [hdyn, hb.entry]
  have hden : b.escDenied ep en = u.escDenied ep en := by
    unfold State.escDenied
    rw [hb.chan]
  have hlocal (h : isLocal = true) : isLocalEp ep = true := by
    show isLocalEp (epOf _ isLocal) = true
    rw [h]
    exact isLocalEp_epOf _
  refine ⟨fun h3 hc hn => ⟨fun hdeny => ?_, fun hdeny h5 => ?_⟩, fun h3 hc hbuf => ?_⟩
  · rw [exec_endpointLoad_one hd h3 hc hn]
    exact congrArg Host.Outcome.next (State.loadAll_denied _ (hden.trans hdeny))
  · have hx : exec (.endpointLoad dt ring buf) s = .next ((b.loadOne false ep en).armCheck.finishHead ring 0x00 0 0) := by
      rw [exec_endpointLoad_one hd h3 hc hn, h5]
      exact congrArg Host.Outcome.next (State.loadAll_one _ (hden.trans hdeny))
    refine ⟨fun hl => ⟨_, hx, ?_⟩, fun hst hsd hne => ⟨fun hon hoff hh => ?_, fun hh => ?_⟩⟩
    · rw [State.loadOne_latest (hl.trans hlatest.symm)]
      exact State.armCheck_frame b
    · have hi : y.idle = true := by
        unfold EpDyn.idle
        rw [hon, hoff]
        rfl
      have h := (State.loadOne_loaded (s := b) (ep := ep) (en := en) (by rw [hdyn]; exact hst) (by rw [hdyn]; exact hsd)
        (by rw [hb.entry]; exact hne) (by rw [hdyn]; exact hi) (by rw [hdyn]; exact hh)).then (State.armCheck_offChannels _)
      exact ⟨_, hx, h.own, fun k hk => (h.others k hk).trans (hb.entry k), fun hl => h.claims (hlocal hl),
        fun hl hm hesc => h.releases (hlocal hl) hm (by rw [hb.chan]; exact hesc)⟩
    · obtain ⟨hset, hstaged⟩ := State.loadOne_waits (s := b) (ep := ep) (en := en) (by rw [hdyn]; exact hst) (by rw [hdyn]; exact hsd)
        (by rw [hb.entry]; exact hne) (by rw [hdyn]; exact hh)
      have hent := hb.toSetupStands.trans (hset.trans (State.armCheck_setupStands _))
      exact ⟨_, hx, by rw [State.armCheck_dyn]; exact hstaged, hent.entry ep, fun k _ => hent.entry k⟩
  · rw [hbuf]
    exact exec_endpointLoad_error hd h3 hc

/-- Settles O46: the entry, the section, the product and the probes that each command sets. -/
theorem endpointsSectionsAndProducts : Obligations.EndpointsSectionsAndProducts := by
  unfold Obligations.EndpointsSectionsAndProducts
  exact ⟨endpointLoad_loads, sectionSet_sets, productSet_sets, gleEnableWrite_acts⟩

end Sys2Proof.Machine

namespace Sys2Proof.Machine

/-! ### Entries of a table -/

section

variable {α : Type} {z v : α} {t : Tbl α} {i k lo : Nat}

theorem Tbl.get_of_unlisted (h : k ∉ t.map Prod.fst) : Tbl.get z t k = z := by
  induction t with
  | nil => rfl
  | cons e t ih =>
    obtain ⟨hj, ht⟩ := not_or.mp (by simpa using h : ¬ (k = e.1 ∨ ∃ x, (k, x) ∈ t))
    simp only [Tbl.get, if_neg hj]
    exact ih (by simpa using ht)

theorem Tbl.get_filter (p : Nat → Bool) : Tbl.get z (t.filter fun e => p e.1) k = if p k then Tbl.get z t k else z := by
  induction t with
  | nil => simp [Tbl.get]
  | cons e t ih =>
    by_cases hk : k = e.1
    · subst hk
      by_cases hp : p e.1 = true
      · simp [Tbl.get, hp]
      · simpa [hp] using ih
    · by_cases hp : p e.1 = true
      · simpa [Tbl.get, hp, hk] using ih
      · simpa [Tbl.get, hp, hk] using ih

theorem Tbl.drop_sublist (t : Tbl α) (i : Nat) : (Tbl.drop t i).Sublist t := by
  induction t with
  | nil => exact .slnil
  | cons e t ih =>
    unfold Tbl.drop
    split
    · exact ih.cons e
    · exact ih.cons_cons e

theorem Tbl.get_dropAll (ks : List Nat) : Tbl.get z (ks.foldl Tbl.drop t) k = if k ∈ ks then z else Tbl.get z t k := by
  induction ks generalizing t with
  | nil => rfl
  | cons a ks ih =>
    rw [List.foldl_cons, ih]
    by_cases hk : k = a
    · subst hk
      simp [Tbl.get_drop_same]
    · simp [Tbl.get_drop_ne hk, hk]

theorem Tbl.dropAll_sublist (ks : List Nat) : (ks.foldl Tbl.drop t).Sublist t := by
  induction ks generalizing t with
  | nil => exact .refl t
  | cons a ks ih => exact ih.trans (Tbl.drop_sublist t a)

variable [DecidableEq α]

theorem Tbl.le_of_mem (h : Tbl.wfFrom z t lo = true) (hm : (k, v) ∈ t) : lo ≤ k := by
  induction t generalizing lo with
  | nil => cases hm
  | cons e t ih =>
    simp only [Tbl.wfFrom, Bool.and_eq_true, decide_eq_true_eq] at h
    rcases List.mem_cons.mp hm with he | hm
    · subst he
      exact h.1.1
    · have := ih h.2 hm
      omega

/-- In canonical form what is listed is what is read. -/
theorem Tbl.get_of_mem (h : Tbl.wfFrom z t lo = true) (hm : (k, v) ∈ t) : Tbl.get z t k = v := by
  induction t generalizing lo with
  | nil => cases hm
  | cons e t ih =>
    simp only [Tbl.wfFrom, Bool.and_eq_true, decide_eq_true_eq] at h
    rcases List.mem_cons.mp hm with he | hm
    · subst he
      simp [Tbl.get]
    · have := Tbl.le_of_mem h.2 hm
      simp only [Tbl.get]
      rw [if_neg (by omega)]
      exact ih h.2 hm

theorem Tbl.wf_dropAll (ks : List Nat) (h : Tbl.wf z t = true) : Tbl.wf z (ks.foldl Tbl.drop t) = true := by
  induction ks generalizing t with
  | nil => exact h
  | cons a ks ih => exact ih (Tbl.wfFrom_drop h)

theorem Tbl.modify_default : Tbl.modify z t i (fun _ => z) = Tbl.drop t i := by
  unfold Tbl.modify Tbl.set
  rw [if_pos rfl]

/-- A write lists at most one thing more of any kind. -/
theorem Tbl.filter_set_length (p : Nat × α → Bool) : ((Tbl.set z t i v).filter p).length ≤ (t.filter p).length + 1 := by
  unfold Tbl.set
  split
  · exact ((Tbl.drop_sublist t i).filter p).length_le.trans (Nat.le_succ _)
  · simp only [← List.countP_eq_length_filter]
    have hnew : (if p (i, v) = true then 1 else 0) ≤ 1 := by split <;> omega
    induction t with
    | nil => exact List.countP_le_length
    | cons e t ih =>
      obtain ⟨j, w⟩ := e
      unfold Tbl.put
      split
      · simp only [List.countP_cons]
        omega
      · split <;>
        · simp only [List.countP_cons]
          omega

/-- A write that neither adds nor takes away a thing of a kind. -/
theorem Tbl.filter_set (p : Nat × α → Bool) (hv : p (i, v) = false) (ho : ∀ w, (i, w) ∈ t → p (i, w) = false) :
    (Tbl.set z t i v).filter p = t.filter p := by
  unfold Tbl.set
  split
  · induction t with
    | nil => rfl
    | cons e t ih =>
      have ih := ih fun w hw => ho w (List.mem_cons_of_mem _ hw)
      unfold Tbl.drop
      split
      · next hi =>
        subst hi
        rw [ih, List.filter_cons_of_neg (by simp [ho e.2 List.mem_cons_self])]
      · rw [List.filter_cons, List.filter_cons, ih]
  · induction t with
    | nil => simp [Tbl.put, hv]
    | cons e t ih =>
      have ih := ih fun w hw => ho w (List.mem_cons_of_mem _ hw)
      unfold Tbl.put
      split
      · rw [List.filter_cons_of_neg (by simp [hv])]
      · split
        · next hi =>
          subst hi
          rw [List.filter_cons_of_neg (by simp [hv]), List.filter_cons_of_neg (by simp [ho e.2 List.mem_cons_self])]
        · rw [List.filter_cons, List.filter_cons, ih]

/-- What may be done twice done to some things. -/
theorem Tbl.get_modifyAll {f : α → α} (hf : ∀ x, f (f x) = f x) (ks : List Nat) :
    Tbl.get z (ks.foldl (fun c k => Tbl.modify z c k f) t) k = if k ∈ ks then f (Tbl.get z t k) else Tbl.get z t k := by
  induction ks generalizing t with
  | nil => rfl
  | cons a ks ih =>
    rw [List.foldl_cons, ih]
    by_cases hk : k = a
    · subst hk
      simp [Tbl.get_modify_same, hf]
    · simp [Tbl.get_modify_ne hk, hk]

/-- A table brought into another, thing by thing, where what an unlisted number stands for changes nothing. -/
theorem Tbl.get_merged {g : α → α → α} (hg : ∀ x, g z x = x) {l : Tbl α} (hl : (l.map Prod.fst).Nodup) :
    Tbl.get z (l.foldl (fun c e => Tbl.modify z c e.1 (g e.2)) t) k = g (Tbl.get z l k) (Tbl.get z t k) := by
  induction l generalizing t with
  | nil => exact (hg _).symm
  | cons e l ih =>
    obtain ⟨he, hl⟩ := List.nodup_cons.mp hl
    rw [List.foldl_cons, ih hl]
    by_cases hk : k = e.1
    · subst hk
      rw [Tbl.get_of_unlisted he, hg, Tbl.get_modify_same]
      simp [Tbl.get]
    · rw [Tbl.get_modify_ne hk]
      simp [Tbl.get, hk]

end

/-! ### Keys of tiles (R120) -/

section

variable {l : Nat} {tx ty : Int}

theorem tileInRange_iff {v : Int} : tileInRange v = true ↔ -32768 ≤ v ∧ v ≤ 32767 := by
  unfold tileInRange
  rw [Bool.and_eq_true, decide_eq_true_eq, decide_eq_true_eq]

theorem keyLayer_tileKey (hx : tileInRange tx = true) (hy : tileInRange ty = true) : keyLayer (tileKey l tx ty) = l := by
  rw [tileInRange_iff] at hx hy
  unfold keyLayer tileKey
  omega

theorem keyX_tileKey (hx : tileInRange tx = true) (hy : tileInRange ty = true) : keyX (tileKey l tx ty) = tx := by
  rw [tileInRange_iff] at hx hy
  unfold keyX tileKey
  omega

theorem keyY_tileKey (hy : tileInRange ty = true) : keyY (tileKey l tx ty) = ty := by
  rw [tileInRange_iff] at hy
  unfold keyY tileKey
  omega

theorem fromTwos_inRange (v : Nat) : tileInRange (fromTwos 16 v) = true := by
  rw [tileInRange_iff]
  unfold fromTwos
  dsimp only
  have := Nat.mod_lt v (show 0 < 2 ^ 16 by decide)
  split <;> omega

/-- The tile of a cell is among the tiles of the cells. -/
theorem mem_tilesOf_of_cellsIn {cells : List (Int × Int)} {i : Nat} (hx : tileInRange tx = true) (hy : tileInRange ty = true)
    (hi : i ∈ cellsIn (tileKey l tx ty) cells) : tileKey l tx ty ∈ tilesOf l cells := by
  unfold cellsIn at hi
  rw [keyX_tileKey hx hy, keyY_tileKey hy] at hi
  obtain ⟨c, hc, -⟩ := List.mem_map.mp hi
  obtain ⟨hc, ht⟩ := List.mem_filter.mp hc
  unfold tilesOf
  refine List.mem_map.mpr ⟨(tx, ty), List.mem_filter.mpr ⟨?_, by simp [hx, hy]⟩, rfl⟩
  rw [List.mem_eraseDups]
  exact List.mem_map.mpr ⟨c, hc, by simpa using ht⟩

/-- The tiles of a rectangle that passes its checks lie in its layer (R147). -/
theorem keyLayer_rectKeys {d : DescBits} (h : checksPass (rectChecks d)) {k : Nat} (hk : k ∈ rectKeys d) :
    keyLayer k = dfield d 16 1 := by
  unfold rectChecks at h
  simp only [checksPass, List.mem_cons, List.not_mem_nil, or_false, forall_eq_or_imp, forall_eq, decide_eq_true_eq] at h
  obtain ⟨-, -, -, hx, hy⟩ := h
  unfold rectKeys at hk
  obtain ⟨j, hj, hk⟩ := List.mem_flatMap.mp hk
  obtain ⟨i, hi, rfl⟩ := List.mem_map.mp hk
  have hj := List.mem_range.mp hj
  have hi := List.mem_range.mp hi
  have h20 : -32768 ≤ dsfield d 20 2 := (tileInRange_iff.mp (fromTwos_inRange _)).1
  have h22 : -32768 ≤ dsfield d 22 2 := (tileInRange_iff.mp (fromTwos_inRange _)).1
  exact keyLayer_tileKey (tileInRange_iff.mpr (by omega)) (tileInRange_iff.mpr (by omega))

end

end Sys2Proof.Machine

namespace Sys2Proof.Machine

variable {s t : State} {p : Set Nat} {k : Nat}

/-! ### What has gone out to host memory stays -/

theorem State.enqueue_host (ring : Nat) (r : Report) : s.out.host <:+ (s.enqueue ring r).out.host := by
  unfold State.enqueue
  dsimp only
  split
  · unfold State.writeReport
    rw [State.raise_frame]
    exact List.suffix_cons ..
  · split
    · exact List.suffix_refl _
    · rw [State.dropQueued_frame]

theorem State.report_host (op flags tick : Nat) (fs : List Fld) : s.out.host <:+ (s.report op flags tick fs).out.host := by
  unfold State.report
  dsimp only
  split
  · exact State.enqueue_host ..
  · rw [State.dropRouted_frame]

/-! ### Work on tiles -/

/-- Work on the tiles of a set: the others stand, layers change in USE and OVER alone and only where a tile of the set is
theirs, grants stand, and what has gone out to host memory stays. -/
structure State.Pages (p : Set Nat) (s t : State) : Prop where
  rasters : s.Rasters t
  tiles : ∀ k, k ∉ p → t.tile k = s.tile k
  layers : ∀ l, ∃ n o, t.layer l = { s.layer l with use := n, isOver := o }
  others : ∀ l, (∀ k ∈ p, keyLayer k ≠ l) → t.layer l = s.layer l
  grants : t.mpg.grants = s.mpg.grants
  host : s.out.host <:+ t.out.host

theorem State.Pages.refl (p : Set Nat) (s : State) : s.Pages p s :=
  ⟨.refl s, fun _ _ => rfl, fun _ => ⟨_, _, rfl⟩, fun _ _ => rfl, rfl, List.suffix_refl _⟩

theorem State.Pages.trans {a b c : State} (h : a.Pages p b) (g : b.Pages p c) : a.Pages p c where
  rasters := h.rasters.trans g.rasters
  tiles k hk := (g.tiles k hk).trans (h.tiles k hk)
  layers l := by
    obtain ⟨n, o, h⟩ := h.layers l
    obtain ⟨m, q, g⟩ := g.layers l
    exact ⟨m, q, by rw [g, h]⟩
  others l hl := (g.others l hl).trans (h.others l hl)
  grants := g.grants.trans h.grants
  host := h.host.trans g.host

theorem State.Pages.fold {α : Type} {f : State → α → State} {l : List α} (hf : ∀ x ∈ l, ∀ s : State, s.Pages p (f s x)) :
    s.Pages p (l.foldl f s) := by
  induction l generalizing s with
  | nil => exact .refl p s
  | cons x l ih => exact (hf x List.mem_cons_self s).trans (ih fun y hy => hf y (List.mem_cons_of_mem _ hy))

/-- A change of MPG beside the tiles, the layers, the grants and the strips. -/
theorem State.onMpg_pages (f : Mpg → Mpg)
    (h : f s.mpg = { f s.mpg with layers := s.mpg.layers, tiles := s.mpg.tiles, grants := s.mpg.grants, strips := s.mpg.strips,
                                  covSeq := s.mpg.covSeq } := by rfl) : s.Pages p (s.onMpg f) where
  rasters := State.onMpg_rasters s f (by rw [h]) (by rw [h])
  tiles k _ := by
    show Tbl.get {} (f s.mpg).tiles k = _
    rw [h]
    rfl
  layers l := ⟨_, _, show Tbl.get {} (f s.mpg).layers l = s.layer l by rw [h]; rfl⟩
  others l _ := by
    show Tbl.get {} (f s.mpg).layers l = _
    rw [h]
    rfl
  grants := by
    show (f s.mpg).grants = _
    rw [h]
  host := List.suffix_refl _

theorem State.Reports.pages (h : s.Reports t) (hh : s.out.host <:+ t.out.host) : s.Pages p t := by
  refine ⟨h.rasters, ?_, ?_, ?_, ?_, hh⟩ <;> unfold State.Reports at h
  · intro k _
    rw [h]
    rfl
  · intro l
    exact ⟨_, _, by rw [h]; rfl⟩
  · intro l _
    rw [h]
    rfl
  · rw [h]

theorem State.raise_pages (n : Nat) : s.Pages p (s.raise n) :=
  (State.raise_reports n).pages (by rw [State.raise_frame])

theorem State.report_pages (op flags tick : Nat) (fs : List Fld) : s.Pages p (s.report op flags tick fs) :=
  (State.report_reports ..).pages (State.report_host ..)

theorem State.hostWrite_pages (w : HostWrite) : s.Pages p (s.hostWrite w) :=
  (State.hostWrite_reports w).pages (List.suffix_cons ..)

theorem State.onTile_pages (f : Tile → Tile) (hk : k ∈ p) : s.Pages p (s.onTile k f) :=
  ⟨State.onTile_rasters .., fun _ hj => State.onTile_tile_ne _ _ _ _ fun h => hj (h ▸ hk), fun _ => ⟨_, _, rfl⟩, fun _ _ => rfl, rfl,
    List.suffix_refl _⟩

theorem State.onLayer_pages {l : Nat} {f : Layer → Layer} (hf : ∀ y, ∃ n o, f y = { y with use := n, isOver := o })
    (hl : ∃ k ∈ p, keyLayer k = l) : s.Pages p (s.onLayer l f) where
  rasters := State.onLayer_rasters ..
  tiles _ _ := rfl
  layers j := by
    by_cases hj : j = l
    · subst hj
      rw [State.onLayer_layer]
      exact hf _
    · exact ⟨_, _, State.onLayer_layer_ne _ _ _ _ hj⟩
  others j hj := State.onLayer_layer_ne _ _ _ _ fun h => by
    obtain ⟨k, hk, hl⟩ := hl
    exact hj k hk (hl.trans h.symm)
  grants := rfl
  host := List.suffix_refl _

theorem State.mpgFault_pages (i n : Nat) : s.Pages p (s.mpgFault i n) := (State.onMpg_pages _).trans (State.raise_pages n)

theorem State.noteRange_pages (cells : List (Int × Int)) : s.Pages p (s.noteRange cells) := by
  unfold State.noteRange
  dsimp only
  split
  · exact .refl p s
  · exact (State.onMpg_pages _).trans (State.mpgFault_pages ..)

theorem State.allocUnit_pages (c : Nat) : s.Pages p (s.allocUnit c).2 :=
  ⟨State.allocUnit_rasters .., fun _ _ => rfl, fun _ => ⟨_, _, rfl⟩, fun _ _ => rfl, rfl, List.suffix_refl _⟩
theorem State.freeUnit_pages (c u : Nat) : s.Pages p (s.freeUnit c u) := State.onMpg_pages _
theorem State.dropWaiting_pages (key : Nat) : s.Pages p (s.dropWaiting key) := State.onMpg_pages _
theorem State.write64_pages (off v : Nat) : s.Pages p (s.write64 off v) := (State.onMpg_pages _).trans (State.hostWrite_pages _)
theorem State.zeroTable_pages (off : Nat) : s.Pages p (s.zeroTable off) := (State.onMpg_pages _).trans (State.hostWrite_pages _)

theorem State.writeTile_pages (a b key : Nat) (x : Tile) : s.Pages p (s.writeTile a b key x) :=
  (State.hostWrite_pages _).trans (State.hostWrite_pages _)

/-! ### Frames and the caches (R134, R136, R139, R140) -/

theorem State.giveFrame_pages (hk : k ∈ p) : s.Pages p (s.giveFrame k) := by
  unfold State.giveFrame
  extract_lets l f h t off v
  have hv : s.Pages p v := by
    unfold v
    split
    · exact (State.allocUnit_pages ..).trans (State.allocUnit_pages ..)
    · exact (State.allocUnit_pages ..).trans <| (State.allocUnit_pages ..).trans <| (State.allocUnit_pages ..).trans <|
        (State.onMpg_pages _).trans <| (State.zeroTable_pages ..).trans (State.write64_pages ..)
  exact hv.trans <| (State.onTile_pages _ hk).trans (State.onLayer_pages (fun y => ⟨_, _, rfl⟩) ⟨k, hk, rfl⟩)

theorem State.writeBack_pages (evicted wasUnbacked : Bool) (hk : k ∈ p) : s.Pages p (s.writeBack k evicted wasUnbacked) := by
  unfold State.writeBack
  dsimp only
  split
  · refine .trans (.trans (.trans ?_ (State.raise_pages _)) (State.report_pages ..)) (State.onTile_pages _ hk)
    split
    · exact State.writeTile_pages ..
    · exact (State.writeTile_pages ..).trans (State.write64_pages ..)
  · exact .refl p s

theorem State.makeSpace_pages (key : Nat) : s.Pages Set.univ (s.makeSpace key) := by
  unfold State.makeSpace
  dsimp only
  split
  · split
    · refine .trans ?_ (State.onTile_pages _ (Set.mem_univ _))
      split
      · exact State.writeBack_pages _ _ (Set.mem_univ _)
      · exact .refl _ s
    · exact .refl _ s
  · exact .refl _ s

theorem State.makeSpace_none (h : s.cacheFull (s.isCoarse k) = false) : s.makeSpace k = s := by
  unfold State.makeSpace
  dsimp only
  rw [h, if_neg Bool.false_ne_true]

theorem State.noteNoFrame_pages (w : NoFrame) : s.Pages p (s.noteNoFrame w) := by
  cases w <;> exact State.mpgFault_pages ..

theorem State.backOrHold_pages (hk : k ∈ p) : s.Pages p (s.backOrHold k) := by
  unfold State.backOrHold
  split
  · exact State.giveFrame_pages hk
  · exact (State.noteNoFrame_pages _).trans <| (State.onTile_pages _ hk).trans <| (State.onMpg_pages _).trans (State.raise_pages _)

/-- Work on one tile that comes into the cache: space made for it may take another. -/
theorem State.createTile_pages (hk : k ∈ p) (hs : s.Pages p (s.makeSpace k)) : s.Pages p (s.createTile k) := by
  unfold State.createTile
  extract_lets t epoch v
  have h : s.Pages p v := hs.trans (State.onTile_pages _ hk)
  split
  · exact h
  · exact h.trans (State.backOrHold_pages hk)

/-! ### Deltas (R124, R145) -/

theorem State.setPair_pages (origin : Nat) (q : Word) (hk : k ∈ p) : s.Pages p (s.setPair k origin q) := by
  unfold State.setPair
  dsimp only
  split
  · exact (State.onTile_pages _ hk).trans (State.mpgFault_pages ..)
  · exact State.onTile_pages _ hk

theorem State.ownInto_pages (d : Delta) (hk : k ∈ p) : s.Pages p (s.ownInto d k) := by
  unfold State.ownInto
  dsimp only
  split
  · exact State.onTile_pages _ hk
  · exact (State.onTile_pages _ hk).trans (State.setPair_pages _ _ hk)

theorem State.mergeInto_pages (d : Delta) (hk : k ∈ p) : s.Pages p (s.mergeInto d k) := by
  unfold State.mergeInto
  extract_lets y known ks t
  split
  · exact .refl p s
  · split
    · exact State.onTile_pages _ hk
    · exact (State.onTile_pages _ hk).trans (State.setPair_pages _ _ hk)

theorem State.deltaInto_pages (w : MergeWait) (hk : k ∈ p) : s.Pages p (s.deltaInto w k) := by
  unfold State.deltaInto
  split
  · exact State.ownInto_pages _ hk
  · exact State.mergeInto_pages _ hk

theorem State.putDelta_pages (w : MergeWait) (key : Nat) : s.Pages Set.univ (s.putDelta w key) := by
  unfold State.putDelta
  split
  · exact (State.createTile_pages (Set.mem_univ _) (State.makeSpace_pages _)).trans (State.deltaInto_pages _ (Set.mem_univ _))
  · exact State.deltaInto_pages _ (Set.mem_univ _)
  · exact .refl _ s

theorem State.applyDelta_pages (d : Delta) (own : Bool) : s.Pages Set.univ (s.applyDelta d own) := by
  unfold State.applyDelta
  extract_lets cells w r
  have h : s.Pages Set.univ r.2 := by
    refine (State.noteRange_pages cells).trans ?_
    refine foldl_related_snd (R := State.Pages Set.univ) (.refl _) .trans (fun r k => ?_) (tilesOf d.layer cells) ([], s.noteRange cells)
    split
    · exact .refl _ r.2
    · exact State.putDelta_pages ..
  split
  · exact h
  · exact h.trans (State.onMpg_pages _)

/-! ### Backing (R136) and release (R149) -/

theorem State.backTile_pages (hk : k ∈ p) : s.Pages p (s.backTile k) := by
  unfold State.backTile
  split
  · exact (State.giveFrame_pages hk).trans (State.writeBack_pages _ _ hk)
  · exact .refl p s

theorem State.backAll_pages : s.Pages { k | k ∈ s.unbackedKeys } s.backAll := .fold fun _ hk _ => State.backTile_pages hk

theorem State.backLayer_pages (l : Nat) : s.Pages { k | k ∈ s.unbackedKeys ∧ keyLayer k = l } (s.backLayer l) :=
  .fold fun _ hk _ => State.backTile_pages (by simpa using hk)

theorem State.releaseTile_pages (hk : k ∈ p) : s.Pages p (s.releaseTile k) := by
  unfold State.releaseTile
  extract_lets s1 t l s2 s3 s4 s5
  have h2 : s1.Pages p s2 := by
    unfold s2
    split
    · exact (State.freeUnit_pages ..).trans (State.onLayer_pages (fun _ => ⟨_, _, rfl⟩) ⟨k, hk, rfl⟩)
    · exact .refl p s1
  have h3 : s2.Pages p s3 := by
    unfold s3
    split
    · exact State.freeUnit_pages ..
    · exact .refl p s2
  have h4 : s3.Pages p s4 := by
    unfold s4
    split
    · exact State.write64_pages ..
    · exact .refl p s3
  have h5 : s.Pages p s5 := (State.dropWaiting_pages k).trans <| h2.trans <| h3.trans <| h4.trans (State.onTile_pages _ hk)
  split
  · exact h5
  · split
    · exact h5.trans <| (State.write64_pages ..).trans <| (State.freeUnit_pages ..).trans (State.onMpg_pages _)
    · exact h5

theorem State.clearOver_pages (l : Nat) : s.Pages Set.univ (s.clearOver l) :=
  State.onLayer_pages (fun _ => ⟨_, _, rfl⟩) ⟨l * 4294967296, trivial, by unfold keyLayer; omega⟩

end Sys2Proof.Machine

namespace Sys2Proof.Machine

variable {s t : State} {k j : Nat}

/-! ### Fault flags (R9, R153) -/

theorem bit_eq_getLsbD (w : Word) (i : Nat) : bit w i = w.getLsbD i := by
  show (bits w i 1 == 1) = w.toNat.testBit i
  rw [Nat.testBit_eq_decide_div_mod_eq]
  rfl

theorem bit_setFlag_same (f : Flags) (cyc : Nat) {i : Nat} (h : i < 32) : bit (setFlag f cyc i).w i = true := by
  rw [bit_eq_getLsbD]
  exact setBit_getLsbD _ h

theorem bit_setFlag_of_bit {f : Flags} {i : Nat} (cyc n : Nat) (h : bit f.w i = true) : bit (setFlag f cyc n).w i = true := by
  rw [bit_eq_getLsbD] at h ⊢
  exact setFlag_keeps cyc n h

@[simp] theorem State.raise_mpg (n : Nat) : (s.raise n).mpg = s.mpg := by rw [State.raise_frame]
@[simp] theorem State.report_mpg (op flags tick : Nat) (fs : List Fld) : (s.report op flags tick fs).mpg = s.mpg := by
  rw [State.report_frame]
@[simp] theorem State.dmaError_mpg : s.dmaError.mpg = s.mpg := by rw [State.dmaError_frame]
@[simp] theorem State.settle_mpg (ring : Nat) : (s.settle ring).mpg = s.mpg := by rw [State.settle_eq]
@[simp] theorem State.faultReport_mpg (a b c d e : Nat) : (s.faultReport a b c d e).mpg = s.mpg := by rw [State.faultReport_frame]

theorem State.mpgFault_frame (i n : Nat) :
    s.mpgFault i n = { s with mpg := { s.mpg with fault := setFlag s.mpg.fault s.cycle i }, icu := (s.mpgFault i n).icu } := by
  unfold State.mpgFault
  rw [State.raise_frame]
  rfl

theorem State.mpgFault_bit {i n : Nat} (h : i < 32) : bit (s.mpgFault i n).mpg.fault.w i = true := by
  rw [State.mpgFault_frame]
  exact bit_setFlag_same _ _ h

theorem State.tile_eq_of_mpg (h : t.mpg = s.mpg) : t.tile = s.tile := by
  unfold State.tile
  rw [h]

@[simp] theorem State.raise_tile (n : Nat) : (s.raise n).tile k = s.tile k := congrFun (State.tile_eq_of_mpg (State.raise_mpg n)) k
@[simp] theorem State.mpgFault_tile (i n : Nat) : (s.mpgFault i n).tile k = s.tile k := by
  rw [State.mpgFault_frame]
  rfl

theorem State.onLayer_tile (l : Nat) (f : Layer → Layer) : (s.onLayer l f).tile k = s.tile k := rfl

theorem State.onMpg_tile (f : Mpg → Mpg) (h : (f s.mpg).tiles = s.mpg.tiles := by rfl) : (s.onMpg f).tile k = s.tile k := by
  show Tbl.get {} (f s.mpg).tiles k = _
  rw [h]
  rfl

/-! ### A tile that changes -/

theorem Layer.refresh_place (y : Layer) (n : Nat) (x : Tile) : (y.refresh n x).place = x.place := by
  unfold Layer.refresh
  split <;> rfl

theorem Tile.pair_frame (o : Nat) (q : Word) (x : Tile) :
    x.pair o q = { x with pairs := (x.pair o q).pairs, merged := (x.pair o q).merged, folded := (x.pair o q).folded } := by
  unfold Tile.pair
  dsimp only
  split <;> rfl

theorem Tile.pair_place (o : Nat) (q : Word) (x : Tile) : (x.pair o q).place = x.place := by rw [Tile.pair_frame]
theorem Tile.pair_cells (o : Nat) (q : Word) (x : Tile) : (x.pair o q).cells = x.cells := by rw [Tile.pair_frame]

/-- Cells painted with what may be painted twice. -/
theorem Tile.get_paint {f : Nat → Nat} (hf : ∀ x, f (f x) = f x) (ks : List Nat) (x : Tile) (c : Nat) :
    Tbl.get 0 (x.paint f ks).cells c = if c ∈ ks then f (Tbl.get 0 x.cells c) else Tbl.get 0 x.cells c :=
  Tbl.get_modifyAll hf ks

/-- A cell covered in a pass is not covered again in it (R124). -/
theorem ownCell_idem (g v : Nat) : ownCell g (ownCell g v) = ownCell g v := by
  unfold ownCell
  split
  · rw [if_neg (by omega)]
  · rfl

/-! ### Frames (R134) -/

/-- Units and tables given out: a change of the pools, the tables and what has gone out. -/
def State.Allots (s t : State) : Prop :=
  t = { s with mpg := { s.mpg with used := t.mpg.used, leaves := t.mpg.leaves, tables := t.mpg.tables, freeCount := t.mpg.freeCount },
               out := t.out }

theorem State.Allots.trans {a b c : State} (h : a.Allots b) (g : b.Allots c) : a.Allots c := by
  unfold State.Allots at *
  rw [g, h]

theorem State.allocUnit_allots (c : Nat) : s.Allots (s.allocUnit c).2 := rfl
theorem State.setLeaves_allots (x : Tbl (Option Nat)) : s.Allots (s.onMpg fun m => { m with leaves := x }) := rfl
theorem State.zeroTable_allots (off : Nat) : s.Allots (s.zeroTable off) := rfl
theorem State.write64_allots (off v : Nat) : s.Allots (s.write64 off v) := rfl

theorem State.writeTile_allots (a b key : Nat) (x : Tile) : s.Allots (s.writeTile a b key x) := rfl

theorem State.Allots.tile (h : s.Allots t) (k : Nat) : t.tile k = s.tile k := by
  unfold State.Allots at h
  rw [h]
  rfl

theorem State.Allots.fault (h : s.Allots t) : t.mpg.fault = s.mpg.fault := by
  unfold State.Allots at h
  rw [h]

theorem State.Allots.mergeQ (h : s.Allots t) : t.mpg.mergeQ = s.mpg.mergeQ := by
  unfold State.Allots at h
  rw [h]

/-- A tile gets its frame once its units have been given out. -/
theorem State.giveFrame_frame (k : Nat) (s : State) : ∃ (f h : Nat) (v : State), s.Allots v ∧
    s.giveFrame k = (v.onTile k fun x => { x with frame := some f, header := some h, unbacked := false }).onLayer (keyLayer k)
      fun y => { y with use := y.use + 1 } := by
  unfold State.giveFrame
  extract_lets l f h t off v
  refine ⟨f.1, h.1, v, ?_, rfl⟩
  have h2 : s.Allots h.2 := (State.allocUnit_allots _).trans (State.allocUnit_allots _)
  unfold v
  split
  · exact h2
  · exact h2.trans <| (State.allocUnit_allots _).trans <| (State.setLeaves_allots _).trans <|
      (State.zeroTable_allots _).trans (State.write64_allots ..)

theorem State.giveFrame_tile (k : Nat) (s : State) : ∃ f h : Nat,
    (s.giveFrame k).tile k = { s.tile k with frame := some f, header := some h, unbacked := false } := by
  obtain ⟨f, h, v, hv, he⟩ := State.giveFrame_frame k s
  refine ⟨f, h, ?_⟩
  rw [he, ← hv.tile k]
  rw [State.onLayer_tile, State.onTile_tile]

theorem State.giveFrame_mergeQ (k : Nat) (s : State) : (s.giveFrame k).mpg.mergeQ = s.mpg.mergeQ := by
  obtain ⟨f, h, v, hv, he⟩ := State.giveFrame_frame k s
  rw [he]
  exact hv.mergeQ

/-! ### Write-back (R139, R142) -/

/-- A tile once it has been written back. -/
def Tile.written (x : Tile) : Tile := { x with dirty := false, leafValid := true, folded := none }

/-- The writes to host memory with which a tile goes out: its entry only at the first time (R139). -/
def State.wroteBack (s : State) (k f h : Nat) : List HostWrite :=
  let x := s.tile k
  let fo := unitOffset (kindPool (s.layer (keyLayer k)).kind) f
  let out := [HostWrite.header (s.arenaAddr (unitOffset 4 h)) (s.headerOf k x),
    HostWrite.data (s.arenaAddr fo) (s.layer (keyLayer k)).kind x.cells]
  if x.leafValid then out
  else
    let slot := leafSlot (unitOffset 5 ((s.leaf k).getD 0)) k
    HostWrite.entry (s.arenaAddr slot) (leafWord fo (unitOffset 4 h)) :: out

theorem State.writeTile_host (a b key : Nat) (x : Tile) : (s.writeTile a b key x).out.host =
    HostWrite.header b (s.headerOf key x) :: HostWrite.data a (s.layer (keyLayer key)).kind x.cells :: s.out.host := rfl

theorem State.write64_host (off v : Nat) : (s.write64 off v).out.host = HostWrite.entry (s.arenaAddr off) v :: s.out.host := rfl

theorem State.writeTile_arenaAddr (a b key : Nat) (x : Tile) (off : Nat) : (s.writeTile a b key x).arenaAddr off = s.arenaAddr off := rfl

theorem State.writeTile_leaf (a b key : Nat) (x : Tile) : (s.writeTile a b key x).leaf k = s.leaf k := rfl

/-- A write-back in its steps: what goes out to host memory, what reports it, and the tile itself. -/
theorem State.writeBack_frame {f h : Nat} (evicted wasUnbacked : Bool) (hf : (s.tile k).frame = some f) (hh : (s.tile k).header = some h) :
    ∃ v w : State, s.writeBack k evicted wasUnbacked = w.onTile k Tile.written ∧ v.Pages ∅ w ∧ w.mpg = v.mpg ∧
      s.Allots v ∧ v.out.host = s.wroteBack k f h ++ s.out.host := by
  unfold State.writeBack
  extract_lets x y own
  split
  · next f' h' hf' hh' =>
    obtain rfl : f' = f := Option.some.inj (hf'.symm.trans hf)
    obtain rfl : h' = h := Option.some.inj (hh'.symm.trans hh)
    extract_lets fo ho s1 s2 s3
    refine ⟨s2, s3, rfl, (State.raise_pages _).trans (State.report_pages ..), (State.report_mpg ..).trans (State.raise_mpg _), ?_, ?_⟩
    · unfold s2
      split
      · exact State.writeTile_allots ..
      · exact (State.writeTile_allots ..).trans (State.write64_allots ..)
    · unfold s2 State.wroteBack
      dsimp only
      split
      · rw [State.writeTile_host]
        rfl
      · rw [State.write64_host, State.writeTile_host, State.writeTile_arenaAddr, State.writeTile_leaf]
        rfl
  · next hn => exact (hn f h hf hh).elim

theorem State.writeBack_tile {f h : Nat} (evicted wasUnbacked : Bool) (hf : (s.tile k).frame = some f)
    (hh : (s.tile k).header = some h) : (s.writeBack k evicted wasUnbacked).tile k = (s.tile k).written := by
  obtain ⟨v, w, hw, -, hm, hv, -⟩ := State.writeBack_frame evicted wasUnbacked hf hh
  rw [hw, State.onTile_tile, State.tile_eq_of_mpg hm, hv.tile]

theorem State.writeBack_host {f h : Nat} (evicted wasUnbacked : Bool) (hf : (s.tile k).frame = some f)
    (hh : (s.tile k).header = some h) {x : HostWrite} (hx : x ∈ s.wroteBack k f h) :
    x ∈ (s.writeBack k evicted wasUnbacked).out.host := by
  obtain ⟨v, w, hw, hp, -, -, ho⟩ := State.writeBack_frame evicted wasUnbacked hf hh
  rw [hw]
  refine hp.host.subset ?_
  rw [ho]
  exact List.mem_append_left _ hx

/-- A write-back changes no tile's frame and raises no fault. -/
theorem State.writeBack_keeps (evicted wasUnbacked : Bool) : (s.writeBack k evicted wasUnbacked).mpg.fault = s.mpg.fault ∧
    ∀ j, ((s.writeBack k evicted wasUnbacked).tile j).frame = (s.tile j).frame := by
  cases hf : (s.tile k).frame with
  | none =>
    have hn : s.writeBack k evicted wasUnbacked = s := by
      unfold State.writeBack
      simp only [hf]
    rw [hn]
    exact ⟨rfl, fun _ => rfl⟩
  | some f =>
    cases hh : (s.tile k).header with
    | none =>
      have hn : s.writeBack k evicted wasUnbacked = s := by
        unfold State.writeBack
        simp only [hf, hh]
      rw [hn]
      exact ⟨rfl, fun _ => rfl⟩
    | some h =>
      obtain ⟨v, w, hw, -, hm, hv, -⟩ := State.writeBack_frame evicted wasUnbacked hf hh
      refine ⟨?_, fun j => ?_⟩
      · rw [hw]
        show w.mpg.fault = _
        rw [hm, hv.fault]
      · by_cases hj : j = k
        · subst hj
          rw [State.writeBack_tile _ _ hf hh]
          rfl
        · rw [hw, State.onTile_tile_ne _ _ _ _ hj, State.tile_eq_of_mpg hm, hv.tile]

/-- Space made for a tile changes no tile's frame and raises no fault. -/
theorem State.makeSpace_keeps (k : Nat) (s : State) : (s.makeSpace k).mpg.fault = s.mpg.fault ∧
    ∀ j, ((s.makeSpace k).tile j).frame = (s.tile j).frame := by
  have hun (v : State) (e j : Nat) : ((v.uncache e).tile j).frame = (v.tile j).frame := by
    unfold State.uncache
    by_cases hj : j = e
    · rw [hj, State.onTile_tile]
    · rw [State.onTile_tile_ne _ _ _ _ hj]
  unfold State.makeSpace
  dsimp only
  split
  · split
    · split
      · obtain ⟨hf, ht⟩ := State.writeBack_keeps (s := s) (k := ‹Nat›) true false
        exact ⟨hf, fun j => (hun _ _ j).trans (ht j)⟩
      · exact ⟨rfl, fun j => hun _ _ j⟩
    · exact ⟨rfl, fun _ => rfl⟩
  · exact ⟨rfl, fun _ => rfl⟩

/-! ### New tiles (R134, R135, R139) -/

theorem State.backOrHold_tile (k : Nat) (s : State) : ∃ (f h : Option Nat) (u : Bool) (o : Nat),
    (s.backOrHold k).tile k = { s.tile k with frame := f, header := h, unbacked := u, order := o } := by
  unfold State.backOrHold
  split
  · obtain ⟨f, h, e⟩ := State.giveFrame_tile k s
    exact ⟨_, _, _, _, e⟩
  · next w _ =>
    have hw : (s.noteNoFrame w).tile k = s.tile k := by cases w <;> exact State.mpgFault_tile ..
    refine ⟨(s.tile k).frame, (s.tile k).header, true, s.mpg.orderCount, (State.raise_tile _).trans ?_⟩
    rw [State.onMpg_tile _ rfl, State.onTile_tile, hw]

/-- A new tile is in the cache, with nothing in it. -/
theorem State.createTile_tile (k : Nat) (s : State) : ((s.createTile k).tile k).place = .resident ∧ ((s.createTile k).tile k).cells = [] := by
  unfold State.createTile
  extract_lets v epoch w
  have hw : (w.tile k).place = .resident ∧ (w.tile k).cells = [] := by
    unfold w
    rw [State.onTile_tile]
    exact ⟨rfl, rfl⟩
  split
  · exact hw
  · obtain ⟨f, h, u, o, e⟩ := State.backOrHold_tile k w
    rw [e]
    exact hw

theorem State.noteNoFrame_mergeQ (w : NoFrame) : (s.noteNoFrame w).mpg.mergeQ = s.mpg.mergeQ := by
  cases w
  · show (s.mpgFault 0 97).mpg.mergeQ = _
    rw [State.mpgFault_frame]
  · show (s.mpgFault 1 98).mpg.mergeQ = _
    rw [State.mpgFault_frame]

theorem State.createTile_mergeQ (h : s.cacheFull (s.isCoarse k) = false) : (s.createTile k).mpg.mergeQ = s.mpg.mergeQ := by
  unfold State.createTile
  rw [State.makeSpace_none h]
  extract_lets epoch w
  split
  · rfl
  · unfold State.backOrHold
    split
    · exact State.giveFrame_mergeQ k _
    · rw [State.raise_mpg]
      exact State.noteNoFrame_mergeQ _

/-! ### Dropped and failed tiles (R121, R135, R141) -/

theorem State.onTile_filter_length (f : Tile → Tile) (q : Nat × Tile → Bool) :
    ((s.onTile k f).mpg.tiles.filter q).length ≤ (s.mpg.tiles.filter q).length + 1 := Tbl.filter_set_length q

/-- A tile once it has been dropped or has failed. -/
def Tile.lose (order : Nat) (x : Tile) : Tile := { x with place := .lost, order }

/-- Fewer than 256 are lost: the tile joins them, and none is forgotten. -/
theorem State.loseTile_few (f : Tile → Tile) (h : (s.mpg.tiles.filter fun e => e.2.place == .lost).length < 256) :
    s.loseTile k f = (s.onTile k fun x => (f x).lose s.mpg.orderCount).onMpg fun m => { m with orderCount := m.orderCount + 1 } := by
  have hl := State.onTile_filter_length (k := k) (s := s) (fun x => (f x).lose s.mpg.orderCount) fun e => e.2.place == .lost
  unfold State.loseTile
  extract_lets v lost
  have hl : lost.length ≤ _ := hl
  rw [if_neg (by omega)]
  rfl

theorem State.loseTile_fault (f : Tile → Tile) : (s.loseTile k f).mpg.fault = s.mpg.fault := by
  unfold State.loseTile
  dsimp only
  split
  · split <;> rfl
  · rfl

end Sys2Proof.Machine

namespace Sys2Proof.Machine

variable {s t : State} {k j : Nat}

/-! ### A delta in a tile (R124, R129, R145) -/

theorem State.setPair_tile (origin : Nat) (q : Word) : (s.setPair k origin q).tile k = (s.tile k).pair origin q := by
  unfold State.setPair
  dsimp only
  split
  · rw [State.mpgFault_tile, State.onTile_tile]
  · exact State.onTile_tile ..

theorem State.setPair_mergeQ (origin : Nat) (q : Word) : (s.setPair k origin q).mpg.mergeQ = s.mpg.mergeQ := by
  unfold State.setPair
  dsimp only
  split
  · rw [State.mpgFault_frame]
    rfl
  · rfl

/-- A tile whose cells a delta has painted, before it takes the origin's pair. -/
def State.painted (s : State) (f : Nat → Nat) (d : Delta) (k : Nat) : Tile :=
  let y := s.layer d.layer
  (((y.refresh s.now (s.tile k)).paint f (cellsIn k (deltaCells d (cellMm y.cell)))).touch s.now).used s.now

theorem State.painted_place (f : Nat → Nat) (d : Delta) : (s.painted f d k).place = (s.tile k).place :=
  Layer.refresh_place ..

theorem State.ownInto_tile (d : Delta) : (s.ownInto d k).tile k =
    if s.mpg.domainId = 0 then s.painted (ownCell d.epoch) d k
    else (s.painted (ownCell d.epoch) d k).pair s.mpg.domainId d.covSeq := by
  unfold State.ownInto
  extract_lets y ks v
  have hv : v.tile k = s.painted (ownCell d.epoch) d k := State.onTile_tile ..
  by_cases h : s.mpg.domainId = 0
  · rw [if_pos h, if_pos (show v.mpg.domainId = 0 from h), hv]
  · rw [if_neg h, if_neg (show v.mpg.domainId ≠ 0 from h), State.setPair_tile, hv]
    rfl

/-- A tile's pair for the origin of a delta is past it (R145). -/
def State.pairPast (s : State) (d : Delta) (k : Nat) : Bool :=
  ((s.tile k).pairs.find? fun p => p.1 == d.origin).any fun p => atOrBefore d.covSeq p.2

theorem State.mergeInto_eq (d : Delta) : s.mergeInto d k =
    if d.origin ≠ 0 ∧ s.pairPast d k = true then s
    else
      let v := s.onTile k fun _ => s.painted (mergedCell (s.layer d.layer).epoch) d k
      if d.origin = 0 then v else v.setPair k d.origin d.covSeq := by
  unfold State.mergeInto State.pairPast
  cases (s.tile k).pairs.find? fun p => p.1 == d.origin <;> rfl

theorem State.mergeInto_tile (d : Delta) : (s.mergeInto d k).tile k =
    if d.origin ≠ 0 ∧ s.pairPast d k = true then s.tile k
    else if d.origin = 0 then s.painted (mergedCell (s.layer d.layer).epoch) d k
    else (s.painted (mergedCell (s.layer d.layer).epoch) d k).pair d.origin d.covSeq := by
  rw [State.mergeInto_eq]
  dsimp only
  split
  · rfl
  · split
    · exact State.onTile_tile ..
    · rw [State.setPair_tile, State.onTile_tile]

/-- A delta leaves a tile where it is. -/
theorem State.deltaInto_place (w : MergeWait) : ((s.deltaInto w k).tile k).place = (s.tile k).place := by
  unfold State.deltaInto
  split
  · rw [State.ownInto_tile]
    split
    · exact State.painted_place ..
    · exact (Tile.pair_place ..).trans (State.painted_place ..)
  · rw [State.mergeInto_tile]
    split
    · rfl
    · split
      · exact State.painted_place ..
      · exact (Tile.pair_place ..).trans (State.painted_place ..)

theorem State.deltaInto_mergeQ (w : MergeWait) : (s.deltaInto w k).mpg.mergeQ = s.mpg.mergeQ := by
  unfold State.deltaInto
  split
  · unfold State.ownInto
    dsimp only
    split
    · rfl
    · exact State.setPair_mergeQ ..
  · rw [State.mergeInto_eq]
    dsimp only
    split
    · rfl
    · split
      · rfl
      · exact State.setPair_mergeQ ..

/-- What a tile takes does not depend on what waits. -/
theorem State.deltaInto_tile_onQueue (q : List MergeWait) (w : MergeWait) :
    ((s.onMpg fun m => { m with mergeQ := q }).deltaInto w k).tile k = (s.deltaInto w k).tile k := by
  unfold State.deltaInto
  split
  · rw [State.ownInto_tile, State.ownInto_tile]
    rfl
  · rw [State.mergeInto_tile, State.mergeInto_tile]
    rfl

/-! ### A delta put into a tile (R135, R141, R150) -/

theorem State.putDelta_absent {w : MergeWait} (h : (s.tile k).place = .absent) : s.putDelta w k = (s.createTile k).deltaInto w k := by
  unfold State.putDelta
  rw [h]

theorem State.putDelta_resident {w : MergeWait} (h : (s.tile k).place = .resident) : s.putDelta w k = s.deltaInto w k := by
  unfold State.putDelta
  rw [h]

theorem State.putDelta_none {w : MergeWait} (ha : (s.tile k).place ≠ .absent) (hr : (s.tile k).place ≠ .resident) :
    s.putDelta w k = s := by
  unfold State.putDelta
  split
  · next h => exact (ha h).elim
  · next h => exact (hr h).elim
  · rfl

/-- Deltas put into tiles that exist: no tile moves, nothing else comes to wait, and the tiles that are away stand. -/
structure State.PutsIn (keys : List Nat) (s t : State) : Prop where
  place : ∀ j, (t.tile j).place = (s.tile j).place
  mergeQ : t.mpg.mergeQ = s.mpg.mergeQ
  stands : ∀ j, j ∉ keys ∨ (s.tile j).place = .away → t.tile j = s.tile j

theorem State.putDelta_putsIn {keys : List Nat} (w : MergeWait) (hk : k ∈ keys) (ha : (s.tile k).place ≠ .absent) :
    s.PutsIn keys (s.putDelta w k) := by
  by_cases hr : (s.tile k).place = .resident
  · rw [State.putDelta_resident hr]
    have ho (j : Nat) (hj : j ≠ k) : (s.deltaInto w k).tile j = s.tile j := (State.deltaInto_pages (p := {k}) w rfl).tiles j hj
    refine ⟨fun j => ?_, State.deltaInto_mergeQ w, fun j hj => ho j ?_⟩
    · by_cases hj : j = k
      · rw [hj, State.deltaInto_place]
      · rw [ho j hj]
    · rintro rfl
      obtain hj | hj := hj
      · exact hj hk
      · rw [hr] at hj
        cases hj
  · rw [State.putDelta_none ha hr]
    exact ⟨fun _ => rfl, rfl, fun _ _ => rfl⟩

theorem State.PutsIn.trans {keys : List Nat} {a b c : State} (h : a.PutsIn keys b) (g : b.PutsIn keys c) : a.PutsIn keys c :=
  ⟨fun j => (g.place j).trans (h.place j), g.mergeQ.trans h.mergeQ,
    fun j hj => (g.stands j (hj.imp_right fun hp => (h.place j).trans hp)).trans (h.stands j hj)⟩

/-- Where every tile of a waiting delta exists, it goes on waiting for those that are away. -/
theorem State.putAll_blocked (w : MergeWait) {all : List Nat} (keys : List Nat) (hs : keys ⊆ all)
    (ha : ∀ k ∈ all, (s.tile k).place ≠ .absent) (acc : List Nat) :
    let r := keys.foldl (fun (r : List Nat × State) k => if r.2.blocked k then (r.1 ++ [k], r.2) else (r.1, r.2.putDelta w k)) (acc, s)
    r.1 = acc ++ keys.filter (fun k => (s.tile k).place == .away) ∧ s.PutsIn all r.2 := by
  induction keys generalizing s acc with
  | nil => exact ⟨(List.append_nil acc).symm, fun _ => rfl, rfl, fun _ _ => rfl⟩
  | cons k keys ih =>
    obtain ⟨hk, hs⟩ := List.cons_subset.mp hs
    have hb : s.blocked k = ((s.tile k).place == .away) := by
      unfold State.blocked
      rw [beq_false_of_ne (ha k hk), Bool.false_and, Bool.or_false]
    rw [List.foldl_cons, List.filter_cons, ← hb]
    split
    · obtain ⟨h1, h2⟩ := ih hs ha (acc ++ [k])
      exact ⟨by rw [h1, List.append_assoc, List.singleton_append], h2⟩
    · have hp := State.putDelta_putsIn w hk (ha k hk)
      obtain ⟨h1, h2⟩ := ih (s := s.putDelta w k) hs (fun j hj => by rw [hp.place]; exact ha j hj) acc
      refine ⟨h1.trans ?_, hp.trans h2⟩
      simp only [hp.place]

/-! ### The queue (R145) -/

theorem State.drainable_some {q a c : List MergeWait} {w : MergeWait} (h : s.drainable q = some (a, w, c)) :
    ∃ k ∈ w.keys, s.blocked k = false := by
  induction q generalizing a with
  | nil => cases h
  | cons x q ih =>
    unfold State.drainable at h
    split at h
    · next hx =>
      cases h
      simpa using hx
    · cases hq : s.drainable q with
      | none =>
        rw [hq] at h
        cases h
      | some r =>
        obtain ⟨b, y, e⟩ := r
        rw [hq] at h
        cases h
        exact ih hq

/-! ### Backing (R136) -/

theorem mem_insertAge {e x : Nat × Nat} {l : List (Nat × Nat)} : x ∈ insertAge e l ↔ x = e ∨ x ∈ l := by
  induction l with
  | nil => simp [insertAge]
  | cons y l ih =>
    unfold insertAge
    split
    · exact List.mem_cons
    · rw [List.mem_cons, ih, List.mem_cons]
      tauto

theorem State.mem_unbackedKeys : k ∈ s.unbackedKeys ↔ ∃ x : Tile, (k, x) ∈ s.mpg.tiles ∧ x.unbacked = true := by
  have hfold (l : List (Nat × Nat)) (e : Nat × Nat) : e ∈ l.foldr insertAge [] ↔ e ∈ l := by
    induction l with
    | nil => rfl
    | cons a l ih => rw [List.foldr_cons, mem_insertAge, ih, List.mem_cons]
  unfold State.unbackedKeys
  simp only [List.mem_map, hfold, List.mem_filter]
  constructor
  · rintro ⟨-, ⟨⟨j, x⟩, hx, rfl⟩, rfl⟩
    exact ⟨x, hx⟩
  · rintro ⟨x, hx⟩
    exact ⟨_, ⟨(k, x), hx, rfl⟩, rfl⟩

/-- A tile that is not unbacked is none of those to be backed. -/
theorem State.not_mem_unbackedKeys (hw : Tbl.wf {} s.mpg.tiles = true) (h : (s.tile k).unbacked = false) : k ∉ s.unbackedKeys := by
  intro hk
  obtain ⟨x, hx, hu⟩ := State.mem_unbackedKeys.mp hk
  have hx : s.tile k = x := Tbl.get_of_mem hw hx
  rw [hx, hu] at h
  cases h

theorem State.unbackedKeys_none (h : s.unbackedCount = 0) : s.unbackedKeys = [] := by
  refine List.eq_nil_iff_forall_not_mem.mpr fun k hk => ?_
  obtain ⟨x, hx, hu⟩ := State.mem_unbackedKeys.mp hk
  have := List.eq_nil_of_length_eq_zero h
  exact List.not_mem_nil (this ▸ List.mem_filter.mpr ⟨hx, hu⟩)

theorem State.backAll_none (h : s.unbackedCount = 0) : s.backAll = s := by
  unfold State.backAll
  rw [State.unbackedKeys_none h]
  rfl

theorem State.backLayer_none (l : Nat) (h : s.unbackedCount = 0) : s.backLayer l = s := by
  unfold State.backLayer
  rw [State.unbackedKeys_none h]
  rfl

/-! ### Release (R137, R149) -/

/-- A release strikes the tile off, and its layer's USE falls where it has a frame. -/
theorem State.releaseTile_frame (k : Nat) (s : State) : (s.releaseTile k).mpg.tiles = Tbl.drop s.mpg.tiles k ∧
    (s.releaseTile k).mpg.layers =
      if (s.tile k).frame.isSome then Tbl.modify {} s.mpg.layers (keyLayer k) fun y => { y with use := y.use - 1 } else s.mpg.layers := by
  unfold State.releaseTile
  extract_lets s1 t l s2 s3 s4 s5
  have h2 : s2.mpg.tiles = s.mpg.tiles ∧ s2.mpg.layers =
      if (s.tile k).frame.isSome then Tbl.modify {} s.mpg.layers (keyLayer k) fun y => { y with use := y.use - 1 } else s.mpg.layers := by
    unfold s2
    cases ht : t.frame with
    | none => exact ⟨rfl, (if_neg (by simp [show (s.tile k).frame = none from ht])).symm⟩
    | some f => exact ⟨rfl, (if_pos (by simp [show (s.tile k).frame = some f from ht])).symm⟩
  have h3 : s3.mpg.tiles = s2.mpg.tiles ∧ s3.mpg.layers = s2.mpg.layers := by
    unfold s3
    split <;> exact ⟨rfl, rfl⟩
  have h4 : s4.mpg.tiles = s3.mpg.tiles ∧ s4.mpg.layers = s3.mpg.layers := by
    unfold s4
    split <;> exact ⟨rfl, rfl⟩
  have h5 : s5.mpg.tiles = Tbl.drop s.mpg.tiles k ∧ s5.mpg.layers = s2.mpg.layers := by
    refine ⟨?_, h4.2.trans h3.2⟩
    show Tbl.modify {} s4.mpg.tiles k (fun _ => {}) = _
    rw [Tbl.modify_default, h4.1, h3.1, h2.1]
  have h5 := And.intro h5.1 (h5.2.trans h2.2)
  split
  · exact h5
  · split <;> exact h5

theorem State.releaseTile_tile (k j : Nat) (s : State) : (s.releaseTile k).tile j = if j = k then {} else s.tile j := by
  unfold State.tile
  rw [(State.releaseTile_frame k s).1]
  split
  · next h =>
    subst h
    exact Tbl.get_drop_same
  · next h => exact Tbl.get_drop_ne h

/-- Tiles released one after another. -/
def State.releaseAll (s : State) (ks : List Nat) : State := ks.foldl (fun s k => s.releaseTile k) s

theorem State.releaseAll_tiles (ks : List Nat) (s : State) : (s.releaseAll ks).mpg.tiles = ks.foldl Tbl.drop s.mpg.tiles := by
  induction ks generalizing s with
  | nil => rfl
  | cons k ks ih => exact (ih _).trans (by rw [(State.releaseTile_frame k s).1]; rfl)

theorem State.releaseAll_tile (ks : List Nat) (j : Nat) (s : State) : (s.releaseAll ks).tile j = if j ∈ ks then {} else s.tile j := by
  unfold State.tile
  rw [State.releaseAll_tiles]
  exact Tbl.get_dropAll ks

theorem State.releaseAll_pages {p : Set Nat} {ks : List Nat} (h : ∀ k ∈ ks, k ∈ p) : s.Pages p (s.releaseAll ks) :=
  .fold fun k hk _ => State.releaseTile_pages (h k hk)

theorem State.releaseAll_unbackedCount {ks : List Nat} (h : s.unbackedCount = 0) : (s.releaseAll ks).unbackedCount = 0 := by
  unfold State.unbackedCount at *
  rw [State.releaseAll_tiles]
  exact Nat.le_zero.mp (h ▸ ((Tbl.dropAll_sublist ks).filter _).length_le)

/-- Each tile of a layer that had a frame gives it back once. -/
theorem State.releaseAll_use {l : Nat} {ks : List Nat} (hl : ∀ k ∈ ks, keyLayer k = l) (hn : ks.Nodup) :
    ((s.releaseAll ks).layer l).use = (s.layer l).use - ks.countP fun k => (s.tile k).frame.isSome := by
  induction ks generalizing s with
  | nil => rfl
  | cons k ks ih =>
    obtain ⟨hk, hn⟩ := List.nodup_cons.mp hn
    have hu : ((s.releaseTile k).layer l).use = (s.layer l).use - if (s.tile k).frame.isSome = true then 1 else 0 := by
      unfold State.layer
      rw [(State.releaseTile_frame k s).2, hl k List.mem_cons_self]
      split
      · rw [Tbl.get_modify_same]
      · rfl
    have hc : ks.countP (fun j => ((s.releaseTile k).tile j).frame.isSome) = ks.countP fun j => (s.tile j).frame.isSome :=
      List.countP_congr fun j hj => by
        rw [State.releaseTile_tile, if_neg (ne_of_mem_of_not_mem hj hk)]
    refine (ih (s := s.releaseTile k) (fun j hj => hl j (List.mem_cons_of_mem _ hj)) hn).trans ?_
    rw [hu, hc, List.countP_cons]
    omega

/-- Tiles discarded, and other tiles backed with what that frees (R136, R149). -/
def State.discard (s : State) (l : Nat) (ks : List Nat) : State := ((s.releaseAll ks).clearOver l).backAll

theorem State.discard_pages (l : Nat) (ks : List Nat) : s.Pages Set.univ (s.discard l ks) :=
  (State.releaseAll_pages fun _ _ => Set.mem_univ _).trans <| (State.clearOver_pages l).trans
    (.fold fun _ _ _ => State.backTile_pages (Set.mem_univ _))

/-- What is discarded is gone, and what is backed already stands. -/
theorem State.discard_tile (l : Nat) {ks : List Nat} (hw : Tbl.wf {} s.mpg.tiles = true)
    (h : k ∈ ks ∨ (s.tile k).unbacked = false) : (s.discard l ks).tile k = if k ∈ ks then {} else s.tile k := by
  have hk : ((s.releaseAll ks).clearOver l).tile k = if k ∈ ks then {} else s.tile k := State.releaseAll_tile ks k s
  have hw' : Tbl.wf {} ((s.releaseAll ks).clearOver l).mpg.tiles = true := by
    show Tbl.wf {} (s.releaseAll ks).mpg.tiles = true
    rw [State.releaseAll_tiles]
    exact Tbl.wf_dropAll ks hw
  refine (State.backAll_pages.tiles k (State.not_mem_unbackedKeys hw' ?_)).trans hk
  rw [hk]
  split
  · rfl
  · next hn => exact h.resolve_left hn

end Sys2Proof.Machine

namespace Sys2Proof.Machine

variable {s : State} {k dt l : Nat} {tx ty : Int}

/-! ### Fetches (R141) -/

theorem State.loseTile_tile (f : Tile → Tile) (h : (s.mpg.tiles.filter fun e => e.2.place == .lost).length < 256) :
    (s.loseTile k f).tile k = (f (s.tile k)).lose s.mpg.orderCount ∧ ∀ j, j ≠ k → (s.loseTile k f).tile j = s.tile j := by
  rw [State.loseTile_few f h]
  exact ⟨(State.onMpg_tile _ rfl).trans (State.onTile_tile ..),
    fun j hj => (State.onMpg_tile _ rfl).trans (State.onTile_tile_ne _ _ _ _ hj)⟩

theorem State.fetched_error (k : Nat) (s : State) : let t := s.fetched k .error
    t.tile k = { s.tile k with failTick := some s.now } ∧ bit t.mpg.fault.w 6 = true ∧ ∀ j, j ≠ k → t.tile j = s.tile j := by
  intro t
  have hm : t.mpg = ((s.onTile k fun x => { x with failTick := some s.now }).mpgFault 6 106).mpg := State.dmaError_mpg
  have ht (j : Nat) : t.tile j = (s.onTile k fun x => { x with failTick := some s.now }).tile j :=
    (congrFun (State.tile_eq_of_mpg hm) j).trans (State.mpgFault_tile ..)
  refine ⟨?_, ?_, fun j hj => ?_⟩
  · rw [ht, State.onTile_tile]
  · rw [hm]
    exact State.mpgFault_bit (by decide)
  · rw [ht, State.onTile_tile_ne _ _ _ _ hj]

theorem State.fetched_good (k ep : Nat) (mg : Bool) (ps : List (Nat × Word)) (cs : List (Nat × Nat)) (s : State) :
    let y := s.layer (keyLayer k)
    s.fetched k (.tile (keyLayer k) (y.kind + 4 * y.cell) true ep mg ps cs) = (s.makeSpace k).onTile k fun t =>
      { t with sought := false, useTick := s.now, place := .resident, failTick := none, lastEpoch := BitVec.ofNat 32 ep, merged := mg,
               pairs := ps.take 8, cells := tblOf (cs.map fun c => (c.1 % 65536, c.2 % 2 ^ kindBits y.kind)), dirty := false } := by
  intro y
  unfold State.fetched
  dsimp only
  rw [if_neg (by decide), if_neg (not_not_intro rfl), if_neg (not_not_intro rfl)]

theorem State.fetched_bad {la fo ep : Nat} {ok mg : Bool} {ps : List (Nat × Word)} {cs : List (Nat × Nat)}
    (h : ok = false ∨ la ≠ keyLayer k ∨ fo ≠ (s.layer (keyLayer k)).kind + 4 * (s.layer (keyLayer k)).cell) :
    ∃ what, s.fetched k (.tile la fo ok ep mg ps cs) = s.badTile k what := by
  unfold State.fetched
  dsimp only
  by_cases h1 : ok = false
  · exact ⟨0, if_pos h1⟩
  · rw [if_neg h1]
    by_cases h2 : la ≠ keyLayer k
    · exact ⟨1, if_pos h2⟩
    · rw [if_neg h2]
      exact ⟨2, if_pos ((h.resolve_left h1).resolve_left h2)⟩

/-- A tile that does not match fails, with its fault, and keeps its frame (R141). -/
theorem State.badTile_lost (k what : Nat) (s : State) : bit (s.badTile k what).mpg.fault.w 3 = true ∧
    ((s.mpg.tiles.filter fun e => e.2.place == .lost).length < 256 →
      ((s.badTile k what).tile k).place = .lost ∧ ((s.badTile k what).tile k).frame = (s.tile k).frame ∧
      ∀ j, j ≠ k → (s.badTile k what).tile j = s.tile j) := by
  unfold State.badTile
  generalize hv : (s.mpgFault 3 101).faultReport 0x0301 (keyLayer k) 101 (toTwos 16 (keyX k) + 65536 * toTwos 16 (keyY k)) what = v
  have hm : v.mpg = (s.mpgFault 3 101).mpg := by rw [← hv, State.faultReport_mpg]
  have ht (j : Nat) : v.tile j = s.tile j := (congrFun (State.tile_eq_of_mpg hm) j).trans (State.mpgFault_tile ..)
  refine ⟨?_, fun h => ?_⟩
  · rw [State.loseTile_fault, hm]
    exact State.mpgFault_bit (by decide)
  · have hl : (v.mpg.tiles.filter fun e => e.2.place == .lost).length < 256 := by
      rw [hm, State.mpgFault_frame]
      exact h
    obtain ⟨hk, ho⟩ := State.loseTile_tile (k := k) (fun t => { t with failTick := none }) hl
    rw [hk]
    exact ⟨rfl, by rw [← ht k]; rfl, fun j hj => (ho j hj).trans (ht j)⟩

theorem exec_tileFetchDone {read : TileRead} (hf : (s.elapse dt).fetches (tileKey l tx ty) = true)
    (hn : ((s.elapse dt).tile (tileKey l tx ty)).failTick = none) :
    exec (.tileFetchDone dt l tx ty read) s = .next ((s.elapse dt).fetched (tileKey l tx ty) read) := by
  show execTileFetchDone dt l tx ty read s = _
  unfold execTileFetchDone
  exact congrArg Host.Outcome.next (State.when_pos (by rw [hf, hn]; rfl))

theorem exec_fetchRetry {read : TileRead} {f : Nat} (hf : (s.elapse dt).fetches (tileKey l tx ty) = true)
    (hk : ((s.elapse dt).tile (tileKey l tx ty)).failTick = some f) (hn : f + 20000000 ≤ (s.elapse dt).now) :
    exec (.fetchRetry dt l tx ty read) s = .next ((s.elapse dt).fetched (tileKey l tx ty) read) := by
  show execFetchRetry dt l tx ty read s = _
  unfold execFetchRetry
  dsimp only
  rw [hk]
  exact congrArg Host.Outcome.next (State.when_pos (by rw [hf, Bool.true_and]; exact decide_eq_true hn))

theorem tileFetch_brings (dt l : Nat) (tx ty : Int) (read : TileRead) (s : State) :
    let u := s.elapse dt
    let k := tileKey l tx ty
    let y := u.layer (keyLayer k)
    u.fetches k = true →
    ∀ retry : Bool, (retry = false → (u.tile k).failTick = none) →
    (retry = true → ∃ f, (u.tile k).failTick = some f ∧ f + 20000000 ≤ u.now) →
    ∃ t : State, (if retry then exec (.fetchRetry dt l tx ty read) s else exec (.tileFetchDone dt l tx ty read) s) = .next t ∧
      (read = .error →
        t.tile k = { u.tile k with failTick := some u.now } ∧ bit t.mpg.fault.w 6 = true ∧ ∀ j, j ≠ k → t.tile j = u.tile j) ∧
      (∀ la fo ok ep mg ps cs, read = .tile la fo ok ep mg ps cs →
        (ok = true ∧ la = keyLayer k ∧ fo = y.kind + 4 * y.cell →
          (t.tile k).place = .resident ∧ (t.tile k).lastEpoch = BitVec.ofNat 32 ep ∧ (t.tile k).merged = mg ∧
            (t.tile k).pairs = ps.take 8 ∧
            (t.tile k).cells = tblOf (cs.map fun c => (c.1 % 65536, c.2 % 2 ^ kindBits y.kind)) ∧ (t.tile k).dirty = false ∧
            (t.tile k).sought = false ∧ (t.tile k).frame = (u.tile k).frame ∧ t.mpg.fault = u.mpg.fault ∧
            (u.cacheFull (u.isCoarse k) = false → ∀ j, j ≠ k → t.tile j = u.tile j)) ∧
        (ok = false ∨ la ≠ keyLayer k ∨ fo ≠ y.kind + 4 * y.cell → bit t.mpg.fault.w 3 = true ∧
          ((u.mpg.tiles.filter fun e => e.2.place == .lost).length < 256 →
            (t.tile k).place = .lost ∧ (t.tile k).frame = (u.tile k).frame ∧ ∀ j, j ≠ k → t.tile j = u.tile j))) := by
  intro u k y hf retry hfirst hagain
  have hx : (if retry then exec (.fetchRetry dt l tx ty read) s else exec (.tileFetchDone dt l tx ty read) s) =
      .next (u.fetched k read) := by
    cases retry with
    | false => exact exec_tileFetchDone hf (hfirst rfl)
    | true =>
      obtain ⟨f, hk, hn⟩ := hagain rfl
      exact exec_fetchRetry hf hk hn
  refine ⟨_, hx, fun hr => ?_, fun la fo ok ep mg ps cs hr => ⟨fun ⟨hok, hla, hfo⟩ => ?_, fun hbad => ?_⟩⟩
  · rw [hr]
    exact State.fetched_error k u
  · subst hr hok hla hfo
    have hg := State.fetched_good k ep mg ps cs u
    dsimp only at hg
    obtain ⟨hfault, hframe⟩ := State.makeSpace_keeps k u
    rw [hg, State.onTile_tile]
    refine ⟨rfl, rfl, rfl, rfl, rfl, rfl, rfl, hframe k, hfault, fun hc j hj => ?_⟩
    rw [State.onTile_tile_ne _ _ _ _ hj, State.makeSpace_none hc]
  · obtain ⟨what, hw⟩ := State.fetched_bad (s := u) (k := k) (ep := ep) (mg := mg) (ps := ps) (cs := cs) hbad
    rw [hr, hw]
    exact State.badTile_lost k what u

/-! ### Write-back and eviction (R139, R140, R142) -/

theorem exec_writebackDue {evict destOk : Bool} {f : Nat} (hr : (s.elapse dt).isReady 5 = true)
    (hp : ((s.elapse dt).tile (tileKey l tx ty)).place = .resident) (hf : ((s.elapse dt).tile (tileKey l tx ty)).frame = some f)
    (hu : ((s.elapse dt).tile (tileKey l tx ty)).unbacked = false)
    (hd : evict = true ∧ (s.elapse dt).evicts (tileKey l tx ty) = true ∨
      evict = false ∧ ((s.elapse dt).tile (tileKey l tx ty)).dirty = true ∧
        ((s.elapse dt).tile (tileKey l tx ty)).dirtyTick + (s.elapse dt).mpg.wbInterval * 20000000 ≤ (s.elapse dt).now) :
    exec (.writebackDue dt l tx ty evict destOk) s = .next ((s.elapse dt).writeBackDue (tileKey l tx ty) evict destOk) := by
  show execWritebackDue dt l tx ty evict destOk s = _
  unfold execWritebackDue
  refine congrArg Host.Outcome.next (State.when_pos ?_)
  rw [hr, hp, hf, hu]
  obtain ⟨rfl, he⟩ | ⟨rfl, hdirty, hdue⟩ := hd
  · rw [if_pos rfl, he]
    rfl
  · rw [if_neg Bool.false_ne_true, hdirty]
    have hw : (s.elapse dt).wbTicks = (s.elapse dt).mpg.wbInterval * 20000000 := by
      unfold State.wbTicks msTicks
      omega
    rw [hw, decide_eq_true hdue]
    rfl

/-- A write that fails leaves the tile dirty until the next interval. -/
theorem State.writeBackDue_fails (evict : Bool) (hd : (s.tile k).dirty = true) : let t := s.writeBackDue k evict false
    t.tile k = { s.tile k with dirtyTick := s.now } ∧ bit t.mpg.fault.w 6 = true ∧ ∀ j, j ≠ k → t.tile j = s.tile j := by
  intro t
  have he : t = ((s.onTile k fun x => { x with dirtyTick := s.now }).mpgFault 6 106).dmaError := by
    unfold t State.writeBackDue
    rw [if_pos hd, if_neg Bool.false_ne_true]
  have ht (j : Nat) : t.tile j = (s.onTile k fun x => { x with dirtyTick := s.now }).tile j := by
    rw [he]
    exact (congrFun (State.tile_eq_of_mpg State.dmaError_mpg) j).trans (State.mpgFault_tile ..)
  refine ⟨(ht k).trans (State.onTile_tile ..), ?_, fun j hj => (ht j).trans (State.onTile_tile_ne _ _ _ _ hj)⟩
  rw [he, State.dmaError_mpg]
  exact State.mpgFault_bit (by decide)

/-- A dirty tile goes out, and then leaves the cache if it is evicted. -/
theorem State.writeBackDue_written {f h : Nat} (evict : Bool) (hd : (s.tile k).dirty = true) (hp : (s.tile k).place = .resident)
    (hf : (s.tile k).frame = some f) (hh : (s.tile k).header = some h) : let t := s.writeBackDue k evict true
    (t.tile k = { s.tile k with place := if evict then .away else .resident, cells := if evict then [] else (s.tile k).cells,
                                dirty := false, leafValid := true, folded := none, sought := !evict && (s.tile k).sought } ∧
      ∀ w ∈ s.wroteBack k f h, w ∈ t.out.host) ∧ ∀ j, j ≠ k → t.tile j = s.tile j := by
  intro t
  have hw := State.writeBack_tile evict false hf hh
  have ho (j : Nat) (hj : j ≠ k) : (s.writeBack k evict false).tile j = s.tile j :=
    (State.writeBack_pages (p := {k}) evict false rfl).tiles j hj
  have hm (w : HostWrite) (hw : w ∈ s.wroteBack k f h) := State.writeBack_host evict false hf hh hw
  unfold t State.writeBackDue
  rw [if_pos hd, if_pos rfl]
  cases evict with
  | false =>
    refine ⟨⟨hw.trans ?_, hm⟩, ho⟩
    unfold Tile.written
    rw [if_neg Bool.false_ne_true, if_neg Bool.false_ne_true, ← hp]
    rfl
  | true =>
    refine ⟨⟨(State.onTile_tile ..).trans ?_, hm⟩, fun j hj => (State.onTile_tile_ne _ _ _ _ hj).trans (ho j hj)⟩
    rw [hw]
    rfl

theorem State.data_mem_wroteBack (f h : Nat) : HostWrite.data (s.arenaAddr (unitOffset (kindPool (s.layer (keyLayer k)).kind) f))
    (s.layer (keyLayer k)).kind (s.tile k).cells ∈ s.wroteBack k f h := by
  unfold State.wroteBack
  dsimp only
  split <;> simp

theorem State.header_mem_wroteBack (f h : Nat) :
    HostWrite.header (s.arenaAddr (unitOffset 4 h)) (s.headerOf k (s.tile k)) ∈ s.wroteBack k f h := by
  unfold State.wroteBack
  dsimp only
  split <;> simp

theorem State.entry_mem_wroteBack (f h : Nat) (hl : (s.tile k).leafValid = false) :
    HostWrite.entry (s.arenaAddr (leafSlot (unitOffset 5 ((s.leaf k).getD 0)) k))
      (leafWord (unitOffset (kindPool (s.layer (keyLayer k)).kind) f) (unitOffset 4 h)) ∈ s.wroteBack k f h := by
  unfold State.wroteBack
  simp [hl]

theorem writebackDue_writes (dt l : Nat) (tx ty : Int) (evict destOk : Bool) (s : State) (f h : Nat) :
    let u := s.elapse dt
    let k := tileKey l tx ty
    let x := u.tile k
    u.isReady 5 = true → x.place = .resident → x.frame = some f → x.header = some h → x.unbacked = false →
    evict = true ∧ u.evicts k = true ∨ evict = false ∧ x.dirty = true ∧ x.dirtyTick + u.mpg.wbInterval * 20000000 ≤ u.now →
    ∃ t : State, exec (.writebackDue dt l tx ty evict destOk) s = .next t ∧ (∀ j, j ≠ k → t.tile j = u.tile j) ∧
      (x.dirty = true → destOk = true →
        t.tile k = { x with place := if evict then .away else .resident, cells := if evict then [] else x.cells, dirty := false,
                            leafValid := true, folded := none, sought := !evict && x.sought } ∧
        HostWrite.data (u.arenaAddr (unitOffset (kindPool (u.layer (keyLayer k)).kind) f)) (u.layer (keyLayer k)).kind x.cells ∈ t.out.host ∧
        HostWrite.header (u.arenaAddr (unitOffset 4 h)) (u.headerOf k x) ∈ t.out.host ∧
        (x.leafValid = false →
          HostWrite.entry (u.arenaAddr (leafSlot (unitOffset 5 ((u.leaf k).getD 0)) k))
            (leafWord (unitOffset (kindPool (u.layer (keyLayer k)).kind) f) (unitOffset 4 h)) ∈ t.out.host)) ∧
      (x.dirty = true → destOk = false → t.tile k = { x with dirtyTick := u.now } ∧ bit t.mpg.fault.w 6 = true) ∧
      (x.dirty = false → t.tile k = { x with place := .away, cells := [], sought := false } ∧ t.out = u.out) := by
  intro u k x hr hp hf hh hu hd
  refine ⟨_, exec_writebackDue hr hp hf hu hd, ?_⟩
  by_cases hdirty : x.dirty = true
  · have hnot (h : x.dirty = false) : False := Bool.noConfusion (hdirty.symm.trans h)
    cases destOk with
    | false =>
      obtain ⟨ht, hb, ho⟩ := State.writeBackDue_fails evict hdirty
      exact ⟨ho, nofun, fun _ _ => ⟨ht, hb⟩, fun h => (hnot h).elim⟩
    | true =>
      obtain ⟨⟨ht, hm⟩, ho⟩ := State.writeBackDue_written evict hdirty hp hf hh
      exact ⟨ho, fun _ _ => ⟨ht, hm _ (State.data_mem_wroteBack f h), hm _ (State.header_mem_wroteBack f h),
        fun hl => hm _ (State.entry_mem_wroteBack f h hl)⟩, nofun, fun h => (hnot h).elim⟩
  · have he : evict = true := by
      obtain ⟨he, -⟩ | ⟨-, hd, -⟩ := hd
      · exact he
      · exact (hdirty hd).elim
    have hx : u.writeBackDue k evict destOk = u.uncache k := by
      unfold State.writeBackDue
      rw [if_neg hdirty, if_pos he]
    show (∀ j, j ≠ k → (u.writeBackDue k evict destOk).tile j = u.tile j) ∧ _
    rw [hx]
    exact ⟨fun j hj => State.onTile_tile_ne _ _ _ _ hj, fun h => (hdirty h).elim, fun h => (hdirty h).elim,
      fun _ => ⟨State.onTile_tile .., rfl⟩⟩

/-! ### The oldest unbacked tile (R135) -/

theorem exec_unbackedDrop (hr : (s.elapse dt).isReady 5 = true) (hw : (s.elapse dt).wantsRoom = true) :
    exec (.unbackedDrop dt) s = .next (s.elapse dt).dropOldest := by
  show execUnbackedDrop dt s = _
  unfold execUnbackedDrop
  exact congrArg Host.Outcome.next (State.when_pos (by rw [hr, hw]; rfl))

theorem unbackedDrop_drops (dt k : Nat) (s : State) :
    let u := s.elapse dt
    u.isReady 5 = true → u.wantsRoom = true → u.oldestUnbacked none = some k →
    ∃ t : State, exec (.unbackedDrop dt) s = .next t ∧ t.mpg.tileDrop = count32 u.mpg.tileDrop ∧ bit t.mpg.fault.w 2 = true ∧
      ((u.mpg.tiles.filter fun e => e.2.place == .lost).length < 256 →
        (t.tile k).place = .lost ∧ (t.tile k).unbacked = false ∧ ∀ j, j ≠ k → t.tile j = u.tile j) := by
  intro u hr hw hk
  refine ⟨_, exec_unbackedDrop hr hw, ?_⟩
  show u.dropOldest.mpg.tileDrop = _ ∧ bit u.dropOldest.mpg.fault.w 2 = true ∧ _
  unfold State.dropOldest
  rw [hk]
  dsimp only
  generalize hv : (u.onMpg fun m => { m with tileDrop := count32 m.tileDrop }).mpgFault 2 100 = v
  have hf := State.mpgFault_frame (s := u.onMpg fun m => { m with tileDrop := count32 m.tileDrop }) 2 100
  rw [hv] at hf
  have ht (j : Nat) : v.tile j = u.tile j := by
    rw [hf]
    rfl
  refine ⟨?_, ?_, fun h => ?_⟩
  · have hd : (v.loseTile k fun _ => {}).mpg.tileDrop = v.mpg.tileDrop := by
      unfold State.loseTile
      dsimp only
      split
      · split <;> rfl
      · rfl
    rw [hd, hf]
    rfl
  · rw [State.loseTile_fault, ← hv]
    exact State.mpgFault_bit (by decide)
  · have hl : (v.mpg.tiles.filter fun e => e.2.place == .lost).length < 256 := by
      rw [hf]
      exact h
    obtain ⟨hlost, ho⟩ := State.loseTile_tile (k := k) (fun _ => {}) hl
    rw [hlost]
    exact ⟨rfl, rfl, fun j hj => (ho j hj).trans (ht j)⟩

end Sys2Proof.Machine

namespace Sys2Proof.Machine

variable {s : State} {dt k : Nat}

/-! ### Waiting deltas (R145, R150) -/

/-- A state in which other deltas wait. -/
def State.onQueue (s : State) (q : List MergeWait) : State := s.onMpg fun m => { m with mergeQ := q }

theorem exec_mergeQueueDrain {a c : List MergeWait} {w : MergeWait} (hr : (s.elapse dt).isReady 5 = true)
    (hq : (s.elapse dt).drainable (s.elapse dt).mpg.mergeQ = some (a, w, c)) :
    let r := ((s.elapse dt).onQueue (a ++ c)).putAll State.blocked w w.keys
    exec (.mergeQueueDrain dt) s = .next (if r.1 = [] then r.2 else r.2.onQueue (a ++ { w with keys := r.1 } :: c)) := by
  show execMergeQueueDrain dt s = _
  unfold execMergeQueueDrain
  refine congrArg Host.Outcome.next ((State.when_pos hr).trans ?_)
  unfold State.drainOne
  rw [hq]
  rfl

theorem State.putAll_one {p : State → Nat → Bool} {w : MergeWait} (h : p s k = false) : s.putAll p w [k] = ([], s.putDelta w k) := by
  unfold State.putAll
  rw [List.foldl_cons, List.foldl_nil, h]
  rfl

theorem State.putAll_one_waits {p : State → Nat → Bool} {w : MergeWait} (h : p s k = true) : s.putAll p w [k] = ([k], s) := by
  unfold State.putAll
  rw [List.foldl_cons, List.foldl_nil, h]
  rfl

theorem mergeQueueDrain_merges (dt : Nat) (s : State) (a c : List MergeWait) (w : MergeWait) :
    let u := s.elapse dt
    let stay := w.keys.filter fun k => (u.tile k).place == .away
    u.isReady 5 = true → u.drainable u.mpg.mergeQ = some (a, w, c) →
    ∃ t : State, exec (.mergeQueueDrain dt) s = .next t ∧
      ((∀ k ∈ w.keys, (u.tile k).place ≠ .absent) →
        t.mpg.mergeQ = a ++ (if stay = [] then [] else [{ w with keys := stay }]) ++ c ∧
        (∀ k, k ∉ w.keys → t.tile k = u.tile k) ∧ (∀ k ∈ stay, t.tile k = u.tile k)) ∧
      (∀ k, w.keys = [k] → (u.tile k).place = .resident → t.tile k = (u.deltaInto w k).tile k) ∧
      (∀ k, w.keys = [k] → (u.tile k).place = .absent → u.cacheFull (u.isCoarse k) = false →
        t.mpg.mergeQ = a ++ c ∧ (t.tile k).place = .resident) := by
  intro u stay hr hq
  have hone (k : Nat) (hk : w.keys = [k]) :
      (u.onQueue (a ++ c)).putAll State.blocked w w.keys = ([], (u.onQueue (a ++ c)).putDelta w k) := by
    obtain ⟨j, hj, hb⟩ := State.drainable_some hq
    rw [hk] at hj ⊢
    obtain rfl := List.mem_singleton.mp hj
    exact State.putAll_one hb
  refine ⟨_, exec_mergeQueueDrain hr hq, fun ha => ?_, fun k hk hp => ?_, fun k hk hp hc => ?_⟩
  · obtain ⟨hstay, hput⟩ := State.putAll_blocked (s := u.onQueue (a ++ c)) w w.keys (List.Subset.refl _) ha []
    have hstay : ((u.onQueue (a ++ c)).putAll State.blocked w w.keys).1 = stay := hstay
    rw [hstay]
    have hk (k : Nat) (h : k ∉ w.keys ∨ (u.tile k).place = .away) :
        ((u.onQueue (a ++ c)).putAll State.blocked w w.keys).2.tile k = u.tile k := hput.stands k h
    split
    · exact ⟨hput.mergeQ.trans (by rw [List.append_nil]; rfl), fun k h => hk k (.inl h),
        fun k h => hk k (.inr (by simpa using (List.mem_filter.mp h).2))⟩
    · exact ⟨by simp [State.onQueue], fun k h => hk k (.inl h), fun k h => hk k (.inr (by simpa using (List.mem_filter.mp h).2))⟩
  · rw [hone k hk, if_pos rfl, State.putDelta_resident (s := u.onQueue (a ++ c)) hp]
    exact State.deltaInto_tile_onQueue _ w
  · rw [hone k hk, if_pos rfl, State.putDelta_absent (s := u.onQueue (a ++ c)) hp]
    exact ⟨(State.deltaInto_mergeQ w).trans (State.createTile_mergeQ hc),
      (State.deltaInto_place w).trans (State.createTile_tile k _).1⟩

theorem State.noteRange_frame (cells : List (Int × Int)) : s.noteRange cells =
    { s with mpg := { s.mpg with oor := (s.noteRange cells).mpg.oor, fault := (s.noteRange cells).mpg.fault },
             icu := (s.noteRange cells).icu } := by
  unfold State.noteRange
  dsimp only
  split
  · rfl
  · rw [State.mpgFault_frame]
    rfl

theorem State.noteRange_mustWait (cells : List (Int × Int)) : (s.noteRange cells).mustWait k = s.mustWait k := by
  rw [State.noteRange_frame]
  rfl

/-- A delta for one tile that cannot take it now waits (R145, R150). -/
theorem applyDelta_waits (d : Delta) (own : Bool) (k : Nat) (s : State)
    (ht : tilesOf d.layer (deltaCells d (cellMm (s.layer d.layer).cell)) = [k]) (hw : s.mustWait k = true) :
    (s.applyDelta d own).mpg.mergeQ = s.mpg.mergeQ ++ [{ delta := d, keys := [k], own }] ∧
      (s.applyDelta d own).mpg.tiles = s.mpg.tiles := by
  unfold State.applyDelta
  dsimp only
  rw [ht, State.putAll_one_waits ((State.noteRange_mustWait _).trans hw), if_neg (List.cons_ne_nil _ _), State.noteRange_frame]
  exact ⟨rfl, rfl⟩

/-! ### Passes over a cell, and a pair that is past (R124, R145) -/

/-- The device's own segment covers each of its cells once in a pass (R124). -/
theorem ownInto_covers (d : Delta) (k : Nat) (s : State) (c : Nat) :
    Tbl.get 0 ((s.ownInto d k).tile k).cells c =
      if c ∈ cellsIn k (deltaCells d (cellMm (s.layer d.layer).cell)) then
        ownCell d.epoch (Tbl.get 0 ((s.layer d.layer).refresh s.now (s.tile k)).cells c)
      else Tbl.get 0 ((s.layer d.layer).refresh s.now (s.tile k)).cells c := by
  have hcells : ((s.ownInto d k).tile k).cells = (s.painted (ownCell d.epoch) d k).cells := by
    rw [State.ownInto_tile]
    split
    · rfl
    · exact Tile.pair_cells ..
  rw [hcells]
  exact Tile.get_paint (ownCell_idem d.epoch) _ _ c

theorem mergeInto_past (d : Delta) (k : Nat) (s : State) (p : Nat × Word) (ho : d.origin ≠ 0)
    (hp : (s.tile k).pairs.find? (fun p => p.1 == d.origin) = some p) (hq : atOrBefore d.covSeq p.2 = true) : s.mergeInto d k = s := by
  rw [State.mergeInto_eq, if_pos]
  refine ⟨ho, ?_⟩
  unfold State.pairPast
  rw [hp]
  exact hq

end Sys2Proof.Machine

namespace Sys2Proof.Machine

variable {s t : State} {dt ring k : Nat} {d : Slot}

/-! ### Tiles as a descriptor finds them (R125, R150) -/

theorem State.settle_unsettled (ring k : Nat) : (s.settle ring).unsettled k = s.unsettled k := by
  rw [State.settle_eq]
  rfl

/-- A tile refreshed as it would be read, and used. -/
def State.settled (s : State) (k : Nat) : Tile := ((s.layer (keyLayer k)).refresh s.now (s.tile k)).used s.now

/-- A refreshed tile is not refreshed again. -/
theorem Layer.refresh_twice (y : Layer) (n : Nat) (x : Tile) :
    (y.refresh n ((y.refresh n x).used n)).used n = (y.refresh n x).used n := by
  by_cases h : y.kind = 0 ∧ x.lastEpoch ≠ y.epoch
  · have hr : ((y.refresh n x).used n).lastEpoch = y.epoch := by
      unfold Layer.refresh
      rw [if_pos h]
      rfl
    rw [Layer.refresh, if_neg fun hn => hn.2 hr]
    rfl
  · have hr : y.refresh n x = x := if_neg h
    rw [hr, Layer.refresh, if_neg (show ¬ (y.kind = 0 ∧ (x.used n).lastEpoch ≠ y.epoch) from h)]
    rfl

/-- Tiles settled and written: MPG changes in its tiles and in what waits for them. -/
structure State.Settles (s t : State) : Prop where
  frame : t = { s with mpg := { s.mpg with tiles := t.mpg.tiles, mergeQ := t.mpg.mergeQ }, out := t.out }
  settled : ∀ k, t.settled k = s.settled k
  awaited : ∀ k, s.awaited k = false → t.awaited k = false
  wf : Tbl.wf {} s.mpg.tiles = true → Tbl.wf {} t.mpg.tiles = true

theorem State.Settles.refl (s : State) : s.Settles s := ⟨rfl, fun _ => rfl, fun _ h => h, fun h => h⟩

theorem State.Settles.trans {a b c : State} (h : a.Settles b) (g : b.Settles c) : a.Settles c :=
  ⟨by rw [g.frame, h.frame], fun k => (g.settled k).trans (h.settled k), fun k ha => g.awaited k (h.awaited k ha),
    fun hw => g.wf (h.wf hw)⟩

theorem State.Settles.layer (h : s.Settles t) (l : Nat) : t.layer l = s.layer l := by
  rw [h.frame]
  rfl

theorem State.headerOf_congr (h : ∀ l, t.layer l = s.layer l) (k : Nat) (x : Tile) : t.headerOf k x = s.headerOf k x := by
  unfold State.headerOf State.tileCrc State.headerFields
  rw [h]

/-- What falls away leaves nothing waiting that did not wait. -/
theorem State.dropWaiting_awaited {j : Nat} (h : s.awaited j = false) : (s.dropWaiting k).awaited j = false := by
  unfold State.awaited at *
  rw [List.any_eq_false] at *
  intro w hw hj
  obtain ⟨hw, -⟩ := List.mem_filter.mp hw
  obtain ⟨x, hx, rfl⟩ := List.mem_map.mp hw
  refine h x hx ?_
  rw [List.contains_iff_mem] at hj ⊢
  exact (List.mem_filter.mp hj).1

/-- Nothing goes into a tile for which nothing waits. -/
theorem State.drainTile_none (h : s.awaited k = false) : s.drainTile k = s.dropWaiting k := by
  unfold State.drainTile
  rw [List.filter_eq_nil_iff.mpr (List.any_eq_false.mp h)]
  rfl

theorem State.dropWaiting_settles (k : Nat) (s : State) : s.Settles (s.dropWaiting k) :=
  ⟨rfl, fun _ => rfl, fun _ => State.dropWaiting_awaited, fun h => h⟩

theorem State.writeTile_settles (a b k : Nat) (x : Tile) : s.Settles (s.writeTile a b k x) := ⟨rfl, fun _ => rfl, fun _ h => h, fun h => h⟩

theorem State.onTile_wf {f : Tile → Tile} (h : Tbl.wf {} s.mpg.tiles = true) : Tbl.wf {} (s.onTile k f).mpg.tiles = true :=
  Tbl.wf_modify h

theorem State.settleTile_settles (h : s.awaited k = false) :
    s.Settles (s.settleTile k) ∧ (s.settleTile k).tile k = s.settled k := by
  have he : s.settleTile k = (s.dropWaiting k).onTile k fun t => ((s.layer (keyLayer k)).refresh s.now t).used s.now := by
    unfold State.settleTile
    rw [State.drainTile_none h]
    rfl
  rw [he]
  have ht : ((s.dropWaiting k).onTile k fun t => ((s.layer (keyLayer k)).refresh s.now t).used s.now).tile k = s.settled k :=
    State.onTile_tile ..
  refine ⟨(State.dropWaiting_settles k s).trans ⟨rfl, fun j => ?_, fun _ h => h, State.onTile_wf⟩, ht⟩
  by_cases hj : j = k
  · subst hj
    unfold State.settled at ht ⊢
    rw [ht]
    exact Layer.refresh_twice ..
  · unfold State.settled
    rw [State.onTile_tile_ne _ _ _ _ hj]
    rfl

/-! ### What TILE_EXPORT writes (R148) -/

/-- The writes with which tiles go out, in their order. -/
def State.exported (s : State) (addr size : Nat) : List Nat → List HostWrite
  | [] => []
  | k :: ks =>
    HostWrite.data (addr + 64) (s.layer (keyLayer k)).kind (s.settled k).cells :: HostWrite.header addr (s.headerOf k (s.settled k)) ::
      s.exported (addr + size) size ks

theorem State.exported_congr (hs : ∀ k, t.settled k = s.settled k) (hl : ∀ l, t.layer l = s.layer l) (addr size : Nat)
    (ks : List Nat) : t.exported addr size ks = s.exported addr size ks := by
  induction ks generalizing addr with
  | nil => rfl
  | cons k ks ih => simp only [State.exported, hs, hl, State.headerOf_congr hl, ih]

theorem State.exported_flatMap (s : State) (addr size : Nat) (ks : List Nat) : s.exported addr size ks =
    (List.range ks.length).flatMap fun j =>
      [HostWrite.data (addr + size * j + 64) (s.layer (keyLayer (ks.getD j 0))).kind (s.settled (ks.getD j 0)).cells,
        HostWrite.header (addr + size * j) (s.headerOf (ks.getD j 0) (s.settled (ks.getD j 0)))] := by
  induction ks generalizing addr with
  | nil => rfl
  | cons k ks ih =>
    have hstep (j : Nat) : addr + size + size * j = addr + size * (j + 1) := by ring
    unfold State.exported
    rw [ih, List.length_cons, List.range_succ_eq_map, List.flatMap_cons, List.flatMap_map]
    simp only [hstep]
    rfl

theorem State.exportTiles_settles (addr size : Nat) (ks : List Nat) (h : ∀ k ∈ ks, s.awaited k = false) :
    s.Settles (s.exportTiles addr size ks) ∧
      (s.exportTiles addr size ks).out.host = (s.exported addr size ks).reverse ++ s.out.host := by
  induction ks generalizing s addr with
  | nil => exact ⟨.refl s, rfl⟩
  | cons k ks ih =>
    obtain ⟨hs, ht⟩ := State.settleTile_settles (h k List.mem_cons_self)
    have hw := hs.trans (State.writeTile_settles (addr + 64) addr k ((s.settleTile k).tile k))
    obtain ⟨hi, ho⟩ := ih (s := (s.settleTile k).writeTile (addr + 64) addr k ((s.settleTile k).tile k)) (addr + size)
      fun j hj => hw.awaited j (h j (List.mem_cons_of_mem _ hj))
    refine ⟨hw.trans hi, ho.trans ?_⟩
    have hout : (s.settleTile k).out = s.out := by
      unfold State.settleTile
      rw [State.drainTile_none (h k List.mem_cons_self)]
      rfl
    rw [State.exported_congr hw.settled hw.layer, State.writeTile_host, State.headerOf_congr hs.layer, hs.layer, ht, hout]
    simp [State.exported]

/-- The tiles a TILE_EXPORT writes: those of its rectangle that are resident. -/
def State.exportKeys (s : State) (d : DescBits) : List Nat := (rectKeys d).filter fun k => (s.tile k).place == .resident

theorem exec_tileExport {destOk : Bool} (hd : (s.elapse dt).headRuns ring 0x09 d)
    (hc : checksPass ((s.elapse dt).tileExportChecks d.desc)) (hs : ∀ k ∈ rectKeys d.desc, (s.elapse dt).unsettled k = false) :
    let u := s.elapse dt
    let b := u.settle ring
    let l := dfield d.desc 16 1
    let v := b.exportTiles (dfield d.desc 24 8) (64 + tileBytes (u.layer l).kind) (u.exportKeys d.desc)
    let w := if dFlag d.desc 4 then v.discard l (u.exportKeys d.desc) else v
    exec (.tileExport dt ring destOk) s = .next (if destOk = false then b.dmaError.finishHead ring 0x09 0 0
      else w.finishHead ring 0x00 (u.exportKeys d.desc).length w.mpg.covSeq.toNat) := by
  intro u b l v w
  have hb : b.mpg = u.mpg := State.settle_mpg ring
  have hcb : checksPass (b.tileExportChecks d.desc) := by
    unfold State.tileExportChecks State.layerOn State.layer
    rw [hb]
    exact hc
  have hany : (rectKeys d.desc).any b.unsettled = false :=
    List.any_eq_false.mpr fun k hk => by rw [State.settle_unsettled, hs k hk]; exact Bool.false_ne_true
  have hk : ((rectKeys d.desc).filter fun k => (b.tile k).place == .resident) = u.exportKeys d.desc := by
    unfold State.exportKeys State.tile
    rw [hb]
  have hl : b.layer l = u.layer l := by
    unfold State.layer
    rw [hb]
  show execTileExport dt ring destOk s = _
  unfold execTileExport
  rw [State.runDesc_headRuns hd, State.checked_pass hcb]
  dsimp only
  rw [hany, if_neg Bool.false_ne_true, hk, hl]
  rfl

theorem tileExport_rect {d : DescBits} (h : checksPass (s.tileExportChecks d)) : checksPass (rectChecks d) := by
  unfold State.tileExportChecks at h
  simp only [checksPass_append] at h
  exact h.1.1.2

theorem tileExport_writes (dt ring : Nat) (destOk : Bool) (s : State) (d : Slot) :
    let u := s.elapse dt
    let b := u.settle ring
    let l := dfield d.desc 16 1
    let sz := 64 + tileBytes (u.layer l).kind
    let ks := (rectKeys d.desc).filter fun k => (u.tile k).place == .resident
    u.headRuns ring 0x09 d → checksPass (u.tileExportChecks d.desc) → (∀ k ∈ rectKeys d.desc, u.unsettled k = false) →
    (destOk = false → exec (.tileExport dt ring destOk) s = .next (b.dmaError.finishHead ring 0x09 0 0)) ∧
    (destOk = true → (∀ k ∈ ks, u.awaited k = false) →
      ∃ (v : State) (more ws : List HostWrite),
        exec (.tileExport dt ring destOk) s = .next (v.finishHead ring 0x00 ks.length u.mpg.covSeq.toNat) ∧
        v.out.host = more ++ ws ++ b.out.host ∧
        (dFlag d.desc 4 = false → more = [] ∧ v = { b with mpg := { u.mpg with tiles := v.mpg.tiles, mergeQ := v.mpg.mergeQ }, out := v.out }) ∧
        (dFlag d.desc 4 = true → Tbl.wf {} u.mpg.tiles = true → ∀ k ∈ ks, v.tile k = {}) ∧
        ws.reverse = (List.range ks.length).flatMap fun j =>
          let k := ks.getD j 0
          let x := ((u.layer (keyLayer k)).refresh u.now (u.tile k)).used u.now
          [HostWrite.data (dfield d.desc 24 8 + sz * j + 64) (u.layer l).kind x.cells,
            HostWrite.header (dfield d.desc 24 8 + sz * j) (u.headerOf k x)]) := by
  intro u b l sz ks hd hc hs
  have hx := exec_tileExport (destOk := destOk) hd hc hs
  refine ⟨fun hno => hx.trans (by rw [if_pos hno]), fun hok hq => ?_⟩
  have hb : b.mpg = u.mpg := State.settle_mpg ring
  have hlayer (l : Nat) : b.layer l = u.layer l := by
    unfold State.layer
    rw [hb]
  have hsettled (k : Nat) : b.settled k = u.settled k := by
    unfold State.settled State.tile
    rw [hlayer, hb, State.settle_now]
  obtain ⟨hv, ho⟩ := State.exportTiles_settles (s := b) (dfield d.desc 24 8) sz ks fun k hk => by
    unfold State.awaited
    rw [hb]
    exact hq k hk
  -- the writes of the tiles, and what discarding them afterwards adds
  have hws : (b.exported (dfield d.desc 24 8) sz ks).reverse.reverse = (List.range ks.length).flatMap fun j =>
      [HostWrite.data (dfield d.desc 24 8 + sz * j + 64) (u.layer l).kind (u.settled (ks.getD j 0)).cells,
        HostWrite.header (dfield d.desc 24 8 + sz * j) (u.headerOf (ks.getD j 0) (u.settled (ks.getD j 0)))] := by
    rw [List.reverse_reverse, State.exported_congr hsettled hlayer, State.exported_flatMap]
    refine List.flatMap_congr fun j hj => ?_
    have hmem : ks.getD j 0 ∈ ks := by
      rw [List.getD_eq_getElem _ _ (List.mem_range.mp hj)]
      exact List.getElem_mem _
    rw [keyLayer_rectKeys (tileExport_rect hc) (List.mem_filter.mp hmem).1]
  have hcov : (b.exportTiles (dfield d.desc 24 8) sz ks).mpg.covSeq = u.mpg.covSeq := by rw [hv.frame, ← hb]
  cases hrel : dFlag d.desc 4 with
  | false =>
    refine ⟨_, [], _, hx.trans ?_, ho, fun _ => ⟨rfl, ?_⟩, nofun, hws⟩
    · rw [hok, hrel, if_neg (by decide), if_neg Bool.false_ne_true, ← hcov]
      rfl
    · rw [← hb]
      exact hv.frame
  | true =>
    have hp := State.discard_pages (s := b.exportTiles (dfield d.desc 24 8) sz ks) l ks
    obtain ⟨more, hmore⟩ := hp.host
    refine ⟨_, more, _, hx.trans ?_, hmore.symm.trans (by rw [ho, List.append_assoc]), nofun, fun _ hw k hk => ?_, hws⟩
    · rw [hok, hrel, if_neg (by decide), if_pos rfl, ← hcov, ← hp.rasters.covSeq]
      rfl
    · rw [State.discard_tile l (hv.wf (by rw [hb]; exact hw)) (.inl hk), if_pos hk]

end Sys2Proof.Machine

namespace Sys2Proof.Machine

variable {s t : State} {dt ring k : Nat} {d : Slot}

/-! ### One tile of an import (R143, R144) -/

/-- The keys of a tile's cells are each their own. -/
theorem parseCells_nodup (kind : Nat) (data : List Byte) : ((parseCells kind data).map Prod.fst).Nodup := by
  unfold parseCells
  dsimp only
  rw [List.map_filterMap]
  refine List.Nodup.filterMap (fun a b c ha hb => ?_) List.nodup_range
  have hkey {x : Nat} (h : c ∈ (if wordAt data 0 data.length / 2 ^ (kindBits kind * x) % 2 ^ kindBits kind = 0 then none
      else some (x, wordAt data 0 data.length / 2 ^ (kindBits kind * x) % 2 ^ kindBits kind)).map Prod.fst) : x = c := by
    split at h
    · cases h
    · exact Option.some.inj h
  exact (hkey ha).trans (hkey hb).symm

theorem parseTile_nodup (kind : Nat) (b : List Byte) : ((parseTile kind b).cells.map Prod.fst).Nodup := by
  unfold parseTile
  dsimp only
  exact parseCells_nodup ..

theorem mergeCell_zero (p : Word) (v : Nat) : mergeCell p 0 v = v := if_neg (Nat.not_lt_zero _)

/-- What an imported tile makes of the tile that was there: it takes its place, or is merged into it cell by cell (R144). -/
structure Imported.Lands (merge : Bool) (y : Layer) (now : Nat) (i : Imported) (old new : Tile) : Prop where
  replaces : merge = false → new = Tile.replace y now i old
  merges : merge = true → ∀ c, Tbl.get 0 new.cells c = mergeCell y.epoch (Tbl.get 0 i.cells c) (Tbl.get 0 (y.refresh now old).cells c)

/-- An imported tile brought in: MPG changes in that tile, in what waits, and in its faults. -/
structure State.Imports (k : Nat) (s t : State) : Prop where
  frame : t = { s with mpg := { s.mpg with tiles := t.mpg.tiles, mergeQ := t.mpg.mergeQ, fault := t.mpg.fault }, icu := t.icu }
  others : ∀ j, j ≠ k → t.tile j = s.tile j
  awaited : ∀ j, s.awaited j = false → t.awaited j = false

theorem State.Imports.refl (k : Nat) (s : State) : s.Imports k s := ⟨rfl, fun _ _ => rfl, fun _ h => h⟩

theorem State.Imports.trans {a b c : State} (h : a.Imports k b) (g : b.Imports k c) : a.Imports k c :=
  ⟨by rw [g.frame, h.frame], fun j hj => (g.others j hj).trans (h.others j hj), fun j ha => g.awaited j (h.awaited j ha)⟩

theorem State.dropWaiting_imports (k : Nat) (s : State) : s.Imports k (s.dropWaiting k) :=
  ⟨rfl, fun _ _ => rfl, fun _ => State.dropWaiting_awaited⟩

theorem State.onTile_imports (f : Tile → Tile) : s.Imports k (s.onTile k f) :=
  ⟨rfl, fun _ hj => State.onTile_tile_ne _ _ _ _ hj, fun _ h => h⟩

theorem State.setPair_imports (o : Nat) (q : Word) : s.Imports k (s.setPair k o q) := by
  refine (State.onTile_imports (k := k) (Tile.pair o q)).trans ?_
  unfold State.setPair
  dsimp only
  split
  · refine ⟨?_, fun j _ => State.mpgFault_tile .., fun j h => ?_⟩ <;> rw [State.mpgFault_frame]
    exact h
  · exact .refl k _

/-- An imported tile in the state its tile has been found in. -/
def State.fillTile (merge : Bool) (y : Layer) (i : Imported) (s : State) : State :=
  if merge then s.mergeTile y i else s.onTile i.key (Tile.replace y s.now i)

theorem State.mergeTile_merges (y : Layer) {i : Imported} (hi : (i.cells.map Prod.fst).Nodup) : s.Imports i.key (s.mergeTile y i) ∧
    ∀ c, Tbl.get 0 ((s.mergeTile y i).tile i.key).cells c =
      mergeCell y.epoch (Tbl.get 0 i.cells c) (Tbl.get 0 (y.refresh s.now (s.tile i.key)).cells c) := by
  unfold State.mergeTile
  extract_lets v
  have hv : s.Imports i.key v := State.onTile_imports _
  have hc (c : Nat) : Tbl.get 0 (v.tile i.key).cells c =
      mergeCell y.epoch (Tbl.get 0 i.cells c) (Tbl.get 0 (y.refresh s.now (s.tile i.key)).cells c) := by
    have hr : (y.refresh s.now { s.tile i.key with place := .resident, failTick := none }).cells = (y.refresh s.now (s.tile i.key)).cells := by
      unfold Layer.refresh
      by_cases h : y.kind = 0 ∧ (s.tile i.key).lastEpoch ≠ y.epoch
      · rw [if_pos h, if_pos h]
        rfl
      · rw [if_neg h, if_neg h]
    unfold v
    rw [State.onTile_tile]
    exact (Tbl.get_merged (mergeCell_zero y.epoch) hi).trans (by rw [hr])
  -- the pairs that follow leave the cells
  have hpairs (f : State → Nat × Word → State)
      (hf : ∀ a p, a.Imports i.key (f a p) ∧ ((f a p).tile i.key).cells = (a.tile i.key).cells) :
      v.Imports i.key (i.pairs.foldl f v) ∧ ((i.pairs.foldl f v).tile i.key).cells = (v.tile i.key).cells :=
    foldl_related (R := fun a b => a.Imports i.key b ∧ (b.tile i.key).cells = (a.tile i.key).cells) v
      (fun a => ⟨.refl _ a, rfl⟩) (fun h g => ⟨h.1.trans g.1, g.2.trans h.2⟩) hf i.pairs
  have hset (a : State) (p : Nat × Word) :
      a.Imports i.key (a.setPair i.key p.1 p.2) ∧ ((a.setPair i.key p.1 p.2).tile i.key).cells = (a.tile i.key).cells :=
    ⟨State.setPair_imports .., by rw [State.setPair_tile, Tile.pair_cells]⟩
  refine ⟨hv.trans (hpairs _ fun a p => ?_).1, fun c => (congrArg (Tbl.get 0 · c) (hpairs _ fun a p => ?_).2).trans (hc c)⟩ <;>
  · split
    · split
      · exact hset a p
      · exact ⟨.refl _ a, rfl⟩
    · exact hset a p

theorem State.fillTile_lands {merge : Bool} (y : Layer) {i : Imported} (hi : (i.cells.map Prod.fst).Nodup) :
    s.Imports i.key (s.fillTile merge y i) ∧ i.Lands merge y s.now (s.tile i.key) ((s.fillTile merge y i).tile i.key) := by
  cases merge with
  | false => exact ⟨State.onTile_imports _, fun _ => State.onTile_tile .., nofun⟩
  | true =>
    obtain ⟨hs, hc⟩ := State.mergeTile_merges (s := s) y hi
    exact ⟨hs, nofun, fun _ => hc⟩

/-- A tile that is there, and for which nothing waits, takes what is imported at once. -/
theorem State.importTile_present {merge : Bool} {i : Imported} (hf : (s.tile i.key).frame.isSome = true)
    (hp : (s.tile i.key).place = .resident) (ha : s.awaited i.key = false) :
    s.importTile merge i = some ((s.dropWaiting i.key).fillTile merge (s.layer (keyLayer i.key)) i) := by
  have hs : (if merge then s.drainTile i.key else s.dropWaiting i.key) = s.dropWaiting i.key := by
    rw [State.drainTile_none ha, ite_self]
  unfold State.importTile
  dsimp only
  rw [hs, if_pos (show ((s.dropWaiting i.key).tile i.key).place = .resident from hp),
    if_pos (Or.inl (show ((s.dropWaiting i.key).tile i.key).frame.isSome = true from hf))]
  rfl

/-- Tiles that are there take what is imported one after another. -/
theorem State.importTiles_present {merge : Bool} {ts : List Imported} (n : Nat) (hn : (ts.map Imported.key).Nodup)
    (hi : ∀ i ∈ ts, (i.cells.map Prod.fst).Nodup)
    (ht : ∀ i ∈ ts, (s.tile i.key).frame.isSome = true ∧ (s.tile i.key).place = .resident ∧ s.awaited i.key = false) :
    ∃ v : State, s.importTiles merge ts n = (true, n + ts.length, v) ∧
      (∀ i ∈ ts, i.Lands merge (s.layer (keyLayer i.key)) s.now (s.tile i.key) (v.tile i.key)) ∧
      (∀ k, (∀ i ∈ ts, i.key ≠ k) → v.tile k = s.tile k) ∧ v.mpg.grants = s.mpg.grants := by
  induction ts generalizing s n with
  | nil => exact ⟨s, rfl, nofun, fun _ _ => rfl, rfl⟩
  | cons i ts ih =>
    obtain ⟨hk, hn⟩ := List.nodup_cons.mp hn
    obtain ⟨hf, hp, ha⟩ := ht i List.mem_cons_self
    have hne (j : Imported) (hj : j ∈ ts) : j.key ≠ i.key := fun h => hk (h ▸ List.mem_map_of_mem hj)
    obtain ⟨hs, hl⟩ := State.fillTile_lands (s := s.dropWaiting i.key) (merge := merge) (s.layer (keyLayer i.key)) (hi i List.mem_cons_self)
    have hs := (State.dropWaiting_imports i.key s).trans hs
    generalize hv : (s.dropWaiting i.key).fillTile merge (s.layer (keyLayer i.key)) i = v at hs hl
    have hlayer (l : Nat) : v.layer l = s.layer l := by
      rw [hs.frame]
      rfl
    have hnow : v.now = s.now := by
      rw [hs.frame]
      rfl
    obtain ⟨w, hw, hlands, hothers, hgrants⟩ := ih (s := v) (n + 1) hn (fun j hj => hi j (List.mem_cons_of_mem _ hj)) fun j hj => by
      obtain ⟨h1, h2, h3⟩ := ht j (List.mem_cons_of_mem _ hj)
      rw [hs.others _ (hne j hj)]
      exact ⟨h1, h2, hs.awaited _ h3⟩
    refine ⟨w, ?_, fun j hj => ?_, fun k hk => ?_, hgrants.trans (by rw [hs.frame])⟩
    · unfold State.importTiles
      rw [State.importTile_present hf hp ha, hv]
      exact hw.trans (by rw [List.length_cons, Nat.add_right_comm, Nat.add_assoc])
    · rcases List.mem_cons.mp hj with rfl | hj
      · rw [hothers _ hne]
        exact hl
      · have h := hlands j hj
        rw [hlayer, hnow, hs.others _ (hne j hj)] at h
        exact h
    · exact (hothers k fun j hj => hk j (List.mem_cons_of_mem _ hj)).trans (hs.others k (hk i List.mem_cons_self).symm)

/-! ### A tile that is not there (R134, R143) -/

theorem State.importTile_refused {i : Imported} {w : NoFrame} (hf : (s.tile i.key).frame = none) (hu : (s.tile i.key).unbacked = false)
    (hw : s.frameCheck i.key = some w) : s.importTile false i = none := by
  unfold State.importTile
  dsimp only
  have ht : (s.dropWaiting i.key).tile i.key = s.tile i.key := rfl
  rw [if_neg Bool.false_ne_true, ht, hf, hu, if_neg (by decide), show (s.dropWaiting i.key).frameCheck i.key = some w from hw]

/-- A tile that is not resident comes in with the frame it has, or with one it is given. -/
theorem State.importTile_new {i : Imported} (hp : (s.tile i.key).place ≠ .resident) (hc : s.cacheFull (s.isCoarse i.key) = false)
    (hf : (s.tile i.key).frame.isSome = true ∨ s.frameCheck i.key = none ∧ (s.tile i.key).unbacked = false) :
    ∃ v : State, s.importTile false i = some v ∧ (v.tile i.key).frame.isSome = true ∧ (v.tile i.key).place = .resident ∧
      (v.tile i.key).pairs = i.pairs ∧ (v.tile i.key).cells = (Tile.replace (s.layer (keyLayer i.key)) s.now i {}).cells ∧
      ∀ k, k ≠ i.key → v.tile k = s.tile k := by
  unfold State.importTile
  dsimp only
  have ht : (s.dropWaiting i.key).tile i.key = s.tile i.key := rfl
  rw [if_neg Bool.false_ne_true, ht, if_neg hp, State.makeSpace_none (s := s.dropWaiting i.key) hc]
  by_cases hb : (s.tile i.key).frame.isSome = true ∨ (s.tile i.key).unbacked = true
  · have hsome : (s.tile i.key).frame.isSome = true := by
      obtain h | ⟨-, hu⟩ := hf
      · exact h
      · exact hb.resolve_right (by rw [hu]; exact Bool.false_ne_true)
    rw [if_pos hb]
    refine ⟨_, rfl, ?_⟩
    rw [if_neg Bool.false_ne_true, State.onTile_tile]
    exact ⟨hsome, rfl, rfl, rfl, fun k hk => State.onTile_tile_ne _ _ _ _ hk⟩
  · rw [if_neg hb]
    have hcheck : (s.dropWaiting i.key).frameCheck i.key = none := (hf.resolve_left fun h => hb (.inl h)).1
    rw [hcheck]
    refine ⟨_, rfl, ?_⟩
    generalize hr : (if (s.tile i.key).place = .lost then (s.dropWaiting i.key).onTile i.key fun _ => {} else s.dropWaiting i.key) = r
    have hro (k : Nat) (hk : k ≠ i.key) : r.tile k = s.tile k := by
      rw [← hr]
      split
      · exact State.onTile_tile_ne _ _ _ _ hk
      · rfl
    obtain ⟨f, h, hg⟩ := State.giveFrame_tile i.key
      (r.onTile i.key fun t => { t with place := .resident, lastEpoch := (s.layer (keyLayer i.key)).epoch })
    rw [if_neg Bool.false_ne_true, State.onTile_tile, hg]
    refine ⟨rfl, rfl, rfl, rfl, fun k hk => ?_⟩
    rw [State.onTile_tile_ne _ _ _ _ hk, (State.giveFrame_pages (p := {i.key}) rfl).tiles k hk, State.onTile_tile_ne _ _ _ _ hk]
    exact hro k hk

end Sys2Proof.Machine

namespace Sys2Proof.Machine

variable {s : State} {dt ring : Nat} {d : Slot}

/-! ### TILE_IMPORT (R143-R145) -/

theorem State.settle_layer (ring l : Nat) : (s.settle ring).layer l = s.layer l := by
  unfold State.layer
  rw [State.settle_mpg]

theorem State.settle_tile (ring k : Nat) : (s.settle ring).tile k = s.tile k := by
  unfold State.tile
  rw [State.settle_mpg]

theorem exec_tileImport_error (hd : (s.elapse dt).headRuns ring 0x08 d) (hc : checksPass (tileImportChecks d.desc)) :
    exec (.tileImport dt ring .error) s = .next (((s.elapse dt).settle ring).dmaError.finishHead ring 0x09 0 0) := by
  show execTileImport dt ring .error s = _
  unfold execTileImport
  rw [State.runDesc_headRuns hd, State.checked_pass hc]
  rfl

theorem exec_tileImport_data (raw : List Byte) (hd : (s.elapse dt).headRuns ring 0x08 d) (hc : checksPass (tileImportChecks d.desc)) :
    let b := (s.elapse dt).settle ring
    let bs := raw.take (dfield d.desc 24 4)
    exec (.tileImport dt ring (.data raw)) s = .next (if dFlag d.desc 5 then b.importDeltas ring (dLength d.desc) bs
      else b.importWhole ring (dLength d.desc) (dFlag d.desc 4) bs) := by
  show execTileImport dt ring (.data raw) s = _
  unfold execTileImport
  rw [State.runDesc_headRuns hd, State.checked_pass hc]
  rfl

/-- Deltas that pass their checks and for whose waiting there is room are applied. -/
theorem State.importDeltas_applies {n : Nat} {bs : List Byte}
    (hc : checksPass ((slices bs 48 n).flatMap fun e => s.deltaChecks e.2 e.1))
    (hq : s.mergeCount + (((slices bs 48 n).map fun e => parseDelta e.2).filter s.deltaWaits).length ≤ 4096) :
    s.importDeltas ring n bs =
      (((slices bs 48 n).map fun e => parseDelta e.2).foldl (fun s d => s.applyDelta d false) s).finishHead ring 0x00 0 0 := by
  unfold State.importDeltas
  rw [firstBad_pass hc]
  dsimp only
  rw [if_neg fun h => absurd h.1 (Nat.not_lt.mpr hq)]
  rfl

/-- The whole tiles of a buffer, by the layer that its first one names. -/
def State.wholeTiles (s : State) (n : Nat) (bs : List Byte) : List Imported :=
  let y := s.layer (wordAt bs 4 1)
  (slices bs (64 + tileBytes y.kind) n).map fun e => parseTile y.kind e.2

/-- Whole tiles that pass their checks are brought in, until one is refused a frame. -/
theorem State.importWhole_brings {n : Nat} {merge : Bool} {bs : List Byte} (hl : wordAt bs 4 1 ≤ 31)
    (he : (s.layer (wordAt bs 4 1)).enable = true) (hk : merge = true → (s.layer (wordAt bs 4 1)).kind = 0)
    (hn : bs.length = n * (64 + tileBytes (s.layer (wordAt bs 4 1)).kind))
    (hc : checksPass ((slices bs (64 + tileBytes (s.layer (wordAt bs 4 1)).kind) n).flatMap fun e =>
      tileChecks (wordAt bs 4 1) (s.layer (wordAt bs 4 1)) e.2 e.1))
    (hs : merge = true → ∀ i ∈ s.wholeTiles n bs, s.unsettled i.key = false) :
    let r := s.importTiles merge (s.wholeTiles n bs) 0
    s.importWhole ring n merge bs =
      if r.1 then r.2.2.finishHead ring 0x00 0 0 else r.2.2.finishHead ring 0x04 (wordAt bs 4 1) r.2.1 := by
  have hany : (merge && (s.wholeTiles n bs).any fun i => s.unsettled i.key) = false := by
    cases merge with
    | false => rfl
    | true => exact List.any_eq_false.mpr fun i hi => by rw [hs rfl i hi]; exact Bool.false_ne_true
  unfold State.importWhole
  dsimp only
  rw [if_neg (by rw [he, decide_eq_false (Nat.not_lt.mpr hl)]; decide), if_neg, if_neg (not_not_intro hn), firstBad_pass hc]
  · unfold State.wholeTiles at hany ⊢
    dsimp only at hany ⊢
    rw [hany, if_neg Bool.false_ne_true]
    rfl
  · cases merge with
    | false => exact Bool.false_ne_true
    | true => rw [hk rfl]; decide

/-- A whole tile that passes its checks is the layer's own. -/
theorem State.mem_wholeTiles {n : Nat} {bs : List Byte} {i : Imported}
    (hc : checksPass ((slices bs (64 + tileBytes (s.layer (wordAt bs 4 1)).kind) n).flatMap fun e =>
      tileChecks (wordAt bs 4 1) (s.layer (wordAt bs 4 1)) e.2 e.1))
    (hi : i ∈ s.wholeTiles n bs) : keyLayer i.key = wordAt bs 4 1 ∧ (i.cells.map Prod.fst).Nodup := by
  obtain ⟨e, he, rfl⟩ := List.mem_map.mp hi
  refine ⟨?_, parseTile_nodup _ _⟩
  have hall (c : Bool × Nat) (h : c ∈ tileChecks (wordAt bs 4 1) (s.layer (wordAt bs 4 1)) e.2 e.1) : c.1 = true :=
    hc c (List.mem_flatMap.mpr ⟨e, he, h⟩)
  unfold tileChecks at hall
  simp only [List.cons_append, List.mem_cons, forall_eq_or_imp, Bool.and_eq_true, beq_iff_eq] at hall
  obtain ⟨⟨hlayer, -⟩, -⟩ := hall
  exact (keyLayer_tileKey (fromTwos_inRange _) (fromTwos_inRange _)).trans hlayer

theorem tileImport_brings (dt ring : Nat) (buf : HostRead) (s : State) (d : Slot) :
    let u := s.elapse dt
    let b := u.settle ring
    let n := dLength d.desc
    u.headRuns ring 0x08 d → checksPass (tileImportChecks d.desc) →
    (buf = .error → exec (.tileImport dt ring buf) s = .next (b.dmaError.finishHead ring 0x09 0 0)) ∧
    (∀ raw, buf = .data raw →
      let bs := raw.take (dfield d.desc 24 4)
      let l := wordAt bs 4 1
      let y := u.layer l
      let sz := 64 + tileBytes y.kind
      let ts := (slices bs sz n).map fun e => parseTile y.kind e.2
      let merge := dFlag d.desc 4
      let ds := (slices bs 48 n).map fun e => parseDelta e.2
      (dFlag d.desc 5 = true → checksPass ((slices bs 48 n).flatMap fun e => u.deltaChecks e.2 e.1) →
        u.mergeCount + (ds.filter u.deltaWaits).length ≤ 4096 →
        exec (.tileImport dt ring buf) s = .next ((ds.foldl (fun s d => s.applyDelta d false) b).finishHead ring 0x00 0 0)) ∧
      (dFlag d.desc 5 = false → l ≤ 31 → y.enable = true → (merge = true → y.kind = 0) → bs.length = n * sz →
        checksPass ((slices bs sz n).flatMap fun e => tileChecks l y e.2 e.1) →
        (∀ i w, ts = [i] → merge = false → (u.tile i.key).frame = none → (u.tile i.key).unbacked = false →
          u.frameCheck i.key = some w →
          exec (.tileImport dt ring buf) s = .next ((b.noteNoFrame w).finishHead ring 0x04 l 0)) ∧
        (∀ i, ts = [i] → merge = false → (u.tile i.key).place ≠ .resident → u.cacheFull (u.isCoarse i.key) = false →
          (u.tile i.key).frame.isSome = true ∨ u.frameCheck i.key = none ∧ (u.tile i.key).unbacked = false →
          ∃ v : State, exec (.tileImport dt ring buf) s = .next (v.finishHead ring 0x00 0 0) ∧ (v.tile i.key).frame.isSome = true ∧
            (v.tile i.key).place = .resident ∧ (v.tile i.key).pairs = i.pairs ∧
            (v.tile i.key).cells = (Tile.replace y u.now i {}).cells ∧ ∀ k, k ≠ i.key → v.tile k = u.tile k) ∧
        ((ts.map Imported.key).Nodup →
        (∀ i ∈ ts, (u.tile i.key).frame.isSome = true ∧ (u.tile i.key).place = .resident ∧ u.awaited i.key = false) →
        ∃ v : State, exec (.tileImport dt ring buf) s = .next (v.finishHead ring 0x00 0 0) ∧
          (merge = false → ∀ i ∈ ts, v.tile i.key = Tile.replace y u.now i (u.tile i.key)) ∧
          (merge = true → ∀ i ∈ ts, ∀ c,
            Tbl.get 0 (v.tile i.key).cells c =
              mergeCell y.epoch (Tbl.get 0 i.cells c) (Tbl.get 0 (y.refresh u.now (u.tile i.key)).cells c)) ∧
          (∀ k, (∀ i ∈ ts, i.key ≠ k) → v.tile k = u.tile k) ∧ v.mpg.grants = u.mpg.grants))) := by
  intro u b n hd hc
  refine ⟨fun h => by rw [h]; exact exec_tileImport_error hd hc, fun raw hraw => ?_⟩
  intro bs l y sz ts merge ds
  have hx := exec_tileImport_data raw hd hc
  rw [← hraw] at hx
  -- judging the head leaves what the import reads
  have hb : b = { u with hre := b.hre, icu := b.icu, out := b.out } := State.settle_eq ring
  refine ⟨fun h5 hcheck hroom => ?_, fun h5 hl he hk hn hcheck => ?_⟩
  · refine hx.trans (congrArg Host.Outcome.next ((if_pos h5).trans (State.importDeltas_applies ?_ ?_)))
    · have hchecks : b.deltaChecks = u.deltaChecks := by rw [hb]; rfl
      rw [hchecks]
      exact hcheck
    · have hwaits : b.deltaWaits = u.deltaWaits := by rw [hb]; rfl
      have hcount : b.mergeCount = u.mergeCount := by rw [hb]; rfl
      rw [hwaits, hcount]
      exact hroom
  · have hby : b.layer l = y := State.settle_layer ring l
    have hts : b.wholeTiles n bs = ts := by
      unfold State.wholeTiles
      rw [hby]
    have htile (k : Nat) : b.tile k = u.tile k := State.settle_tile ring k
    have hmem (i : Imported) (hi : i ∈ ts) : keyLayer i.key = l ∧ (i.cells.map Prod.fst).Nodup :=
      State.mem_wholeTiles (s := u) hcheck hi
    have hrun (hs : merge = true → ∀ i ∈ ts, b.unsettled i.key = false) : exec (.tileImport dt ring buf) s =
        .next (if (b.importTiles merge ts 0).1 then (b.importTiles merge ts 0).2.2.finishHead ring 0x00 0 0
          else (b.importTiles merge ts 0).2.2.finishHead ring 0x04 l (b.importTiles merge ts 0).2.1) := by
      refine hx.trans (congrArg Host.Outcome.next ((if_neg (by rw [h5]; exact Bool.false_ne_true)).trans ?_))
      rw [← hts] at hs ⊢
      rw [← hby] at he hk hcheck
      exact State.importWhole_brings hl he hk (by rw [hn, hby]) (by rw [hby] at hcheck ⊢; exact hcheck) hs
    refine ⟨fun i w hone hm hf hu hw => ?_, fun i hone hm hp hfull hf => ?_, fun hnodup hall => ?_⟩
    · have hcheck : b.frameCheck i.key = some w := by rw [← hw, hb]; rfl
      rw [hrun (fun h => by rw [hm] at h; cases h), hone, hm]
      unfold State.importTiles
      rw [State.importTile_refused (by rw [htile]; exact hf) (by rw [htile]; exact hu) hcheck, hcheck]
      rfl
    · have hfb : (b.tile i.key).frame.isSome = true ∨ b.frameCheck i.key = none ∧ (b.tile i.key).unbacked = false := by
        rw [htile, show b.frameCheck i.key = u.frameCheck i.key by rw [hb]; rfl]
        exact hf
      obtain ⟨v, hv, h1, h2, h3, h4, h5⟩ := State.importTile_new (s := b) (by rw [htile]; exact hp)
        (show b.cacheFull (b.isCoarse i.key) = false by rw [← hfull, hb]; rfl) hfb
      rw [State.settle_now, (hmem i (by rw [hone]; exact List.mem_singleton.mpr rfl)).1, hby] at h4
      refine ⟨v, ?_, h1, h2, h3, h4, fun k hk => (h5 k hk).trans (htile k)⟩
      rw [hrun (fun h => by rw [hm] at h; cases h), hone, hm]
      unfold State.importTiles
      rw [hv]
      rfl
    · have hawait (k : Nat) : b.awaited k = u.awaited k := by rw [hb]; rfl
      obtain ⟨v, hv, hlands, hothers, hgrants⟩ := State.importTiles_present (s := b) (merge := merge) 0 hnodup
        (fun i hi => (hmem i hi).2) fun i hi => by
          rw [htile, hawait]
          exact hall i hi
      have hlands (i : Imported) (hi : i ∈ ts) : i.Lands merge y u.now (u.tile i.key) (v.tile i.key) := by
        have h := hlands i hi
        rw [(hmem i hi).1, hby, htile, State.settle_now] at h
        exact h
      refine ⟨v, ?_, fun hm i hi => (hlands i hi).replaces hm, fun hm i hi => (hlands i hi).merges hm,
        fun k hk => (hothers k hk).trans (htile k), hgrants.trans (by rw [hb])⟩
      rw [hrun fun _ i hi => ?_, hv]
      · rfl
      · unfold State.unsettled
        rw [htile, (hall i hi).2.1]
        rfl

/-- Settles O49: imports and exports, fetches, write-backs, drops, merges and passes, each by its own lemma. -/
theorem tilesComeAndGo : Obligations.TilesComeAndGo := by
  unfold Obligations.TilesComeAndGo
  exact ⟨tileImport_brings, tileExport_writes, tileFetch_brings, writebackDue_writes, unbackedDrop_drops, mergeQueueDrain_merges,
    applyDelta_waits, fun d k s => ⟨ownInto_covers d k s, mergeInto_past d k s⟩⟩

end Sys2Proof.Machine

namespace Sys2Proof.Machine

variable {s t : State} {dt ring l : Nat} {d : Slot}

/-! ### Grants (R131, R132, R136) -/

theorem exec_arenaGrant (hd : (s.elapse dt).headRuns ring 0x06 d) (hc : checksPass ((s.elapse dt).arenaGrantChecks d.desc)) :
    let u := s.elapse dt
    let g : Grant := { addr := dfield d.desc 16 8, size := dfield d.desc 24 4, pool := dfield d.desc 28 1, offset := u.arenaSize }
    exec (.arenaGrant dt ring) s = .next (((u.settle ring).onMpg fun m => { m with grants := m.grants ++ [g] }).backAll.finishHead ring
      0x00 u.mpg.grants.length u.arenaSize) := by
  intro u g
  have hb : (u.settle ring).mpg = u.mpg := State.settle_mpg ring
  have hsize : (u.settle ring).arenaSize = u.arenaSize := by
    unfold State.arenaSize
    rw [hb]
  have hcb : checksPass ((u.settle ring).arenaGrantChecks d.desc) := by
    unfold State.arenaGrantChecks
    rw [hsize, hb]
    exact hc
  show execArenaGrant dt ring s = _
  unfold execArenaGrant
  rw [State.runDesc_headRuns hd, State.checked_pass hcb]
  dsimp only
  rw [hsize, hb]
  rfl

theorem arenaGrant_grants (dt ring : Nat) (s : State) (d : Slot) :
    let u := s.elapse dt
    let b := u.settle ring
    u.headRuns ring 0x06 d → checksPass (u.arenaGrantChecks d.desc) →
    ∃ v : State, exec (.arenaGrant dt ring) s = .next (v.finishHead ring 0x00 u.mpg.grants.length u.arenaSize) ∧
      v.mpg.grants = u.mpg.grants ++
        [{ addr := dfield d.desc 16 8, size := dfield d.desc 24 4, pool := dfield d.desc 28 1, offset := u.arenaSize }] ∧
      (Tbl.wf {} u.mpg.tiles = true → ∀ k, (u.tile k).unbacked = false → v.tile k = u.tile k) ∧
      (u.unbackedCount = 0 → v = { b with mpg := { u.mpg with grants := v.mpg.grants } }) := by
  intro u b hd hc
  have hb : b.mpg = u.mpg := State.settle_mpg ring
  refine ⟨_, exec_arenaGrant hd hc, ?_⟩
  generalize hw : (b.onMpg fun m => { m with grants := m.grants ++
    [{ addr := dfield d.desc 16 8, size := dfield d.desc 24 4, pool := dfield d.desc 28 1, offset := u.arenaSize }] }) = w
  have hmpg : w.mpg = { u.mpg with grants := u.mpg.grants ++
      [{ addr := dfield d.desc 16 8, size := dfield d.desc 24 4, pool := dfield d.desc 28 1, offset := u.arenaSize }] } := by
    rw [← hw, ← hb]
    rfl
  have ht (k : Nat) : w.tile k = u.tile k := by
    unfold State.tile
    rw [hmpg]
  refine ⟨by rw [State.backAll_pages.grants, hmpg], fun hwf k hk => ?_, fun hn => ?_⟩
  · exact (State.backAll_pages.tiles k (State.not_mem_unbackedKeys (by rw [hmpg]; exact hwf) (by rw [ht]; exact hk))).trans (ht k)
  · have hnone : w.unbackedCount = 0 := by
      unfold State.unbackedCount
      rw [hmpg]
      exact hn
    rw [State.backAll_none hnone, hmpg, ← hw, ← hb]
    rfl

/-! ### Quotas (R133, R134) -/

/-- A change of faults and sources alone. -/
def State.Faults (s t : State) : Prop := t = { s with mpg := { s.mpg with fault := t.mpg.fault }, icu := t.icu }

theorem State.Faults.refl (s : State) : s.Faults s := rfl

theorem State.mpgFault_faults (i n : Nat) : s.Faults (s.mpgFault i n) := by
  unfold State.Faults
  rw [State.mpgFault_frame]

theorem State.Faults.trans {a b c : State} (h : a.Faults b) (g : b.Faults c) : a.Faults c := by
  unfold State.Faults at *
  rw [g, h]

theorem State.Faults.layer (h : s.Faults t) (l : Nat) : t.layer l = s.layer l := by
  rw [h]
  rfl

theorem State.Faults.tiles (h : s.Faults t) : t.mpg.tiles = s.mpg.tiles := by rw [h]

/-- A layer's quota set, with OVER and the fault that a quota below USE raises. -/
def State.withQuota (l q : Nat) (s : State) : State :=
  let v := s.onLayer l fun y => { y with quota := q, isOver := y.isOver || decide (q < y.use) }
  (if decide (q < (s.layer l).use) && !(s.layer l).isOver then v.mpgFault 0 97 else v).clearOver l

theorem State.withQuota_frame (l q : Nat) (s : State) : s.withQuota l q =
    { s with mpg := { s.mpg with layers := (s.withQuota l q).mpg.layers, fault := (s.withQuota l q).mpg.fault },
             icu := (s.withQuota l q).icu } := by
  unfold State.withQuota
  dsimp only
  split
  · rw [State.mpgFault_frame]
    rfl
  · rfl

theorem State.withQuota_layer (l q : Nat) (s : State) : let y := s.layer l
    (s.withQuota l q).layer l = { y with quota := q, isOver := decide (q < y.use) || (y.isOver && decide (q = y.use)) } ∧
      ∀ k, k ≠ l → (s.withQuota l q).layer k = s.layer k := by
  intro y
  unfold State.withQuota
  extract_lets v
  generalize hw : (if (decide (q < (s.layer l).use) && !(s.layer l).isOver) = true then v.mpgFault 0 97 else v) = w
  have hf : v.Faults w := by
    rw [← hw]
    split
    · exact State.mpgFault_faults ..
    · exact .refl v
  have hv : v.layer l = { y with quota := q, isOver := y.isOver || decide (q < y.use) } := State.onLayer_layer ..
  refine ⟨?_, fun k hk => ?_⟩
  · have hover : ((y.isOver || decide (q < y.use)) && decide (q ≤ y.use)) = (decide (q < y.use) || (y.isOver && decide (q = y.use))) := by
      obtain h | h | h := Nat.lt_trichotomy q y.use
      · simp [h, Nat.le_of_lt h]
      · simp [h]
      · simp [Nat.not_lt_of_lt h, Nat.not_le_of_lt h, Nat.ne_of_gt h]
    refine (State.onLayer_layer ..).trans ?_
    rw [hf.layer, hv, ← hover]
  · refine (State.onLayer_layer_ne _ _ _ _ hk).trans ((hf.layer k).trans ?_)
    exact State.onLayer_layer_ne _ _ _ _ hk

theorem exec_arenaQuota (hd : (s.elapse dt).headRuns ring 0x07 d)
    (hc : checksPass ([flagCheck d.desc 0x02, (decide (dfield d.desc 16 1 ≤ 31), 16)] ++ zeroBytes d.desc 17 3 ++ zeroBytes d.desc 24 40)) :
    let v := (((s.elapse dt).settle ring).withQuota (dfield d.desc 16 1) (dfield d.desc 20 4)).backLayer (dfield d.desc 16 1)
    exec (.arenaQuota dt ring) s = .next (v.finishHead ring 0x00 (v.layer (dfield d.desc 16 1)).use 0) := by
  show execArenaQuota dt ring s = _
  unfold execArenaQuota
  rw [State.runDesc_headRuns hd, State.checked_pass hc]
  rfl

theorem arenaQuota_sets (dt ring : Nat) (s : State) (d : Slot) :
    let u := s.elapse dt
    let b := u.settle ring
    let l := dfield d.desc 16 1
    let q := dfield d.desc 20 4
    let y := u.layer l
    u.headRuns ring 0x07 d →
    checksPass ([flagCheck d.desc 0x02, (decide (l ≤ 31), 16)] ++ zeroBytes d.desc 17 3 ++ zeroBytes d.desc 24 40) →
    ∃ v : State, exec (.arenaQuota dt ring) s = .next (v.finishHead ring 0x00 (v.layer l).use 0) ∧ (v.layer l).quota = q ∧
      (∀ k, k ≠ l → v.layer k = u.layer k) ∧ (Tbl.wf {} u.mpg.tiles = true → ∀ k, (u.tile k).unbacked = false → v.tile k = u.tile k) ∧
      v.mpg.grants = u.mpg.grants ∧
      (u.unbackedCount = 0 →
        v.layer l = { y with quota := q, isOver := decide (q < y.use) || (y.isOver && decide (q = y.use)) } ∧
        v = { b with mpg := { u.mpg with layers := v.mpg.layers, fault := v.mpg.fault }, icu := v.icu }) := by
  intro u b l q y hd hc
  have hb : b.mpg = u.mpg := State.settle_mpg ring
  have hby (k : Nat) : b.layer k = u.layer k := State.settle_layer ring k
  have hf := State.withQuota_frame l q b
  obtain ⟨hl, ho⟩ := State.withQuota_layer l q b
  refine ⟨_, exec_arenaQuota hd hc, ?_⟩
  generalize hw : b.withQuota l q = w at hf hl ho
  rw [hby] at hl
  have hp := State.backLayer_pages (s := w) l
  have hmpg : w.mpg = { u.mpg with layers := w.mpg.layers, fault := w.mpg.fault } := by
    rw [← hb]
    exact congrArg State.mpg hf
  have ht : w.mpg.tiles = u.mpg.tiles := by rw [hmpg]
  refine ⟨?_, fun k hk => ?_, fun hwf k hk => ?_, ?_, fun hn => ?_⟩
  · obtain ⟨n, o, h⟩ := hp.layers l
    exact (congrArg Layer.quota h).trans (congrArg Layer.quota hl)
  · exact (hp.others k fun j hj h => hk (h.symm.trans hj.2)).trans ((ho k hk).trans (hby k))
  · have hwk : w.tile k = u.tile k := by
      unfold State.tile
      rw [ht]
    exact (hp.tiles k fun hj => State.not_mem_unbackedKeys (by rw [ht]; exact hwf) (by rw [hwk]; exact hk) hj.1).trans hwk
  · exact hp.grants.trans (by rw [hmpg])
  · have hnone : w.unbackedCount = 0 := by
      unfold State.unbackedCount
      rw [ht]
      exact hn
    show (w.backLayer l).layer l = _ ∧ w.backLayer l = _
    rw [State.backLayer_none l hnone]
    refine ⟨hl, ?_⟩
    rw [← hb]
    exact hf

/-! ### TILE_RELEASE (R147, R149) -/

theorem State.mem_releaseKeys {x : DescBits} {k : Nat} (hc : checksPass (s.tileReleaseChecks x)) (hk : k ∈ s.releaseKeys x) :
    keyLayer k = dfield x 16 1 := by
  unfold State.releaseKeys at hk
  obtain ⟨hk, -⟩ := List.mem_filter.mp hk
  split at hk
  · simpa using (List.mem_filter.mp hk).2
  · next hall =>
    unfold State.tileReleaseChecks at hc
    rw [if_neg hall] at hc
    simp only [checksPass_append] at hc
    exact keyLayer_rectKeys hc.1.2 hk

theorem exec_tileRelease (hd : (s.elapse dt).headRuns ring 0x0A d) (hc : checksPass ((s.elapse dt).tileReleaseChecks d.desc)) :
    let u := s.elapse dt
    exec (.tileRelease dt ring) s = .next (((u.settle ring).discard (dfield d.desc 16 1) (u.releaseKeys d.desc)).finishHead ring 0x00
      (u.releaseKeys d.desc).length 0) := by
  intro u
  have hcb : checksPass ((u.settle ring).tileReleaseChecks d.desc) := by
    unfold State.tileReleaseChecks State.layerOn
    rw [State.settle_layer]
    exact hc
  have hk : (u.settle ring).releaseKeys d.desc = u.releaseKeys d.desc := by
    unfold State.releaseKeys
    simp only [State.settle_tile, State.settle_mpg]
  show execTileRelease dt ring s = _
  unfold execTileRelease
  rw [State.runDesc_headRuns hd, State.checked_pass hcb]
  dsimp only
  rw [hk]
  rfl

theorem tileRelease_discards (dt ring : Nat) (s : State) (d : Slot) :
    let u := s.elapse dt
    let l := dfield d.desc 16 1
    let ks := u.releaseKeys d.desc
    u.headRuns ring 0x0A d → checksPass (u.tileReleaseChecks d.desc) →
    ∃ v : State, exec (.tileRelease dt ring) s = .next (v.finishHead ring 0x00 ks.length 0) ∧
      (Tbl.wf {} u.mpg.tiles = true → (∀ k ∈ ks, v.tile k = {}) ∧
        ∀ k, k ∉ ks → (u.tile k).unbacked = false → v.tile k = u.tile k) ∧
      (u.unbackedCount = 0 → ks.Nodup →
        (v.layer l).use = (u.layer l).use - ks.countP fun k => (u.tile k).frame.isSome) := by
  intro u l ks hd hc
  have hb : (u.settle ring).mpg = u.mpg := State.settle_mpg ring
  refine ⟨_, exec_tileRelease hd hc, fun hwf => ?_, fun hn hnodup => ?_⟩
  · have hwf : Tbl.wf {} (u.settle ring).mpg.tiles = true := by
      rw [hb]
      exact hwf
    refine ⟨fun k hk => ?_, fun k hk hu => ?_⟩
    · rw [State.discard_tile l hwf (.inl hk), if_pos hk]
    · rw [State.discard_tile l hwf (.inr (by rw [State.settle_tile]; exact hu)), if_neg hk, State.settle_tile]
  · have hnone : (((u.settle ring).releaseAll ks).clearOver l).unbackedCount = 0 := by
      refine State.releaseAll_unbackedCount (s := u.settle ring) ?_
      unfold State.unbackedCount
      rw [hb]
      exact hn
    show (((u.settle ring).discard l ks).layer l).use = _
    unfold State.discard
    rw [State.backAll_none hnone]
    refine (congrArg Layer.use (State.onLayer_layer ..)).trans ((State.releaseAll_use (fun k hk => State.mem_releaseKeys hc hk) hnodup).trans ?_)
    simp only [State.settle_layer, State.settle_tile]
    rfl

end Sys2Proof.Machine

namespace Sys2Proof.Machine

variable {s t : State} {dt l : Nat} {w : Word}

/-! ### A write of MPG_LAYER_CFG (R137, R153) -/

/-- The fields of a layer that may be written at any time. -/
def Layer.configured (w : Word) (y : Layer) : Layer :=
  { y with share := bit w 6, samePass := bit w 7, autoPass := bit w 8, unknownMode := bit w 9, unknownValue := bits w 16 16 }

/-- The layer so written: one that is on keeps its kind and cells. -/
def State.reconfigured (l : Nat) (w : Word) (s : State) : State :=
  let v := s.onLayer l (Layer.configured w)
  if (s.layer l).enable then (if bits w 0 2 = (s.layer l).kind ∧ bits w 2 3 = (s.layer l).cell then v else v.mpgFault 8 108)
  else v.onLayer l fun y => { y with kind := bits w 0 2, cell := bits w 2 3 }

theorem State.layerCfg_eq (l : Nat) (w : Word) (s : State) : s.layerCfg l w =
    let v := s.reconfigured l w
    if (s.layer l).enable then (if bit w 5 then v else if v.canDisable l then v.disableLayer l else v.mpgFault 8 108)
    else if bit w 5 then
      (if v.canEnable (bits w 0 2) (bits w 2 3) then (if v.poolFree 5 = 0 then (v.mpgFault 8 108).mpgFault 1 98 else v.enableLayer l)
      else v.mpgFault 8 108)
    else v := by
  unfold State.layerCfg State.reconfigured
  dsimp only
  cases (s.layer l).enable <;> rfl

theorem exec_layerCfgWrite (h : (s.elapse dt).hostTo 3 = true) (hl : l < 32) :
    exec (.layerCfgWrite dt l w) s = .next ((s.elapse dt).layerCfg l w) := by
  show execLayerCfgWrite dt l w s = _
  unfold execLayerCfgWrite
  refine congrArg Host.Outcome.next (State.when_pos ?_)
  rw [decide_eq_true hl, Bool.and_true]
  exact h

/-- A layer that is on is reconfigured: the rest of MPG but its faults stands. -/
theorem State.reconfigured_on (h : (s.layer l).enable = true) : (s.onLayer l (Layer.configured w)).Faults (s.reconfigured l w) := by
  unfold State.reconfigured
  dsimp only
  rw [if_pos h]
  split
  · exact .refl _
  · exact State.mpgFault_faults ..

theorem State.reconfigured_off (h : (s.layer l).enable = false) : s.reconfigured l w =
    (s.onLayer l (Layer.configured w)).onLayer l fun y => { y with kind := bits w 0 2, cell := bits w 2 3 } := by
  unfold State.reconfigured
  rw [h]
  rfl

theorem State.reconfigured_others {k : Nat} (hk : k ≠ l) : (s.reconfigured l w).layer k = s.layer k := by
  cases h : (s.layer l).enable with
  | false => rw [State.reconfigured_off h, State.onLayer_layer_ne _ _ _ _ hk, State.onLayer_layer_ne _ _ _ _ hk]
  | true => rw [(State.reconfigured_on h).layer, State.onLayer_layer_ne _ _ _ _ hk]

theorem State.reconfigured_tiles : (s.reconfigured l w).mpg.tiles = s.mpg.tiles := by
  cases h : (s.layer l).enable with
  | false => rw [State.reconfigured_off h]; rfl
  | true => rw [(State.reconfigured_on h).tiles]; rfl

/-- Whether a layer can be disabled is no matter of its fields that may be written at any time. -/
theorem State.reconfigured_canDisable (h : (s.layer l).enable = true) : (s.reconfigured l w).canDisable l = s.canDisable l := by
  have hf := State.reconfigured_on (w := w) h
  unfold State.canDisable
  rw [hf.layer, State.onLayer_layer, hf]
  rfl

theorem State.reconfigured_poolFree (c : Nat) : (s.reconfigured l w).poolFree c = s.poolFree c := by
  cases h : (s.layer l).enable with
  | false => rw [State.reconfigured_off h]; rfl
  | true => rw [State.reconfigured_on h]; rfl

/-- A layer that is off counts among none of its kind. -/
theorem State.reconfigured_canEnable (h : (s.layer l).enable = false) (hw : Tbl.wf {} s.mpg.layers = true) (kind cell : Nat) :
    (s.reconfigured l w).canEnable kind cell = s.canEnable kind cell := by
  have hoff (t : Tbl Layer) (f : Layer → Layer) (ht : Tbl.wf {} t = true) (h0 : (Tbl.get {} t l).enable = false)
      (hf : (f (Tbl.get {} t l)).enable = false) :
      (Tbl.modify {} t l f).filter (fun e => e.2.enable && e.2.kind == kind) = t.filter fun e => e.2.enable && e.2.kind == kind :=
    Tbl.filter_set _ (by rw [hf]; rfl) fun x hx => by rw [← Tbl.get_of_mem ht hx, h0]; rfl
  have hon : (Tbl.get {} (Tbl.modify {} s.mpg.layers l (Layer.configured w)) l).enable = false := by
    rw [Tbl.get_modify_same]
    exact h
  rw [State.reconfigured_off h]
  unfold State.canEnable
  have hlist : (((s.onLayer l (Layer.configured w)).onLayer l fun y => { y with kind := bits w 0 2, cell := bits w 2 3 }).mpg.layers.filter
      fun e => e.2.enable && e.2.kind == kind) = s.mpg.layers.filter fun e => e.2.enable && e.2.kind == kind :=
    (hoff _ (fun y => { y with kind := bits w 0 2, cell := bits w 2 3 }) (Tbl.wf_modify hw) hon hon).trans
      (hoff _ (Layer.configured w) hw h h)
  rw [hlist]

/-! ### Enabling and disabling a layer (R123, R137) -/

theorem State.enableLayer_layer (l : Nat) (s : State) : ∃ r, (s.enableLayer l).layer l =
    { s.layer l with enable := true, epoch := 0, startHeading := none, root := some r, advances := [] } :=
  ⟨_, State.onLayer_layer ..⟩

theorem State.enableLayer_tiles (l : Nat) (s : State) : (s.enableLayer l).mpg.tiles = s.mpg.tiles := rfl

theorem State.enableLayer_fault (l : Nat) (s : State) : (s.enableLayer l).mpg.fault = s.mpg.fault := rfl

theorem State.enableLayer_others {k : Nat} (hk : k ≠ l) : (s.enableLayer l).layer k = s.layer k := by
  unfold State.enableLayer
  exact State.onLayer_layer_ne _ _ _ _ hk

/-- The root table of a layer freed. -/
def State.withoutRoot (l : Nat) (s : State) : State :=
  match (s.layer l).root with
  | some u => s.freeUnit 5 u
  | none => s

theorem State.withoutRoot_layer (l k : Nat) (s : State) : (s.withoutRoot l).layer k = s.layer k := by
  unfold State.withoutRoot
  cases (s.layer l).root <;> rfl

theorem State.withoutRoot_tiles (l : Nat) (s : State) : (s.withoutRoot l).mpg.tiles = s.mpg.tiles := by
  unfold State.withoutRoot
  cases (s.layer l).root <;> rfl

/-- A layer that is disabled, before other layers take what that frees. -/
def State.withoutLayer (l : Nat) (s : State) : State :=
  ((s.withoutRoot l).onLayer l fun y => { y with enable := false, root := none }).onMpg fun m =>
    { m with tiles := m.tiles.filter (fun e => keyLayer e.1 != l), mergeQ := m.mergeQ.filter fun w => w.delta.layer != l }

theorem State.disableLayer_eq (l : Nat) (s : State) : s.disableLayer l = (s.withoutLayer l).backAll := by
  unfold State.disableLayer State.withoutLayer State.withoutRoot
  rfl

theorem State.withoutLayer_layer (l : Nat) (s : State) : ((s.withoutLayer l).layer l).enable = false ∧
    ∀ k, k ≠ l → (s.withoutLayer l).layer k = s.layer k := by
  let off (y : Layer) : Layer := { y with enable := false, root := none }
  exact ⟨congrArg Layer.enable (State.onLayer_layer (s.withoutRoot l) l off),
    fun k hk => (State.onLayer_layer_ne (s.withoutRoot l) l k off hk).trans (s.withoutRoot_layer l k)⟩

theorem State.withoutLayer_tiles (l : Nat) (s : State) :
    (s.withoutLayer l).mpg.tiles = s.mpg.tiles.filter fun e => keyLayer e.1 != l :=
  congrArg (List.filter fun e : Nat × Tile => keyLayer e.1 != l) (s.withoutRoot_tiles l)

/-- A layer that is disabled remembers no tile; the others stand where none of their tiles is to be backed. -/
theorem State.disableLayer_disables (l : Nat) (s : State) : ((s.disableLayer l).layer l).enable = false ∧
    (∀ k, keyLayer k = l → (s.disableLayer l).tile k = {}) ∧
    (s.unbackedCount = 0 → ∀ k, k ≠ l → (s.disableLayer l).layer k = s.layer k) := by
  have hp := State.backAll_pages (s := s.withoutLayer l)
  obtain ⟨hl, ho⟩ := State.withoutLayer_layer l s
  have ht := State.withoutLayer_tiles l s
  rw [State.disableLayer_eq]
  refine ⟨?_, fun k hk => ?_, fun hn k hk => ?_⟩
  · obtain ⟨n, o, h⟩ := hp.layers l
    exact (congrArg Layer.enable h).trans hl
  · have hnot : k ∉ (s.withoutLayer l).unbackedKeys := fun h => by
      obtain ⟨x, hx, -⟩ := State.mem_unbackedKeys.mp h
      rw [ht] at hx
      have hx := (List.mem_filter.mp hx).2
      rw [hk] at hx
      exact absurd hx (by simp)
    rw [hp.tiles k hnot]
    unfold State.tile
    rw [ht, Tbl.get_filter fun j => keyLayer j != l, hk]
    simp
  · have hnone : (s.withoutLayer l).unbackedCount = 0 := by
      unfold State.unbackedCount at *
      rw [ht]
      exact Nat.le_zero.mp (hn ▸ (List.filter_sublist.filter _).length_le)
    rw [State.backAll_none hnone]
    exact ho k hk

/-- What the write does to a layer that is on. -/
theorem State.layerCfg_on (he : (s.layer l).enable = true) :
    (bit w 5 = true ∨ s.canDisable l = false ∨ s.unbackedCount = 0 → ∀ k, k ≠ l → (s.layerCfg l w).layer k = s.layer k) ∧
    (bit w 5 = true → (s.layerCfg l w).layer l = (s.layer l).configured w) ∧
    (bit w 5 = false → s.canDisable l = true →
      ((s.layerCfg l w).layer l).enable = false ∧ ∀ k, keyLayer k = l → (s.layerCfg l w).tile k = {}) ∧
    (bit w 5 = false → s.canDisable l = false → (s.layerCfg l w).layer l = (s.layer l).configured w ∧
      bit (s.layerCfg l w).mpg.fault.w 8 = true ∧ (s.layerCfg l w).mpg.tiles = s.mpg.tiles) := by
  have hl : (s.reconfigured l w).layer l = (s.layer l).configured w :=
    ((State.reconfigured_on he).layer l).trans (State.onLayer_layer ..)
  have ho (k : Nat) (hk : k ≠ l) : (s.reconfigured l w).layer k = s.layer k := State.reconfigured_others hk
  have hf := State.mpgFault_faults (s := s.reconfigured l w) 8 108
  have hu : (s.reconfigured l w).unbackedCount = s.unbackedCount := by
    unfold State.unbackedCount
    rw [State.reconfigured_tiles]
  obtain ⟨hdl, hdt, hdo⟩ := State.disableLayer_disables l (s.reconfigured l w)
  rw [State.layerCfg_eq]
  dsimp only
  rw [if_pos he, State.reconfigured_canDisable he]
  by_cases hb : bit w 5 = true
  · rw [if_pos hb]
    exact ⟨fun _ => ho, fun _ => hl, fun h => absurd hb (Bool.not_eq_true _ ▸ h), fun h => absurd hb (Bool.not_eq_true _ ▸ h)⟩
  · rw [if_neg hb]
    by_cases hc : s.canDisable l = true
    · rw [if_pos hc]
      have hn (h : bit w 5 = true ∨ s.canDisable l = false ∨ s.unbackedCount = 0) : s.unbackedCount = 0 :=
        (h.resolve_left hb).resolve_left (by rw [hc]; decide)
      exact ⟨fun h k hk => (hdo (hu.trans (hn h)) k hk).trans (ho k hk), fun h => absurd h hb, fun _ _ => ⟨hdl, hdt⟩,
        fun _ h => absurd hc (Bool.not_eq_true _ ▸ h)⟩
    · rw [if_neg hc]
      exact ⟨fun _ k hk => (hf.layer k).trans (ho k hk), fun h => absurd h hb, fun _ h => absurd h hc,
        fun _ _ => ⟨(hf.layer l).trans hl, State.mpgFault_bit (by decide), hf.tiles.trans State.reconfigured_tiles⟩⟩

/-- What the write does to a layer that is off. -/
theorem State.layerCfg_off (he : (s.layer l).enable = false) :
    (∀ k, k ≠ l → (s.layerCfg l w).layer k = s.layer k) ∧
    (bit w 5 = true → Tbl.wf {} s.mpg.layers = true → s.canEnable (bits w 0 2) (bits w 2 3) = true →
      (s.poolFree 5 ≠ 0 →
        ∃ r, (s.layerCfg l w).layer l = { (s.layer l).configured w with
              kind := bits w 0 2, cell := bits w 2 3, enable := true, epoch := 0, startHeading := none, root := some r, advances := [] } ∧
          (s.layerCfg l w).mpg.tiles = s.mpg.tiles ∧ (s.layerCfg l w).mpg.fault = s.mpg.fault) ∧
      (s.poolFree 5 = 0 → ((s.layerCfg l w).layer l).enable = false ∧ bit (s.layerCfg l w).mpg.fault.w 1 = true ∧
        bit (s.layerCfg l w).mpg.fault.w 8 = true)) ∧
    (bit w 5 = true → Tbl.wf {} s.mpg.layers = true → s.canEnable (bits w 0 2) (bits w 2 3) = false →
      ((s.layerCfg l w).layer l).enable = false ∧ bit (s.layerCfg l w).mpg.fault.w 8 = true) := by
  have hl : (s.reconfigured l w).layer l = { (s.layer l).configured w with kind := bits w 0 2, cell := bits w 2 3 } := by
    rw [State.reconfigured_off he, State.onLayer_layer, State.onLayer_layer]
  have hle : ((s.reconfigured l w).layer l).enable = false := (congrArg Layer.enable hl).trans he
  have hfault : (s.reconfigured l w).mpg.fault = s.mpg.fault := by
    rw [State.reconfigured_off he]
    rfl
  have ho (k : Nat) (hk : k ≠ l) : (s.reconfigured l w).layer k = s.layer k := State.reconfigured_others hk
  have hf := State.mpgFault_faults (s := s.reconfigured l w) 8 108
  have hf' := State.mpgFault_faults (s := (s.reconfigured l w).mpgFault 8 108) 1 98
  have h8 : bit ((s.reconfigured l w).mpgFault 8 108).mpg.fault.w 8 = true := State.mpgFault_bit (by decide)
  have h8' : bit (((s.reconfigured l w).mpgFault 8 108).mpgFault 1 98).mpg.fault.w 8 = true := by
    rw [State.mpgFault_frame (s := (s.reconfigured l w).mpgFault 8 108)]
    exact bit_setFlag_of_bit _ _ h8
  obtain ⟨r, hr⟩ := State.enableLayer_layer l (s.reconfigured l w)
  rw [State.layerCfg_eq]
  dsimp only
  rw [if_neg (by rw [he]; decide), State.reconfigured_poolFree]
  by_cases hb : bit w 5 = true
  · rw [if_pos hb]
    by_cases hc : (s.reconfigured l w).canEnable (bits w 0 2) (bits w 2 3) = true
    · rw [if_pos hc]
      by_cases hp : s.poolFree 5 = 0
      · rw [if_pos hp]
        exact ⟨fun k hk => ((hf.trans hf').layer k).trans (ho k hk),
          fun _ _ _ => ⟨fun h => absurd hp h, fun _ =>
            ⟨(congrArg Layer.enable ((hf.trans hf').layer l)).trans hle, State.mpgFault_bit (by decide), h8'⟩⟩,
          fun _ hw h => Bool.noConfusion (((State.reconfigured_canEnable he hw ..).symm.trans hc).symm.trans h)⟩
      · rw [if_neg hp]
        exact ⟨fun k hk => (State.enableLayer_others hk).trans (ho k hk),
          fun _ _ _ => ⟨fun _ => ⟨r, by rw [hr, hl], (State.enableLayer_tiles ..).trans State.reconfigured_tiles,
            (State.enableLayer_fault ..).trans hfault⟩, fun h => absurd h hp⟩,
          fun _ hw h => Bool.noConfusion (((State.reconfigured_canEnable he hw ..).symm.trans hc).symm.trans h)⟩
    · rw [if_neg hc]
      exact ⟨fun k hk => (hf.layer k).trans (ho k hk),
        fun _ hw h => absurd ((State.reconfigured_canEnable he hw ..).trans h) hc,
        fun _ _ _ => ⟨(congrArg Layer.enable (hf.layer l)).trans hle, h8⟩⟩
  · rw [if_neg hb]
    exact ⟨ho, fun h => absurd h hb, fun h => absurd h hb⟩

theorem layerCfgWrite_configures (dt l : Nat) (w : Word) (s : State) :
    let u := s.elapse dt
    let y := u.layer l
    let cfg (y : Layer) : Layer :=
      { y with share := bit w 6, samePass := bit w 7, autoPass := bit w 8, unknownMode := bit w 9, unknownValue := bits w 16 16 }
    u.hostTo 3 = true → l < 32 →
    ∃ t : State, exec (.layerCfgWrite dt l w) s = .next t ∧
      (y.enable = false ∨ bit w 5 = true ∨ u.canDisable l = false ∨ u.unbackedCount = 0 → ∀ k, k ≠ l → t.layer k = u.layer k) ∧
      (y.enable = false → bit w 5 = true → Tbl.wf {} u.mpg.layers = true → u.canEnable (bits w 0 2) (bits w 2 3) = true →
        (u.poolFree 5 ≠ 0 →
          ∃ r, t.layer l = { cfg y with kind := bits w 0 2, cell := bits w 2 3, enable := true, epoch := 0, startHeading := none,
                                        root := some r, advances := [] } ∧ t.mpg.tiles = u.mpg.tiles ∧ t.mpg.fault = u.mpg.fault) ∧
        (u.poolFree 5 = 0 → (t.layer l).enable = false ∧ bit t.mpg.fault.w 1 = true ∧ bit t.mpg.fault.w 8 = true)) ∧
      (y.enable = false → bit w 5 = true → Tbl.wf {} u.mpg.layers = true → u.canEnable (bits w 0 2) (bits w 2 3) = false →
        (t.layer l).enable = false ∧ bit t.mpg.fault.w 8 = true) ∧
      (y.enable = true → bit w 5 = true → t.layer l = cfg y) ∧
      (y.enable = true → bit w 5 = false →
        (u.canDisable l = true → (t.layer l).enable = false ∧ ∀ k, keyLayer k = l → t.tile k = {}) ∧
        (u.canDisable l = false → t.layer l = cfg y ∧ bit t.mpg.fault.w 8 = true ∧ t.mpg.tiles = u.mpg.tiles)) := by
  intro u y cfg hh hl
  refine ⟨_, exec_layerCfgWrite hh hl, ?_⟩
  by_cases he : y.enable = true
  · have hy (h : y.enable = false) : False := Bool.noConfusion (he.symm.trans h)
    obtain ⟨ho, hon, hoff, hno⟩ := State.layerCfg_on (w := w) he
    exact ⟨fun h => ho (h.resolve_left hy), fun h => (hy h).elim, fun h => (hy h).elim, fun _ => hon,
      fun _ hb => ⟨hoff hb, hno hb⟩⟩
  · obtain ⟨ho, hcan, hcannot⟩ := State.layerCfg_off (w := w) (Bool.eq_false_iff.mpr he)
    exact ⟨fun _ => ho, fun _ => hcan, fun _ => hcannot, fun h => absurd h he, fun h => absurd h he⟩

end Sys2Proof.Machine

namespace Sys2Proof.Machine

variable {s t : State} {dt ring l : Nat} {d : Slot}

/-! ### Passes (R126) -/

theorem passAdvance_waits (dt ring : Nat) (s : State) (d : Slot) :
    let u := s.elapse dt
    let b := u.settle ring
    let mask := dfield d.desc 16 4
    u.headRuns ring 0x19 d →
    checksPass ([flagCheck d.desc 0x02] ++
      ((List.range 32).map fun l => (!mask.testBit l || ((u.layer l).enable && (u.layer l).kind == 0), 16 + l / 8)) ++
      zeroBytes d.desc 20 44) →
    exec (.passAdvance dt ring) s = .next
      (({ b with mpg := { u.mpg with passWaits := u.mpg.passWaits ++ [{ ring, index := d.index, mask }] } } : State).startHead ring []) := by
  intro u b mask hd hc
  have hb : b.mpg = u.mpg := State.settle_mpg ring
  have hcb : checksPass ([flagCheck d.desc 0x02] ++
      ((List.range 32).map fun l => (!mask.testBit l || ((b.layer l).enable && (b.layer l).kind == 0), 16 + l / 8)) ++
      zeroBytes d.desc 20 44) := by
    simp only [b, State.settle_layer]
    exact hc
  show execPassAdvance dt ring s = _
  unfold execPassAdvance
  rw [State.runDesc_headRuns hd]
  dsimp only
  rw [State.checked_pass hcb, ← hb]
  rfl

/-- Work in which no layer's pass epoch advances. -/
def State.EpochsStand (s t : State) : Prop := ∀ l, (t.layer l).epoch = (s.layer l).epoch

theorem State.EpochsStand.trans {a b c : State} (h : a.EpochsStand b) (g : b.EpochsStand c) : a.EpochsStand c :=
  fun l => (g l).trans (h l)

theorem State.Pages.epochsStand {p : Set Nat} (h : s.Pages p t) : s.EpochsStand t := fun l => by
  obtain ⟨n, o, h⟩ := h.layers l
  rw [h]

theorem State.epochsStand_of_layers (h : t.mpg.layers = s.mpg.layers) : s.EpochsStand t := fun l => by
  unfold State.layer
  rw [h]

theorem State.shareDelta_mpg (d : Delta) : (s.shareDelta d).mpg = s.mpg := by
  unfold State.shareDelta
  split
  · rfl
  · exact State.raise_mpg _

theorem State.closeSegment_epochs (ep : Nat) (p : Strip) (tick : Nat) (e n : Int) (fin : Bool) :
    s.EpochsStand (s.closeSegment ep p tick e n fin) := by
  unfold State.closeSegment
  split
  · exact fun _ => rfl
  · extract_lets d v w
    have hv : s.EpochsStand v := .trans (b := s.onMpg fun m => { m with covSeq := m.covSeq + 1 }) (fun _ => rfl)
      (State.applyDelta_pages d true).epochsStand
    have hw : s.EpochsStand w := hv.trans (State.report_pages (p := Set.univ) ..).epochsStand
    split
    · exact hw.trans (State.epochsStand_of_layers (by rw [State.shareDelta_mpg]))
    · exact hw

theorem State.setStrip_epochs (ep : Nat) (p : Option Strip) : s.EpochsStand (s.setStrip ep p) := fun _ => rfl

theorem State.cutStrip_epochs (ep : Nat) (p : Strip) (tick : Nat) (e n : Int) : s.EpochsStand (s.cutStrip ep p tick e n) :=
  .trans (State.closeSegment_epochs ep p tick e n false) (State.setStrip_epochs ep _)

theorem State.passCut_epochs (ep : Nat) (q : PoseState) (w : Word) : s.EpochsStand (s.passCut ep q w) := by
  unfold State.passCut
  split
  · split
    · exact fun _ => rfl
    · dsimp only
      split
      · exact .trans (State.cutStrip_epochs ep _ _ _ _) (State.setStrip_epochs ep _)
      · exact State.cutStrip_epochs ep _ _ _ _
  · exact fun _ => rfl

theorem State.cutLayer_epochs (l : Nat) (q : PoseState) (w : Word) (s : State) : s.EpochsStand (s.cutLayer l q w) := by
  refine foldl_related s (fun _ _ => rfl) .trans (fun s ep => ?_) _
  split
  · split
    · exact State.passCut_epochs ep q w
    · exact fun _ => rfl
  · exact fun _ => rfl

theorem advancePass_epochs (q : PoseState) (valid : Bool) (l : Nat) (s : State) :
    ((s.advancePass q valid l).layer l).epoch = (s.layer l).epoch + 1 ∧
    (∀ k, k ≠ l → ((s.advancePass q valid l).layer k).epoch = (s.layer k).epoch) := by
  have hc := State.cutLayer_epochs l q ((s.layer l).epoch + 1) s
  have hr (k : Nat) (t : State) : ((t.raise 104).layer k) = t.layer k := by
    unfold State.layer
    rw [State.raise_mpg]
  unfold State.advancePass
  refine ⟨?_, fun k hk => ?_⟩
  · rw [hr, State.onLayer_layer]
    exact congrArg (· + 1) (hc l)
  · rw [hr, State.onLayer_layer_ne _ _ _ _ hk]
    exact hc k

end Sys2Proof.Machine

namespace Sys2Proof.Machine

variable {s t : State} {dt ring l : Nat} {d : Slot}

/-! ### TARGET_MARK (R151) -/

/-- A square's cells set or cleared in one tile, which is made where it does not exist. -/
def State.markTile (m : Mark) (cells : List (Int × Int)) (k : Nat) (s : State) : State :=
  let v := s.needTile k
  if (v.tile k).place = .resident then
    v.onTile k fun t => ((t.paint (fun _ => if m.clear then 0 else 1) (cellsIn k cells)).touch v.now).used v.now
  else v

theorem State.applyMark_eq (l : Nat) (m : Mark) (s : State) : s.applyMark l m =
    let cells := m.cells (cellMm (s.layer l).cell)
    (tilesOf l cells).foldl (fun s k => s.markTile m cells k) (s.noteRange cells) := rfl

/-- Marks set in tiles that exist: no tile moves, and beside those tiles only the counts of what was out of range change. -/
structure State.MarksIn (keys : Set Nat) (s t : State) : Prop where
  frame : t = { s with mpg := { s.mpg with tiles := t.mpg.tiles, oor := t.mpg.oor, fault := t.mpg.fault }, icu := t.icu }
  place : ∀ k, (t.tile k).place = (s.tile k).place
  stands : ∀ k, k ∉ keys → t.tile k = s.tile k

theorem State.MarksIn.refl (keys : Set Nat) (s : State) : s.MarksIn keys s := ⟨rfl, fun _ => rfl, fun _ _ => rfl⟩

theorem State.MarksIn.trans {keys : Set Nat} {a b c : State} (h : a.MarksIn keys b) (g : b.MarksIn keys c) : a.MarksIn keys c := by
  refine ⟨?_, fun k => (g.place k).trans (h.place k), fun k hk => (g.stands k hk).trans (h.stands k hk)⟩
  have hf := h.frame
  have gf := g.frame
  rw [hf] at gf
  exact gf

theorem State.MarksIn.mono {keys ks : Set Nat} (h : s.MarksIn ks t) (hk : ks ⊆ keys) : s.MarksIn keys t :=
  ⟨h.frame, h.place, fun k hn => h.stands k fun hm => hn (hk hm)⟩

theorem State.MarksIn.layer {keys : Set Nat} (h : s.MarksIn keys t) (l : Nat) : t.layer l = s.layer l := by
  rw [h.frame]
  rfl

theorem State.noteRange_tile (cells : List (Int × Int)) (k : Nat) : (s.noteRange cells).tile k = s.tile k := by
  rw [State.noteRange_frame]
  rfl

theorem State.noteRange_marksIn (keys : Set Nat) (cells : List (Int × Int)) : s.MarksIn keys (s.noteRange cells) where
  frame := by
    rw [State.noteRange_frame]
  place k := congrArg Tile.place (State.noteRange_tile cells k)
  stands k _ := State.noteRange_tile cells k

variable {m : Mark} {cells : List (Int × Int)} {k : Nat}

/-- What a cell holds once a square names it. -/
def Mark.value (m : Mark) : Nat := b2n !m.clear

theorem Mark.value_eq (m : Mark) : (if m.clear then 0 else 1) = m.value := by
  unfold Mark.value
  cases m.clear <;> rfl

/-- Cells that all take one value. -/
theorem Tile.get_paint_const (v : Nat) (ks : List Nat) (x : Tile) (i : Nat) :
    Tbl.get 0 (x.paint (fun _ => v) ks).cells i = if i ∈ ks then v else Tbl.get 0 x.cells i :=
  Tile.get_paint (f := fun _ => v) (fun _ => rfl) ks x i

theorem State.needTile_exists (h : (s.tile k).place ≠ .absent) : s.needTile k = s := by
  unfold State.needTile
  exact if_neg h

theorem State.markTile_lost (h : (s.tile k).place = .lost) : s.markTile m cells k = s := by
  unfold State.markTile
  dsimp only
  rw [State.needTile_exists (by rw [h]; decide), h, if_neg (by decide)]

theorem State.markTile_resident (h : (s.tile k).place = .resident) : s.markTile m cells k =
    s.onTile k fun t => ((t.paint (fun _ => m.value) (cellsIn k cells)).touch s.now).used s.now := by
  unfold State.markTile
  dsimp only
  rw [State.needTile_exists (by rw [h]; decide), if_pos h, Mark.value_eq]

theorem State.markTile_marksIn (h : (s.tile k).place = .resident ∨ (s.tile k).place = .lost) :
    s.MarksIn {k} (s.markTile m cells k) := by
  obtain h | h := h
  · rw [State.markTile_resident h]
    refine ⟨rfl, fun j => ?_, fun j hj => State.onTile_tile_ne _ _ _ _ hj⟩
    by_cases hj : j = k
    · rw [hj, State.onTile_tile]
      rfl
    · rw [State.onTile_tile_ne _ _ _ _ hj]
  · rw [State.markTile_lost h]
    exact .refl _ s

theorem State.markTile_cells (h : (s.tile k).place = .resident) (i : Nat) :
    Tbl.get 0 ((s.markTile m cells k).tile k).cells i = if i ∈ cellsIn k cells then m.value else Tbl.get 0 (s.tile k).cells i := by
  rw [State.markTile_resident h, State.onTile_tile]
  exact Tile.get_paint_const m.value _ _ i

/-- One square's cells in a list of tiles that exist. -/
theorem State.markTiles_marksIn {ks : List Nat} (hp : ∀ k ∈ ks, (s.tile k).place = .resident ∨ (s.tile k).place = .lost) :
    let v := ks.foldl (fun s k => s.markTile m cells k) s
    s.MarksIn { k | k ∈ ks } v ∧ ∀ k i, (s.tile k).place = .resident →
      Tbl.get 0 (v.tile k).cells i = if k ∈ ks ∧ i ∈ cellsIn k cells then m.value else Tbl.get 0 (s.tile k).cells i := by
  induction ks generalizing s with
  | nil => exact ⟨.refl _ s, fun k i _ => (if_neg fun h => List.not_mem_nil h.1).symm⟩
  | cons j ks ih =>
    have hj : s.MarksIn {j} (s.markTile m cells j) := State.markTile_marksIn (hp j List.mem_cons_self)
    obtain ⟨hm, hc⟩ := ih (s := s.markTile m cells j) fun k hk => by
      rw [hj.place]
      exact hp k (List.mem_cons_of_mem _ hk)
    refine ⟨(hj.mono ?_).trans (hm.mono ?_), fun k i hr => (hc k i ((hj.place k).trans hr)).trans ?_⟩
    · rintro _ rfl
      exact List.mem_cons_self
    · exact fun k hk => List.mem_cons_of_mem _ hk
    · by_cases hk : k = j
      · subst hk
        rw [State.markTile_cells hr]
        by_cases hi : i ∈ cellsIn k cells <;> simp [hi]
      · rw [hj.stands k hk]
        simp [hk]

theorem State.applyMark_marksIn (hp : ∀ k ∈ tilesOf l (m.cells (cellMm (s.layer l).cell)),
      (s.tile k).place = .resident ∨ (s.tile k).place = .lost) :
    s.MarksIn { k | k ∈ tilesOf l (m.cells (cellMm (s.layer l).cell)) } (s.applyMark l m) ∧
      ∀ tx ty i, tileInRange tx = true → tileInRange ty = true → (s.tile (tileKey l tx ty)).place = .resident →
        Tbl.get 0 ((s.applyMark l m).tile (tileKey l tx ty)).cells i =
          if i ∈ cellsIn (tileKey l tx ty) (m.cells (cellMm (s.layer l).cell)) then m.value
          else Tbl.get 0 (s.tile (tileKey l tx ty)).cells i := by
  rw [State.applyMark_eq]
  dsimp only
  generalize m.cells (cellMm (s.layer l).cell) = cells at hp
  obtain ⟨hm, hc⟩ := State.markTiles_marksIn (s := s.noteRange cells) (m := m) (cells := cells) (ks := tilesOf l cells) fun k hk => by
    rw [State.noteRange_tile]
    exact hp k hk
  refine ⟨(State.noteRange_marksIn _ cells).trans hm, fun tx ty i hx hy hr => ?_⟩
  rw [hc _ i (by rw [State.noteRange_tile]; exact hr), State.noteRange_tile]
  exact if_congr ⟨And.right, fun hi => ⟨mem_tilesOf_of_cellsIn hx hy hi, hi⟩⟩ rfl rfl

/-- All squares of a command, where every tile they name exists: a cell keeps what the last square that names it left. -/
theorem State.applyMarks_marksIn {ms : List Mark} {mm : Nat} (hmm : cellMm (s.layer l).cell = mm)
    (hp : ∀ m ∈ ms, ∀ k ∈ tilesOf l (m.cells mm), (s.tile k).place = .resident ∨ (s.tile k).place = .lost) :
    let v := ms.foldl (fun s m => s.applyMark l m) s
    s.MarksIn { k | ∃ m ∈ ms, k ∈ tilesOf l (m.cells mm) } v ∧
      ∀ tx ty i, tileInRange tx = true → tileInRange ty = true → (s.tile (tileKey l tx ty)).place = .resident →
        Tbl.get 0 (v.tile (tileKey l tx ty)).cells i =
          ms.foldl (fun x m => if i ∈ cellsIn (tileKey l tx ty) (m.cells mm) then b2n (!m.clear) else x)
            (Tbl.get 0 (s.tile (tileKey l tx ty)).cells i) := by
  induction ms generalizing s with
  | nil => exact ⟨.refl _ s, fun _ _ _ _ _ _ => rfl⟩
  | cons m ms ih =>
    subst hmm
    obtain ⟨hm, hc⟩ := State.applyMark_marksIn (s := s) (l := l) (m := m) (hp m List.mem_cons_self)
    obtain ⟨hms, hcs⟩ := ih (s := s.applyMark l m) (by rw [hm.layer]) fun n hn k hk => by
      rw [hm.place]
      exact hp n (List.mem_cons_of_mem _ hn) k hk
    refine ⟨(hm.mono ?_).trans (hms.mono ?_), fun tx ty i hx hy hr => ?_⟩
    · exact fun k hk => ⟨m, List.mem_cons_self, hk⟩
    · rintro k ⟨n, hn, hk⟩
      exact ⟨n, List.mem_cons_of_mem _ hn, hk⟩
    · rw [List.foldl_cons, List.foldl_cons, hcs tx ty i hx hy ((hm.place _).trans hr), hc tx ty i hx hy hr]
      rfl

/-- A square in one new tile sets its cells there. -/
theorem State.applyMark_new (ht : tilesOf l (m.cells (cellMm (s.layer l).cell)) = [k]) (hp : (s.tile k).place = .absent)
    (hc : s.canCreate k = true) :
    ((s.applyMark l m).tile k).place = .resident ∧ ∀ i, Tbl.get 0 ((s.applyMark l m).tile k).cells i =
      if i ∈ cellsIn k (m.cells (cellMm (s.layer l).cell)) then b2n (!m.clear) else 0 := by
  rw [State.applyMark_eq]
  dsimp only
  rw [ht, List.foldl_cons, List.foldl_nil]
  generalize m.cells (cellMm (s.layer l).cell) = cells
  have hneed : (s.noteRange cells).needTile k = (s.noteRange cells).createTile k := by
    have hcan : (s.noteRange cells).canCreate k = true := by
      rw [State.noteRange_frame]
      exact hc
    unfold State.needTile
    rw [State.noteRange_tile, if_pos hp, if_pos hcan]
  obtain ⟨hr, hcells⟩ := State.createTile_tile k (s.noteRange cells)
  unfold State.markTile
  dsimp only
  rw [hneed]
  generalize (s.noteRange cells).createTile k = v at hr hcells
  rw [if_pos hr, State.onTile_tile, Mark.value_eq]
  refine ⟨hr, fun i => (Tile.get_paint_const m.value (cellsIn k cells) (v.tile k) i).trans ?_⟩
  rw [hcells]
  rfl

/-! ### The command (R151) -/

/-- The squares of a list of marks' bytes. -/
def parseMarks (b : List Byte) (n : Nat) : List Mark := (slices b 12 n).map fun e => parseMark e.2

theorem State.settle_targetLayer (ring l : Nat) : (s.settle ring).targetLayer l = s.targetLayer l := by
  unfold State.targetLayer
  rw [State.settle_layer]

/-- Marks are set at once where no tile they name is away. -/
theorem State.markAll_goes {ms : List Mark} (ring : Nat)
    (h : ∀ m ∈ ms, ∀ k ∈ tilesOf l (m.cells (cellMm (s.layer l).cell)), (s.tile k).place ≠ .away) :
    s.markAll ring l ms = (ms.foldl (fun s m => s.applyMark l m) s).finishHead ring 0x00 0 0 := by
  unfold State.markAll
  rw [if_neg]
  · rfl
  · simp only [List.any_eq_true, beq_iff_eq]
    rintro ⟨m, hm, k, hk, ha⟩
    exact h m hm k hk ha

theorem exec_targetMark_error (hd : (s.elapse dt).headRuns ring 0x0B d) (hf : dFlag d.desc 3 = true)
    (hc : checksPass ([flagCheck d.desc 0x0A,
      (decide (1 ≤ dLength d.desc) && lengthFits d.desc (8 + 12 * dLength d.desc + 4 * (dLength d.desc % 2)), 2)] ++ indirectChecks d.desc)) :
    exec (.targetMark dt ring .error) s = .next (((s.elapse dt).settle ring).dmaError.finishHead ring 0x09 0 0) := by
  show execTargetMark dt ring .error s = _
  unfold execTargetMark
  rw [State.runDesc_headRuns hd]
  dsimp only
  rw [if_pos hf, State.checked_pass hc]
  rfl

theorem exec_targetMark_data {raw : List Byte} (hd : (s.elapse dt).headRuns ring 0x0B d) (hf : dFlag d.desc 3 = true)
    (hc : checksPass ([flagCheck d.desc 0x0A,
      (decide (1 ≤ dLength d.desc) && lengthFits d.desc (8 + 12 * dLength d.desc + 4 * (dLength d.desc % 2)), 2)] ++ indirectChecks d.desc))
    (hl : (s.elapse dt).targetLayer (wordAt raw 0 1) = true)
    (hb : checksPass (zeroBuf raw 1 7 1 ++ ((slices (raw.drop 8) 12 (dLength d.desc)).flatMap fun e => markChecks e.2 (8 + e.1)) ++
      (if dLength d.desc % 2 = 1 then zeroBuf raw (8 + 12 * dLength d.desc) 4 (8 + 12 * dLength d.desc) else []))) :
    exec (.targetMark dt ring (.data raw)) s = .next
      (((s.elapse dt).settle ring).markAll ring (wordAt raw 0 1) (parseMarks (raw.drop 8) (dLength d.desc))) := by
  show execTargetMark dt ring (.data raw) s = _
  unfold execTargetMark
  rw [State.runDesc_headRuns hd]
  dsimp only
  rw [if_pos hf, State.checked_pass hc]
  exact congrArg Host.Outcome.next (State.checked_pass (checksPass_cons.mpr ⟨(State.settle_targetLayer ..).trans hl, hb⟩))

theorem exec_targetMark_direct {buf : HostRead} (hd : (s.elapse dt).headRuns ring 0x0B d) (hf : dFlag d.desc 3 = false)
    (hl : (s.elapse dt).targetLayer (wordAt (dBytes d.desc 16 48) 0 1) = true)
    (hc : checksPass ([flagCheck d.desc 0x02, (inRange 1 3 (dLength d.desc), 2)] ++ zeroBytes d.desc 17 3 ++
      ((slices ((dBytes d.desc 16 48).drop 4) 12 (min 3 (dLength d.desc))).flatMap fun e => markChecks e.2 (20 + e.1)) ++
        zeroBytes d.desc 56 8)) :
    exec (.targetMark dt ring buf) s = .next (((s.elapse dt).settle ring).markAll ring (wordAt (dBytes d.desc 16 48) 0 1)
      (parseMarks ((dBytes d.desc 16 48).drop 4) (dLength d.desc))) := by
  obtain ⟨hc, hrest⟩ := checksPass_append.mp hc
  obtain ⟨hc, hmarks⟩ := checksPass_append.mp hc
  obtain ⟨hc, hzero⟩ := checksPass_append.mp hc
  obtain ⟨hflag, hc⟩ := checksPass_cons.mp hc
  obtain ⟨hn, hnil⟩ := checksPass_cons.mp hc
  have hmin : min 3 (dLength d.desc) = dLength d.desc := by
    unfold inRange at hn
    simp only [Bool.and_eq_true, decide_eq_true_eq] at hn
    omega
  show execTargetMark dt ring buf s = _
  unfold execTargetMark
  rw [State.runDesc_headRuns hd]
  dsimp only
  rw [hf, if_neg (by decide), State.checked_pass, hmin]
  · rfl
  · refine checksPass_append.mpr ⟨checksPass_append.mpr ⟨checksPass_append.mpr ⟨checksPass_cons.mpr ⟨hflag, checksPass_cons.mpr
      ⟨hn, checksPass_cons.mpr ⟨?_, hnil⟩⟩⟩, hzero⟩, hmarks⟩, hrest⟩
    exact (State.settle_targetLayer ..).trans hl

end Sys2Proof.Machine

namespace Sys2Proof.Machine

theorem targetMark_marks (dt ring : Nat) (buf : HostRead) (s : State) (d : Slot) :
    let u := s.elapse dt
    let b := u.settle ring
    let bs := dBytes d.desc 16 48
    let l := wordAt bs 0 1
    let n := dLength d.desc
    let ms := (slices (bs.drop 4) 12 n).map fun e => parseMark e.2
    let cells (m : Mark) := m.cells (cellMm (u.layer l).cell)
    u.headRuns ring 0x0B d →
    (dFlag d.desc 3 = true →
      checksPass ([flagCheck d.desc 0x0A, (decide (1 ≤ n) && lengthFits d.desc (8 + 12 * n + 4 * (n % 2)), 2)] ++ indirectChecks d.desc) →
      (buf = .error → exec (.targetMark dt ring buf) s = .next (b.dmaError.finishHead ring 0x09 0 0)) ∧
      (∀ raw, buf = .data raw → u.targetLayer (wordAt raw 0 1) = true →
        checksPass (zeroBuf raw 1 7 1 ++ ((slices (raw.drop 8) 12 n).flatMap fun e => markChecks e.2 (8 + e.1)) ++
          (if n % 2 = 1 then zeroBuf raw (8 + 12 * n) 4 (8 + 12 * n) else [])) →
        let ns := (slices (raw.drop 8) 12 n).map fun e => parseMark e.2
        (∀ m ∈ ns, ∀ k ∈ tilesOf (wordAt raw 0 1) (m.cells (cellMm (u.layer (wordAt raw 0 1)).cell)), (u.tile k).place ≠ .away) →
        exec (.targetMark dt ring buf) s =
          .next ((ns.foldl (fun s m => s.applyMark (wordAt raw 0 1) m) b).finishHead ring 0x00 0 0))) ∧
    (dFlag d.desc 3 = false → u.targetLayer l = true →
    checksPass ([flagCheck d.desc 0x02, (inRange 1 3 n, 2)] ++ zeroBytes d.desc 17 3 ++
      ((slices (bs.drop 4) 12 (min 3 n)).flatMap fun e => markChecks e.2 (20 + e.1)) ++ zeroBytes d.desc 56 8) →
    ((∀ m ∈ ms, ∀ k ∈ tilesOf l (cells m), (u.tile k).place ≠ .away) →
      exec (.targetMark dt ring buf) s = .next ((ms.foldl (fun s m => s.applyMark l m) b).finishHead ring 0x00 0 0)) ∧
    (∀ m k, ms = [m] → tilesOf l (cells m) = [k] → (u.tile k).place = .absent → u.cacheFull (u.isCoarse k) = false →
      u.canCreate k = true →
      ∃ v : State, exec (.targetMark dt ring buf) s = .next (v.finishHead ring 0x00 0 0) ∧ (v.tile k).place = .resident ∧
        ∀ i, Tbl.get 0 (v.tile k).cells i = if i ∈ cellsIn k (cells m) then b2n (!m.clear) else 0) ∧
    ((∀ m ∈ ms, ∀ k ∈ tilesOf l (cells m), (u.tile k).place = .resident ∨ (u.tile k).place = .lost) →
    ∃ v : State, exec (.targetMark dt ring buf) s = .next (v.finishHead ring 0x00 0 0) ∧
      v = { b with mpg := { u.mpg with tiles := v.mpg.tiles, oor := v.mpg.oor, fault := v.mpg.fault }, icu := v.icu } ∧
      (∀ tx ty i, tileInRange tx = true → tileInRange ty = true → (u.tile (tileKey l tx ty)).place = .resident →
        Tbl.get 0 (v.tile (tileKey l tx ty)).cells i =
          ms.foldl (fun x m => if i ∈ cellsIn (tileKey l tx ty) (cells m) then b2n (!m.clear) else x)
            (Tbl.get 0 (u.tile (tileKey l tx ty)).cells i)) ∧
      (∀ k, (∀ m ∈ ms, k ∉ tilesOf l (cells m)) → v.tile k = u.tile k))) := by
  intro u b bs l n ms cells hd
  have hb : b.mpg = u.mpg := State.settle_mpg ring
  have hby (k : Nat) : b.layer k = u.layer k := State.settle_layer ring k
  have hbt (k : Nat) : b.tile k = u.tile k := State.settle_tile ring k
  refine ⟨fun hf hc => ⟨fun hbuf => by rw [hbuf]; exact exec_targetMark_error hd hf hc, ?_⟩, fun hf hl hc => ?_⟩
  · intro raw hbuf hl hm ns haway
    have hx : exec (.targetMark dt ring (.data raw)) s = .next (b.markAll ring (wordAt raw 0 1) ns) :=
      exec_targetMark_data hd hf hc hl hm
    rw [hbuf, hx]
    refine congrArg Host.Outcome.next (State.markAll_goes ring ?_)
    simp only [hby, hbt]
    exact haway
  · have hx : exec (.targetMark dt ring buf) s = .next (b.markAll ring l ms) := exec_targetMark_direct hd hf hl hc
    have hcell (m : Mark) : m.cells (cellMm (b.layer l).cell) = cells m := by rw [hby]
    have hgo (h : ∀ m ∈ ms, ∀ k ∈ tilesOf l (cells m), (u.tile k).place ≠ .away) :
        exec (.targetMark dt ring buf) s = .next ((ms.foldl (fun s m => s.applyMark l m) b).finishHead ring 0x00 0 0) := by
      rw [hx]
      refine congrArg Host.Outcome.next (State.markAll_goes ring ?_)
      simp only [hcell, hbt]
      exact h
    refine ⟨hgo, fun m k hms hk hp _ hcan => ?_, fun hp => ?_⟩
    · refine ⟨_, hgo fun m' hm' k' hk' => ?_, ?_⟩
      · rw [hms] at hm'
        rw [List.mem_singleton.mp hm', hk] at hk'
        rw [List.mem_singleton.mp hk', hp]
        decide
      · have hcan : b.canCreate k = true := by
          rw [show b = _ from State.settle_eq ring]
          exact hcan
        rw [hms, ← hcell m]
        exact State.applyMark_new (by rw [hcell]; exact hk) (by rw [hbt]; exact hp) hcan
    · refine ⟨_, hgo fun m hm k hk ha => ?_, ?_⟩
      · obtain h | h := hp m hm k hk <;> rw [ha] at h <;> cases h
      · obtain ⟨hm, hc⟩ := State.applyMarks_marksIn (s := b) (l := l) (ms := ms) (congrArg (fun y => cellMm (Layer.cell y)) (hby l))
          fun m hm k hk => by
            rw [hbt]
            exact hp m hm k hk
        have hframe := hm.frame
        rw [hb] at hframe
        refine ⟨hframe, fun tx ty i hx hy hr => ?_, fun k hk => ?_⟩
        · rw [hc tx ty i hx hy (by rw [hbt]; exact hr), hbt]
        · rw [hm.stands k fun ⟨m, hm, hkm⟩ => hk m hm hkm, hbt]

/-- Settles O48, a lemma for each of its commands and one for the epoch at which a pass advances: its layers and tiles are followed
through what each command changes, with the tiles that are backed on the way as the only others that may change. -/
theorem layersTakeFramesAndMarks : Obligations.LayersTakeFramesAndMarks := by
  unfold Obligations.LayersTakeFramesAndMarks
  exact ⟨arenaGrant_grants, arenaQuota_sets, layerCfgWrite_configures, passAdvance_waits, advancePass_epochs, targetMark_marks,
    tileRelease_discards⟩

end Sys2Proof.Machine

namespace Sys2Proof.Machine

variable {s : State}

/-! ### Sources and faults of GNB (R202, R203) -/

theorem State.raise_gnb (n : Nat) : (s.raise n).gnb = s.gnb := by rw [State.raise_frame]

theorem State.onGnb_raise_icu (f : Gnb → Gnb) (n : Nat) : ((s.onGnb f).raise n).icu = (s.raise n).icu := by
  have hp : (s.onGnb f).powered (srcDomain n) = s.powered (srcDomain n) := rfl
  unfold State.raise
  rw [hp]
  split <;> rfl

/-- A change of GNB that raises a source. -/
theorem State.onGnb_raise_eq (f : Gnb → Gnb) (n : Nat) : (s.onGnb f).raise n = { s with gnb := f s.gnb, icu := (s.raise n).icu } := by
  rw [State.raise_frame, State.onGnb_raise_icu]
  rfl

theorem State.gnbFault_eq (b src : Nat) :
    s.gnbFault b src = { s with gnb := { s.gnb with fault := setFlag s.gnb.fault s.cycle b }, icu := (s.raise src).icu } :=
  State.onGnb_raise_eq ..

theorem State.gnbFault_bit {b : Nat} (src : Nat) (h : b < 32) : bit (s.gnbFault b src).gnb.fault.w b = true := by
  rw [State.gnbFault_eq]
  exact bit_setFlag_same _ _ h

theorem State.record_gnb (code source : Nat) (fixed : List (Nat × Word)) : (s.record code source fixed).gnb = s.gnb := by
  have h := State.record_records s code source fixed
  unfold State.Records at h
  rw [h]

/-! ### Bands, systems and notches (R192, R194) -/

/-- GNB with a band no longer interfered. -/
def Gnb.clearBand (m : Nat) (g : Gnb) : Gnb := { g with bands := Tbl.modify {} g.bands m fun c => { c with interfered := false } }

theorem Gnb.clearBand_bands (m : Nat) (g : Gnb) :
    (g.clearBand m).bands = Tbl.modify {} g.bands m fun c => { c with interfered := false } := rfl

theorem Gnb.clearBand_same (m : Nat) (g : Gnb) :
    Tbl.get {} (g.clearBand m).bands m = { Tbl.get {} g.bands m with interfered := false } := by
  rw [Gnb.clearBand_bands, Tbl.get_modify_same]

theorem Gnb.clearBand_ne {m k : Nat} (g : Gnb) (h : k ≠ m) : Tbl.get {} (g.clearBand m).bands k = Tbl.get {} g.bands k := by
  rw [Gnb.clearBand_bands, Tbl.get_modify_ne h]

theorem exec_interferenceClear {dt m : Nat} (hr : (s.elapse dt).isReady 6 = true)
    (hi : (Tbl.get {} (s.elapse dt).gnb.bands m).interfered = true)
    (hk : (Tbl.get {} (s.elapse dt).gnb.bands m).failTick + 400000000 ≤ (s.elapse dt).now) :
    exec (.interferenceClear dt m) s = .next (((s.elapse dt).onGnb (Gnb.clearBand m)).raise 165) :=
  next_when (and_decide (Bool.and_eq_true_iff.mpr ⟨hr, hi⟩) hk)

theorem interferenceClear_clears (dt m : Nat) (s : State) :
    let u := s.elapse dt
    let c := Tbl.get {} u.gnb.bands m
    u.isReady 6 = true → c.interfered = true → c.failTick + 400000000 ≤ u.now →
    ∃ t : State, exec (.interferenceClear dt m) s = .next t ∧ Tbl.get {} t.gnb.bands m = { c with interfered := false } ∧
      (∀ k, k ≠ m → Tbl.get {} t.gnb.bands k = Tbl.get {} u.gnb.bands k) ∧
      t = { u with gnb := { u.gnb with bands := t.gnb.bands }, icu := (u.raise 165).icu } := by
  intro u c hr hi hk
  refine ⟨_, exec_interferenceClear hr hi hk, ?_⟩
  rw [State.onGnb_raise_eq]
  exact ⟨Gnb.clearBand_same m u.gnb, fun k hk => Gnb.clearBand_ne u.gnb hk, rfl⟩

theorem isbHoldExpiry_ends (dt k : Nat) (s : State) :
    let u := s.elapse dt
    Tbl.get 0 u.gnb.isbUntil k ≤ u.now →
    ∃ t : State, exec (.isbHoldExpiry dt k) s = .next t ∧ Tbl.get 0 t.gnb.isbUntil k = 0 ∧
      (∀ j, j ≠ k → Tbl.get 0 t.gnb.isbUntil j = Tbl.get 0 u.gnb.isbUntil j) ∧
      t = { u with gnb := { u.gnb with isbUntil := t.gnb.isbUntil } } := by
  intro u hk
  refine ⟨_, next_when (decide_eq_true hk), ?_, fun j hj => ?_, rfl⟩
  · show Tbl.get 0 (Tbl.set 0 u.gnb.isbUntil k 0) k = _
    exact Tbl.get_set_same
  · show Tbl.get 0 (Tbl.set 0 u.gnb.isbUntil k 0) j = _
    exact Tbl.get_set_ne hj

theorem State.onNotch_raise_eq (n src : Nat) (f : Notch → Notch) :
    (s.onNotch n f).raise src = { s with gnb := (s.onNotch n f).gnb, icu := (s.raise src).icu } := State.onGnb_raise_eq ..

/-- A notch on a peak at an offset, last seen at a tick. -/
def Notch.engaged (off : Int) (depth tick : Nat) (c : Notch) : Notch :=
  { c with active := true, depthDb := max 40 depth, offsetKhz := off, overTick := tick }

theorem exec_notchEngage {dt n depth above : Nat} {off : Int} (hr : (s.elapse dt).isReady 6 = true)
    (hb : (s.elapse dt).bandExists (n / 2) = true) (he : ((s.elapse dt).notch n).enable = true)
    (ht : (s.elapse dt).gnb.notchThresh < above)
    (ho : ((s.elapse dt).notch (n ^^^ 1)).active = true → ((s.elapse dt).notch (n ^^^ 1)).offsetKhz ≠ off) :
    exec (.notchEngage dt n off depth above) s =
      .next (if ((s.elapse dt).notch n).active then (s.elapse dt).onNotch n (Notch.engaged off depth (s.elapse dt).now)
             else ((s.elapse dt).onNotch n (Notch.engaged off depth (s.elapse dt).now)).raise 164) := by
  refine next_when ?_
  rw [hr, hb, he, decide_eq_true ht]
  simpa [imp_iff_not_or] using ho

theorem notchEngage_engages (dt n depth above : Nat) (off : Int) (s : State) :
    let u := s.elapse dt
    let c := u.notch n
    u.isReady 6 = true → u.bandExists (n / 2) = true → c.enable = true → u.gnb.notchThresh < above →
    ((u.notch (n ^^^ 1)).active = true → (u.notch (n ^^^ 1)).offsetKhz ≠ off) →
    ∃ t : State, exec (.notchEngage dt n off depth above) s = .next t ∧
      t.notch n = { c with active := true, depthDb := max 40 depth, offsetKhz := off, overTick := u.now } ∧
      (∀ k, k ≠ n → t.notch k = u.notch k) ∧
      t = { u with gnb := { u.gnb with notches := t.gnb.notches }, icu := if c.active then u.icu else (u.raise 164).icu } := by
  intro u c hr hb he ht ho
  have hx := exec_notchEngage (depth := depth) hr hb he ht ho
  have hs := State.onNotch_notch u n (Notch.engaged off depth u.now)
  have hn (k : Nat) (hk : k ≠ n) := State.onNotch_notch_ne u n k (Notch.engaged off depth u.now) hk
  by_cases hc : c.active = true
  · rw [if_pos hc]
    exact ⟨_, hx.trans (congrArg _ (if_pos hc)), hs, hn, rfl⟩
  · rw [if_neg hc]
    refine ⟨_, hx.trans (congrArg _ (if_neg hc)), ?_⟩
    rw [State.onNotch_raise_eq]
    exact ⟨hs, hn, rfl⟩

/-- A notch that holds no peak. -/
def Notch.released (c : Notch) : Notch := { c with active := false, depthDb := 0, offsetKhz := 0 }

theorem exec_notchRelease {dt n : Nat} (hr : (s.elapse dt).isReady 6 = true) (ha : ((s.elapse dt).notch n).active = true)
    (hk : ((s.elapse dt).notch n).overTick + 200000000 ≤ (s.elapse dt).now) :
    exec (.notchRelease dt n) s = .next (((s.elapse dt).onNotch n Notch.released).raise 164) :=
  next_when (and_decide (Bool.and_eq_true_iff.mpr ⟨hr, ha⟩) hk)

theorem notchRelease_releases (dt n : Nat) (s : State) :
    let u := s.elapse dt
    u.isReady 6 = true → (u.notch n).active = true → (u.notch n).overTick + 200000000 ≤ u.now →
    ∃ t : State, exec (.notchRelease dt n) s = .next t ∧
      t.notch n = { u.notch n with active := false, depthDb := 0, offsetKhz := 0 } ∧ (∀ k, k ≠ n → t.notch k = u.notch k) ∧
      t = { u with gnb := { u.gnb with notches := t.gnb.notches }, icu := (u.raise 164).icu } := by
  intro u hr ha hk
  refine ⟨_, exec_notchRelease hr ha hk, ?_⟩
  rw [State.onNotch_raise_eq]
  exact ⟨State.onNotch_notch .., fun k hk => State.onNotch_notch_ne u n k Notch.released hk, rfl⟩

end Sys2Proof.Machine

namespace Sys2Proof.Machine

variable {s t u v : State} {a ma : Nat}

/-! ### Antenna bias (R180) -/

/-- `t` is `u` with the bias of an antenna in state `w` and its current sampled as `i`, its fault set and recorded; no other
antenna's bias changes. -/
structure State.BiasMoves (a : Nat) (w : Bias) (i : Option Nat) (u t : State) : Prop where
  bias : t.bias a = w
  others : ∀ k, k ≠ a → t.bias k = u.bias k
  current : Tbl.get none t.gnb.biasMa a = i
  currents : ∀ k, k ≠ a → Tbl.get none t.gnb.biasMa k = Tbl.get none u.gnb.biasMa k
  fault : bit t.gnb.fault.w a = true
  frame : t = { u with gnb := { u.gnb with bias := t.gnb.bias, biasMa := t.gnb.biasMa, shortTick := t.gnb.shortTick, fault := t.gnb.fault },
                       icu := t.icu, evr := t.evr, nv := t.nv, hre := t.hre, out := t.out }

/-- `v` is `u` with the current and the tick of the last trial of one antenna looked at. -/
structure State.Samples (a : Nat) (u v : State) : Prop where
  currents : ∀ k, k ≠ a → Tbl.get none v.gnb.biasMa k = Tbl.get none u.gnb.biasMa k
  frame : v = { u with gnb := { u.gnb with biasMa := v.gnb.biasMa, shortTick := v.gnb.shortTick } }

theorem State.sampleBias_same (a ma : Nat) (s : State) : Tbl.get none (s.sampleBias a ma).gnb.biasMa a = some ma := by
  show Tbl.get none (Tbl.set none s.gnb.biasMa a (some ma)) a = _
  exact Tbl.get_set_same

theorem State.sampleBias_ne {k : Nat} (ma : Nat) (s : State) (h : k ≠ a) :
    Tbl.get none (s.sampleBias a ma).gnb.biasMa k = Tbl.get none s.gnb.biasMa k :=
  Tbl.get_set_ne (t := s.gnb.biasMa) (v := some ma) h

theorem State.sampleBias_samples (a ma : Nat) (s : State) : s.Samples a (s.sampleBias a ma) :=
  ⟨fun _ hk => State.sampleBias_ne ma s hk, rfl⟩

theorem State.Samples.bias (h : u.Samples a v) (k : Nat) : v.bias k = u.bias k := by rw [h.frame]; rfl
theorem State.Samples.evr (h : u.Samples a v) : v.evr = u.evr := by rw [h.frame]

/-- The current of an antenna sampled after its bias has changed. -/
theorem State.BiasMoves.sampled {w : Bias} {i : Option Nat} (h : u.BiasMoves a w i t) (ma : Nat) :
    u.BiasMoves a w (some ma) (t.sampleBias a ma) := by
  refine ⟨h.bias, h.others, State.sampleBias_same .., fun k hk => (State.sampleBias_ne ma t hk).trans (h.currents k hk), h.fault, ?_⟩
  rw [h.frame]; rfl

/-- GNB with the bias of an antenna in a state that is not OFF: it has no current where it is cut. -/
def Gnb.biased (a : Nat) (w : Bias) (g : Gnb) : Gnb :=
  { g with bias := Tbl.set .off g.bias a w, biasMa := if w = .short then Tbl.set none g.biasMa a none else g.biasMa }

/-- The bias moves, with ANT_FAULT. -/
def State.moveBias (a : Nat) (w : Bias) (s : State) : State := (s.onGnb (Gnb.biased a w)).gnbFault a 163

theorem State.setBias_eq {w : Bias} (hne : s.bias a ≠ w) (hs : s.bias a ≠ .off) (hw : w ≠ .off) :
    s.setBias a w = if w = .short then (s.moveBias a w).record 0x0501 a [] else s.moveBias a w := by
  unfold State.setBias
  rw [if_neg hne]
  simp only [hs, hw, false_or]
  rfl

theorem State.moveBias_moves {w : Bias} (h : u.Samples a v) (ha : a < 32) :
    u.BiasMoves a w (if w = .short then none else Tbl.get none v.gnb.biasMa a) (v.moveBias a w) := by
  have hx := State.gnbFault_eq (s := v.onGnb (Gnb.biased a w)) a 163
  refine ⟨?_, fun k hk => ?_, ?_, fun k hk => ?_, State.gnbFault_bit 163 ha, ?_⟩
  all_goals unfold State.moveBias
  · unfold State.bias
    rw [hx]
    exact Tbl.get_set_same
  · rw [← h.bias k]
    unfold State.bias
    rw [hx]
    exact Tbl.get_set_ne hk
  · rw [hx]
    show Tbl.get none (if w = .short then _ else _) a = _
    split
    · exact Tbl.get_set_same
    · rfl
  · rw [← h.currents k hk, hx]
    show Tbl.get none (if w = .short then _ else _) k = _
    split
    · exact Tbl.get_set_ne hk
    · rfl
  · rw [hx, h.frame]; rfl

theorem State.BiasMoves.recorded {w : Bias} {i : Option Nat} (h : u.BiasMoves a w i t) (code source : Nat) (fixed : List (Nat × Word)) :
    u.BiasMoves a w i (t.record code source fixed) := by
  have hg := State.record_gnb (s := t) code source fixed
  have hr := State.record_records t code source fixed
  unfold State.Records at hr
  refine ⟨?_, fun k hk => ?_, ?_, fun k hk => ?_, ?_, ?_⟩
  · unfold State.bias; rw [hg]; exact h.bias
  · unfold State.bias; rw [hg]; exact h.others k hk
  · rw [hg]; exact h.current
  · rw [hg]; exact h.currents k hk
  · rw [hg]; exact h.fault
  · rw [hr, h.frame]

/-- The bias of an antenna that was not OFF moves to another state than OFF. -/
theorem State.setBias_moves {w : Bias} (h : u.Samples a v) (ha : a < 32) (hne : u.bias a ≠ w) (hs : u.bias a ≠ .off) (hw : w ≠ .off) :
    u.BiasMoves a w (if w = .short then none else Tbl.get none v.gnb.biasMa a) (v.setBias a w) := by
  rw [← h.bias a] at hne hs
  have hm := State.moveBias_moves (w := w) h ha
  rw [State.setBias_eq hne hs hw]
  by_cases hc : w = .short
  · simpa only [if_pos hc] using hm.recorded 0x0501 a []
  · simpa only [if_neg hc] using hm

theorem State.setBias_evr {w : Bias} (hw : w ≠ .short) : (s.setBias a w).evr = s.evr := by
  unfold State.setBias
  split
  · rfl
  · extract_lets was x
    unfold x
    rw [State.gnbFault_eq]; rfl

/-- The tick of the last trial of a shorted antenna's bias. -/
def Gnb.tried (a tick : Nat) (g : Gnb) : Gnb := { g with shortTick := Tbl.set 0 g.shortTick a tick }

theorem State.tried_samples (a tick : Nat) (s : State) : s.Samples a (s.onGnb (Gnb.tried a tick)) := ⟨fun _ _ => rfl, rfl⟩

theorem State.setBias_shortTick (w : Bias) : (s.setBias a w).gnb.shortTick = s.gnb.shortTick := by
  unfold State.setBias
  split
  · rfl
  · extract_lets was x
    have hx : x.gnb.shortTick = s.gnb.shortTick := by
      unfold x
      rw [State.gnbFault_eq]; rfl
    split
    · rw [State.record_gnb]; exact hx
    · exact hx

theorem inRange_iff {lo hi n : Nat} : inRange lo hi n = true ↔ lo ≤ n ∧ n ≤ hi := by simp [inRange]

section
variable {dt : Nat}

theorem exec_antOpen (hb : (s.elapse dt).bias a = .ok) (hm : ma ≤ 60) :
    exec (.antOpen dt a ma) s = .next (if ma < 2 then ((s.elapse dt).sampleBias a ma).setBias a .opened else (s.elapse dt).sampleBias a ma) :=
  next_when (and_decide (beq_iff_eq.mpr hb) hm)

theorem exec_antShort (hb : (s.elapse dt).bias a = .ok ∨ (s.elapse dt).bias a = .opened) (hm : 60 < ma) :
    exec (.antShort dt a ma) s = .next (((s.elapse dt).onGnb (Gnb.tried a (s.elapse dt).now)).setBias a .short) := by
  refine next_when (and_decide ?_ hm)
  rw [Bool.or_eq_true, beq_iff_eq, beq_iff_eq]
  exact hb

theorem exec_antBiasRecover (hb : (s.elapse dt).bias a = .opened) (h2 : 2 ≤ ma) (h60 : ma ≤ 60) :
    exec (.antBiasRecover dt a ma) s = .next (((s.elapse dt).sampleBias a ma).setBias a .ok) :=
  next_when (Bool.and_eq_true_iff.mpr ⟨beq_iff_eq.mpr hb, inRange_iff.mpr ⟨h2, h60⟩⟩)

theorem exec_antBiasRetry (hb : (s.elapse dt).bias a = .short)
    (hk : Tbl.get 0 (s.elapse dt).gnb.shortTick a + 200000000 ≤ (s.elapse dt).now) :
    exec (.antBiasRetry dt a ma) s =
      .next (let v := (s.elapse dt).onGnb (Gnb.tried a (s.elapse dt).now)
             if inRange 2 60 ma then (v.setBias a .ok).sampleBias a ma else v) :=
  next_when (and_decide (beq_iff_eq.mpr hb) hk)

theorem antOpen_opens (ha : a < 32) (hb : (s.elapse dt).bias a = .ok) (hm : ma < 2) :
    ∃ t : State, exec (.antOpen dt a ma) s = .next t ∧ (s.elapse dt).BiasMoves a .opened (some ma) t ∧ t.evr = (s.elapse dt).evr := by
  refine ⟨((s.elapse dt).sampleBias a ma).setBias a .opened, ?_, ?_, State.setBias_evr (by decide)⟩
  · rw [exec_antOpen hb (by omega), if_pos hm]
  · have h := State.setBias_moves (w := .opened) (State.sampleBias_samples a ma (s.elapse dt)) ha (by rw [hb]; decide)
      (by rw [hb]; decide) (by decide)
    rw [if_neg (by decide)] at h
    exact State.sampleBias_same a ma _ ▸ h

theorem antOpen_samples (hb : (s.elapse dt).bias a = .ok) (h2 : 2 ≤ ma) (h60 : ma ≤ 60) :
    exec (.antOpen dt a ma) s = .next ((s.elapse dt).sampleBias a ma) := by
  rw [exec_antOpen hb h60, if_neg (by omega)]

theorem antShort_cuts (ha : a < 32) (hb : (s.elapse dt).bias a = .ok ∨ (s.elapse dt).bias a = .opened) (hm : 60 < ma) :
    ∃ t : State, exec (.antShort dt a ma) s = .next t ∧ (s.elapse dt).BiasMoves a .short none t ∧
      Tbl.get 0 t.gnb.shortTick a = (s.elapse dt).now := by
  refine ⟨_, exec_antShort hb hm, ?_, ?_⟩
  · exact State.setBias_moves (w := .short) (State.tried_samples ..) ha (by rcases hb with hb | hb <;> rw [hb] <;> decide)
      (by rcases hb with hb | hb <;> rw [hb] <;> decide) (by decide)
  · rw [State.setBias_shortTick]
    exact Tbl.get_set_same

theorem antBiasRecover_recovers (ha : a < 32) (hb : (s.elapse dt).bias a = .opened) (h2 : 2 ≤ ma) (h60 : ma ≤ 60) :
    ∃ t : State, exec (.antBiasRecover dt a ma) s = .next t ∧ (s.elapse dt).BiasMoves a .ok (some ma) t ∧ t.evr = (s.elapse dt).evr := by
  refine ⟨_, exec_antBiasRecover hb h2 h60, ?_, State.setBias_evr (by decide)⟩
  have h := State.setBias_moves (w := .ok) (State.sampleBias_samples a ma (s.elapse dt)) ha (by rw [hb]; decide)
    (by rw [hb]; decide) (by decide)
  rw [if_neg (by decide)] at h
  exact State.sampleBias_same a ma _ ▸ h

theorem antBiasRetry_tries (ha : a < 32) (hb : (s.elapse dt).bias a = .short)
    (hk : Tbl.get 0 (s.elapse dt).gnb.shortTick a + 200000000 ≤ (s.elapse dt).now) :
    ∃ t : State, exec (.antBiasRetry dt a ma) s = .next t ∧ Tbl.get 0 t.gnb.shortTick a = (s.elapse dt).now ∧ t.evr = (s.elapse dt).evr ∧
      (2 ≤ ma → ma ≤ 60 → (s.elapse dt).BiasMoves a .ok (some ma) t) ∧
      (ma < 2 ∨ 60 < ma → t.gnb.bias = (s.elapse dt).gnb.bias ∧ t.icu = (s.elapse dt).icu) := by
  refine ⟨_, exec_antBiasRetry hb hk, ?_⟩
  dsimp only
  by_cases hm : 2 ≤ ma ∧ ma ≤ 60
  · rw [if_pos (inRange_iff.mpr hm)]
    refine ⟨?_, State.setBias_evr (by decide), fun _ _ => ?_, fun h => by omega⟩
    · show Tbl.get 0 (State.setBias a .ok _).gnb.shortTick a = _
      rw [State.setBias_shortTick]
      exact Tbl.get_set_same
    · exact (State.setBias_moves (State.tried_samples ..) ha (by rw [hb]; decide) (by rw [hb]; decide) (by decide)).sampled ma
  · rw [if_neg fun h => hm (inRange_iff.mp h)]
    exact ⟨Tbl.get_set_same, rfl, fun h2 h60 => absurd ⟨h2, h60⟩ hm, fun _ => ⟨rfl, rfl⟩⟩

end

/-- What O51 says of a bias that has moved. -/
theorem State.BiasMoves.facts {w : Bias} {i : Option Nat} (h : u.BiasMoves a w i t) :
    t.bias a = w ∧ (∀ k, k ≠ a → t.bias k = u.bias k) ∧ Tbl.get none t.gnb.biasMa a = i ∧
      (∀ k, k ≠ a → Tbl.get none t.gnb.biasMa k = Tbl.get none u.gnb.biasMa k) ∧ bit t.gnb.fault.w a = true ∧
      t = { u with gnb := { u.gnb with bias := t.gnb.bias, biasMa := t.gnb.biasMa, shortTick := t.gnb.shortTick, fault := t.gnb.fault },
                   icu := t.icu, evr := t.evr, nv := t.nv, hre := t.hre, out := t.out } :=
  ⟨h.bias, h.others, h.current, h.currents, h.fault, h.frame⟩

/-- Settles O51, command by command; the states of an antenna's bias go through what a move of it changes. -/
theorem bandsNotchesAndBias : Obligations.BandsNotchesAndBias := by
  unfold Obligations.BandsNotchesAndBias
  refine ⟨interferenceClear_clears, isbHoldExpiry_ends, notchEngage_engages, notchRelease_releases, ?_⟩
  intro dt a ma s u Moved ha
  refine ⟨fun hb hm => ?_, antOpen_samples, fun hb hm => ?_, fun hb h2 h60 => ?_, fun hb hk => ?_⟩
  · obtain ⟨t, hx, h, he⟩ := antOpen_opens ha hb hm
    exact ⟨t, hx, h.facts, he⟩
  · obtain ⟨t, hx, h, hk⟩ := antShort_cuts ha hb hm
    exact ⟨t, hx, h.facts, hk⟩
  · obtain ⟨t, hx, h, he⟩ := antBiasRecover_recovers ha hb h2 h60
    exact ⟨t, hx, h.facts, he⟩
  · obtain ⟨t, hx, hk, he, hin, hout⟩ := antBiasRetry_tries (ma := ma) ha hb hk
    exact ⟨t, hx, hk, he, fun h2 h60 => (hin h2 h60).facts, hout⟩

end Sys2Proof.Machine

namespace Sys2Proof.Machine

variable {s : State} {dt ring : Nat} {d : Slot}

/-! ### EPHEMERIS_LOAD (R188, R191) -/

theorem State.settle_gnb (ring : Nat) : (s.settle ring).gnb = s.gnb := by rw [State.settle_eq]

/-- The records of a buffer as they wait for an epoch. -/
def ephWaitOf (ring : Nat) (d : Slot) (bs : List Byte) : EphWait :=
  let rs := slices bs 128 (dLength d.desc)
  { ring, index := d.index, records := (rs.filter fun r => wordAt r.2 0 1 == 1).map fun r => parseEph r.2,
    assists := (rs.filter fun r => !(wordAt r.2 0 1 == 1)).map fun r => parseAssist r.2 }

/-- GNB with one EPHEMERIS_LOAD more that waits. -/
def Gnb.awaiting (w : EphWait) (g : Gnb) : Gnb := { g with ephWait := g.ephWait ++ [w] }

section
variable (hd : (s.elapse dt).headRuns ring 0x0D d)
  (hc : checksPass ([flagCheck d.desc 0x0A, (dFlag d.desc 3, 1),
    (inRange 1 512 (dLength d.desc) && lengthFits d.desc (128 * dLength d.desc), 2)] ++ indirectChecks d.desc))
include hd hc

theorem exec_ephemerisLoad_error :
    exec (.ephemerisLoad dt ring .error) s = .next (((s.elapse dt).settle ring).dmaError.finishHead ring 0x09 0 0) := by
  show execEphemerisLoad dt ring .error s = _
  unfold execEphemerisLoad
  rw [State.runDesc_headRuns hd]
  dsimp only
  rw [State.checked_pass hc]
  rfl

theorem exec_ephemerisLoad_data {bs : List Byte}
    (hb : checksPass ((slices bs 128 (dLength d.desc)).flatMap fun r => ephChecks r.2 r.1)) :
    exec (.ephemerisLoad dt ring (.data bs)) s =
      .next ((((s.elapse dt).settle ring).onGnb (Gnb.awaiting (ephWaitOf ring d bs))).startHead ring []) := by
  show execEphemerisLoad dt ring (.data bs) s = _
  unfold execEphemerisLoad
  rw [State.runDesc_headRuns hd]
  dsimp only
  rw [State.checked_pass hc, State.withBuffer_data, State.checked_pass hb]
  rfl

end

theorem ephemerisLoad_waits (dt ring : Nat) (buf : HostRead) (s : State) (d : Slot) :
    let u := s.elapse dt
    let b := u.settle ring
    let n := dLength d.desc
    u.headRuns ring 0x0D d →
    checksPass ([flagCheck d.desc 0x0A, (dFlag d.desc 3, 1), (inRange 1 512 n && lengthFits d.desc (128 * n), 2)] ++
      indirectChecks d.desc) →
    (buf = .error → exec (.ephemerisLoad dt ring buf) s = .next (b.dmaError.finishHead ring 0x09 0 0)) ∧
    (∀ bs, buf = .data bs → checksPass ((slices bs 128 n).flatMap fun r => ephChecks r.2 r.1) →
      ∃ (v : State) (w : EphWait), exec (.ephemerisLoad dt ring buf) s = .next (v.startHead ring []) ∧
        v = { b with gnb := { u.gnb with ephWait := u.gnb.ephWait ++ [w] } } ∧ w.ring = ring ∧ w.index = d.index ∧
        w.records = (((slices bs 128 n).filter fun r => wordAt r.2 0 1 == 1).map fun r => parseEph r.2) ∧
        w.assists = (((slices bs 128 n).filter fun r => !(wordAt r.2 0 1 == 1)).map fun r => parseAssist r.2)) := by
  intro u b n hd hc
  refine ⟨?_, ?_⟩
  · rintro rfl
    exact exec_ephemerisLoad_error hd hc
  · rintro bs rfl hb
    refine ⟨_, ephWaitOf ring d bs, exec_ephemerisLoad_data hd hc hb, ?_, rfl, rfl, rfl, rfl⟩
    have hg : b.gnb = u.gnb := State.settle_gnb ring
    rw [← hg]; rfl

theorem oldest_mem (h : Eph) (t : List Eph) : t.foldl (fun b e => if e.toeSec < b.toeSec then e else b) h ∈ h :: t := by
  induction t generalizing h with
  | nil => exact List.mem_singleton_self h
  | cons x t ih =>
    rw [List.foldl_cons]
    split
    · exact List.mem_cons_of_mem _ (ih x)
    · rcases List.mem_cons.mp (ih h) with hh | ht
      · rw [hh]; exact List.mem_cons_self
      · exact List.mem_cons_of_mem _ (List.mem_cons_of_mem _ ht)

theorem dropOldestEph_length (es : List Eph) : (dropOldestEph es).length = es.length - 1 := by
  cases es with
  | nil => rfl
  | cons h t => exact List.length_erase_of_mem (oldest_mem h t)

theorem Eph.same_refl (e : Eph) : e.same e = true := by simp [Eph.same]

section
variable {es : List Eph} {a c : Nat} {e : Eph}

theorem storeEph_replaces (h : es.any (fun x => x.same e) = true) :
    storeEph (es, a, c) e = (es.map (fun x => if x.same e then e else x), a + 1, c + 1) := if_pos h

theorem storeEph_joins (h : es.any (fun x => x.same e) = false) (hl : es.length < 160) :
    storeEph (es, a, c) e = (es ++ [e], a + 1, c) := by
  unfold storeEph
  rw [if_neg (ne_true_of_eq_false h), if_pos hl]

theorem storeEph_displaces (h : es.any (fun x => x.same e) = false) (hl : ¬ es.length < 160) :
    storeEph (es, a, c) e = (dropOldestEph es ++ [e], a + 1, c) := by
  unfold storeEph
  rw [if_neg (ne_true_of_eq_false h), if_neg hl]

end

theorem storeEph_stores (es : List Eph) (a c : Nat) (e : Eph) :
    (es.length ≤ 160 → (storeEph (es, a, c) e).1.length ≤ 160) ∧ e ∈ (storeEph (es, a, c) e).1 ∧
    (storeEph (es, a, c) e).2 = (a + 1, if es.any (fun x => x.same e) then c + 1 else c) ∧
    (es.any (fun x => x.same e) = false → es.length < 160 → (storeEph (es, a, c) e).1 = es ++ [e]) := by
  cases h : es.any fun x => x.same e with
  | true =>
    rw [storeEph_replaces h]
    refine ⟨fun hl => by rwa [List.length_map], ?_, rfl, fun hf => by cases hf⟩
    obtain ⟨x, hx, hs⟩ := List.any_eq_true.mp h
    exact List.mem_map.mpr ⟨x, hx, if_pos hs⟩
  | false =>
    by_cases hl : es.length < 160
    · rw [storeEph_joins h hl]
      refine ⟨fun _ => ?_, List.mem_append_right _ (List.mem_singleton_self e), rfl, fun _ _ => rfl⟩
      rw [List.length_append, List.length_singleton]
      omega
    · rw [storeEph_displaces h hl]
      refine ⟨fun _ => ?_, List.mem_append_right _ (List.mem_singleton_self e), rfl, fun _ hl' => absurd hl' hl⟩
      rw [List.length_append, List.length_singleton, dropOldestEph_length]
      omega

end Sys2Proof.Machine

namespace Sys2Proof.Machine

variable {s : State}

/-! ### Tracking channels and systems (R179, R192) -/

theorem wantedTracks_bounded (ok : List GnssSignal) (a : Nat) :
    (wantedTracks ok a).length ≤ 96 ∧ ∀ k ∈ wantedTracks ok 1, k ∈ wantedTracks ok 0 := by
  refine ⟨?_, fun k hk => ?_⟩
  · unfold wantedTracks
    dsimp only
    split
    · exact List.length_take_le ..
    · exact (List.length_filter_le ..).trans (List.length_take_le ..)
  · exact List.contains_iff_mem.mp (List.mem_filter.mp hk).2

/-- GNB with a system excluded for ISB_HOLD from a tick. -/
def Gnb.excluding (k tick : Nat) (g : Gnb) : Gnb := { g with isbUntil := Tbl.set 0 g.isbUntil k (tick + g.isbHold * secTicks) }

theorem Gnb.excluding_isbUntil (k tick : Nat) (g : Gnb) :
    Tbl.get 0 (g.excluding k tick).isbUntil k = tick + g.isbHold * 200000000 := by
  have h : secTicks = 200000000 := rfl
  rw [← h]
  show Tbl.get 0 (Tbl.set 0 g.isbUntil k (tick + g.isbHold * secTicks)) k = _
  exact Tbl.get_set_same

/-- The end of an exclusion is a sum that the kernel is not to unfold, so it is named. -/
theorem Gnb.excluding_eq (k tick : Nat) (g : Gnb) : ∃ r, g.excluding k tick = { g with isbUntil := r } := ⟨_, rfl⟩

theorem Gnb.excluding_isbRun (k tick : Nat) (g : Gnb) : (g.excluding k tick).isbRun = g.isbRun := by
  obtain ⟨r, hr⟩ := Gnb.excluding_eq k tick g
  rw [hr]

theorem State.gnbFault_isbUntil (b src : Nat) : (s.gnbFault b src).gnb.isbUntil = s.gnb.isbUntil := by rw [State.gnbFault_eq]
theorem State.gnbFault_isbRun (b src : Nat) : (s.gnbFault b src).gnb.isbRun = s.gnb.isbRun := by rw [State.gnbFault_eq]

/-- GNB with the running inter-system offset of a system. -/
def Gnb.offset (k : Nat) (r : Int) (g : Gnb) : Gnb := { g with isbRun := Tbl.set none g.isbRun k (some r) }

theorem State.isbCheck_fails {first k : Nat} {i : GnssInput} (h : s.isbFails first k (Config.gnssIsb i k) = true) :
    State.isbCheck first i s k = (s.onGnb (Gnb.excluding k s.now)).gnbFault 5 168 := by
  unfold State.isbCheck
  exact if_pos h

theorem State.isbCheck_passes {first k : Nat} {i : GnssInput} (h : s.isbFails first k (Config.gnssIsb i k) = false) :
    ∃ r, State.isbCheck first i s k = s.onGnb (Gnb.offset k r) := ⟨_, if_neg (ne_true_of_eq_false h)⟩

theorem isbCheck_excludes (first k : Nat) (i : GnssInput) (s : State) :
    let v := Config.gnssIsb i k
    let t := State.isbCheck first i s k
    (s.isbFails first k v = true →
      Tbl.get 0 t.gnb.isbUntil k = s.now + s.gnb.isbHold * 200000000 ∧ bit t.gnb.fault.w 5 = true ∧ t.gnb.isbRun = s.gnb.isbRun) ∧
    (s.isbFails first k v = false →
      (∃ r, Tbl.get none t.gnb.isbRun k = some r) ∧ t.gnb.isbUntil = s.gnb.isbUntil ∧ t.icu = s.icu) := by
  refine ⟨fun h => ?_, fun h => ?_⟩
  · rw [State.isbCheck_fails h]
    refine ⟨?_, State.gnbFault_bit 168 (by decide), ?_⟩
    · rw [State.gnbFault_isbUntil, State.onGnb_gnb, Gnb.excluding_isbUntil]
    · rw [State.gnbFault_isbRun, State.onGnb_gnb, Gnb.excluding_isbRun]
  · obtain ⟨r, hr⟩ := State.isbCheck_passes h
    rw [hr]
    refine ⟨⟨r, ?_⟩, rfl, rfl⟩
    show Tbl.get none (Tbl.set none s.gnb.isbRun k (some r)) k = _
    exact Tbl.get_set_same

/-! ### Heading (R195, R196) -/

theorem State.setHdg_frame (b : Bool) (n : Nat) :
    s.setHdg b n = { s with gnb := { s.gnb with hdg := b, hdgSignals := n }, icu := (s.setHdg b n).icu } := by
  unfold State.setHdg
  dsimp only
  split
  · rfl
  · exact State.raise_frame 162

theorem State.setHdg_gnb (b : Bool) (n : Nat) : (s.setHdg b n).gnb = { s.gnb with hdg := b, hdgSignals := n } := by
  rw [State.setHdg_frame]

/-- GNB with the ambiguities of some pairs fixed, and the baseline they give measured. -/
def Gnb.measured (ps : List (GnssSignal × GnssSignal)) (mm : Nat) (g : Gnb) : Gnb :=
  { g with ambiguities := ps.map fun p => trackOf p.1, baselineMeas := mm }

/-- GNB once a fix of the baseline has failed; the third failure in a row starts the count anew (log 74). -/
def Gnb.unfixed (fails : Nat) (g : Gnb) : Gnb := { g with ambiguities := [], baselineFails := if fails = 3 then 0 else fails }

/-- The state after a fix of the baseline that fails. -/
def State.misfits (ps : List (GnssSignal × GnssSignal)) (s : State) : State :=
  ((s.onGnb (Gnb.measured ps (min 4095 (Config.gnssBaseline s.gnb.baselineCfg ps).lengthMm))).onGnb
    (Gnb.unfixed (s.gnb.baselineFails + 1))).setHdg false ps.length

section
variable {ps : List (GnssSignal × GnssSignal)}

theorem State.headingCheck_single {burst : Bool} (h : burst = true ∨ s.antExists 1 = false) :
    s.headingCheck burst ps = (none, (s.onGnb (Gnb.measured ps 0)).setHdg false 0) := by
  unfold State.headingCheck
  exact if_pos h

theorem State.headingCheck_few (ha : s.antExists 1 = true) (hn : ps.length < s.gnb.hdgMinSignals) :
    s.headingCheck false ps = (none, (s.onGnb (Gnb.measured ps 0)).setHdg false ps.length) := by
  unfold State.headingCheck
  extract_lets n w
  have ha' : w.antExists 1 = true := ha
  rw [if_neg (by simp [ha']), if_pos (show n < w.gnb.hdgMinSignals from hn)]
  rfl

variable (ha : s.antExists 1 = true) (hn : s.gnb.hdgMinSignals ≤ ps.length)
include ha hn

theorem State.headingCheck_fits
    (ho : (((Config.gnssBaseline s.gnb.baselineCfg ps).lengthMm : Int) - s.gnb.baselineCfg).natAbs ≤ 20) :
    s.headingCheck false ps = (some (Config.gnssBaseline s.gnb.baselineCfg ps),
      ((s.onGnb (Gnb.measured ps (min 4095 (Config.gnssBaseline s.gnb.baselineCfg ps).lengthMm))).onGnb
        fun g => { g with baselineFails := 0 }).setHdg true ps.length) := by
  unfold State.headingCheck
  extract_lets n w b x k y
  have ha' : w.antExists 1 = true := ha
  rw [if_neg (by simp [ha']), if_neg (show ¬ n < w.gnb.hdgMinSignals from Nat.not_lt.mpr hn),
    if_neg (show ¬ 20 < ((b.lengthMm : Int) - x.gnb.baselineCfg).natAbs from Nat.not_lt.mpr ho)]
  rfl

theorem State.headingCheck_misfits
    (ho : 20 < (((Config.gnssBaseline s.gnb.baselineCfg ps).lengthMm : Int) - s.gnb.baselineCfg).natAbs) :
    s.headingCheck false ps = (none,
      if s.gnb.baselineFails + 1 = 3 then ((s.misfits ps).gnbFault 6 169).record 0x0502 0 [] else s.misfits ps) := by
  unfold State.headingCheck
  extract_lets n w b x k y
  have ha' : w.antExists 1 = true := ha
  rw [if_neg (by simp [ha']), if_neg (show ¬ n < w.gnb.hdgMinSignals from Nat.not_lt.mpr hn),
    if_pos (show 20 < ((b.lengthMm : Int) - x.gnb.baselineCfg).natAbs from ho)]
  rfl

end

theorem headingCheck_fixesOrFails (ps : List (GnssSignal × GnssSignal)) (s : State) :
    let b := Config.gnssBaseline s.gnb.baselineCfg ps
    let off := ((b.lengthMm : Int) - s.gnb.baselineCfg).natAbs
    let r := State.headingCheck false ps s
    s.antExists 1 = true → s.gnb.hdgMinSignals ≤ ps.length →
    (off ≤ 20 → r.1 = some b ∧ r.2.gnb.hdg = true ∧ r.2.gnb.hdgSignals = ps.length ∧ r.2.gnb.baselineFails = 0 ∧
      r.2.gnb.ambiguities = ps.map fun p => trackOf p.1) ∧
    (20 < off → r.1 = none ∧ r.2.gnb.hdg = false ∧ r.2.gnb.ambiguities = [] ∧
      (s.gnb.baselineFails = 2 → r.2.gnb.baselineFails = 0 ∧ bit r.2.gnb.fault.w 6 = true)) := by
  intro b off r ha hn
  refine ⟨fun ho => ?_, fun ho => ?_⟩
  · have hr : r = _ := State.headingCheck_fits ha hn ho
    rw [hr, State.setHdg_gnb]
    exact ⟨rfl, rfl, rfl, rfl, rfl⟩
  · have hr : r = _ := State.headingCheck_misfits ha hn ho
    have hm : (s.misfits ps).gnb.hdg = false ∧ (s.misfits ps).gnb.ambiguities = [] ∧
        (s.misfits ps).gnb.baselineFails = if s.gnb.baselineFails + 1 = 3 then 0 else s.gnb.baselineFails + 1 := by
      unfold State.misfits
      rw [State.setHdg_gnb]
      exact ⟨rfl, rfl, rfl⟩
    obtain ⟨hhdg, hamb, hfails⟩ := hm
    rw [hr]
    by_cases h3 : s.gnb.baselineFails + 1 = 3
    · rw [if_pos h3] at hfails ⊢
      refine ⟨rfl, ?_⟩
      rw [State.record_gnb]
      refine ⟨?_, ?_, fun _ => ⟨?_, State.gnbFault_bit 169 (by decide)⟩⟩
      all_goals rw [State.gnbFault_eq]
      · exact hhdg
      · exact hamb
      · exact hfails
    · rw [if_neg h3]
      exact ⟨rfl, hhdg, hamb, fun h2 => absurd (by rw [h2]) h3⟩

end Sys2Proof.Machine

namespace Sys2Proof.Machine

variable {s : State} {dt : Nat}

/-! ### Burst tracking (R197, R198) -/

theorem State.onGnb_armed (h : s.gnb.armed = s.applyArmed) : (s.onGnb fun g => { g with armed := s.applyArmed }) = s := by
  rw [← h]; rfl

section
variable (hr : s.isReady 6 = true) (ha : s.gnb.armed = s.applyArmed)
include hr ha

theorem State.armCheck_allowed {k : Nat} (hb : s.burstAllowed = true) (hk : s.gnb.allowedSince = some k) : s.armCheck = s := by
  have h : some (s.gnb.allowedSince.getD s.now) = s.gnb.allowedSince := by rw [hk]; rfl
  unfold State.armCheck
  rw [if_pos hr]
  dsimp only
  rw [State.onGnb_armed ha, if_pos hb]
  show { s with gnb := { s.gnb with allowedSince := some (s.gnb.allowedSince.getD s.now) } } = s
  rw [h]

theorem State.armCheck_denied (hb : s.burstAllowed = false) : s.armCheck = s.onGnb fun g => { g with allowedSince := none } := by
  unfold State.armCheck
  rw [if_pos hr]
  dsimp only
  rw [State.onGnb_armed ha, if_neg (ne_true_of_eq_false hb)]

end

/-- GNB as burst tracking starts. -/
def Gnb.inBurst (g : Gnb) : Gnb := { g with burst := true, ambiguities := [], baselineMeas := 0 }

/-- GNB as burst tracking ends at a tick. -/
def Gnb.afterBurst (tick : Nat) (g : Gnb) : Gnb := { g with burst := false, resumeTick := tick + 20 * msTicks, ambiguities := [] }

theorem exec_burstStart {k : Nat} (hr : (s.elapse dt).isReady 6 = true) (ho : (s.elapse dt).gnb.burst = false)
    (hb : (s.elapse dt).burstAllowed = true) (ha : (s.elapse dt).gnb.armed = (s.elapse dt).applyArmed)
    (hk : (s.elapse dt).gnb.allowedSince = some k) (h2 : k + 400000000 ≤ (s.elapse dt).now / 200000000 * 200000000) :
    exec (.burstStart dt) s = .next ((((s.elapse dt).onGnb Gnb.inBurst).raise 171).setHdg false 0) := by
  show execBurstStart dt s = _
  unfold execBurstStart
  rw [State.armCheck_allowed hr ha hb hk]
  refine next_when (Bool.and_eq_true_iff.mpr ⟨Bool.and_eq_true_iff.mpr ⟨hr, ?_⟩, ?_⟩)
  · rw [ho]; rfl
  · rw [hk]
    exact decide_eq_true h2

theorem burstStart_starts (dt k : Nat) (s : State) :
    let u := s.elapse dt
    u.isReady 6 = true → u.gnb.burst = false → u.burstAllowed = true → u.gnb.armed = u.applyArmed →
    u.gnb.allowedSince = some k → k + 400000000 ≤ u.now / 200000000 * 200000000 →
    ∃ t : State, exec (.burstStart dt) s = .next t ∧
      t = { u with gnb := { u.gnb with burst := true, ambiguities := [], baselineMeas := 0, hdg := false, hdgSignals := 0 }, icu := t.icu } := by
  intro u hr ho hb ha hk h2
  refine ⟨_, exec_burstStart hr ho hb ha hk h2, ?_⟩
  rw [State.setHdg_frame, State.onGnb_raise_eq]
  rfl

theorem exec_burstExit (hr : (s.elapse dt).isReady 6 = true) (ho : (s.elapse dt).gnb.burst = true)
    (hb : (s.elapse dt).burstAllowed = false) (ha : (s.elapse dt).gnb.armed = (s.elapse dt).applyArmed) :
    exec (.burstExit dt) s = .next ((((s.elapse dt).onGnb fun g => { g with allowedSince := none }).onGnb
      (Gnb.afterBurst (s.elapse dt).now)).raise 171) := by
  show execBurstExit dt s = _
  unfold execBurstExit
  rw [State.armCheck_denied hr ha hb]
  refine next_when (Bool.and_eq_true_iff.mpr ⟨ho, ?_⟩)
  show (!(s.elapse dt).burstAllowed) = true
  rw [hb]; rfl

theorem burstExit_ends (dt : Nat) (s : State) :
    let u := s.elapse dt
    u.isReady 6 = true → u.gnb.burst = true → u.burstAllowed = false → u.gnb.armed = u.applyArmed →
    ∃ t : State, exec (.burstExit dt) s = .next t ∧
      t = { u with gnb := { u.gnb with burst := false, resumeTick := u.now + 4000000, ambiguities := [], allowedSince := none },
                   icu := t.icu } := by
  intro u hr ho hb ha
  refine ⟨_, exec_burstExit hr ho hb ha, ?_⟩
  rw [State.onGnb_raise_eq]
  rfl

end Sys2Proof.Machine

namespace Sys2Proof.Machine

variable {s t : State} {dt : Nat}

/-! ### Navigation messages (R187, R191, R200, R201) -/

theorem State.Reports.gnb (h : s.Reports t) : t.gnb = s.gnb := by
  unfold State.Reports at h
  rw [h]

theorem State.navReport_reports (k : Track) (check count : Nat) (m : NavMessage) : s.Reports (s.navReport k check count m) :=
  foldl_related s (fun _ => State.Reports.refl) .trans (fun _ _ => State.report_reports ..) _

/-- GNB with a message counted on its channel, and the last bits of its word. -/
def Gnb.counting (k : Track) (m : NavMessage) (g : Gnb) : Gnb :=
  { g with msgCount := Tbl.set 0 g.msgCount m.channel (Tbl.get 0 g.msgCount m.channel + 1),
           lastBits := Tbl.set none g.lastBits m.channel
             (if isLnav k.signal then some (m.bits.getD 28 false, m.bits.getD 29 false) else none) }

/-- A message counted, and its check where it failed (R201). -/
def State.judgeMessage (k : Track) (m : NavMessage) (s : State) : State :=
  let x := s.onGnb (Gnb.counting k m)
  if s.checkCode k m = 1 then (x.onGnb fun g => { g with navFail := count32 g.navFail }).gnbFault 8 172 else x

/-- A message counted, judged and reported, before what it says is taken from it. -/
def State.hearMessage (k : Track) (m : NavMessage) (s : State) : State :=
  let x := s.judgeMessage k m
  if x.gnb.navEn && m.polarityKnown && (s.checkCode k m != 1 || x.gnb.navFailedEn) then
    x.navReport k (s.checkCode k m) (Tbl.get 0 s.gnb.msgCount m.channel + 1) m
  else x

theorem State.navMessage_eq (k : Track) (m : NavMessage) : s.navMessage k m =
    if s.checkCode k m = 0 then m.info.foldl (State.navInfo k) ((s.hearMessage k m).keepSbas k m) else s.hearMessage k m := rfl

theorem State.hearMessage_reports (k : Track) (m : NavMessage) : (s.judgeMessage k m).Reports (s.hearMessage k m) := by
  unfold State.hearMessage
  dsimp only
  split
  · exact State.navReport_reports ..
  · exact .refl

theorem State.judgeMessage_passed {k : Track} {m : NavMessage} (h : s.checkCode k m ≠ 1) :
    s.judgeMessage k m = s.onGnb (Gnb.counting k m) := if_neg h

theorem State.judgeMessage_failed {k : Track} {m : NavMessage} (h : s.checkCode k m = 1) :
    s.judgeMessage k m = ((s.onGnb (Gnb.counting k m)).onGnb fun g => { g with navFail := count32 g.navFail }).gnbFault 8 172 := if_pos h

theorem State.judgeMessage_frame (k : Track) (m : NavMessage) : s.judgeMessage k m =
    { s with gnb := { s.gnb.counting k m with navFail := if s.checkCode k m = 1 then count32 s.gnb.navFail else s.gnb.navFail,
                                              fault := (s.judgeMessage k m).gnb.fault },
             icu := (s.judgeMessage k m).icu } := by
  by_cases h : s.checkCode k m = 1
  · rw [State.judgeMessage_failed h, if_pos h, State.gnbFault_eq]
    rfl
  · rw [State.judgeMessage_passed h, if_neg h]
    rfl

/-- What GNB is once a message has been heard. -/
theorem State.hearMessage_gnb (k : Track) (m : NavMessage) : (s.hearMessage k m).gnb =
    { s.gnb.counting k m with navFail := if s.checkCode k m = 1 then count32 s.gnb.navFail else s.gnb.navFail,
                              fault := (s.hearMessage k m).gnb.fault } := by
  rw [(State.hearMessage_reports k m).gnb]
  exact congrArg State.gnb (State.judgeMessage_frame k m)

theorem State.hearMessage_frame (k : Track) (m : NavMessage) : s.hearMessage k m =
    { s with gnb := (s.hearMessage k m).gnb, icu := (s.hearMessage k m).icu, hre := (s.hearMessage k m).hre,
             out := (s.hearMessage k m).out } := by
  have h := State.hearMessage_reports (s := s) k m
  unfold State.Reports at h
  rw [h, State.judgeMessage_frame]

theorem State.hearMessage_tbu (k : Track) (m : NavMessage) : (s.hearMessage k m).tbu = s.tbu := by rw [State.hearMessage_frame]

theorem State.hearMessage_failed {k : Track} {m : NavMessage} (h : s.checkCode k m = 1) :
    bit (s.hearMessage k m).gnb.fault.w 8 = true := by
  rw [(State.hearMessage_reports k m).gnb, State.judgeMessage_failed h]
  exact State.gnbFault_bit 172 (by decide)

theorem Gnb.counting_msgCount (k : Track) (m : NavMessage) (g : Gnb) :
    Tbl.get 0 (g.counting k m).msgCount m.channel = Tbl.get 0 g.msgCount m.channel + 1 := by
  show Tbl.get 0 (Tbl.set 0 g.msgCount m.channel (Tbl.get 0 g.msgCount m.channel + 1)) m.channel = _
  exact Tbl.get_set_same

/-- What the content of a message may change: what GNB keeps of broadcasts and of its records, and the UTC offset. -/
def State.Tells (s t : State) : Prop :=
  t = { s with gnb := { s.gnb with fault := t.gnb.fault, eph := t.gnb.eph, iods := t.gnb.iods, klobuchar := t.gnb.klobuchar,
                                   utc := t.gnb.utc, galileoOffset := t.gnb.galileoOffset, beidouOffset := t.gnb.beidouOffset,
                                   sbas := t.gnb.sbas }, tbu := t.tbu, icu := t.icu }

theorem State.Tells.refl (s : State) : s.Tells s := rfl

theorem State.Tells.trans {a b c : State} (h : a.Tells b) (g : b.Tells c) : a.Tells c := by
  unfold State.Tells at *
  rw [g, h]

theorem State.gnbFault_tells (b src : Nat) : s.Tells (s.gnbFault b src) := by
  unfold State.Tells
  rw [State.gnbFault_eq]

theorem State.keepSbas_tells (k : Track) (m : NavMessage) : s.Tells (s.keepSbas k m) := by
  unfold State.keepSbas
  split
  · rfl
  · exact .refl s

/-- A record once the IOD of its satellite and SOURCE has been heard (R191). -/
def Eph.heard (k : Track) (iod : Nat) (r : Eph) : Eph :=
  if r.system == k.system && r.sv == k.sv && r.source == sourceOf k.signal then
    (if r.iod = iod then { r with iodMisses := 0 }
    else { r with iodMisses := min 2 (r.iodMisses + 1), stale := r.stale || decide (1 ≤ r.iodMisses) })
  else r

/-- GNB once an IOD has been heard. -/
def Gnb.heard (k : Track) (iod : Nat) (g : Gnb) : Gnb :=
  { g with iods := Tbl.set none g.iods (ephKey k.system k.sv (sourceOf k.signal)) (some iod), eph := g.eph.map (Eph.heard k iod) }

theorem State.iodHeard_cases (k : Track) (iod : Nat) :
    s.iodHeard k iod = s.onGnb (Gnb.heard k iod) ∨ s.iodHeard k iod = (s.onGnb (Gnb.heard k iod)).gnbFault 7 170 := by
  unfold State.iodHeard
  extract_lets source hit dies x
  split
  · exact .inr rfl
  · exact .inl rfl

theorem State.iodHeard_tells (k : Track) (iod : Nat) : s.Tells (s.iodHeard k iod) := by
  have h : s.Tells (s.onGnb (Gnb.heard k iod)) := rfl
  rcases State.iodHeard_cases (s := s) k iod with hx | hx <;> rw [hx]
  · exact h
  · exact h.trans (State.gnbFault_tells ..)

theorem State.iodHeard_keeps (k : Track) (iod : Nat) :
    (s.iodHeard k iod).gnb.iods = (s.gnb.heard k iod).iods ∧ (s.iodHeard k iod).gnb.eph = (s.gnb.heard k iod).eph ∧
      (s.iodHeard k iod).tbu = s.tbu := by
  rcases State.iodHeard_cases (s := s) k iod with hx | hx <;> rw [hx]
  · exact ⟨rfl, rfl, rfl⟩
  · rw [State.gnbFault_eq]
    exact ⟨rfl, rfl, rfl⟩

theorem State.navInfo_tells (k : Track) (s : State) (i : NavInfo) : s.Tells (s.navInfo k i) := by
  cases i with
  | klobuchar p => exact iteInduction (motive := s.Tells) (fun _ => rfl) fun _ => .refl s
  | utc p => exact iteInduction (motive := s.Tells) (fun _ => rfl) fun _ => .refl s
  | leapSecond v => exact iteInduction (motive := s.Tells) (fun _ => rfl) fun _ => .refl s
  | galileoOffset v => exact iteInduction (motive := s.Tells) (fun _ => rfl) fun _ => .refl s
  | beidouOffset v => exact iteInduction (motive := s.Tells) (fun _ => rfl) fun _ => .refl s
  | iod v => exact State.iodHeard_tells ..

/-- What a message that passed its check tells, after it has been heard. -/
theorem State.navMessage_tells (k : Track) (m : NavMessage) : (s.hearMessage k m).Tells (s.navMessage k m) := by
  rw [State.navMessage_eq]
  split
  · exact (State.keepSbas_tells k m).trans (foldl_related _ State.Tells.refl .trans (State.navInfo_tells k) _)
  · exact .refl _

theorem State.navMessage_unpassed {k : Track} {m : NavMessage} (h : s.checkCode k m ≠ 0) : s.navMessage k m = s.hearMessage k m := by
  rw [State.navMessage_eq, if_neg h]

/-- A message with one thing to say. -/
theorem State.navMessage_single {k : Track} {m : NavMessage} {i : NavInfo} (h : s.checkCode k m = 0) (hi : m.info = [i]) :
    s.navMessage k m = ((s.hearMessage k m).keepSbas k m).navInfo k i := by
  rw [State.navMessage_eq, if_pos h, hi]; rfl

/-- A message with one thing to say finds GNB's records and TBU as they were. -/
theorem State.keepSbas_hearMessage (k : Track) (m : NavMessage) :
    ((s.hearMessage k m).keepSbas k m).gnb.iods = s.gnb.iods ∧ ((s.hearMessage k m).keepSbas k m).gnb.eph = s.gnb.eph ∧
      ((s.hearMessage k m).keepSbas k m).tbu = s.tbu := by
  have h : ((s.hearMessage k m).keepSbas k m).gnb.iods = (s.hearMessage k m).gnb.iods ∧
      ((s.hearMessage k m).keepSbas k m).gnb.eph = (s.hearMessage k m).gnb.eph ∧
      ((s.hearMessage k m).keepSbas k m).tbu = (s.hearMessage k m).tbu := by
    unfold State.keepSbas
    split <;> exact ⟨rfl, rfl, rfl⟩
  obtain ⟨hiods, heph, htbu⟩ := h
  rw [hiods, heph, htbu, State.hearMessage_gnb]
  exact ⟨rfl, rfl, State.hearMessage_tbu k m⟩

theorem exec_navMessage {m : NavMessage} {k : Track} (hr : (s.elapse dt).isReady 6 = true) (ha : (s.elapse dt).antExists 0 = true)
    (hm : m.channel < 96) (hk : (s.elapse dt).track m.channel = some k) :
    exec (.navMessage dt m) s = .next ((s.elapse dt).navMessage k m) := by
  show execNavMessage dt m s = _
  unfold execNavMessage
  simp only [hk]
  exact next_when (and_decide (Bool.and_eq_true_iff.mpr ⟨hr, ha⟩) hm)

theorem navMessage_isHeard (dt : Nat) (m : NavMessage) (k : Track) (s : State) :
    let u := s.elapse dt
    let check := u.checkCode k m
    let hit (r : Eph) : Bool := r.system == k.system && r.sv == k.sv && r.source == sourceOf k.signal
    u.isReady 6 = true → u.antExists 0 = true → m.channel < 96 → u.track m.channel = some k →
    ∃ t : State, exec (.navMessage dt m) s = .next t ∧
      t.gnb.navFail = (if check = 1 then count32 u.gnb.navFail else u.gnb.navFail) ∧
      (check = 1 → bit t.gnb.fault.w 8 = true) ∧
      Tbl.get 0 t.gnb.msgCount m.channel = Tbl.get 0 u.gnb.msgCount m.channel + 1 ∧
      (check ≠ 0 → t = { u with gnb := { u.gnb with navFail := t.gnb.navFail, fault := t.gnb.fault, msgCount := t.gnb.msgCount,
                                                    lastBits := t.gnb.lastBits }, icu := t.icu, hre := t.hre, out := t.out }) ∧
      (∀ i, check = 0 → m.info = [.iod i] →
        Tbl.get none t.gnb.iods (ephKey k.system k.sv (sourceOf k.signal)) = some i ∧ t.tbu = u.tbu ∧
        t.gnb.eph = u.gnb.eph.map fun r =>
          if hit r then
            (if r.iod = i then { r with iodMisses := 0 }
            else { r with iodMisses := min 2 (r.iodMisses + 1), stale := r.stale || decide (1 ≤ r.iodMisses) })
          else r) ∧
      (∀ v, check = 0 → m.info = [.leapSecond v] → k.signal = 0x01 →
        t.tbu = { u.tbu with utcOffset := v, utcValid := true, utcFromGnss := true }) ∧
      t = { u with gnb := { u.gnb with navFail := t.gnb.navFail, fault := t.gnb.fault, eph := t.gnb.eph, iods := t.gnb.iods,
                                       msgCount := t.gnb.msgCount, lastBits := t.gnb.lastBits, klobuchar := t.gnb.klobuchar,
                                       utc := t.gnb.utc, galileoOffset := t.gnb.galileoOffset, beidouOffset := t.gnb.beidouOffset,
                                       sbas := t.gnb.sbas }, tbu := t.tbu, icu := t.icu, hre := t.hre, out := t.out } := by
  intro u check hit hr ha hm hk
  have htells : (u.hearMessage k m).Tells (u.navMessage k m) := State.navMessage_tells k m
  have hgnb := State.hearMessage_gnb (s := u) k m
  have hframe := State.hearMessage_frame (s := u) k m
  unfold State.Tells at htells
  refine ⟨_, exec_navMessage hr ha hm hk, ?_, fun h1 => ?_, ?_, fun h0 => ?_, fun i h0 hi => ?_, fun v h0 hi hs => ?_, ?_⟩
  · rw [htells, hgnb]
  · rw [State.navMessage_unpassed (show u.checkCode k m ≠ 0 by rw [show u.checkCode k m = 1 from h1]; decide)]
    exact State.hearMessage_failed h1
  · rw [htells, hgnb]
    exact Gnb.counting_msgCount k m u.gnb
  · rw [State.navMessage_unpassed h0, hframe, hgnb]
    rfl
  · obtain ⟨hiods, heph, htbu⟩ := State.keepSbas_hearMessage (s := u) k m
    obtain ⟨hiods', heph', htbu'⟩ := State.iodHeard_keeps (s := (u.hearMessage k m).keepSbas k m) k i
    rw [State.navMessage_single h0 hi]
    refine ⟨?_, htbu'.trans htbu, heph'.trans ?_⟩
    · show Tbl.get none (((u.hearMessage k m).keepSbas k m).iodHeard k i).gnb.iods _ = _
      rw [hiods']
      show Tbl.get none (Tbl.set none _ _ (some i)) _ = _
      exact Tbl.get_set_same
    · exact congrArg (List.map (Eph.heard k i)) heph
  · obtain ⟨_, _, htbu⟩ := State.keepSbas_hearMessage (s := u) k m
    rw [State.navMessage_single h0 hi]
    show (if k.signal = 0x01 then State.leapSecond v _ else _ : State).tbu = _
    rw [if_pos hs, ← htbu]
    rfl
  · rw [htells, hframe, hgnb]
    rfl

end Sys2Proof.Machine

namespace Sys2Proof.Machine

variable {s t : State}

/-! ### Records that apply at an epoch (R188, R191) -/

/-- The store once the records of one EPHEMERIS_LOAD have been stored. -/
def ephAfter (es : List Eph) (w : EphWait) : List Eph := (w.records.foldl storeEph (es, 0, 0)).1

/-- GNB once an EPHEMERIS_LOAD has been applied. -/
def Gnb.applied (w : EphWait) (g : Gnb) : Gnb := { g with eph := ephAfter g.eph w, assist := w.assists.getLastD g.assist }

/-- One EPHEMERIS_LOAD applies, and completes. -/
def State.applyWait (s : State) (w : EphWait) : State :=
  let r := w.records.foldl storeEph (s.gnb.eph, 0, 0)
  (s.onGnb (Gnb.applied w)).finishAt w.ring w.index stOk r.2.2 r.2.1

theorem State.applyEph_eq : s.applyEph = s.gnb.ephWait.foldl State.applyWait (s.onGnb fun g => { g with ephWait := [] }) := rfl

theorem State.applyWait_frame (w : EphWait) : s.applyWait w =
    { s with gnb := s.gnb.applied w, icu := (s.applyWait w).icu, hre := (s.applyWait w).hre, out := (s.applyWait w).out } :=
  State.finishAt_reports (s := s.onGnb (Gnb.applied w)) ..

theorem State.applyWaits_frame (ws : List EphWait) (s : State) :
    let t := ws.foldl State.applyWait s
    t = { s with gnb := { s.gnb with eph := ws.foldl ephAfter s.gnb.eph, assist := t.gnb.assist }, icu := t.icu, hre := t.hre, out := t.out } := by
  induction ws generalizing s with
  | nil => rfl
  | cons w ws ih =>
    intro t
    have h : t = ws.foldl State.applyWait (s.applyWait w) := rfl
    have hw := State.applyWait_frame (s := s) w
    rw [h, ih, hw]
    rfl

/-- Applying what waits leaves nothing that waits, and changes nothing of GNB but the records and the assistance. -/
theorem State.applyEph_frame : s.applyEph =
    { s with gnb := { s.gnb with ephWait := [], eph := s.gnb.ephWait.foldl ephAfter s.gnb.eph, assist := s.applyEph.gnb.assist },
             icu := s.applyEph.icu, hre := s.applyEph.hre, out := s.applyEph.out } := by
  rw [State.applyEph_eq]
  exact State.applyWaits_frame s.gnb.ephWait (s.onGnb fun g => { g with ephWait := [] })

/-! ### The AGC check of the bands (R192) -/

/-- What the AGC checks may change; a fault flag that is set stays set. -/
structure State.Gains (s t : State) : Prop where
  frame : t = { s with gnb := { s.gnb with bands := t.gnb.bands, fault := t.gnb.fault }, icu := t.icu }
  fault : ∀ i, bit s.gnb.fault.w i = true → bit t.gnb.fault.w i = true

theorem State.Gains.refl (s : State) : s.Gains s := ⟨rfl, fun _ h => h⟩

theorem State.Gains.trans {a b c : State} (h : a.Gains b) (g : b.Gains c) : a.Gains c :=
  ⟨by rw [g.frame, h.frame], fun i hi => g.fault i (h.fault i hi)⟩

/-- GNB with one band's gain taken. -/
def Gnb.gained (e gain : Nat) (fails : Bool) (b : Nat) (g : Gnb) : Gnb :=
  { g with bands := Tbl.modify {} g.bands b fun c =>
      { c with gain, median := Config.agcMedian (Tbl.get {} g.bands b).median gain, interfered := c.interfered || fails,
               failTick := if fails then e else c.failTick } }

theorem Gnb.gained_same (e gain : Nat) (fails : Bool) (b : Nat) (g : Gnb) :
    (Tbl.get {} (g.gained e gain fails b).bands b).interfered = ((Tbl.get {} g.bands b).interfered || fails) ∧
      (Tbl.get {} (g.gained e gain fails b).bands b).failTick = if fails then e else (Tbl.get {} g.bands b).failTick := by
  unfold Gnb.gained
  simp only [Tbl.get_modify_same, and_self]

theorem Gnb.gained_ne {e gain b k : Nat} {fails : Bool} (g : Gnb) (h : k ≠ b) :
    Tbl.get {} (g.gained e gain fails b).bands k = Tbl.get {} g.bands k := by
  unfold Gnb.gained
  simp only [Tbl.get_modify_ne h]

/-- The fault of a band that fails its check; its source is raised once. -/
def State.agcFault (was : Bool) (s : State) : State :=
  if was then s.onGnb fun g => { g with fault := setFlag g.fault s.cycle 2 } else s.gnbFault 2 165

theorem State.agcFault_eq (was : Bool) : s.agcFault was =
    { s with gnb := { s.gnb with fault := setFlag s.gnb.fault s.cycle 2 }, icu := (s.agcFault was).icu } := by
  unfold State.agcFault
  split
  · rfl
  · rw [State.gnbFault_eq]

theorem State.agcFault_gains (was : Bool) : s.Gains (s.agcFault was) := by
  rw [State.agcFault_eq]
  exact ⟨rfl, fun _ h => bit_setFlag_of_bit _ _ h⟩

/-- A band fails its check. -/
def State.agcFails (m : GnssEpoch) (s : State) (b : Nat) : Bool :=
  decide (m.agcGain.getD b 0 + s.gnb.agcTol < (Tbl.get {} s.gnb.bands b).median) || (s.notchesUsed b && m.powerOver.contains b)

section
variable {e : Nat} {m : GnssEpoch} {b : Nat}

/-- The gain of a band taken. -/
def State.takeGain (e : Nat) (m : GnssEpoch) (s : State) (b : Nat) : State :=
  s.onGnb (Gnb.gained e (m.agcGain.getD b 0) (s.agcFails m b) b)

theorem State.takeGain_gains : s.Gains (s.takeGain e m b) := ⟨rfl, fun _ h => h⟩

theorem State.agcCheck_eq : s.agcCheck e m b =
    if s.bandExists b && decide (b < m.agcGain.length) then
      if s.agcFails m b then (s.takeGain e m b).agcFault (Tbl.get {} s.gnb.bands b).interfered else s.takeGain e m b
    else s := rfl

theorem State.agcCheck_gains (s : State) (b : Nat) : s.Gains (s.agcCheck e m b) := by
  rw [State.agcCheck_eq]
  split
  · split
    · exact State.takeGain_gains.trans (State.agcFault_gains _)
    · exact State.takeGain_gains
  · exact .refl s

theorem State.agcChecks_gains (l : List Nat) (s : State) : s.Gains (l.foldl (State.agcCheck e m) s) :=
  foldl_related s State.Gains.refl .trans State.agcCheck_gains l

theorem State.agcCheck_band_ne {k : Nat} (h : k ≠ b) : Tbl.get {} (s.agcCheck e m b).gnb.bands k = Tbl.get {} s.gnb.bands k := by
  have hn : Tbl.get {} (s.takeGain e m b).gnb.bands k = Tbl.get {} s.gnb.bands k := Gnb.gained_ne s.gnb h
  rw [State.agcCheck_eq]
  split
  · split
    · rw [State.agcFault_eq]
      exact hn
    · exact hn
  · rfl

theorem State.agcChecks_band_notMem {k : Nat} {l : List Nat} (h : k ∉ l) (s : State) :
    Tbl.get {} (l.foldl (State.agcCheck e m) s).gnb.bands k = Tbl.get {} s.gnb.bands k := by
  induction l generalizing s with
  | nil => rfl
  | cons x l ih =>
    rw [List.foldl_cons, ih (fun hk => h (List.mem_cons_of_mem x hk)), State.agcCheck_band_ne fun hk => h (List.mem_cons.mpr (.inl hk))]

/-- A band whose gain lies too far below its median. -/
def State.gainLow (m : GnssEpoch) (b : Nat) (s : State) : Prop :=
  s.bandExists b = true ∧ b < m.agcGain.length ∧ m.agcGain.getD b 0 + s.gnb.agcTol < (Tbl.get {} s.gnb.bands b).median

/-- A band that has just failed its check. -/
def State.bandFailed (e b : Nat) (s : State) : Prop :=
  (Tbl.get {} s.gnb.bands b).interfered = true ∧ (Tbl.get {} s.gnb.bands b).failTick = e ∧ bit s.gnb.fault.w 2 = true

theorem State.agcCheck_failed (h : s.gainLow m b) : (s.agcCheck e m b).bandFailed e b := by
  obtain ⟨hb, hl, hg⟩ := h
  have hf : s.agcFails m b = true := by
    unfold State.agcFails
    rw [decide_eq_true hg, Bool.true_or]
  obtain ⟨hi, hk⟩ := Gnb.gained_same e (m.agcGain.getD b 0) (s.agcFails m b) b s.gnb
  rw [hf] at hi hk
  rw [Bool.or_true] at hi
  rw [State.agcCheck_eq, if_pos (and_decide hb hl), if_pos hf, State.agcFault_eq]
  refine ⟨?_, ?_, bit_setFlag_same _ _ (by decide)⟩
  · show (Tbl.get {} (s.takeGain e m b).gnb.bands b).interfered = true
    unfold State.takeGain
    rw [hf]
    exact hi
  · show (Tbl.get {} (s.takeGain e m b).gnb.bands b).failTick = e
    unfold State.takeGain
    rw [hf]
    exact hk

/-- The check of another band leaves one whose gain is low. -/
theorem State.agcCheck_gainLow {x : Nat} (h : s.gainLow m b) (hx : b ≠ x) : (s.agcCheck e m x).gainLow m b := by
  have hband := State.agcCheck_band_ne (s := s) (e := e) (m := m) hx
  have hframe := (State.agcCheck_gains (e := e) (m := m) s x).frame
  obtain ⟨hb, hl, hg⟩ := h
  refine ⟨?_, hl, ?_⟩
  · rw [hframe]
    exact hb
  · rw [hband, hframe]
    exact hg

theorem State.agcChecks_failed {l : List Nat} (hn : l.Nodup) (hb : b ∈ l) (h : s.gainLow m b) :
    (l.foldl (State.agcCheck e m) s).bandFailed e b := by
  induction l generalizing s with
  | nil => cases hb
  | cons x l ih =>
    obtain ⟨hx, hn⟩ := List.nodup_cons.mp hn
    rw [List.foldl_cons]
    by_cases hbx : b = x
    · subst hbx
      obtain ⟨hi, hk, hf⟩ := State.agcCheck_failed (e := e) h
      unfold State.bandFailed
      rw [State.agcChecks_band_notMem hx]
      exact ⟨hi, hk, (State.agcChecks_gains l _).fault 2 hf⟩
    · exact ih hn ((List.mem_cons.mp hb).resolve_left hbx) (State.agcCheck_gainLow h hbx)

end

end Sys2Proof.Machine

namespace Sys2Proof.Machine

variable {s t : State}

/-! ### Channels, solution and heading of an epoch (R179, R186, R192, R195, R196) -/

/-- What allocating the channels, solving and judging the heading may change; a fault flag that is set stays set. -/
structure State.Judges (s t : State) : Prop where
  frame : t = { s with
    gnb := { s.gnb with chans := t.gnb.chans, slips := t.gnb.slips, msgCount := t.gnb.msgCount, lastBits := t.gnb.lastBits,
                        freeCount := t.gnb.freeCount, exclude := t.gnb.exclude, isbUntil := t.gnb.isbUntil, isbRun := t.gnb.isbRun,
                        ambiguities := t.gnb.ambiguities, baselineMeas := t.gnb.baselineMeas, baselineFails := t.gnb.baselineFails,
                        hdg := t.gnb.hdg, hdgSignals := t.gnb.hdgSignals, fault := t.gnb.fault },
    icu := t.icu, evr := t.evr, nv := t.nv, hre := t.hre, out := t.out }
  fault : ∀ i, bit s.gnb.fault.w i = true → bit t.gnb.fault.w i = true

theorem State.Judges.refl (s : State) : s.Judges s := ⟨rfl, fun _ h => h⟩

theorem State.Judges.trans {a b c : State} (h : a.Judges b) (g : b.Judges c) : a.Judges c :=
  ⟨by rw [g.frame, h.frame], fun i hi => g.fault i (h.fault i hi)⟩

theorem State.gnbFault_judges (b src : Nat) : s.Judges (s.gnbFault b src) := by
  rw [State.gnbFault_eq]
  exact ⟨rfl, fun _ h => bit_setFlag_of_bit _ _ h⟩

theorem State.Records.judges (h : s.Records t) (hg : t.gnb = s.gnb) : s.Judges t := by
  refine ⟨?_, fun i hi => by rw [hg]; exact hi⟩
  rw [hg]
  exact h

theorem State.record_judges (code source : Nat) (fixed : List (Nat × Word)) : s.Judges (s.record code source fixed) :=
  (State.record_records ..).judges (State.record_gnb ..)

theorem State.setHdg_judges (b : Bool) (n : Nat) : s.Judges (s.setHdg b n) := by
  rw [State.setHdg_frame]
  exact ⟨rfl, fun _ h => h⟩

theorem State.dropTrack_judges (n : Nat) : s.Judges (s.dropTrack n) := ⟨rfl, fun _ h => h⟩

theorem State.giveTrack_judges (antenna : Nat) (s : State) (k : Track) : s.Judges (s.giveTrack antenna k) := by
  unfold State.giveTrack
  extract_lets free
  split
  · exact ⟨rfl, fun _ h => h⟩
  · exact .refl s

theorem State.allocate_judges (ok : List GnssSignal) (s : State) (antenna : Nat) : s.Judges (s.allocate ok antenna) := by
  unfold State.allocate
  extract_lets want x held
  refine State.Judges.trans (b := x) (foldl_related s State.Judges.refl .trans (fun s n => ?_) _)
    (foldl_related x State.Judges.refl .trans (State.giveTrack_judges antenna) _)
  split
  · exact iteInduction (motive := s.Judges) (fun _ => .refl s) fun _ => State.dropTrack_judges n
  · exact .refl s

theorem State.trackEpoch_judges (burst : Bool) (m : GnssEpoch) : s.Judges (s.trackEpoch burst m).2 := by
  unfold State.trackEpoch
  extract_lets ok x y cs
  have h : x.Judges y := iteInduction (motive := x.Judges) (fun _ => .refl x) fun _ => State.allocate_judges ..
  exact ((State.allocate_judges ok s 0).trans h).trans ⟨rfl, fun _ h => h⟩

theorem State.excluding_judges (k tick : Nat) : s.Judges (s.onGnb (Gnb.excluding k tick)) := by
  obtain ⟨r, hr⟩ := Gnb.excluding_eq k tick s.gnb
  unfold State.onGnb
  rw [hr]
  exact ⟨rfl, fun _ h => h⟩

theorem State.isbCheck_judges (first : Nat) (i : GnssInput) (s : State) (k : Nat) : s.Judges (s.isbCheck first i k) := by
  cases h : s.isbFails first k (Config.gnssIsb i k) with
  | true =>
    rw [State.isbCheck_fails h]
    exact (State.excluding_judges ..).trans (State.gnbFault_judges ..)
  | false =>
    obtain ⟨r, hr⟩ := State.isbCheck_passes h
    rw [hr]
    exact ⟨rfl, fun _ h => h⟩

theorem State.isbChecks_judges (cs : List GnssSignal) (rs : List GnssRange) : s.Judges (s.isbChecks cs rs) := by
  unfold State.isbChecks
  split
  · exact .refl s
  · exact iteInduction (motive := s.Judges) (fun _ => foldl_related s State.Judges.refl .trans (fun s k => State.isbCheck_judges _ _ s k) _)
      fun _ => .refl s

theorem State.countExcluded_judges (s : State) :
    s.Judges ((s.onGnb fun g => { g with exclude := count32 g.exclude }).gnbFault 3 166) :=
  .trans (b := s.onGnb fun g => { g with exclude := count32 g.exclude }) ⟨rfl, fun _ h => h⟩ (State.gnbFault_judges ..)

theorem State.solveEpoch_judges (now : Option Nat) (cs : List GnssSignal) : s.Judges (s.solveEpoch now cs).2.2.2 := by
  unfold State.solveEpoch
  extract_lets r x y used
  have hx : s.Judges x := foldl_related s State.Judges.refl .trans (fun s _ => State.countExcluded_judges s) _
  exact hx.trans (iteInduction (motive := x.Judges) (fun _ => State.isbChecks_judges ..) fun _ => .refl x)

/-- A solution has at least 4 signals (R186). -/
theorem State.solveEpoch_enough (now : Option Nat) (cs : List GnssSignal) :
    (s.solveEpoch now cs).1.isSome = true → 4 ≤ (s.solveEpoch now cs).2.1.length := by
  unfold State.solveEpoch
  extract_lets r x y used
  intro h
  by_cases hf : (r.1 && enoughRanges used) = true
  · have hn : 3 + max 1 (systemsOf used).length ≤ used.length := of_decide_eq_true (Bool.and_eq_true_iff.mp hf).2
    show 4 ≤ used.length
    omega
  · dsimp only at h
    rw [if_neg hf] at h
    cases h

theorem State.misfits_judges (ps : List (GnssSignal × GnssSignal)) : s.Judges (s.misfits ps) :=
  .trans (b := (s.onGnb (Gnb.measured ps (min 4095 (Config.gnssBaseline s.gnb.baselineCfg ps).lengthMm))).onGnb
    (Gnb.unfixed (s.gnb.baselineFails + 1))) ⟨rfl, fun _ h => h⟩ (State.setHdg_judges ..)

/-- The heading of an epoch is none, with one antenna, too few signals or a baseline that does not fit, or it is valid. -/
theorem State.headingCheck_judges (burst : Bool) (ps : List (GnssSignal × GnssSignal)) (s : State) :
    s.Judges (s.headingCheck burst ps).2 := by
  have hm (mm : Nat) : s.Judges (s.onGnb (Gnb.measured ps mm)) := ⟨rfl, fun _ h => h⟩
  have hf (x : State) : x.Judges (x.onGnb fun g => { g with baselineFails := 0 }) := ⟨rfl, fun _ h => h⟩
  by_cases hb : burst = true ∨ s.antExists 1 = false
  · rw [State.headingCheck_single hb]
    exact (hm 0).trans (State.setHdg_judges ..)
  · obtain ⟨hb, ha⟩ := not_or.mp hb
    rw [Bool.not_eq_true] at hb
    rw [Bool.not_eq_false] at ha
    subst hb
    by_cases hn : ps.length < s.gnb.hdgMinSignals
    · rw [State.headingCheck_few ha hn]
      exact (hm 0).trans (State.setHdg_judges ..)
    · have hn := Nat.not_lt.mp hn
      by_cases ho : (((Config.gnssBaseline s.gnb.baselineCfg ps).lengthMm : Int) - s.gnb.baselineCfg).natAbs ≤ 20
      · rw [State.headingCheck_fits ha hn ho]
        exact (hm _).trans ((hf _).trans (State.setHdg_judges ..))
      · rw [State.headingCheck_misfits ha hn (Nat.not_le.mp ho)]
        exact iteInduction (motive := s.Judges)
          (fun _ => (State.misfits_judges ps).trans ((State.gnbFault_judges ..).trans (State.record_judges ..)))
          fun _ => State.misfits_judges ps

theorem State.headingCheck_burst {burst : Bool} (h : burst = true) (ps : List (GnssSignal × GnssSignal)) (s : State) :
    (s.headingCheck burst ps).2.gnb.hdg = false ∧ (s.headingCheck burst ps).2.gnb.baselineMeas = 0 := by
  rw [State.headingCheck_single (.inl h), State.setHdg_gnb]
  exact ⟨rfl, rfl⟩

end Sys2Proof.Machine

namespace Sys2Proof.Machine

variable {s t : State}

/-! ### GNSS time at the balance (R33, R34, R37, R41, R193) -/

theorem State.BalanceWork.refl (s : State) : s.BalanceWork s := rfl

theorem State.loseSource_balanceWork (source : Nat) : s.BalanceWork (s.loseSource source) := by
  unfold State.loseSource
  split
  · exact State.unlock_balanceWork ..
  · exact .refl s

theorem State.endSlew_balanceWork : s.BalanceWork s.endSlew := by
  unfold State.endSlew
  split
  · exact (State.raiseNote_reports ..).afterTbu
  · exact .refl s

theorem State.startSlew_balanceWork (e : Int) (old : Tbu) : s.BalanceWork (s.startSlew e old) := by
  unfold State.startSlew
  split
  · exact State.endSlew_balanceWork
  · exact (State.raiseNote_reports 467 3 old).unless.afterTbu

theorem State.finishAll_balanceWork (status detail : Nat) (ws : List (Nat × Word)) : s.BalanceWork (s.finishAll status detail ws) :=
  (State.finishAll_reports ..).balanceWork

theorem State.steer_balanceWork (source : Nat) (off : Int) (unc : Nat) (utc : Option Int) (jump : Bool) (w : Option (Nat × Word)) :
    s.BalanceWork (s.steer source off unc utc jump w) := by
  unfold State.steer
  extract_lets e old lost kept asks x was y
  split
  · rfl
  · split
    · have hx : s.BalanceWork x := rfl
      have hl : x.BalanceWork (x.onTbu fun t => t.locked source unc utc) := rfl
      exact hx.trans <| hl.trans <| (State.startSlew_balanceWork ..).trans <| (State.noteBalance_reports _).balanceWork.trans <|
        (State.finishAll_balanceWork ..).trans (State.finishAll_balanceWork ..)
    · rfl

theorem State.rejectRun_balanceWork : s.BalanceWork s.rejectRun := by
  unfold State.rejectRun
  split
  · exact (State.raiseNote_reports ..).afterTbu
  · exact .refl s

theorem State.suspectTime_balanceWork (off : Int) (unc : Nat) (drift : Int) : s.BalanceWork (s.suspectTime off unc drift) := by
  unfold State.suspectTime
  extract_lets x fresh
  have hx : s.BalanceWork x := rfl
  refine hx.trans ?_
  split
  · rfl
  · split
    · exact State.rejectRun_balanceWork.trans rfl
    · extract_lets r'
      split
      · exact (State.raise_reports _).afterTbu.trans (State.steer_balanceWork ..)
      · rfl

theorem State.gnssTime_balanceWork (off : Int) (unc : Nat) (drift : Int) (marked : Bool) :
    s.BalanceWork (s.gnssTime off unc drift marked) := by
  unfold State.gnssTime
  extract_lets x y
  have hx : s.BalanceWork x := iteInduction (motive := s.BalanceWork) (fun _ => .refl s) fun _ => rfl
  refine hx.trans ?_
  split
  · exact (State.onTbu_balanceWork ..).trans (State.loseSource_balanceWork _)
  · split
    · rfl
    · split
      · rfl
      · split
        · exact State.suspectTime_balanceWork ..
        · exact State.rejectRun_balanceWork.trans ((State.onTbu_balanceWork ..).trans (State.steer_balanceWork ..))

theorem State.gnssNoTime_balanceWork : s.BalanceWork s.gnssNoTime :=
  (s.onTbu_balanceWork _).trans (State.loseSource_balanceWork _)

/-- What the time of an epoch may change; a fault flag that is set stays set. -/
structure State.Times (s t : State) : Prop where
  frame : t = { s with gnb := { s.gnb with timeOk := t.gnb.timeOk, fault := t.gnb.fault }, tbu := t.tbu, icu := t.icu, hre := t.hre, out := t.out }
  fault : ∀ i, bit s.gnb.fault.w i = true → bit t.gnb.fault.w i = true

theorem State.Times.trans {a b c : State} (h : a.Times b) (g : b.Times c) : a.Times c :=
  ⟨by rw [g.frame, h.frame], fun i hi => g.fault i (h.fault i hi)⟩

theorem State.BalanceWork.times (h : s.BalanceWork t) : s.Times t := by
  unfold State.BalanceWork at h
  rw [h]
  exact ⟨rfl, fun _ h => h⟩

theorem State.deliverTime_times (e : Nat) (f : GnssFit) : s.Times (s.deliverTime e f).2 := by
  unfold State.deliverTime
  extract_lets dop marked x y
  have hx : s.Times x := by
    refine iteInduction (motive := s.Times) (fun _ => ?_) fun _ => ⟨rfl, fun _ h => h⟩
    rw [State.gnbFault_eq]
    exact ⟨rfl, fun _ h => bit_setFlag_of_bit _ _ h⟩
  exact hx.trans <| (State.gnssTime_balanceWork ..).times.trans ⟨rfl, fun _ h => h⟩

/-- The delivery of an epoch's time to TBU, or of its having none. -/
def State.deliverFit (e : Nat) (fit : Option GnssFit) (s : State) : Bool × State :=
  match fit with
  | some f => s.deliverTime e f
  | none => (false, s.gnssNoTime.onGnb fun g => { g with timeOk := false })

theorem State.deliverFit_times (e : Nat) (fit : Option GnssFit) : s.Times (s.deliverFit e fit).2 := by
  cases fit with
  | some f => exact State.deliverTime_times e f
  | none => exact State.gnssNoTime_balanceWork.times.trans ⟨rfl, fun _ h => h⟩

theorem State.deliverFit_none {e : Nat} {fit : Option GnssFit} (h : fit.isSome = false) :
    (s.deliverFit e fit).2.gnb.timeOk = false := by
  cases fit with
  | some f => cases h
  | none => rfl

end Sys2Proof.Machine

namespace Sys2Proof.Machine

variable {s t : State}

/-! ### Pose, reports and APPLY_ARMED at the end of an epoch (R185, R197, R199) -/

/-- What the end of an epoch may change. -/
def State.Delivers (s t : State) : Prop :=
  t = { s with gnb := { s.gnb with slips := t.gnb.slips, sinceReport := t.gnb.sinceReport, armed := t.gnb.armed,
                                   allowedSince := t.gnb.allowedSince },
               pse := t.pse, icu := t.icu, evr := t.evr, nv := t.nv, hre := t.hre, out := t.out }

theorem State.Delivers.trans {a b c : State} (h : a.Delivers b) (g : b.Delivers c) : a.Delivers c := by
  unfold State.Delivers at *
  rw [g, h]

theorem State.Fuses.delivers (h : s.Fuses t) : s.Delivers t := by
  unfold State.Fuses at h
  unfold State.Delivers
  rw [h]

theorem State.Reports.delivers (h : s.Reports t) : s.Delivers t := h.fuses.delivers

theorem State.deliverPose_delivers (e : Nat) (fit : Option GnssFit) (vel : Bool) (b : Option GnssBaseline) :
    s.Delivers (s.deliverPose e fit vel b) := by
  unfold State.deliverPose
  extract_lets m x
  have hx : s.Delivers x := by
    unfold x
    split
    · exact iteInduction (motive := s.Delivers) (fun _ => rfl) fun _ => rfl
    · rfl
  exact iteInduction (motive := s.Delivers) (fun _ => hx.trans (State.takeFix_fuses ..).delivers) fun _ => rfl

theorem State.measReports_reports (e : Nat) (w : EpochUse) (cs : List (Nat × GnssSignal)) : s.Reports (s.measReports e w cs) := by
  induction cs generalizing s with
  | nil => exact .refl
  | cons c cs ih => exact (State.report_reports ..).trans ih

theorem State.epochReports_delivers (e : Nat) (w : EpochUse) (cs : List (Nat × GnssSignal)) : s.Delivers (s.epochReports e w cs) := by
  unfold State.epochReports
  extract_lets n
  split
  · exact (State.measReports_reports e w cs).delivers.trans rfl
  · rfl

theorem State.armCheck_delivers : s.Delivers s.armCheck := by
  unfold State.armCheck
  extract_lets x
  split
  · exact iteInduction (motive := s.Delivers) (fun _ => rfl) fun _ => rfl
  · rfl

end Sys2Proof.Machine

namespace Sys2Proof.Machine

variable {s t : State}

/-! ### A measurement epoch as a whole (R184-R199) -/

/-- GNB with an epoch counted. -/
def Gnb.counted (e : Nat) (ok : Bool) (used : List GnssRange) (g : Gnb) : Gnb :=
  { g with signals := used.length, solFail := if ok then g.solFail else count32 g.solFail, measCount := g.measCount + 1,
           lastMeasTick := some e, ephInUse := ((used.map GnssRange.record).eraseDups).length }

theorem State.noteFix_frame (e : Nat) (ok : Bool) : s.noteFix e ok =
    { s with gnb := { s.gnb with fix := ok, fixSinceReady := s.gnb.fixSinceReady || ok, everFixed := s.gnb.everFixed || ok,
                                 fixTick := (s.noteFix e ok).gnb.fixTick }, icu := (s.noteFix e ok).icu } := by
  unfold State.noteFix
  extract_lets was x
  split
  · rfl
  · rw [State.raise_frame]
    rfl

theorem State.noteFix_fixTick (e : Nat) : (s.noteFix e true).gnb.fixTick = some e := by
  unfold State.noteFix
  extract_lets was x
  split
  · rfl
  · rw [State.raise_gnb]
    rfl

/-- The state at an epoch as its bands have been checked. -/
def State.epochBands (e : Nat) (m : GnssEpoch) (s : State) : State := (List.range 4).foldl (State.agcCheck e m) s.applyEph

/-- The phases of an epoch: its bands are checked, it is judged, counted, its time is delivered, then its pose and its reports. -/
theorem State.measEpoch_phases (e : Nat) (burst : Bool) (m : GnssEpoch) (s : State) :
    ∃ (b c : State) (ok : Bool) (used : List GnssRange), (s.epochBands e m).Judges b ∧
      (burst = true → b.gnb.hdg = false ∧ b.gnb.baselineMeas = 0) ∧ (ok = true → 4 ≤ used.length) ∧ (ok = false → used = []) ∧
      ((b.noteFix e ok).onGnb (Gnb.counted e ok used)).Times c ∧ (ok = false → c.gnb.timeOk = false) ∧
      c.Delivers (s.measEpoch e burst m) := by
  unfold State.measEpoch
  extract_lets x1 x2 k cs v fit used x3 r x4 x5 w x6 use
  refine ⟨r.2, w.2, fit.isSome, used, ?_, ?_, ?_, ?_, ?_, ?_, ?_⟩
  · exact (State.trackEpoch_judges burst m).trans ((State.solveEpoch_judges ..).trans (State.headingCheck_judges ..))
  · exact fun h => State.headingCheck_burst h (x3.fixedPairs cs) x3
  · intro h
    have hu : used = v.2.1 := if_pos h
    rw [hu]
    exact State.solveEpoch_enough (s := k.2) (k.2.ephTime e m) cs h
  · intro h
    exact if_neg (ne_true_of_eq_false h)
  · exact State.deliverFit_times (s := x5) e fit
  · exact State.deliverFit_none (s := x5)
  · exact (State.deliverPose_delivers ..).trans <| (State.raise_reports 160).delivers.trans <|
      (State.epochReports_delivers ..).trans State.armCheck_delivers

theorem State.Delivers.gnb (h : s.Delivers t) : t.gnb =
    { s.gnb with slips := t.gnb.slips, sinceReport := t.gnb.sinceReport, armed := t.gnb.armed, allowedSince := t.gnb.allowedSince } :=
  congrArg State.gnb h

theorem State.Times.gnb (h : s.Times t) : t.gnb = { s.gnb with timeOk := t.gnb.timeOk, fault := t.gnb.fault } := congrArg State.gnb h.frame

/-- The blocks that take no part in a measurement epoch stay as they are. -/
def State.Stands (s t : State) : Prop :=
  t.gle = s.gle ∧ t.mpg = s.mpg ∧ t.flp = s.flp ∧ t.dlk = s.dlk ∧ t.lsb = s.lsb ∧ t.prs = s.prs

theorem State.Stands.trans {a b c : State} (h : a.Stands b) (g : b.Stands c) : a.Stands c := by
  obtain ⟨h1, h2, h3, h4, h5, h6⟩ := h
  obtain ⟨g1, g2, g3, g4, g5, g6⟩ := g
  exact ⟨g1.trans h1, g2.trans h2, g3.trans h3, g4.trans h4, g5.trans h5, g6.trans h6⟩

theorem State.applyEph_stands : s.Stands s.applyEph := by
  rw [State.applyEph_frame]
  exact ⟨rfl, rfl, rfl, rfl, rfl, rfl⟩

theorem State.Gains.stands (h : s.Gains t) : s.Stands t := by
  rw [h.frame]
  exact ⟨rfl, rfl, rfl, rfl, rfl, rfl⟩

theorem State.Judges.stands (h : s.Judges t) : s.Stands t := by
  rw [h.frame]
  exact ⟨rfl, rfl, rfl, rfl, rfl, rfl⟩

theorem State.noteFix_stands (e : Nat) (ok : Bool) : s.Stands (s.noteFix e ok) := by
  rw [State.noteFix_frame]
  exact ⟨rfl, rfl, rfl, rfl, rfl, rfl⟩

theorem State.onGnb_stands (f : Gnb → Gnb) : s.Stands (s.onGnb f) := ⟨rfl, rfl, rfl, rfl, rfl, rfl⟩

theorem State.Times.stands (h : s.Times t) : s.Stands t := by
  rw [h.frame]
  exact ⟨rfl, rfl, rfl, rfl, rfl, rfl⟩

theorem State.Delivers.stands (h : s.Delivers t) : s.Stands t := by
  unfold State.Delivers at h
  rw [h]
  exact ⟨rfl, rfl, rfl, rfl, rfl, rfl⟩

theorem State.measEpoch_stands (e : Nat) (burst : Bool) (m : GnssEpoch) (s : State) : s.Stands (s.measEpoch e burst m) := by
  obtain ⟨b, c, ok, used, hj, -, -, -, ht, -, hd⟩ := s.measEpoch_phases e burst m
  have hg : s.applyEph.Gains (s.epochBands e m) := State.agcChecks_gains ..
  exact State.applyEph_stands.trans <| hg.stands.trans <| hj.stands.trans <| (State.noteFix_stands e ok).trans <|
    (State.onGnb_stands _).trans <| ht.stands.trans hd.stands

/-- What the phases of an epoch before it is counted leave of GNB. -/
theorem State.epochJudged_gnb {e : Nat} {m : GnssEpoch} {b : State} (hj : (s.epochBands e m).Judges b) :
    b.gnb.measCount = s.gnb.measCount ∧ b.gnb.solFail = s.gnb.solFail ∧ b.gnb.fixSinceReady = s.gnb.fixSinceReady ∧
      b.gnb.ephWait = [] ∧ b.gnb.eph = s.gnb.ephWait.foldl ephAfter s.gnb.eph := by
  have hg : s.applyEph.Gains (s.epochBands e m) := State.agcChecks_gains ..
  rw [hj.frame, hg.frame, State.applyEph_frame]
  exact ⟨rfl, rfl, rfl, rfl, rfl⟩

theorem State.applyEph_gainLow {m : GnssEpoch} {b : Nat} (h : s.gainLow m b) : s.applyEph.gainLow m b := by
  rw [State.applyEph_frame]
  exact h

theorem State.epochBands_failed {e b : Nat} {m : GnssEpoch} (hb : b < 4) (h : s.gainLow m b) : (s.epochBands e m).bandFailed e b :=
  State.agcChecks_failed List.nodup_range (List.mem_range.mpr hb) (State.applyEph_gainLow h)

/-- A band that fails its check has done so once the epoch is over. -/
theorem State.measEpoch_band {e b : Nat} {m : GnssEpoch} (burst : Bool) (hb : b < 4) (h : s.gainLow m b) :
    (s.measEpoch e burst m).bandFailed e b := by
  obtain ⟨hi, hk, hf⟩ := State.epochBands_failed (e := e) hb h
  obtain ⟨x, c, ok, used, hj, -, -, -, ht, -, hd⟩ := s.measEpoch_phases e burst m
  have hfault : bit c.gnb.fault.w 2 = true := by
    refine ht.fault 2 ?_
    rw [State.noteFix_frame]
    exact hj.fault 2 hf
  unfold State.bandFailed
  rw [hd.gnb, ht.gnb, State.noteFix_frame, hj.frame]
  rw [ht.gnb] at hfault
  exact ⟨hi, hk, hfault⟩

theorem measEpoch_counts (e : Nat) (burst : Bool) (m : GnssEpoch) (u : State) :
    let t := u.measEpoch e burst m
    t.gnb.lastMeasTick = some e ∧ t.gnb.measCount = u.gnb.measCount + 1 ∧ t.gnb.ephWait = [] ∧
      t.gnb.eph = u.gnb.ephWait.foldl ephAfter u.gnb.eph ∧
      (t.gnb.fix = true → 4 ≤ t.gnb.signals ∧ t.gnb.fixTick = some e ∧ t.gnb.fixSinceReady = true) ∧
      (t.gnb.fix = false → t.gnb.signals = 0 ∧ t.gnb.timeOk = false ∧ t.gnb.fixSinceReady = u.gnb.fixSinceReady) ∧
      t.gnb.solFail = (if t.gnb.fix then u.gnb.solFail else count32 u.gnb.solFail) ∧
      (burst = true → t.gnb.hdg = false ∧ t.gnb.baselineMeas = 0) := by
  intro t
  obtain ⟨b, c, ok, used, hj, hburst, hok, hno, ht, htime, hd⟩ := u.measEpoch_phases e burst m
  obtain ⟨hcount, hfail, hsince, hwait, heph⟩ := State.epochJudged_gnb hj
  have hd : t.gnb = _ := hd.gnb
  have hfix : t.gnb.fix = ok := by rw [hd, ht.gnb, State.noteFix_frame]; rfl
  have hused : t.gnb.signals = used.length := by rw [hd, ht.gnb]; rfl
  have hready : t.gnb.fixSinceReady = (u.gnb.fixSinceReady || ok) := by
    rw [hd, ht.gnb, State.noteFix_frame, ← hsince]
    rfl
  refine ⟨?_, ?_, ?_, ?_, fun h => ?_, fun h => ?_, ?_, fun h => ?_⟩
  · rw [hd, ht.gnb]; rfl
  · rw [hd, ht.gnb, State.noteFix_frame, ← hcount]; rfl
  · rw [hd, ht.gnb, State.noteFix_frame]; exact hwait
  · rw [hd, ht.gnb, State.noteFix_frame]; exact heph
  · rw [hfix] at h
    rw [hused, hready, h, Bool.or_true]
    refine ⟨hok h, ?_, rfl⟩
    rw [hd, ht.gnb, h]
    exact State.noteFix_fixTick e
  · rw [hfix] at h
    rw [hused, hready, h, Bool.or_false, hno h]
    refine ⟨rfl, ?_, rfl⟩
    rw [hd]
    exact htime h
  · rw [hfix, hd, ht.gnb, State.noteFix_frame, ← hfail]; rfl
  · rw [hd, ht.gnb, State.noteFix_frame]
    exact hburst h

theorem exec_gnssMeasEpoch {dt : Nat} {m : GnssEpoch} (hr : (s.elapse dt).isReady 6 = true) (hb : (s.elapse dt).gnb.burst = false)
    (hn : (s.elapse dt).gnb.newEpoch ((s.elapse dt).now / measTicks (s.elapse dt).gnb.measRate * measTicks (s.elapse dt).gnb.measRate) = true) :
    exec (.gnssMeasEpoch dt m) s = .next ((s.elapse dt).measEpoch
      ((s.elapse dt).now / measTicks (s.elapse dt).gnb.measRate * measTicks (s.elapse dt).gnb.measRate) false m) := by
  refine next_when (Bool.and_eq_true_iff.mpr ⟨Bool.and_eq_true_iff.mpr ⟨hr, ?_⟩, hn⟩)
  rw [hb]; rfl

theorem exec_burstWindow {dt : Nat} {m : GnssEpoch} (hr : (s.elapse dt).isReady 6 = true) (hb : (s.elapse dt).gnb.burst = true)
    (he : (s.elapse dt).windowEpoch ≤ (s.elapse dt).now) (hn : (s.elapse dt).gnb.newEpoch (s.elapse dt).windowEpoch = true) :
    exec (.burstWindow dt m) s = .next ((s.elapse dt).measEpoch (s.elapse dt).windowEpoch true m) :=
  next_when (Bool.and_eq_true_iff.mpr ⟨and_decide (Bool.and_eq_true_iff.mpr ⟨hr, hb⟩) he, hn⟩)

theorem epoch_runs (dt : Nat) (m : GnssEpoch) (window : Bool) (s : State) :
    let u := s.elapse dt
    let p := measTicks u.gnb.measRate
    let e := if window then u.windowEpoch else u.now / p * p
    u.isReady 6 = true → u.gnb.burst = window → e ≤ u.now → u.gnb.newEpoch e = true →
    ∃ t : State, exec (if window then .burstWindow dt m else .gnssMeasEpoch dt m) s = .next t ∧
      t.gnb.lastMeasTick = some e ∧ t.gnb.measCount = u.gnb.measCount + 1 ∧ t.gnb.ephWait = [] ∧
      t.gnb.eph = u.gnb.ephWait.foldl (fun es w => (w.records.foldl storeEph (es, 0, 0)).1) u.gnb.eph ∧
      (t.gnb.fix = true → 4 ≤ t.gnb.signals ∧ t.gnb.fixTick = some e ∧ t.gnb.fixSinceReady = true) ∧
      (t.gnb.fix = false → t.gnb.signals = 0 ∧ t.gnb.timeOk = false ∧ t.gnb.fixSinceReady = u.gnb.fixSinceReady) ∧
      t.gnb.solFail = (if t.gnb.fix then u.gnb.solFail else count32 u.gnb.solFail) ∧
      (∀ b, b < 4 → u.bandExists b = true → b < m.agcGain.length →
        m.agcGain.getD b 0 + u.gnb.agcTol < (Tbl.get {} u.gnb.bands b).median →
        (Tbl.get {} t.gnb.bands b).interfered = true ∧ (Tbl.get {} t.gnb.bands b).failTick = e ∧ bit t.gnb.fault.w 2 = true) ∧
      (window = true → t.gnb.hdg = false ∧ t.gnb.baselineMeas = 0) ∧
      t.gle = u.gle ∧ t.mpg = u.mpg ∧ t.flp = u.flp ∧ t.dlk = u.dlk ∧ t.lsb = u.lsb ∧ t.prs = u.prs := by
  intro u p e hr hb he hn
  have hx : exec (if window then .burstWindow dt m else .gnssMeasEpoch dt m) s = .next (u.measEpoch e window m) := by
    cases window with
    | true => exact exec_burstWindow hr hb he hn
    | false => exact exec_gnssMeasEpoch hr hb hn
  obtain ⟨htick, hcount, hwait, heph, hfix, hno, hfail, hburst⟩ := measEpoch_counts e window m u
  exact ⟨_, hx, htick, hcount, hwait, heph, hfix, hno, hfail, fun b h4 hex hl hlow => State.measEpoch_band window h4 ⟨hex, hl, hlow⟩,
    hburst, State.measEpoch_stands e window m u⟩

/-- Settles O50, command by command; an epoch, or the window of a burst, goes through its phases and what each of them changes. -/
theorem gnssEpochsRun : Obligations.GnssEpochsRun := by
  unfold Obligations.GnssEpochsRun
  exact ⟨ephemerisLoad_waits, storeEph_stores, epoch_runs, wantedTracks_bounded, isbCheck_excludes, headingCheck_fixesOrFails,
    navMessage_isHeard, burstStart_starts, burstExit_ends⟩

end Sys2Proof.Machine

namespace Sys2Proof.Machine

variable {s t : State}

/-! ### Frames of a field port (R208, R209) -/

/-- Nothing changes but the frames that have gone out, and those stay. -/
structure State.Transmits (s t : State) : Prop where
  frame : t = { s with out := { s.out with frames := t.out.frames } }
  sent : ∀ f ∈ s.out.frames, f ∈ t.out.frames

theorem State.Transmits.refl (s : State) : s.Transmits s := ⟨rfl, fun _ h => h⟩

theorem State.Transmits.trans {a b c : State} (h : a.Transmits b) (g : b.Transmits c) : a.Transmits c :=
  ⟨by rw [g.frame, h.frame], fun f hf => g.sent f (h.sent f hf)⟩

theorem State.Transmits.portUp (h : s.Transmits t) (p : Nat) : t.portUp p = s.portUp p := by rw [h.frame]; rfl

theorem State.sendFrame_transmits (f : Frame) (s : State) : s.Transmits (s.sendFrame f) := ⟨rfl, fun _ h => List.mem_cons_of_mem _ h⟩

theorem State.sendFrame_if_transmits (c : Bool) (f : Frame) (s : State) : s.Transmits (if c then s.sendFrame f else s) :=
  iteInduction (motive := s.Transmits) (fun _ => s.sendFrame_transmits f) fun _ => .refl s

theorem State.sendAde_transmits (p type node seq : Nat) (body : List Fld) (records : List (List Fld)) (s : State) :
    s.Transmits (s.sendAde p type node seq body records) :=
  (State.sendFrame_if_transmits ..).trans (State.sendFrame_if_transmits ..)

/-- A frame for a port that is up leaves on it. -/
theorem State.sendAde_sends {p : Nat} (h : s.portUp p = true) (type node seq : Nat) (body : List Fld) (records : List (List Fld)) :
    ∃ g ∈ (s.sendAde p type node seq body records).out.frames, g.link = 0 ∧ g.port = p ∧ g.type = type ∧ g.node = node ∧
      g.seq = seq % 65536 ∧ g.body = body ∧ g.records = records := by
  unfold State.sendAde
  extract_lets f up x
  have hx : x = s.sendFrame (f p) := if_pos h
  refine ⟨(f p).addressed s.flp.etherType, (State.sendFrame_if_transmits ..).sent _ ?_, rfl, rfl, rfl, rfl, rfl, rfl, rfl⟩
  rw [hx]
  exact List.mem_cons_self

/-! ### A frame that a field port drops (R205, R235, R236) -/

theorem State.flpFault_frame (b src : Nat) (s : State) : s.flpFault b src =
    { s with flp := { s.flp with fault := setFlag s.flp.fault s.cycle b }, icu := (s.flpFault b src).icu } := by
  unfold State.flpFault
  rw [State.raise_frame]
  rfl

theorem State.flpFault_port (b src p : Nat) (s : State) : (s.flpFault b src).port p = s.port p := by
  rw [State.flpFault_frame]
  rfl

/-- A dropped frame counts on its port and sets BAD_FRAME. -/
theorem State.badField_drops (q : Nat) (s : State) :
    (s.badField q).port q = { s.port q with badFrame := count32 (s.port q).badFrame } ∧ bit (s.badField q).flp.fault.w 2 = true ∧
    (s.badField q).flp.nodes = s.flp.nodes ∧
    s.badField q = { s with flp := { s.flp with ports := (s.badField q).flp.ports, fault := (s.badField q).flp.fault },
                            icu := (s.badField q).icu } := by
  unfold State.badField
  refine ⟨(State.flpFault_port ..).trans (State.onPort_port ..), ?_⟩
  rw [State.flpFault_frame]
  exact ⟨bit_setFlag_same _ _ (by decide), rfl, rfl⟩

end Sys2Proof.Machine

namespace Sys2Proof.Machine

variable {s : State} {ring : Nat} {d : Slot}

/-! ### What judging a ring leaves of HRE (R68, R73) -/

theorem State.complete_reported (ring : Nat) (d : Slot) (s : State) : s.hre.Reported (s.complete ring d).hre := by
  unfold State.complete
  dsimp only
  split
  · split
    · exact State.enqueue_reported ..
    · exact State.dropRouted_reported _
  · exact .refl _

theorem State.flushLoop_reported (ring n : Nat) (s : State) : s.hre.Reported (s.flushLoop ring n).hre := by
  induction n generalizing s with
  | zero => exact .refl _
  | succ n ih =>
    unfold State.flushLoop
    split
    · exact .refl _
    · split
      · exact ((State.onRing_reported ..).trans (State.complete_reported ..)).trans (ih _)
      · exact .refl _

theorem State.settleLoop_reported (ring n : Nat) (s : State) : s.hre.Reported (s.settleLoop ring n).hre := by
  induction n generalizing s with
  | zero => exact .refl _
  | succ n ih =>
    unfold State.settleLoop
    split
    · exact .refl _
    · split
      · split
        · exact State.onRing_reported ..
        · exact (State.onRing_reported ..).trans (ih _)
      · exact .refl _

theorem State.settle_reported (ring : Nat) (s : State) : s.hre.Reported (s.settle ring).hre :=
  (State.settleLoop_reported ..).trans (State.flushLoop_reported ..)

/-! ### The ward around a descriptor (R224, R368, R370) -/

theorem State.settle_wardAllows (ring : Nat) (j : Bool) (s : State) : (s.settle ring).wardAllows j = s.wardAllows j := by
  rw [State.settle_eq]
  rfl

theorem State.settle_wardImage (ring : Nat) (s : State) : (s.settle ring).wardImage = s.wardImage := by
  have hh := (State.settle_reported ring s).frame
  rw [State.settle_eq]
  unfold State.wardImage
  dsimp only
  rw [hh]
  rfl

/-- Judging a ring first changes nothing of what an accepted warded write leaves in PRS. -/
theorem State.settle_wardAccept_prs (ring : Nat) (s : State) : (s.settle ring).wardAccept.prs = s.wardAccept.prs := by
  unfold State.wardAccept
  rw [State.settle_wardImage, State.settle_now]
  rw [State.settle_eq]
  rfl

theorem State.wardAccept_frame (s : State) : s.wardAccept = { s with prs := s.wardAccept.prs } := rfl

/-! ### NODE_WRITE starts (R224, R225) -/

/-- The NODE_WRITE of a descriptor, as it starts. -/
def State.newWrite (s : State) (ring : Nat) (d : Slot) : WritePend :=
  { ring, index := d.index, port := dfield d.desc 16 1, node := dfield d.desc 17 1, addr := dfield d.desc 18 2, op := dfield d.desc 20 1,
    count := dfield d.desc 21 1, data := if dfield d.desc 20 1 = 0 then dfield d.desc 24 8 % 2 ^ (8 * dfield d.desc 21 1) else 0,
    token := Config.freeToken s.flp.freeCount % 65536, startTick := s.now, lastTick := s.now,
    timeoutMs := if dfield d.desc 32 2 = 0 then 10 else dfield d.desc 32 2 }

/-- The state in which its first frame has left. -/
def State.withWrite (ring : Nat) (d : Slot) (s : State) : State :=
  (s.onFlp fun l => { l with writes := l.writes ++ [s.newWrite ring d], freeCount := l.freeCount + 1 }).sendWrite (s.newWrite ring d)

theorem State.startWriteNode_eq (ring : Nat) (d : Slot) (s : State) :
    s.startWriteNode ring d = (s.withWrite ring d).startHead ring [] := rfl

theorem State.sendWrite_transmits (w : WritePend) (s : State) : s.Transmits (s.sendWrite w) := State.sendAde_transmits ..

/-- The WRITE frame of a NODE_WRITE is among some frames. -/
def WritePend.sentIn (w : WritePend) (l : List Frame) : Prop := ∃ f ∈ l, f.port = w.port ∧ f.type = 6 ∧ f.node = w.node ∧
  f.body = [fld 0 2 w.token, fld 2 2 w.addr, fld 4 1 w.op, fld 5 1 w.count, fld 8 8 w.data]

theorem State.sendWrite_sends {w : WritePend} (h : s.portUp w.port = true) : w.sentIn (s.sendWrite w).out.frames := by
  obtain ⟨g, hg, -, hport, htype, hnode, -, hbody, -⟩ := State.sendAde_sends h 6 w.node w.token
    [fld 0 2 w.token, fld 2 2 w.addr, fld 4 1 w.op, fld 5 1 w.count, fld 8 8 w.data] []
  exact ⟨g, hg, hport, htype, hnode, hbody⟩

theorem State.withWrite_flp (ring : Nat) (d : Slot) (s : State) : (s.withWrite ring d).flp =
    { s.flp with writes := s.flp.writes ++ [s.newWrite ring d], freeCount := s.flp.freeCount + 1 } := by
  unfold State.withWrite
  rw [(State.sendWrite_transmits ..).frame]
  rfl

theorem State.withWrite_frame (ring : Nat) (d : Slot) (s : State) :
    s.withWrite ring d = { s with flp := (s.withWrite ring d).flp, out := (s.withWrite ring d).out } := by
  unfold State.withWrite
  rw [(State.sendWrite_transmits ..).frame]
  rfl

theorem exec_nodeWrite {dt : Nat} (hd : (s.elapse dt).headRuns ring 0x14 d) (hc : checksPass (nodeWriteChecks d.desc)) :
    exec (.nodeWrite dt ring) s = .next (
      if touchesWarded d.desc then
        if (s.elapse dt).wardAllows false then ((s.elapse dt).settle ring).wardAccept.startWriteNode ring d
        else ((s.elapse dt).settle ring).wardRefuse.finishHead ring stWarded 0 0
      else ((s.elapse dt).settle ring).startWriteNode ring d) := by
  show (.next ((s.elapse dt).runDesc ring 0x14 _) : Answer) = _
  rw [State.runDesc_headRuns hd, State.checked_pass hc, State.settle_wardAllows]

/-- What a NODE_WRITE that starts on the judged ring `b` of `u` leaves, with PRS as the ward has left it. -/
theorem nodeWrite_starts {u x : State} (hx : x = { u.settle ring with prs := x.prs }) :
    (x.withWrite ring d).flp.writes = u.flp.writes ++ [x.newWrite ring d] ∧ (x.newWrite ring d).startTick = u.now ∧
    (x.newWrite ring d).lastTick = u.now ∧ (x.withWrite ring d).prs = x.prs ∧
    (u.portUp (x.newWrite ring d).port = true → (x.newWrite ring d).sentIn (x.withWrite ring d).out.frames) ∧
    x.withWrite ring d = { u.settle ring with
      flp := { u.flp with writes := (x.withWrite ring d).flp.writes, freeCount := (x.withWrite ring d).flp.freeCount },
      prs := (x.withWrite ring d).prs, out := (x.withWrite ring d).out } := by
  have hflp : x.flp = u.flp := by rw [hx, State.settle_eq]
  have hnow : x.now = u.now := by rw [hx]; exact State.settle_now ring
  have hup (p : Nat) : x.portUp p = u.portUp p := by unfold State.portUp State.port; rw [hflp]
  have hprs : (x.withWrite ring d).prs = x.prs := by rw [State.withWrite_frame]
  refine ⟨by rw [State.withWrite_flp, hflp], hnow, hnow, hprs, fun h => ?_, ?_⟩
  · rw [← hup] at h
    exact State.sendWrite_sends h
  · obtain ⟨q, rfl⟩ : ∃ q, x = { u.settle ring with prs := q } := ⟨_, hx⟩
    rw [hprs, State.withWrite_flp, hflp]
    conv_lhs => rw [State.withWrite_frame, State.withWrite_flp, hflp]

theorem nodeWrite_sends (dt ring : Nat) (s : State) (d : Slot) :
    let u := s.elapse dt
    let b := u.settle ring
    u.headRuns ring 0x14 d → checksPass (nodeWriteChecks d.desc) →
    (touchesWarded d.desc = true → u.wardAllows false = false →
      exec (.nodeWrite dt ring) s = .next (b.wardRefuse.finishHead ring 0x03 0 0)) ∧
    (touchesWarded d.desc = false ∨ u.wardAllows false = true →
      ∃ (v : State) (w : WritePend), exec (.nodeWrite dt ring) s = .next (v.startHead ring []) ∧
        v.flp.writes = u.flp.writes ++ [w] ∧ w.ring = ring ∧ w.index = d.index ∧ w.port = dfield d.desc 16 1 ∧
        w.node = dfield d.desc 17 1 ∧ w.addr = dfield d.desc 18 2 ∧ w.op = dfield d.desc 20 1 ∧ w.count = dfield d.desc 21 1 ∧
        (w.op = 0 → w.data = dfield d.desc 24 8 % 2 ^ (8 * w.count)) ∧ w.startTick = u.now ∧ w.lastTick = u.now ∧
        w.timeoutMs = (if dfield d.desc 32 2 = 0 then 10 else dfield d.desc 32 2) ∧
        (u.portUp w.port = true → ∃ f ∈ v.out.frames, f.port = w.port ∧ f.type = 6 ∧ f.node = w.node ∧
          f.body = [fld 0 2 w.token, fld 2 2 w.addr, fld 4 1 w.op, fld 5 1 w.count, fld 8 8 w.data]) ∧
        v.prs = (if touchesWarded d.desc then u.wardAccept.prs else u.prs) ∧
        v = { b with flp := { u.flp with writes := v.flp.writes, freeCount := v.flp.freeCount }, prs := v.prs, out := v.out }) := by
  intro u b hd hc
  have hx := exec_nodeWrite hd hc
  refine ⟨fun hw ha => ?_, fun hw => ?_⟩
  · rw [hx, if_pos hw, if_neg (by rw [ha]; decide)]
    rfl
  · have start : ∃ x : State, exec (.nodeWrite dt ring) s = .next (x.startWriteNode ring d) ∧ x = { b with prs := x.prs } ∧
        x.prs = if touchesWarded d.desc then u.wardAccept.prs else u.prs := by
      by_cases ht : touchesWarded d.desc = true
      · have ha := hw.resolve_left (by rw [ht]; decide)
        rw [if_pos ht]
        exact ⟨b.wardAccept, by rw [hx, if_pos ht, if_pos ha], State.wardAccept_frame b, State.settle_wardAccept_prs ring u⟩
      · rw [if_neg ht]
        exact ⟨b, by rw [hx, if_neg ht], rfl, by rw [show b = u.settle ring from rfl, State.settle_eq]⟩
    obtain ⟨x, hexec, hframe, hprs⟩ := start
    obtain ⟨hwrites, hstart, hlast, hkeep, hsends, hstands⟩ := nodeWrite_starts (d := d) hframe
    rw [State.startWriteNode_eq] at hexec
    exact ⟨x.withWrite ring d, x.newWrite ring d, hexec, hwrites, rfl, rfl, rfl, rfl, rfl, rfl, rfl, fun h => if_pos h, hstart, hlast, rfl,
      hsends, hkeep.trans hprs, hstands⟩

/-! ### NODE_WRITE goes on and ends (R225) -/

theorem exec_nodeWriteResend {dt : Nat} {w : WritePend} {rest : List WritePend} (hp : (s.elapse dt).powered 5 = true)
    (ht : takeWrite (fun w => w.ring == ring && decide (w.lastTick + 2 * msTicks ≤ (s.elapse dt).now) && !w.isOver (s.elapse dt).now)
      (s.elapse dt).flp.writes = some (w, rest)) :
    exec (.nodeWriteResend dt ring) s =
      .next (((s.elapse dt).onFlp fun l => { l with writes := rest ++ [{ w with lastTick := (s.elapse dt).now }] }).sendWrite w) := by
  show execNodeWriteResend dt ring s = _
  unfold execNodeWriteResend
  dsimp only
  rw [ht]
  exact next_when hp

theorem exec_nodeWriteTimeout {dt : Nat} {w : WritePend} {rest : List WritePend}
    (ht : takeWrite (fun w => w.ring == ring && w.isOver (s.elapse dt).now) (s.elapse dt).flp.writes = some (w, rest)) :
    exec (.nodeWriteTimeout dt ring) s =
      .next (((s.elapse dt).onFlp fun l => { l with writes := rest }).finishAt ring w.index stAborted 1 0) := by
  show execNodeWriteTimeout dt ring s = _
  unfold execNodeWriteTimeout
  dsimp only
  rw [ht]

theorem nodeWriteResend_and_timeout (dt ring : Nat) (s : State) (w : WritePend) (rest : List WritePend) :
    let u := s.elapse dt
    (takeWrite (fun w => w.ring == ring && decide (w.lastTick + 400000 ≤ u.now) && !w.isOver u.now) u.flp.writes = some (w, rest) →
      u.powered 5 = true →
      ∃ v : State, exec (.nodeWriteResend dt ring) s = .next v ∧ v.flp.writes = rest ++ [{ w with lastTick := u.now }] ∧
        (u.portUp w.port = true → ∃ f ∈ v.out.frames, f.port = w.port ∧ f.type = 6 ∧ f.node = w.node ∧
          f.body = [fld 0 2 w.token, fld 2 2 w.addr, fld 4 1 w.op, fld 5 1 w.count, fld 8 8 w.data]) ∧
        v = { u with flp := { u.flp with writes := v.flp.writes }, out := { u.out with frames := v.out.frames } }) ∧
    (takeWrite (fun w => w.ring == ring && decide (w.startTick + w.timeoutMs * 200000 ≤ u.now)) u.flp.writes = some (w, rest) →
      ∃ v : State, exec (.nodeWriteTimeout dt ring) s = .next (v.finishAt ring w.index 0x08 1 0) ∧
        v = { u with flp := { u.flp with writes := rest } }) := by
  intro u
  refine ⟨fun htake hp => ?_, fun htake => ?_⟩
  · have hs := State.sendWrite_transmits w (u.onFlp fun l => { l with writes := rest ++ [{ w with lastTick := u.now }] })
    have hw := congrArg (fun x => x.flp.writes) hs.frame
    refine ⟨_, exec_nodeWriteResend hp htake, hw, fun h => State.sendWrite_sends (s := u.onFlp _) h, ?_⟩
    dsimp only at hw
    rw [hw]
    conv_lhs => rw [hs.frame]
    rfl
  · exact ⟨_, exec_nodeWriteTimeout htake, rfl⟩

/-- A WRITE_RESP that is no bad frame ends the NODE_WRITE of its TOKEN. -/
theorem exec_writeResp {dt q token status : Nat} {head : FrameHead} {data : List Byte} {w : WritePend} {rest : List WritePend}
    (hq : q < Config.fieldPorts (s.elapse dt).part) (hu : (s.elapse dt).portUp q = true)
    (hb : head.isBad (s.elapse dt).flp.etherType = false)
    (ht : takeWrite (fun w => w.port == (s.elapse dt).nodePort q && w.token == token) (s.elapse dt).flp.writes = some (w, rest)) :
    exec (.writeResp dt q ⟨head, token⟩ status data) s = .next (
      let v := (s.elapse dt).onFlp fun l => { l with writes := rest }
      if status ≠ 0 then v.finishAt w.ring w.index stAborted (0x100 + status) 0
      else if w.op = 1 then v.finishAt w.ring w.index stOk (wordAt data 0 4) (wordAt data 4 4)
      else v.finishAt w.ring w.index stOk 0 0) := by
  refine (next_when (Bool.and_eq_true_iff.mpr ⟨decide_eq_true hq, hu⟩)).trans ?_
  show (Host.Outcome.next (if head.isBad (s.elapse dt).flp.etherType = true then _ else _) : Answer) = _
  rw [if_neg (by rw [hb]; decide)]
  unfold State.takeWriteResp
  rw [ht]

theorem exec_writeResp_bad {dt q token status : Nat} {head : FrameHead} {data : List Byte}
    (hq : q < Config.fieldPorts (s.elapse dt).part) (hu : (s.elapse dt).portUp q = true)
    (hb : head.isBad (s.elapse dt).flp.etherType = true) :
    exec (.writeResp dt q ⟨head, token⟩ status data) s = .next ((s.elapse dt).badField q) :=
  (next_when (Bool.and_eq_true_iff.mpr ⟨decide_eq_true hq, hu⟩)).trans (congrArg Host.Outcome.next (if_pos hb))

theorem writeResp_completes (dt q token status : Nat) (head : FrameHead) (data : List Byte) (s : State) (w : WritePend)
    (rest : List WritePend) :
    let u := s.elapse dt
    takeWrite (fun w => w.port == u.nodePort q && w.token == token) u.flp.writes = some (w, rest) →
    q < Config.fieldPorts u.part → u.portUp q = true →
    (head.isBad u.flp.etherType = true →
      ∃ t : State, exec (.writeResp dt q ⟨head, token⟩ status data) s = .next t ∧
        t.port q = { u.port q with badFrame := count32 (u.port q).badFrame } ∧ bit t.flp.fault.w 2 = true ∧
        t = { u with flp := { u.flp with ports := t.flp.ports, fault := t.flp.fault }, icu := t.icu }) ∧
    (head.isBad u.flp.etherType = false → ∃ v : State, v = { u with flp := { u.flp with writes := rest } } ∧
      (status ≠ 0 → exec (.writeResp dt q ⟨head, token⟩ status data) s = .next (v.finishAt w.ring w.index 0x08 (0x100 + status) 0)) ∧
      (status = 0 → w.op = 1 →
        exec (.writeResp dt q ⟨head, token⟩ status data) s = .next (v.finishAt w.ring w.index 0x00 (wordAt data 0 4) (wordAt data 4 4))) ∧
      (status = 0 → w.op ≠ 1 → exec (.writeResp dt q ⟨head, token⟩ status data) s = .next (v.finishAt w.ring w.index 0x00 0 0))) := by
  intro u ht hq hu
  refine ⟨fun hb => ?_, fun hb => ?_⟩
  · obtain ⟨hport, hfault, -, hframe⟩ := u.badField_drops q
    exact ⟨u.badField q, exec_writeResp_bad hq hu hb, hport, hfault, hframe⟩
  · have hx := exec_writeResp (status := status) (data := data) hq hu hb ht
    refine ⟨u.onFlp fun l => { l with writes := rest }, rfl, fun hs => ?_, fun hs ho => ?_, fun hs ho => ?_⟩
    · rw [hx, if_pos hs]; rfl
    · rw [hx, if_neg (not_not.mpr hs), if_pos ho]; rfl
    · rw [hx, if_neg (not_not.mpr hs), if_neg ho]; rfl

/-- Settles O54: the start, the resend with the time-out, and the answer. -/
theorem nodeWritesAreAnswered : Obligations.NodeWritesAreAnswered := by
  unfold Obligations.NodeWritesAreAnswered
  exact ⟨nodeWrite_sends, nodeWriteResend_and_timeout, writeResp_completes⟩

end Sys2Proof.Machine

namespace Sys2Proof.Machine

variable {s t : State} {dt p n : Nat}

/-! ### A node's next frame (R215, R216) -/

/-- A frame holds the whole front of what waits. -/
theorem takeRecs_take (rs : List CmdRec) : takeRecs rs = rs.take (takeRecs rs).length := by
  unfold takeRecs
  dsimp only
  split <;> simp

theorem takeRecs_append (rs : List CmdRec) : takeRecs rs ++ rs.drop (takeRecs rs).length = rs := by
  conv_lhs => rw [takeRecs_take]
  rw [List.length_take_of_le (takeRecs_take rs ▸ List.length_take_le' ..)]
  exact List.take_append_drop ..

theorem takeRecs_length_le (rs : List CmdRec) : (takeRecs rs).length ≤ 180 := by
  unfold takeRecs
  dsimp only
  split
  · exact (List.length_take_le ..).trans (by decide)
  · exact List.length_take_le ..

theorem takeRecs_ne_nil {rs : List CmdRec} (h : rs ≠ []) : takeRecs rs ≠ [] := by
  unfold takeRecs
  dsimp only
  split <;> simp [h]

/-- An ON_PWM that would end a full frame waits with its PWM_GRID for the next one. -/
theorem takeRecs_whole {rs : List CmdRec} (hl : 180 < rs.length) (hk : ((takeRecs rs).getLast?.map fun r => r.kind) = some 3) :
    (takeRecs rs).length ≠ 180 := by
  unfold takeRecs at hk ⊢
  dsimp only at hk ⊢
  split
  · rw [List.length_take_of_le (by omega)]
    decide
  · next hc =>
    rw [if_neg hc] at hk
    rw [hk] at hc
    simp [hl] at hc

/-- The next frame of a node, sent at a tick. -/
def Node.nextFrame (d : Node) (tick : Nat) : SentFrame := { seq := (d.seq + 1) % 65536, records := takeRecs d.waiting, sentTick := tick }

theorem State.frameDue_waiting (h : s.frameDue p n = true) : (s.node p n).waiting ≠ [] := by
  unfold State.frameDue at h
  intro he
  simp [he] at h

theorem State.sendCommand_transmits (p n : Nat) (f : SentFrame) (s : State) : s.Transmits (s.sendCommand p n f) := State.sendAde_transmits ..

theorem State.Transmits.node (h : s.Transmits t) (p n : Nat) : t.node p n = s.node p n := by rw [h.frame]; rfl

theorem exec_commandFrameSend (h : (s.elapse dt).frameDue p n = true) : exec (.commandFrameSend dt p n) s =
    .next (((s.elapse dt).sendCommand p n (((s.elapse dt).node p n).nextFrame (s.elapse dt).now)).onNode p n fun d =>
      { d with seq := (((s.elapse dt).node p n).seq + 1) % 65536,
               waiting := d.waiting.drop (takeRecs ((s.elapse dt).node p n).waiting).length,
               sent := d.sent ++ [((s.elapse dt).node p n).nextFrame (s.elapse dt).now] }) := next_when h

/-- A change of one node after frames have left. -/
theorem State.Transmits.onNode_frame (h : s.Transmits t) (f : Node → Node) : t.onNode p n f =
    { s with flp := { s.flp with nodes := (t.onNode p n f).flp.nodes }, out := { s.out with frames := (t.onNode p n f).out.frames } } := by
  rw [h.frame]
  rfl

theorem State.Transmits.onNode_nodes_ne (h : s.Transmits t) (f : Node → Node) {k : Nat} (hk : k ≠ 256 * p + n) :
    Tbl.get {} (t.onNode p n f).flp.nodes k = Tbl.get {} s.flp.nodes k := by
  rw [State.onNode_nodes_ne _ _ _ _ _ hk, h.frame]

theorem commandFrameSend_sends (dt p n : Nat) (s : State) :
    let u := s.elapse dt
    let d := u.node p n
    u.frameDue p n = true →
    ∃ (t : State) (f : SentFrame) (rest : List CmdRec), exec (.commandFrameSend dt p n) s = .next t ∧
      d.waiting = f.records ++ rest ∧ f.records ≠ [] ∧ f.records.length ≤ 180 ∧
      (180 < d.waiting.length → (f.records.getLast?.map fun r => r.kind) = some 3 → f.records.length ≠ 180) ∧
      f.seq = (d.seq + 1) % 65536 ∧ f.sentTick = u.now ∧ f.retries = 0 ∧
      t.node p n = { d with seq := f.seq, waiting := rest, sent := d.sent ++ [f] } ∧
      (∀ k, k ≠ 256 * p + n → Tbl.get {} t.flp.nodes k = Tbl.get {} u.flp.nodes k) ∧
      (u.portUp p = true → ∃ g ∈ t.out.frames, g.link = 0 ∧ g.port = p ∧ g.type = 2 ∧ g.node = n ∧ g.seq = f.seq ∧
        g.records = f.records.map CmdRec.fields) ∧
      t = { u with flp := { u.flp with nodes := t.flp.nodes }, out := { u.out with frames := t.out.frames } } := by
  intro u d hdue
  have hs := State.sendCommand_transmits p n (d.nextFrame u.now) u
  refine ⟨_, d.nextFrame u.now, d.waiting.drop (takeRecs d.waiting).length, exec_commandFrameSend hdue, (takeRecs_append _).symm,
    takeRecs_ne_nil (State.frameDue_waiting hdue), takeRecs_length_le _, takeRecs_whole, rfl, rfl, rfl, ?_,
    fun k hk => hs.onNode_nodes_ne _ hk, fun hu => ?_, hs.onNode_frame _⟩
  · rw [State.onNode_node, hs.node]
    rfl
  · obtain ⟨g, hg, hlink, hport, htype, hnode, hseq, -, hrecs⟩ :=
      State.sendAde_sends hu 2 n (d.nextFrame u.now).seq [] ((d.nextFrame u.now).records.map CmdRec.fields)
    exact ⟨g, hg, hlink, hport, htype, hnode, hseq.trans (Nat.mod_mod ..), hrecs⟩

/-! ### ACK_WAIT (R218) -/

theorem State.splitDue_append {a c : List SentFrame} {f : SentFrame} (ha : ∀ g ∈ a, s.ackDue g = false) (hf : s.ackDue f = true) :
    s.splitDue (a ++ f :: c) = (a, f :: c) := by
  induction a with
  | nil => exact if_pos hf
  | cons g a ih =>
    rw [List.cons_append, State.splitDue, if_neg (by rw [ha g List.mem_cons_self]; decide),
      ih fun x hx => ha x (List.mem_cons_of_mem _ hx)]

theorem State.sendCommands_transmits (p n : Nat) (l : List SentFrame) (s : State) :
    s.Transmits (l.foldl (fun s f => s.sendCommand p n f) s) :=
  foldl_related (R := State.Transmits) s .refl .trans (fun s f => s.sendCommand_transmits p n f) l

/-- Every frame of a list leaves. -/
theorem State.sendCommands_sends {l : List SentFrame} (h : s.portUp p = true) : ∀ g ∈ l,
    ∃ f ∈ (l.foldl (fun s f => s.sendCommand p n f) s).out.frames, f.port = p ∧ f.type = 2 ∧ f.node = n ∧ f.seq = g.seq % 65536 := by
  induction l generalizing s with
  | nil => exact fun g hg => absurd hg List.not_mem_nil
  | cons a l ih =>
    intro g hg
    rcases List.mem_cons.mp hg with rfl | hg
    · obtain ⟨f, hf, -, hport, htype, hnode, hseq, -, -⟩ := State.sendAde_sends h 2 n g.seq [] (g.records.map CmdRec.fields)
      exact ⟨f, (State.sendCommands_transmits p n l (s.sendCommand p n g)).sent f hf, hport, htype, hnode, hseq⟩
    · exact ih ((State.sendCommand_transmits p n a s).portUp p ▸ h) g hg

theorem exec_ackWaitExpiry {a c : List SentFrame} {f : SentFrame} (he : (s.elapse dt).portExists p = true)
    (hr : (s.elapse dt).portRuns p = true) (hs : (s.elapse dt).splitDue ((s.elapse dt).node p n).sent = (a, f :: c)) :
    exec (.ackWaitExpiry dt p n) s = .next (((f :: c).foldl (fun s f => s.sendCommand p n f) (s.elapse dt)).onNode p n fun d =>
      { d with sent := a ++ (f :: c).map fun g => { g with sentTick := (s.elapse dt).now, retries := g.retries + 1 } }) := by
  show execAckWaitExpiry dt p n s = _
  unfold execAckWaitExpiry
  dsimp only
  rw [hs, he, hr]
  exact next_when rfl

theorem ackWaitExpiry_resends (dt p n : Nat) (s : State) (a c : List SentFrame) (f : SentFrame) :
    let u := s.elapse dt
    let d := u.node p n
    u.portExists p = true → u.portRuns p = true → d.sent = a ++ f :: c → (∀ g ∈ a, u.ackDue g = false) → u.ackDue f = true →
    ∃ t : State, exec (.ackWaitExpiry dt p n) s = .next t ∧
      t.node p n = { d with sent := a ++ (f :: c).map fun g => { g with sentTick := u.now, retries := g.retries + 1 } } ∧
      (∀ k, k ≠ 256 * p + n → Tbl.get {} t.flp.nodes k = Tbl.get {} u.flp.nodes k) ∧
      (u.portUp p = true → ∀ g ∈ f :: c, ∃ h ∈ t.out.frames, h.port = p ∧ h.type = 2 ∧ h.node = n ∧ h.seq = g.seq % 65536) ∧
      t = { u with flp := { u.flp with nodes := t.flp.nodes }, out := { u.out with frames := t.out.frames } } := by
  intro u d he hr hsent ha hf
  have hs := State.sendCommands_transmits p n (f :: c) u
  have hx := exec_ackWaitExpiry he hr ((congrArg u.splitDue hsent).trans (State.splitDue_append ha hf))
  refine ⟨_, hx, ?_, fun k hk => hs.onNode_nodes_ne _ hk, fun hu => State.sendCommands_sends hu, hs.onNode_frame _⟩
  rw [State.onNode_node, hs.node]

/-! ### Commands without acknowledgement (R218) -/

theorem State.flpFault_node (b src p n : Nat) (s : State) : (s.flpFault b src).node p n = s.node p n := by
  rw [State.flpFault_frame]
  rfl

theorem State.onPort_node (q p n : Nat) (f : Port → Port) (s : State) : (s.onPort q f).node p n = s.node p n := rfl

theorem State.countUnacked_pos {k : Nat} (h : 0 < k) : s.countUnacked p k =
    (s.onPort p fun q => { q with unacked := satAdd 0xFFFFFFFF q.unacked k }).flpFault 0 (232 + p) := if_neg (by omega)

/-- A record that has been counted is late no more. -/
theorem CmdRec.lateAt_noted (r : CmdRec) (tick : Nat) : (if r.lateAt tick then { r with counted := true } else r).lateAt tick = false := by
  split
  · unfold CmdRec.lateAt
    simp
  · next h => exact Bool.not_eq_true _ ▸ h

theorem State.lateRecs_sent {d : Node} {f : SentFrame} {r : CmdRec} (hf : f ∈ (s.lateRecs d).2.sent) (hr : r ∈ f.records) :
    r.lateAt s.now = false := by
  obtain ⟨g, -, rfl⟩ := List.mem_map.mp (List.mem_of_mem_filter hf)
  obtain ⟨q, -, rfl⟩ := List.mem_map.mp hr
  exact q.lateAt_noted _

theorem exec_unacked (he : (s.elapse dt).portExists p = true) (hk : 0 < ((s.elapse dt).lateRecs ((s.elapse dt).node p n)).1) :
    exec (.unacked dt p n) s =
      .next ((((s.elapse dt).onNode p n fun _ => ((s.elapse dt).lateRecs ((s.elapse dt).node p n)).2).onPort p fun q =>
        { q with unacked := satAdd 0xFFFFFFFF q.unacked ((s.elapse dt).lateRecs ((s.elapse dt).node p n)).1 }).flpFault 0 (232 + p)) :=
  (next_when (and_decide he hk)).trans (congrArg Host.Outcome.next (State.countUnacked_pos hk))

theorem unacked_counts (dt p n : Nat) (s : State) :
    let u := s.elapse dt
    let d := u.node p n
    let late (r : CmdRec) : Bool := r.lateAt u.now
    let k := (d.waiting.filter late).length + ((d.sent.map fun f => (f.records.filter late).length).foldl (· + ·) 0)
    u.portExists p = true → 0 < k →
    ∃ t : State, exec (.unacked dt p n) s = .next t ∧ t.port p = { u.port p with unacked := satAdd 0xFFFFFFFF (u.port p).unacked k } ∧
      bit t.flp.fault.w 0 = true ∧ (t.node p n).waiting = d.waiting.filter (fun r => !late r) ∧
      (∀ f ∈ (t.node p n).sent, ∀ r ∈ f.records, r.lateAt u.now = false) ∧
      (∀ j, j ≠ p → t.port j = u.port j) ∧
      t = { u with flp := { u.flp with nodes := t.flp.nodes, ports := t.flp.ports, fault := t.flp.fault }, icu := t.icu } := by
  intro u d late k he hk
  have hnode : ((((u.onNode p n fun _ => (u.lateRecs d).2).onPort p fun q => { q with unacked := satAdd 0xFFFFFFFF q.unacked k }).flpFault
      0 (232 + p)).node p n) = (u.lateRecs d).2 := by
    rw [State.flpFault_node, State.onPort_node, State.onNode_node]
  refine ⟨_, exec_unacked he hk, ?_, ?_, congrArg Node.waiting hnode, fun f hf r hr => ?_, fun j hj => ?_, ?_⟩
  · rw [State.flpFault_port, State.onPort_port]
    rfl
  · rw [State.flpFault_frame]
    exact bit_setFlag_same _ _ (by decide)
  · exact State.lateRecs_sent (congrArg Node.sent hnode ▸ hf) hr
  · rw [State.flpFault_port, State.onPort_port_ne _ _ _ _ hj]
    rfl
  · rw [State.flpFault_frame]
    rfl

end Sys2Proof.Machine

namespace Sys2Proof.Machine

variable {s t : State} {dt p n : Nat}

/-! ### Endpoints that lose their path (R16, R221, R240, R398) -/

/-- An endpoint out of demand. -/
def EpDyn.offDemand (d : EpDyn) : EpDyn := { d with inDemand := false }

/-- Some endpoints lose their path: they leave demand with their valves' effects to come, and no other endpoint's state changes. -/
structure State.LosesPaths (eps : List Nat) (s t : State) : Prop where
  work : s.PathWork t
  dyn : ∀ k, t.dyn k = if k ∈ eps then (s.dyn k).offDemand else s.dyn k
  valveQ : t.gle.valveQ = s.gle.valveQ.filter fun v => decide (v.ep ∉ eps)

/-- Nothing of GLE changes. -/
theorem State.LosesPaths.of_gle (h : s.PathWork t) (hg : t.gle = s.gle) : s.LosesPaths [] t where
  work := h
  dyn k := by unfold State.dyn; rw [hg, if_neg List.not_mem_nil]
  valveQ := by rw [hg, List.filter_eq_self.mpr fun v _ => decide_eq_true List.not_mem_nil]

theorem State.LosesPaths.refl (s : State) : s.LosesPaths [] s := .of_gle rfl rfl

theorem State.LosesPaths.trans {a b c : State} {l m : List Nat} (h : a.LosesPaths l b) (g : b.LosesPaths m c) : a.LosesPaths (l ++ m) c where
  work := h.work.trans g.work
  dyn k := by
    rw [g.dyn, h.dyn]
    by_cases hl : k ∈ l <;> by_cases hm : k ∈ m <;> simp [hl, hm, EpDyn.offDemand]
  valveQ := by
    rw [g.valveQ, h.valveQ, List.filter_filter]
    congr 1
    funext v
    simp [Bool.and_comm]

/-- What worked out demand anew, or put effects at the ground, leaves of paths. -/
theorem State.DemandWork.losesPaths (h : s.DemandWork t) : s.LosesPaths [] t where
  work := by unfold State.PathWork; rw [h]
  dyn k := h.dyn k
  valveQ := by rw [h, List.filter_eq_self.mpr fun v _ => decide_eq_true List.not_mem_nil]

theorem State.addEffect_losesPaths (v : Effect) (s : State) : s.LosesPaths [] (s.addEffect v) where
  work := by unfold State.PathWork; rw [State.addEffect_frame]
  dyn k := by rw [State.addEffect_frame, if_neg List.not_mem_nil]; rfl
  valveQ := by rw [State.addEffect_valveQ, List.filter_eq_self.mpr fun v _ => decide_eq_true List.not_mem_nil]

theorem State.pathLost_losesPaths (ep : Nat) (s : State) : s.LosesPaths [ep] (s.pathLost ep) := by
  unfold State.pathLost
  extract_lets en tick x y
  have hx : s.LosesPaths [ep] x := by
    refine ⟨rfl, fun k => ?_, ?_⟩
    · show (s.onDyn ep EpDyn.offDemand).dyn k = _
      by_cases hk : k = ep
      · subst hk
        rw [State.onDyn_dyn, if_pos List.mem_cons_self]
      · rw [State.onDyn_dyn_ne _ _ _ _ hk, if_neg (by simp [hk])]
    · show s.gle.valveQ.filter _ = _
      congr 1
      funext v
      exact Bool.eq_iff_iff.mpr (by simp)
  have hy : x.LosesPaths [] y := iteInduction (motive := x.LosesPaths []) (fun _ => x.addEffect_losesPaths _) fun _ => .refl x
  exact (hx.trans hy).trans (y.refreshDemand_demandWork).losesPaths

theorem State.pathsLost_losesPaths (l : List Nat) (s : State) : s.LosesPaths l (l.foldl (fun s ep => s.pathLost ep) s) := by
  induction l generalizing s with
  | nil => exact .refl s
  | cons ep l ih =>
    rw [List.foldl_cons]
    exact (s.pathLost_losesPaths ep).trans (ih (s.pathLost ep))

theorem State.noteTarget_gle (c : Nat) (s : State) : (s.noteTarget c).gle = s.gle := by
  unfold State.noteTarget
  dsimp only
  split
  · rfl
  · split
    · unfold State.ctxFault
      rw [State.raise_frame]
      rfl
    · rfl

theorem State.noteTargets_losesPaths (s : State) : s.LosesPaths [] s.noteTargets :=
  foldl_related (R := State.LosesPaths []) (f := fun s (e : Nat × Ctx) => s.noteTarget e.1) s .refl .trans
    (fun s e => .of_gle (State.noteTarget_pathWork e.1) (State.noteTarget_gle e.1 s)) s.rge.ctxs

theorem State.nodePathLost_losesPaths (p n : Nat) (s : State) : s.LosesPaths (s.nodeEps p n) (s.nodePathLost p n) := by
  have h := (s.pathsLost_losesPaths (s.nodeEps p n)).trans (State.noteTargets_losesPaths _)
  rwa [List.append_nil] at h

theorem State.nodeEps_congr (h : t.gle = s.gle) (p n : Nat) : t.nodeEps p n = s.nodeEps p n := by unfold State.nodeEps; rw [h]

theorem State.fieldStatus_reports (p event subject value : Nat) (s : State) : s.Reports (s.fieldStatus p event subject value) :=
  State.report_reports ..

theorem State.Reports.gle (h : s.Reports t) : t.gle = s.gle := by unfold State.Reports at h; rw [h]
theorem State.Reports.flp (h : s.Reports t) : t.flp = s.flp := by unfold State.Reports at h; rw [h]

/-- Paths that are lost after a record. -/
theorem State.PathWork.after_records {x y : State} (hy : x.Records y) (ht : y.PathWork t) :
    t = { x with gle := t.gle, rge := t.rge, icu := t.icu, evr := t.evr, nv := t.nv, hre := t.hre, out := t.out } := by
  unfold State.PathWork at ht
  unfold State.Records at hy
  rw [ht, hy]

/-! ### A node is lost (R207, R221) -/

theorem exec_nodeLost (hp : (s.elapse dt).powered 5 = true) (hd : ((s.elapse dt).node p n).present = true)
    (hb : beatOf ((s.elapse dt).node p n).lastReportTick + 4 ≤ beatOf (s.elapse dt).now) :
    exec (.nodeLost dt p n) s = .next ((((((s.elapse dt).onNode p n fun d =>
      { d with present := false, safeBeats := 0, repSeqs := [], sendSafe := (s.elapse dt).portRuns p }).raise (228 + p)).fieldStatus
        p 4 n 0).record 0x0602 (256 * p + n) []).nodePathLost p n) :=
  next_when (and_decide (Bool.and_eq_true_iff.mpr ⟨hp, hd⟩) hb)

theorem nodeLost_loses (dt p n : Nat) (s : State) :
    let u := s.elapse dt
    let d := u.node p n
    u.powered 5 = true → d.present = true → beatOf d.lastReportTick + 4 ≤ beatOf u.now →
    ∃ t : State, exec (.nodeLost dt p n) s = .next t ∧
      t.node p n = { d with present := false, safeBeats := 0, repSeqs := [], sendSafe := u.portRuns p } ∧
      (∀ k, k ≠ 256 * p + n → Tbl.get {} t.flp.nodes k = Tbl.get {} u.flp.nodes k) ∧
      (∀ ep ∈ u.nodeEps p n, (t.dyn ep).inDemand = false ∧ ∀ v ∈ t.gle.valveQ, v.ep ≠ ep) ∧
      (∀ ep, ep ∉ u.nodeEps p n → t.dyn ep = u.dyn ep) ∧
      t = { u with flp := { u.flp with nodes := t.flp.nodes }, gle := t.gle, rge := t.rge, icu := t.icu, evr := t.evr, nv := t.nv,
                   hre := t.hre, out := t.out } := by
  intro u d hp hd hb
  let x := u.onNode p n fun d => { d with present := false, safeBeats := 0, repSeqs := [], sendSafe := u.portRuns p }
  let y := ((x.raise (228 + p)).fieldStatus p 4 n 0).record 0x0602 (256 * p + n) []
  have hy : x.Records y := ((State.raise_reports _).trans (State.fieldStatus_reports ..)).records.trans (State.record_records ..)
  have hyg : y.gle = u.gle := by rw [hy]; rfl
  have ht := State.nodePathLost_losesPaths p n y
  have htf : (y.nodePathLost p n).flp = x.flp := by rw [ht.work, hy]
  have hdyn (k : Nat) : y.dyn k = u.dyn k := by unfold State.dyn; rw [hyg]
  rw [State.nodeEps_congr hyg] at ht
  refine ⟨y.nodePathLost p n, exec_nodeLost hp hd hb, ?_, fun k hk => ?_, fun ep hep => ⟨?_, fun v hv he => ?_⟩, fun ep hep => ?_, ?_⟩
  · unfold State.node
    rw [htf]
    exact u.onNode_node n p _
  · rw [htf]
    exact u.onNode_nodes_ne n k p _ hk
  · rw [ht.dyn, if_pos hep]
    rfl
  · rw [ht.valveQ] at hv
    exact of_decide_eq_true (List.mem_filter.mp hv).2 (he ▸ hep)
  · rw [ht.dyn, if_neg hep, hdyn]
  · rw [htf]
    exact ht.work.after_records hy

/-! ### A node is released (R111, R207, R221) -/

/-- An endpoint held off and evaluated afresh. -/
def EpDyn.heldOff (d : EpDyn) : EpDyn := { d with heldOn := false, probe := d.probe.map fun b => { b with last := none } }

theorem EpDyn.heldOff_idem (d : EpDyn) : d.heldOff.heldOff = d.heldOff := by
  unfold EpDyn.heldOff
  rw [Option.map_map]
  rfl

theorem State.holdNodeOff_dyn (p n k : Nat) (s : State) :
    (s.holdNodeOff p n).dyn k = if k ∈ s.nodeEps p n then (s.dyn k).heldOff else s.dyn k :=
  State.foldl_onDyn_dyn (g := fun _ => EpDyn.heldOff) (fun _ d => d.heldOff_idem) (s.nodeEps p n) s k

theorem State.holdNodeOff_frame (p n : Nat) (s : State) :
    s.holdNodeOff p n = { s with gle := { s.gle with dyn := (s.holdNodeOff p n).gle.dyn } } :=
  State.foldl_onDyn_frame (fun _ => EpDyn.heldOff) (s.nodeEps p n) s

theorem exec_nodeRelease (he : (s.elapse dt).portExists p = true) (hr : (s.elapse dt).portRuns p = true)
    (hd : ((s.elapse dt).node p n).present = true) (hs : ((s.elapse dt).node p n).safe = true)
    (hb : (s.elapse dt).flp.recover ≤ ((s.elapse dt).node p n).safeBeats) :
    exec (.nodeRelease dt p n) s = .next ((((((s.elapse dt).onNode p n fun d => { d with safeBeats := 0 }).queueRec p n
      { endpoint := 0, kind := 6, tag := 0, value := 0 }).holdNodeOff p n).raise (228 + p)).fieldStatus p 6 n 0) := by
  refine next_when (and_decide ?_ hb)
  rw [he, hr, hd, hs]
  rfl

theorem nodeRelease_releases (dt p n : Nat) (s : State) :
    let u := s.elapse dt
    let d := u.node p n
    u.portExists p = true → u.portRuns p = true → d.present = true → d.safe = true → u.flp.recover ≤ d.safeBeats →
    ∃ t : State, exec (.nodeRelease dt p n) s = .next t ∧ (t.node p n).safeBeats = 0 ∧
      (t.node p n).waiting = d.waiting ++ [{ endpoint := 0, kind := 6, tag := 0, value := 0 }] ∧
      (∀ ep ∈ u.nodeEps p n, (t.dyn ep).heldOn = false ∧ (t.dyn ep).inDemand = (u.dyn ep).inDemand) ∧
      (∀ ep, ep ∉ u.nodeEps p n → t.dyn ep = u.dyn ep) ∧
      (∀ k, k ≠ 256 * p + n → Tbl.get {} t.flp.nodes k = Tbl.get {} u.flp.nodes k) ∧
      t = { u with flp := { u.flp with nodes := t.flp.nodes }, gle := { u.gle with dyn := t.gle.dyn }, icu := t.icu, hre := t.hre,
                   out := t.out } := by
  intro u d he hr hd hs hb
  let x := (u.onNode p n fun d => { d with safeBeats := 0 }).queueRec p n { endpoint := 0, kind := 6, tag := 0, value := 0 }
  let t := ((x.holdNodeOff p n).raise (228 + p)).fieldStatus p 6 n 0
  have ht : (x.holdNodeOff p n).Reports t := (State.raise_reports _).trans (State.fieldStatus_reports ..)
  have hflp : t.flp = x.flp := ht.flp.trans (by rw [State.holdNodeOff_frame])
  have hnode : t.node p n = x.node p n := by unfold State.node; rw [hflp]
  have hx : x.node p n = { d with safeBeats := 0, waiting := d.waiting ++ [{ endpoint := 0, kind := 6, tag := 0, value := 0 }],
                                  waitTick := if d.waiting.isEmpty then u.now else d.waitTick } := by
    show ((u.onNode p n _).onNode p n _).node p n = _
    rw [State.onNode_node, State.onNode_node]
    rfl
  have hdyn (k : Nat) : t.dyn k = if k ∈ u.nodeEps p n then (u.dyn k).heldOff else u.dyn k := by
    have h := x.holdNodeOff_dyn p n k
    unfold State.dyn
    rw [ht.gle]
    exact h
  refine ⟨t, exec_nodeRelease he hr hd hs hb, ?_, ?_, fun ep hep => ?_, fun ep hep => ?_, fun k hk => ?_, ?_⟩
  · rw [hnode, hx]
  · rw [hnode, hx]
  · rw [hdyn, if_pos hep]
    exact ⟨rfl, rfl⟩
  · rw [hdyn, if_neg hep]
  · rw [hflp]
    exact (State.onNode_nodes_ne _ _ _ _ _ hk).trans (u.onNode_nodes_ne n k p _ hk)
  · have hg : t.gle.dyn = (x.holdNodeOff p n).gle.dyn := by rw [ht.gle]
    rw [hflp, hg]
    unfold State.Reports at ht
    conv_lhs => rw [ht, x.holdNodeOff_frame p n]
    rfl

/-! ### A DUP ends (R207) -/

theorem dupNodeClear_ends (dt p n : Nat) (s : State) :
    let u := s.elapse dt
    let d := u.node p n
    u.powered 5 = true → d.dup = true → 100 ≤ d.singleBeats - b2n (beatOf d.lastReportTick == beatOf u.now) →
    ∃ t : State, exec (.dupNodeClear dt p n) s = .next t ∧ t.node p n = { d with dup := false } ∧
      (∀ k, k ≠ 256 * p + n → Tbl.get {} t.flp.nodes k = Tbl.get {} u.flp.nodes k) ∧
      t = { u with flp := { u.flp with nodes := t.flp.nodes } } := by
  intro u d hp hd hb
  exact ⟨u.onNode p n fun d => { d with dup := false }, next_when (and_decide (Bool.and_eq_true_iff.mpr ⟨hp, hd⟩) hb), u.onNode_node n p _,
    fun k hk => u.onNode_nodes_ne n k p _ hk, rfl⟩

end Sys2Proof.Machine

namespace Sys2Proof.Machine

variable {s t : State}

/-! ### A sample of a delay (R311, R313, R314, R323) -/

/-- A change of LCA, with what it raises and reports. -/
def State.LcaWork (s t : State) : Prop := t = { s with lca := t.lca, icu := t.icu, hre := t.hre, out := t.out }

theorem State.LcaWork.refl (s : State) : s.LcaWork s := rfl

theorem State.LcaWork.trans {a b c : State} (h : a.LcaWork b) (g : b.LcaWork c) : a.LcaWork c := by
  unfold State.LcaWork at *
  rw [g, h]

theorem State.Reports.lcaWork (h : s.Reports t) : s.LcaWork t := by
  unfold State.Reports at h
  rw [h]
  rfl

theorem State.onLca_lcaWork (f : Lca → Lca) (s : State) : s.LcaWork (s.onLca f) := rfl
theorem State.onDelay_lcaWork (ep kind : Nat) (f : DelayCal → DelayCal) (s : State) : s.LcaWork (s.onDelay ep kind f) := rfl

theorem State.lcaFault_lcaWork (bit src : Nat) (s : State) : s.LcaWork (s.lcaFault bit src) :=
  (s.onLca_lcaWork _).trans (State.raise_reports _).lcaWork

theorem State.delayResult_lcaWork (ep kind outcome after : Nat) (s : State) : s.LcaWork (s.delayResult ep kind outcome after) := by
  unfold State.delayResult
  dsimp only
  split
  · exact (State.report_reports ..).lcaWork
  · exact .refl s

theorem State.propose_lcaWork (ep kind : Nat) (s : State) : s.LcaWork (s.propose ep kind) := by
  unfold State.propose
  extract_lets p est d v restart w order x y
  split
  · exact (State.delayResult_lcaWork ..).trans rfl
  · split
    · rfl
    · have hx : s.LcaWork x := rfl
      have hy : x.LcaWork y := iteInduction (motive := x.LcaWork)
        (fun _ => (State.delayResult_lcaWork ..).trans (State.lcaFault_lcaWork ..)) fun _ => State.delayResult_lcaWork ..
      exact (hx.trans hy).trans (.trans (b := restart y) rfl (State.raise_reports _).lcaWork)

theorem State.delaySample_lcaWork (src ep kind : Nat) (v : Int) (s : State) : s.LcaWork (s.delaySample src ep kind v) := by
  unfold State.delaySample
  extract_lets p est x y
  refine (s.onLca_lcaWork _).trans (iteInduction (motive := x.LcaWork) (fun _ => ?_) fun _ => ?_)
  · exact (x.onLca_lcaWork _).trans ((State.onDelay_lcaWork ..).trans (State.lcaFault_lcaWork ..))
  · exact (x.onDelay_lcaWork ..).trans (iteInduction (motive := y.LcaWork) (fun _ => y.propose_lcaWork ep kind) fun _ => .refl y)

theorem State.seatSample_lcaWork (ep tag v : Nat) (s : State) : s.LcaWork (s.seatSample ep tag v) := by
  unfold State.seatSample
  extract_lets d take
  have htake (kind : Nat) : s.LcaWork (take kind) := iteInduction (motive := s.LcaWork)
    (fun _ => (s.onLca_lcaWork _).trans (State.lcaFault_lcaWork ..)) fun _ => State.delaySample_lcaWork ..
  split
  · split
    · exact htake 0
    · split
      · exact htake 1
      · exact .refl s
  · exact .refl s

end Sys2Proof.Machine

namespace Sys2Proof.Machine

variable {s t : State} {dt p n q : Nat} {f g : Node → Node}

/-! ### What a report of a node may change (R207, R218, R219, R221) -/

/-- Node `n` of port `p` changes by `f` and no other node does; fault flags set and stay set, and no endpoint comes into demand. -/
structure State.Hears (p n : Nat) (f : Node → Node) (s t : State) : Prop where
  frame : t = { s with flp := { s.flp with nodes := t.flp.nodes, ports := t.flp.ports, fault := t.flp.fault }, gle := t.gle, rge := t.rge,
                       lca := t.lca, icu := t.icu, hre := t.hre, out := t.out }
  node : t.node p n = f (s.node p n)
  others : ∀ k, k ≠ 256 * p + n → Tbl.get {} t.flp.nodes k = Tbl.get {} s.flp.nodes k
  faults : ∀ i, bit s.flp.fault.w i = true → bit t.flp.fault.w i = true
  offDemand : ∀ ep, (s.dyn ep).inDemand = false → (t.dyn ep).inDemand = false

theorem State.Hears.trans {a b c : State} (h : a.Hears p n f b) (k : b.Hears p n g c) : a.Hears p n (g ∘ f) c where
  frame := by rw [k.frame, h.frame]
  node := by rw [k.node, h.node]; rfl
  others j hj := (k.others j hj).trans (h.others j hj)
  faults i hi := k.faults i (h.faults i hi)
  offDemand ep he := k.offDemand ep (h.offDemand ep he)

/-- What follows leaves the node alone. -/
theorem State.Hears.and {a b c : State} (h : a.Hears p n f b) (k : b.Hears p n id c) : a.Hears p n f c := h.trans k

theorem State.Hears.refl (s : State) : s.Hears p n id s := ⟨rfl, rfl, fun _ _ => rfl, fun _ h => h, fun _ h => h⟩

theorem State.onNode_hears (f : Node → Node) (s : State) : s.Hears p n f (s.onNode p n f) :=
  ⟨rfl, s.onNode_node n p f, fun k hk => s.onNode_nodes_ne n k p f hk, fun _ h => h, fun _ h => h⟩

theorem State.onPort_hears (q : Nat) (f : Port → Port) (s : State) : s.Hears p n id (s.onPort q f) :=
  ⟨rfl, rfl, fun _ _ => rfl, fun _ h => h, fun _ h => h⟩

/-- What leaves FLP and the endpoints alone. -/
theorem State.LcaWork.hears (h : s.LcaWork t) : s.Hears p n id t := by
  unfold State.LcaWork at h
  rw [h]
  exact ⟨rfl, rfl, fun _ _ => rfl, fun _ h => h, fun _ h => h⟩

theorem State.Reports.hears (h : s.Reports t) : s.Hears p n id t := h.lcaWork.hears

theorem State.flpFault_hears (b src : Nat) (s : State) : s.Hears p n id (s.flpFault b src) := by
  rw [State.flpFault_frame]
  exact ⟨rfl, rfl, fun _ _ => rfl, fun _ h => bit_setFlag_of_bit _ _ h, fun _ h => h⟩

theorem State.flpFault_sets {b : Nat} (src : Nat) (s : State) (h : b < 32) : bit (s.flpFault b src).flp.fault.w b = true := by
  rw [State.flpFault_frame]
  exact bit_setFlag_same _ _ h

/-- What changes paths, effects to come and contexts. -/
theorem State.PathWork.hears (h : s.PathWork t) (hd : ∀ ep, (s.dyn ep).inDemand = false → (t.dyn ep).inDemand = false) :
    s.Hears p n id t := by
  refine ⟨?_, ?_, ?_, ?_, hd⟩ <;> rw [h]
  · rfl
  · exact fun _ _ => rfl
  · exact fun _ h => h

theorem State.LosesPaths.hears {eps : List Nat} (h : s.LosesPaths eps t) : s.Hears p n id t := by
  refine h.work.hears fun ep he => ?_
  rw [h.dyn]
  split
  · rfl
  · exact he

theorem State.countUnacked_hears (k q : Nat) (s : State) : s.Hears p n id (s.countUnacked q k) :=
  iteInduction (motive := s.Hears p n id) (fun _ => .refl s) fun _ => (s.onPort_hears _ _).and (State.flpFault_hears ..)

/-! ### The parts of a report (R207, R218, R219, R221) -/

/-- Two nodes of one number set DUP and its fault bit. -/
theorem State.takeDup_hears (p : Nat) (r : NodeReport) (s : State) : (s.takeDup p r).gle = s.gle ∧
    ∃ b k, s.Hears p r.node (fun d => { d with dup := b, singleBeats := k }) (s.takeDup p r) ∧
      (s.dupNode (s.node p r.node) r = true → b = true ∧ bit (s.takeDup p r).flp.fault.w 1 = true) := by
  unfold State.takeDup
  extract_lets d x
  by_cases hd : s.dupNode d r = true
  · rw [if_pos hd]
    have hx : s.Hears p r.node (fun d => { d with dup := true, singleBeats := 0 }) x := (s.onNode_hears _).and (State.flpFault_hears ..)
    have hset : bit x.flp.fault.w 1 = true := State.flpFault_sets _ _ (by decide)
    have hgle : x.gle = s.gle := by unfold x; rw [State.flpFault_frame]; rfl
    have hr : x.Reports (if d.dup = true then x else x.fieldStatus p 7 r.node 0) := (State.fieldStatus_reports ..).unless
    exact ⟨hr.gle.trans hgle, true, 0, hx.and hr.hears, fun _ => ⟨rfl, hr.hears (p := p) (n := r.node) |>.faults 1 hset⟩⟩
  · rw [if_neg hd]
    split
    · exact ⟨rfl, d.dup, d.singleBeats, ⟨rfl, rfl, fun _ _ => rfl, fun _ h => h, fun _ h => h⟩, fun h => absurd h hd⟩
    · refine ⟨rfl, d.dup, d.singleBeats + 1, ?_, fun h => absurd h hd⟩
      exact ⟨rfl, s.onNode_node r.node p _, fun k hk => s.onNode_nodes_ne r.node k p _ hk, fun _ h => h, fun _ h => h⟩

/-- A node as a report of it leaves it, but for the count of its beats in safety and the SAFE record it waits for. -/
def Node.heard (r : NodeReport) (tick count : Nat) (send : Bool) (d : Node) : Node :=
  { d with present := true, safe := r.safe, syncOk := r.syncOk, seen := true, hop := r.hop, endpoints := r.endpoints, lastBeat := r.beatSeen,
           lastReportTick := tick, safeBeats := count, sendSafe := send, repSeqs := (r.seq :: d.repSeqs).take 8 }

theorem State.pathBack_dyn (ep k : Nat) (s : State) : (s.pathBack ep).dyn k = s.dyn k := by
  unfold State.pathBack
  dsimp only
  split
  · rw [State.addEffect_frame]
    rfl
  · rfl

theorem State.nodePathBack_hears (p n : Nat) (s : State) : s.Hears p n id (s.nodePathBack p n) := by
  have h : s.Hears p n id ((s.nodeEps p n).foldl (fun s ep => if s.hasPath ep then s.pathBack ep else s) s) :=
    foldl_related (R := State.Hears p n id) s .refl .and (fun s ep => iteInduction (motive := s.Hears p n id)
      (fun _ => (State.pathBack_pathWork ep).hears fun k hk => by rw [State.pathBack_dyn]; exact hk) fun _ => .refl s) _
  exact h.and (State.noteTargets_losesPaths _).hears

theorem State.takeNstatus_hears (p : Nat) (r : NodeReport) (s : State) :
    (∃ c b, s.Hears p r.node (Node.heard r s.now c b) (s.takeNstatus p r)) ∧
    (r.safe = true → (s.node p r.node).safe = false → ∀ ep ∈ s.nodeEps p r.node, ((s.takeNstatus p r).dyn ep).inDemand = false) := by
  unfold State.takeNstatus
  extract_lets d follows count x y z w
  have hx : s.Hears p r.node (Node.heard r s.now count (d.sendSafe && !r.safe)) x :=
    ⟨rfl, s.onNode_node r.node p _, fun k hk => s.onNode_nodes_ne r.node k p _ hk, fun _ h => h, fun _ h => h⟩
  have hy : x.Reports y := ((State.raise_reports _).trans (State.fieldStatus_reports ..)).unless
  have hz : y.Hears p r.node id z := iteInduction (motive := y.Hears p r.node id) (fun _ => .refl y) fun _ => y.nodePathBack_hears p r.node
  have hv (v : State) : v.Reports ((v.raise (228 + p)).fieldStatus p 5 r.node 0) :=
    (State.raise_reports _).trans (State.fieldStatus_reports ..)
  have hw : z.Hears p r.node id w := iteInduction (motive := z.Hears p r.node id)
    (fun _ => (hv z).hears.and (State.nodePathLost_losesPaths ..).hears) fun _ => .refl z
  have hlast : w.Hears p r.node id (if (d.syncOk && !r.syncOk) = true then (w.flpFault 4 (242 + p)).fieldStatus p 15 r.node 0 else w) :=
    iteInduction (motive := w.Hears p r.node id) (fun _ => (w.flpFault_hears _ _).and (State.fieldStatus_reports ..).hears) fun _ => .refl w
  refine ⟨⟨count, _, (((hx.and hy.hears).and hz).and hw).and hlast⟩, fun hsafe hd ep hep => hlast.offDemand ep ?_⟩
  have hzy : z = y := if_pos (by rw [hsafe, Bool.or_true])
  have hwz : w = ((z.raise (228 + p)).fieldStatus p 5 r.node 0).nodePathLost p r.node := if_pos (by rw [hsafe, show d.safe = false from hd]; rfl)
  have hgle : ((z.raise (228 + p)).fieldStatus p 5 r.node 0).gle = s.gle := by rw [(hv z).gle, hzy, hy.gle]; rfl
  rw [hwz, (State.nodePathLost_losesPaths ..).dyn, State.nodeEps_congr hgle, if_pos hep]
  rfl

theorem State.ackRec_hears (p n : Nat) (s : State) (r : CmdRec) : s.Hears p n id (s.ackRec p r) := by
  unfold State.ackRec
  split
  · exact .refl s
  · split
    · exact State.countUnacked_hears ..
    · split
      · exact (State.addEffect_losesPaths ..).hears
      · exact .refl s

theorem State.takeAck_hears (p n ack : Nat) (s : State) :
    s.Hears p n (fun d => { d with ackSeq := ack, sent := d.sent.filter fun f => precedes16 ack f.seq }) (s.takeAck p n ack) := by
  unfold State.takeAck
  extract_lets acked done x
  have hkept (d : Node) : d.sent.filter (fun f => !acked f) = d.sent.filter fun f => precedes16 ack f.seq := by
    simp only [acked, Bool.not_not]
  have hx : s.Hears p n (fun d => { d with ackSeq := ack, sent := d.sent.filter fun f => precedes16 ack f.seq }) x := by
    simp only [← hkept]
    exact s.onNode_hears _
  exact hx.and (foldl_related (R := State.Hears p n id) x .refl .and (fun s r => s.ackRec_hears p n r) done)

/-- What an entry of a report may change of its node. -/
def Node.withEntries (seat : Bool) (fb : Tbl (Option (Nat × Int))) (d : Node) : Node := { d with hasSeat := seat, feedback := fb }

theorem State.takeEntry_hears (p n : Nat) (s : State) (e : ReportEntry) :
    ∃ seat fb, s.Hears p n (Node.withEntries seat fb) (s.takeEntry p n e) := by
  have hfn (f : Node → Node) (seat fb) (hf : f (s.node p n) = (s.node p n).withEntries seat fb) :
      s.Hears p n (Node.withEntries seat fb) (s.onNode p n f) := by
    have h := s.onNode_hears (p := p) (n := n) f
    exact ⟨h.frame, h.node.trans hf, h.others, h.faults, h.offDemand⟩
  have hsame {t : State} (h : s.Hears p n id t) : ∃ seat fb, s.Hears p n (Node.withEntries seat fb) t :=
    ⟨(s.node p n).hasSeat, (s.node p n).feedback, h.frame, h.node, h.others, h.faults, h.offDemand⟩
  unfold State.takeEntry
  split
  · exact ⟨_, _, (hfn _ true (s.node p n).feedback rfl).and (State.seatSample_lcaWork ..).hears⟩
  · exact hsame ((s.onPort_hears ..).and (State.raise_reports _).hears)
  · exact ⟨_, _, hfn _ (s.node p n).hasSeat _ rfl⟩
  · exact hsame ((s.onPort_hears ..).and (State.raise_reports _).hears)
  · exact hsame (.refl s)

theorem State.takeEntries_hears (p n : Nat) (es : List ReportEntry) (s : State) :
    ∃ seat fb, s.Hears p n (Node.withEntries seat fb) (es.foldl (fun s e => s.takeEntry p n e) s) := by
  induction es generalizing s with
  | nil => exact ⟨(s.node p n).hasSeat, (s.node p n).feedback, rfl, rfl, fun _ _ => rfl, fun _ h => h, fun _ h => h⟩
  | cons e es ih =>
    obtain ⟨_, _, h⟩ := s.takeEntry_hears p n e
    obtain ⟨seat, fb, k⟩ := ih (s.takeEntry p n e)
    exact ⟨seat, fb, h.trans k⟩

end Sys2Proof.Machine

namespace Sys2Proof.Machine

variable {s t : State} {dt q : Nat} {r : NodeReport}

/-! ### A REPORT (R205, R207, R208, R218, R219, R221) -/

theorem exec_nodeReport_bad (hq : q < Config.fieldPorts (s.elapse dt).part) (hu : (s.elapse dt).portUp q = true) (hn : r.node < 256)
    (hb : r.head.isBad (s.elapse dt).flp.etherType = true) :
    exec (.nodeReport dt q r) s = .next ((s.elapse dt).badField q) :=
  (next_when (and_decide (Bool.and_eq_true_iff.mpr ⟨decide_eq_true hq, hu⟩) hn)).trans (congrArg Host.Outcome.next (if_pos hb))

theorem exec_nodeReport (hq : q < Config.fieldPorts (s.elapse dt).part) (hu : (s.elapse dt).portUp q = true) (hn : r.node < 256)
    (hb : r.head.isBad (s.elapse dt).flp.etherType = false) :
    exec (.nodeReport dt q r) s = .next ((s.elapse dt).takeReport ((s.elapse dt).nodePort q) r) :=
  (next_when (and_decide (Bool.and_eq_true_iff.mpr ⟨decide_eq_true hq, hu⟩) hn)).trans
    (congrArg Host.Outcome.next (if_neg (by rw [hb]; decide)))

/-- In a ring a later copy of a report changes nothing. -/
theorem State.takeReport_copy {p : Nat} (h1 : s.inRing p = true) (h2 : r.seq ∈ (s.node p r.node).repSeqs) : s.takeReport p r = s :=
  if_pos (by rw [h1, List.contains_iff_mem.mpr h2]; rfl)

theorem State.takeReport_first {p : Nat} (h : s.inRing p = false ∨ r.seq ∉ (s.node p r.node).repSeqs) : s.takeReport p r =
    r.entries.foldl (fun s e => s.takeEntry p r.node e) (((s.takeDup p r).takeNstatus p r).takeAck p r.node r.ackSeq) := by
  refine if_neg fun hc => ?_
  obtain ⟨h1, h2⟩ := Bool.and_eq_true_iff.mp hc
  rcases h with h | h
  · rw [h] at h1
    cases h1
  · exact h (List.contains_iff_mem.mp h2)

/-- A node after a report of it, part by part. -/
def Node.reported (r : NodeReport) (tick : Nat) (dup : Bool) (single count : Nat) (send seat : Bool) (fb : Tbl (Option (Nat × Int)))
    (d : Node) : Node :=
  Node.withEntries seat fb { Node.heard r tick count send { d with dup, singleBeats := single } with
    ackSeq := r.ackSeq, sent := d.sent.filter fun f => precedes16 r.ackSeq f.seq }

/-- The first copy of a report: what it makes of its node, and of a doubled number and of endpoints that become safe. -/
theorem State.takeReport_hears {p : Nat} (h : s.inRing p = false ∨ r.seq ∉ (s.node p r.node).repSeqs) :
    ∃ dup single count send seat fb, s.Hears p r.node (Node.reported r s.now dup single count send seat fb) (s.takeReport p r) ∧
      (s.dupNode (s.node p r.node) r = true → dup = true ∧ bit (s.takeReport p r).flp.fault.w 1 = true) ∧
      (r.safe = true → (s.node p r.node).safe = false → ∀ ep ∈ s.nodeEps p r.node, ((s.takeReport p r).dyn ep).inDemand = false) := by
  rw [State.takeReport_first h]
  obtain ⟨hgle, dup, single, hdup, hset⟩ := s.takeDup_hears p r
  obtain ⟨⟨count, send, hstat⟩, hsafe⟩ := (s.takeDup p r).takeNstatus_hears p r
  have hack := ((s.takeDup p r).takeNstatus p r).takeAck_hears p r.node r.ackSeq
  obtain ⟨seat, fb, hent⟩ := (((s.takeDup p r).takeNstatus p r).takeAck p r.node r.ackSeq).takeEntries_hears p r.node r.entries
  have hrest := hack.trans hent
  have hnow : (s.takeDup p r).now = s.now := by rw [hdup.frame]; rfl
  rw [hnow] at hstat
  refine ⟨dup, single, count, send, seat, fb, (hdup.trans hstat).trans hrest, fun hd => ?_, fun hs hd ep hep => ?_⟩
  · exact ⟨(hset hd).1, hrest.faults 1 (hstat.faults 1 (hset hd).2)⟩
  · refine hrest.offDemand ep (hsafe hs ?_ ep ?_)
    · rw [hdup.node]
      exact hd
    · rw [State.nodeEps_congr hgle]
      exact hep

theorem State.Hears.blocks {p n : Nat} {f : Node → Node} (h : s.Hears p n f t) : t =
    { s with flp := t.flp, gle := t.gle, rge := t.rge, lca := t.lca, icu := t.icu, hre := t.hre, out := t.out } := by
  rw [h.frame]

theorem State.dupNode_of {d : Node} (h1 : d.seen = true) (h2 : beatOf d.lastReportTick = beatOf s.now) (h3 : d.hop ≠ r.hop) :
    s.dupNode d r = true := by
  unfold State.dupNode
  rw [h1, h2, beq_self_eq_true, bne_iff_ne.mpr h3]
  rfl

theorem nodeReport_isTaken (dt q : Nat) (r : NodeReport) (s : State) :
    let u := s.elapse dt
    let p := u.nodePort q
    let d := u.node p r.node
    q < Config.fieldPorts u.part → u.portUp q = true → r.node < 256 →
    (r.head.isBad u.flp.etherType = true →
      ∃ t : State, exec (.nodeReport dt q r) s = .next t ∧ t.port q = { u.port q with badFrame := count32 (u.port q).badFrame } ∧
        bit t.flp.fault.w 2 = true ∧ t.flp.nodes = u.flp.nodes ∧
        t = { u with flp := { u.flp with ports := t.flp.ports, fault := t.flp.fault }, icu := t.icu }) ∧
    (r.head.isBad u.flp.etherType = false →
      (u.inRing p = true → r.seq ∈ d.repSeqs → exec (.nodeReport dt q r) s = .next u) ∧
      (u.inRing p = false ∨ r.seq ∉ d.repSeqs →
        ∃ t : State, exec (.nodeReport dt q r) s = .next t ∧
          (t.node p r.node).present = true ∧ (t.node p r.node).safe = r.safe ∧ (t.node p r.node).syncOk = r.syncOk ∧
          (t.node p r.node).hop = r.hop ∧ (t.node p r.node).endpoints = r.endpoints ∧ (t.node p r.node).lastBeat = r.beatSeen ∧
          (t.node p r.node).lastReportTick = u.now ∧ (t.node p r.node).repSeqs = (r.seq :: d.repSeqs).take 8 ∧ (t.node p r.node).ackSeq = r.ackSeq ∧
          (t.node p r.node).sent = d.sent.filter (fun f => precedes16 r.ackSeq f.seq) ∧
          (d.seen = true → beatOf d.lastReportTick = beatOf u.now → d.hop ≠ r.hop →
            (t.node p r.node).dup = true ∧ bit t.flp.fault.w 1 = true) ∧
          (r.safe = true → d.safe = false → ∀ ep ∈ u.nodeEps p r.node, (t.dyn ep).inDemand = false) ∧
          (∀ k, k ≠ 256 * p + r.node → Tbl.get {} t.flp.nodes k = Tbl.get {} u.flp.nodes k) ∧
          t = { u with flp := t.flp, gle := t.gle, rge := t.rge, lca := t.lca, icu := t.icu, hre := t.hre, out := t.out })) := by
  intro u p d hq hu hn
  refine ⟨fun hb => ?_, fun hb => ⟨fun hring hseq => ?_, fun hfirst => ?_⟩⟩
  · obtain ⟨hport, hfault, hnodes, hframe⟩ := u.badField_drops q
    exact ⟨u.badField q, exec_nodeReport_bad hq hu hn hb, hport, hfault, hnodes, hframe⟩
  · rw [exec_nodeReport hq hu hn hb]
    exact congrArg Host.Outcome.next (State.takeReport_copy hring hseq)
  · obtain ⟨dup, single, count, send, seat, fb, hh, hdup, hsafe⟩ := State.takeReport_hears hfirst
    refine ⟨u.takeReport p r, exec_nodeReport hq hu hn hb, ?_⟩
    rw [hh.node]
    exact ⟨rfl, rfl, rfl, rfl, rfl, rfl, rfl, rfl, rfl, rfl, fun h1 h2 h3 => hdup (State.dupNode_of h1 h2 h3), hsafe, hh.others, hh.blocks⟩

/-- Settles O53, command by command: frames, their repeats and their loss, reports, and nodes lost, released and single again. -/
theorem nodesAreCommanded : Obligations.NodesAreCommanded := by
  unfold Obligations.NodesAreCommanded
  exact ⟨commandFrameSend_sends, ackWaitExpiry_resends, unacked_counts, nodeReport_isTaken, nodeLost_loses, nodeRelease_releases,
    dupNodeClear_ends⟩

end Sys2Proof.Machine

namespace Sys2Proof.Machine

variable {s : State}

/-! ### Frames of the device links as they leave (R205, R209, R226)

A frame leaves with its addresses and its EtherType: `sendFrame` puts `Frame.addressed` out. O52 and O55 name the frame without
them, with 0 for its destination. -/

theorem State.sendFrame_frames (f : Frame) (s : State) : (s.sendFrame f).out.frames =
    f.addressed (if f.link = 0 then s.flp.etherType else s.dlk.etherType) :: s.out.frames := rfl

/-- The destination of R205, which no frame written out without it carries. -/
theorem Frame.addressed_dst {f : Frame} (etherType : Nat) (h : f.link = 1) : (f.addressed etherType).dst = 0x03000000B600 := by
  unfold Frame.addressed
  rw [if_neg (by rw [h]; decide)]

/-- A frame of a device link never leaves without its destination. -/
theorem State.sendFrame_frames_ne {f g : Frame} {l : List Frame} (h : f.link = 1) (hg : g.dst = 0) : (s.sendFrame f).out.frames ≠ g :: l := by
  intro he
  rw [State.sendFrame_frames] at he
  have hd := congrArg Frame.dst (List.cons.inj he).1
  rw [Frame.addressed_dst _ h, hg] at hd
  exact absurd hd (by decide)

theorem exec_linkDelayMeasure {dt p : Nat} (h : (s.elapse dt).dportHears p = true) : exec (.linkDelayMeasure dt p) s =
    .next (((s.elapse dt).onDport p fun q => { q with reqT1 := some (((s.elapse dt).dport p).departure ((s.elapse dt).now * 327680)) }).sendDelay
      p 0x24 (delayBody (((s.elapse dt).dport p).departure ((s.elapse dt).now * 327680)) 0 0)) := next_when h

theorem State.forward_sends {q type : Nat} {h : TebHead} {body : List Fld} (ht : 1 < h.ttl) (hr : s.dportRuns (1 - q) = true) :
    s.forward q type h body = s.sendFrame
      { link := 1, port := 1 - q, type, node := h.origin, seq := h.seq.toNat, ttl := h.ttl - 1, instanceId := h.instanceId,
        forwarded := true, length := h.length, body } := if_pos ⟨ht, hr⟩

/-- LNK powered, with both device link ports up and enabled. -/
def linksUp : State :=
  { prs := { powered := 0xFF }, dlk := { portEn := 3, ports := [(0, { linked := true }), (1, { linked := true })] } }

/-- Refutes O52: the DELAY_REQ of LINK_DELAY_MEASURE leaves on port 0 of `linksUp` with destination 0x03000000B600 (R205), where
the statement has it leave with destination 0. -/
theorem not_portsCarryFrames : ¬ Obligations.PortsCarryFrames := by
  unfold Obligations.PortsCarryFrames
  intro h
  obtain ⟨-, -, -, -, -, hmeasure, -⟩ := h
  obtain ⟨t, hx, -, -, -, hframes, -⟩ := hmeasure 0 0 linksUp rfl
  rw [exec_linkDelayMeasure rfl] at hx
  obtain rfl := Host.Outcome.next.inj hx
  exact State.sendFrame_frames_ne rfl rfl hframes

/-- The header of a good frame of device 9, two hops to go. -/
def headOf9 : TebHead :=
  { head := { vlan := false, etherType := 0x88B6, version := 1, fcsOk := true }, ttl := 2, origin := 9, seq := 0, instanceId := 0 }

/-- Refutes O55: a frame of device 9 that port 0 of `linksUp` hears is forwarded out of port 1 with destination 0x03000000B600
(R205), where the statement has it leave with destination 0. -/
theorem not_siblingsAndMaster : ¬ Obligations.SiblingsAndMaster := by
  unfold Obligations.SiblingsAndMaster
  intro h
  obtain ⟨-, -, -, hreceive, -⟩ := h
  obtain ⟨-, -, -, -, -, -, -, -, hforward⟩ := hreceive 0 0
    { teb := headOf9, cls := 0, priority := 128, role := 0, candidate := false, tqual := 0, master := 0, timeUnc := 0, originTick := 0,
      correction := 0, calNs := 0, rxTick := 0 }
    { teb := headOf9, epochTick := 0, east := 0, north := 0, heading := 0, yawRate := 0, speed := 0, posUnc := 0, hdgUnc := 0, spdUnc := 0,
      valid := false }
    { teb := headOf9, deltas := [] } linksUp rfl
  have hframes := (hforward 0x21 headOf9 []).1 (by decide) rfl
  rw [State.forward_sends (by decide) rfl] at hframes
  exact State.sendFrame_frames_ne rfl rfl hframes

end Sys2Proof.Machine

namespace Sys2Proof.Machine

variable {s t : State} {n : Nat}

/-! ### What the recorder leaves of the MRAM (R349-R351) -/

/-- A record changes of the MRAM the record store and the count of what it lost. -/
def Nv.Recorded (m n : Nv) : Prop :=
  n = { m with records := n.records, nextIndex := n.nextIndex, torn := n.torn, lifeLost := n.lifeLost }

theorem Nv.Recorded.refl (m : Nv) : m.Recorded m := rfl

theorem Nv.Recorded.trans {a b c : Nv} (h : a.Recorded b) (g : b.Recorded c) : a.Recorded c := by
  unfold Nv.Recorded at *
  rw [g, h]

theorem Nv.Recorded.of_eq {a b : Nv} (h : b = a) : a.Recorded b := h ▸ .refl a

theorem State.recordReport_nv (r : Rec) (fold : Bool) (tick : Nat) : (s.recordReport r fold tick).nv = s.nv := State.report_nv ..

theorem State.enterStaging_recorded (r : Rec) : s.nv.Recorded (s.enterStaging r).nv := by
  unfold State.enterStaging
  dsimp only
  split
  · rfl
  · unfold State.loseEvent
    rw [State.raise_nv]
    rfl

theorem State.stage_recorded (r : Rec) : s.nv.Recorded (s.stage r).nv := by
  unfold State.stage
  split
  · split
    · rfl
    · exact State.enterStaging_recorded r
  · split
    · exact State.enterStaging_recorded (s := s.onEvr _) _
    · exact State.enterStaging_recorded r

theorem State.tryFold_recorded {code source : Nat} (h : s.tryFold code source = some t) : s.nv.Recorded t.nv := by
  unfold State.tryFold at h
  extract_lets tick op at h
  split at h
  · cases h
  · split at h
    · cases h
      split
      · exact .of_eq (State.recordReport_nv ..)
      · rfl
    · split at h
      · cases h
        dsimp only
        split
        · rw [State.recordReport_nv]
          rfl
        · rfl
      · split at h
        · split at h
          · cases h
            rfl
          · cases h
        · cases h

theorem State.record_recorded (code source : Nat) (fixed : List (Nat × Word)) : s.nv.Recorded (s.record code source fixed).nv := by
  unfold State.record
  split
  · split
    · next h => exact State.tryFold_recorded h
    · exact State.stage_recorded _
  · exact .refl _

/-! ### What a record leaves of the channels -/

theorem State.Records.lsb (h : s.Records t) : t.lsb = s.lsb := by
  unfold State.Records at h
  rw [h]

theorem State.Records.chan (h : s.Records t) (k : Nat) : t.chan k = s.chan k := by
  unfold State.chan
  rw [h.lsb]

/-- A source raised and a record taken. -/
theorem State.raise_record_records (src code source : Nat) (fixed : List (Nat × Word)) :
    s.Records ((s.raise src).record code source fixed) :=
  (State.raise_reports src).records.trans (State.record_records ..)

theorem State.raise_record_recorded (src code source : Nat) (fixed : List (Nat × Word)) :
    s.nv.Recorded ((s.raise src).record code source fixed).nv :=
  .trans (.of_eq (State.raise_nv ..)) (State.record_recorded ..)

/-! ### What a trip may change (R247-R249) -/

/-- A change of channel `n` with what it raises, records and reports, and what its endpoint or its context learns of it. -/
structure State.TripWork (n : Nat) (s t : State) : Prop where
  frame : t = { s with lsb := { s.lsb with chans := t.lsb.chans }, gle := t.gle, rge := t.rge, evr := t.evr, nv := t.nv, icu := t.icu,
                       hre := t.hre, out := t.out }
  recorded : s.nv.Recorded t.nv
  others : ∀ k, k ≠ n → t.chan k = s.chan k

theorem State.TripWork.trans {a b c : State} (h : a.TripWork n b) (g : b.TripWork n c) : a.TripWork n c := by
  refine ⟨?_, h.recorded.trans g.recorded, fun k hk => (g.others k hk).trans (h.others k hk)⟩
  have hc := g.frame
  rw [h.frame] at hc
  exact hc

theorem State.SwitchWork.tripWork (h : s.SwitchWork n t) : s.TripWork n t := by
  have hf := h.frame
  unfold State.SwitchFrame at hf
  exact ⟨by rw [hf], .of_eq (by rw [hf]), h.others⟩

theorem State.Records.tripWork (h : s.Records t) (hn : s.nv.Recorded t.nv) : s.TripWork n t := by
  refine ⟨?_, hn, fun k _ => h.chan k⟩
  unfold State.Records at h
  rw [h]

theorem State.TripWork.tbu (h : s.TripWork n t) : t.tbu = s.tbu := by rw [h.frame]

theorem State.TripWork.cycle (h : s.TripWork n t) : t.cycle = s.cycle := by
  unfold State.cycle State.now
  rw [h.tbu]

theorem State.TripWork.chNv (h : s.TripWork n t) (k : Nat) : t.chNv k = s.chNv k := by
  unfold State.chNv
  rw [h.recorded]

theorem State.TripWork.thetaRoom (h : s.TripWork n t) (k : Nat) : t.thetaRoom k = s.thetaRoom k := by
  have hl : t.lsb = { s.lsb with chans := t.lsb.chans } := by rw [h.frame]
  have ha : t.nv.ambHost = s.nv.ambHost := by rw [h.recorded]
  unfold State.thetaRoom State.ambient
  rw [h.chNv, ha, hl]

/-! ### A channel that trips (R247, R249, R255) -/

/-- A channel with a trip counted and marked. -/
def Channel.tripped (bit cyc tick : Nat) (c : Channel) : Channel :=
  { c with faults := setFlag c.faults cyc bit, trips := count32 c.trips, prot := .tripped, tripTick := some tick }

/-- A channel whose output has gone off. -/
def Channel.off (tick : Nat) (c : Channel) : Channel :=
  { c with out := false, offTick := tick, pullin := false, hold := false, sat := false, openOn := false, coil := none }

/-- A channel latched out. -/
def Channel.latchedOut (cyc : Nat) (c : Channel) : Channel := { c with prot := .latched, faults := setFlag c.faults cyc 7 }

/-- The retry rule lets a tripped channel cool: MODE is CURVE and it has retries left (R249). -/
def State.mayCool (s : State) (n : Nat) : Bool := (s.chNv n).curveMode && decide ((s.chan n).retriesUsed < (s.chNv n).retries)

theorem State.turnOff_eq (n : Nat) : s.turnOff n = s.onChan n (Channel.off s.now) := rfl

theorem State.raise_pathWork (k : Nat) : s.PathWork (s.raise k) := by
  unfold State.PathWork
  rw [State.raise_frame]

theorem State.latchOut_eq (n : Nat) : s.latchOut n = (s.onChan n (Channel.latchedOut s.cycle)).raise 328 := rfl

theorem State.latchOut_switchWork (n : Nat) : s.SwitchWork n (s.latchOut n) :=
  (State.onChan_chanWork ..).switchWork.trans ((State.raise_pathWork 328).switchWork n)

theorem State.latchOut_chan (n : Nat) : (s.latchOut n).chan n = (s.chan n).latchedOut s.cycle := by
  rw [State.latchOut_eq, (State.raise_pathWork 328).chan, State.onChan_chan]

theorem State.chanLost_pathWork (n : Nat) : s.PathWork (s.chanLost n) := by
  unfold State.chanLost
  split
  · exact (State.pathLost_losesPaths _ s).work
  · exact State.noteChan_pathWork n

/-- A channel tripped and off, and its trip recorded. -/
def State.cutOut (n bit : Nat) (s : State) : State :=
  (((s.onChan n (Channel.tripped bit s.cycle s.now)).turnOff n).raise (288 + n)).record 0x0701 n [(0, BitVec.ofNat 32 bit)]

theorem State.cutOut_tripWork (n bit : Nat) : s.TripWork n (s.cutOut n bit) :=
  .trans ((State.onChan_chanWork ..).trans (State.onChan_chanWork ..)).switchWork.tripWork <|
    (State.raise_record_records ..).tripWork (State.raise_record_recorded ..)

theorem State.cutOut_chan (n bit : Nat) : (s.cutOut n bit).chan n = ((s.chan n).tripped bit s.cycle s.now).off s.now := by
  unfold State.cutOut
  rw [(State.raise_record_records ..).chan, State.turnOff_eq, State.onChan_chan, State.onChan_chan]
  rfl

theorem State.trip_eq (n bit : Nat) :
    s.trip n bit = ((if s.mayCool n then s.cutOut n bit else (s.cutOut n bit).latchOut n).chanLost n) := rfl

theorem State.trip_tripWork (n bit : Nat) : s.TripWork n (s.trip n bit) := by
  have hc := State.cutOut_tripWork (s := s) n bit
  rw [State.trip_eq]
  refine .trans ?_ ((State.chanLost_pathWork n).switchWork n).tripWork
  split
  · exact hc
  · exact hc.trans (State.latchOut_switchWork n).tripWork

/-- What a trip makes of its channel. -/
theorem State.trip_chan (n bit : Nat) : (s.trip n bit).chan n =
    if s.mayCool n then ((s.chan n).tripped bit s.cycle s.now).off s.now
    else (((s.chan n).tripped bit s.cycle s.now).off s.now).latchedOut s.cycle := by
  rw [State.trip_eq, (State.chanLost_pathWork n).chan]
  split
  · exact State.cutOut_chan n bit
  · rw [State.latchOut_chan, (State.cutOut_tripWork n bit).cycle, State.cutOut_chan]

/-- A trip is what R247 and R249 say. -/
theorem State.trip_trips {bit : Nat} (n : Nat) (s : State) (hb : bit < 32) : State.Tripped n bit s (s.trip n bit) := by
  have hw := State.trip_tripWork (s := s) n bit
  have hbit : ((setFlag (s.chan n).faults s.cycle bit).w).getLsbD bit = true := setBit_getLsbD _ hb
  have hcool : s.mayCool n = true ↔ (s.chNv n).curveMode = true ∧ (s.chan n).retriesUsed < (s.chNv n).retries := by
    unfold State.mayCool
    rw [Bool.and_eq_true, decide_eq_true_eq]
  unfold State.Tripped
  rw [State.trip_chan]
  by_cases hm : s.mayCool n = true
  · rw [if_pos hm, if_pos (hcool.mp hm)]
    exact ⟨rfl, rfl, rfl, hbit, rfl, rfl, rfl, rfl, rfl, hw.others, hw.frame⟩
  · rw [if_neg hm, if_neg (mt hcool.mpr hm)]
    exact ⟨rfl, rfl, rfl, setFlag_keeps _ _ hbit, rfl, rfl, rfl, rfl, rfl, hw.others, hw.frame⟩

/-- A trip counts from before a change of the channel that leaves its command, its count and its retries. -/
theorem State.Tripped.after {u x : State} {bit : Nat} (h : State.Tripped n bit x t) (hx : u.ChanWork n x)
    (htrips : (x.chan n).trips = (u.chan n).trips) (hcmd : (x.chan n).cmd = (u.chan n).cmd)
    (hhold : (x.chan n).holding = (u.chan n).holding) (hused : (x.chan n).retriesUsed = (u.chan n).retriesUsed) :
    State.Tripped n bit u t := by
  have hnv : x.chNv n = u.chNv n := by rw [hx.frame]; rfl
  obtain ⟨hout, hoff, htick, hbit, ht, hc, hh, hu, hprot, hothers, hframe⟩ := h
  rw [hx.now] at hoff htick
  rw [hnv, hused] at hprot
  refine ⟨hout, hoff, htick, hbit, ht.trans (by rw [htrips]), hc.trans hcmd, hh.trans hhold, hu.trans hused, hprot,
    fun k hk => (hothers k hk).trans (hx.others k hk), ?_⟩
  rw [hx.frame] at hframe
  exact hframe

end Sys2Proof.Machine

namespace Sys2Proof.Machine

variable {s t u x : State} {dt n b ma held : Nat}

/-! ### Samples and the heat of a trip (R246, R248, R251) -/

theorem State.ChanWork.tripWork (h : s.ChanWork n t) : s.TripWork n t := h.switchWork.tripWork

theorem State.sample_chanWork (n ma : Nat) : s.ChanWork n (s.sample n ma) := State.onChan_chanWork ..

/-- A sample changes the sense code and SAT of its channel. -/
theorem State.sample_chan (n ma : Nat) : (s.sample n ma).chan n =
    { s.chan n with sense := s.senseCode n ma, sat := (s.chan n).isShort s.now ma } := State.onChan_chan ..

theorem State.heat_chanWork (n : Nat) : s.ChanWork n (s.heat n) := by
  unfold State.heat
  split
  · exact State.onChan_chanWork ..
  · exact .refl s n

/-- The rise of the wire model after a trip that heats it. -/
def State.heated (s : State) (n : Nat) : Nat :=
  if (s.chNv n).curveMode then max (s.chan n).theta (s.thetaRoom n).toNat else (s.chan n).theta

theorem State.heat_chan (n : Nat) : (s.heat n).chan n = { s.chan n with theta := s.heated n } := by
  unfold State.heat State.heated
  split
  · rw [State.onChan_chan]
  · rfl

theorem State.TripWork.heated (h : s.TripWork n t) (hc : (t.chan n).theta = (s.chan n).theta) : t.heated n = s.heated n := by
  unfold State.heated
  rw [h.chNv, h.thetaRoom, hc]

theorem State.trip_theta (n bit : Nat) : ((s.trip n bit).chan n).theta = (s.chan n).theta := by
  rw [State.trip_chan]
  split <;> rfl

/-- The heat of a trip changes nothing else of it. -/
theorem State.Tripped.heat {bit : Nat} (h : State.Tripped n bit u t) : State.Tripped n bit u (t.heat n) := by
  have hw := State.heat_chanWork (s := t) n
  have hf := hw.tripWork.frame
  have hv := State.heat_chan (s := t) n
  generalize t.heat n = v at hw hf hv ⊢
  obtain ⟨hout, hoff, htick, hbit, ht, hc, hh, hu, hprot, hothers, hframe⟩ := h
  rw [hframe] at hf
  unfold State.Tripped
  rw [hv]
  exact ⟨hout, hoff, htick, hbit, ht, hc, hh, hu, hprot, fun k hk => (hw.others k hk).trans (hothers k hk), hf⟩

theorem State.sampled_trips {bit : Nat} (n ma : Nat) (s : State) (hb : bit < 32) :
    State.Tripped n bit s ((s.sample n ma).trip n bit) := by
  have hc := State.sample_chan (s := s) n ma
  exact (State.trip_trips n _ hb).after (State.sample_chanWork n ma) (by rw [hc]) (by rw [hc]) (by rw [hc]) (by rw [hc])

/-- A trip on a sample, with its heat (R248). -/
theorem State.sampled_trips_heated {bit : Nat} (n ma : Nat) (s : State) (hb : bit < 32) :
    State.Tripped n bit s (((s.sample n ma).trip n bit).heat n) ∧
      ((((s.sample n ma).trip n bit).heat n).chan n).theta = s.heated n := by
  refine ⟨(State.sampled_trips n ma s hb).heat, ?_⟩
  have hw := (State.sample_chanWork (s := s) n ma).tripWork.trans (State.trip_tripWork n bit)
  rw [State.heat_chan]
  exact hw.heated (by rw [State.trip_theta, State.sample_chan])

/-! ### The trips of one channel (R247, R255) -/

theorem State.tripAny_free {bit : Nat} (h : (s.chan n).keepTick = none) : s.tripAny n bit = s.trip n bit :=
  if_neg (by rw [h]; exact Bool.noConfusion)

theorem State.pastInrush_of {ticks : Nat} (hi : (s.chan n).inrush = false)
    (ht : (s.chan n).inrushTick + (s.chNv n).inrushMs * 200000 + ticks ≤ s.now) : s.pastInrush n ticks = true :=
  and_decide (by rw [hi]; rfl) ht

theorem State.pastInrush_inrush {ticks : Nat} (hi : (s.chan n).inrush = true) : s.pastInrush n ticks = false := by
  unfold State.pastInrush
  simp only [hi, Bool.not_true, Bool.false_and]

theorem exec_hardShortTrip (hc : (s.elapse dt).canTrip n = true) (hk : ((s.elapse dt).chan n).keepTick = none)
    (hm : (s.elapse dt).hardShort n < ma) :
    exec (.hardShortTrip dt n ma) s = .next ((((s.elapse dt).sample n ma).trip n 0).heat n) := by
  have hk' : (((s.elapse dt).sample n ma).chan n).keepTick = none := by rw [State.sample_chan]; exact hk
  rw [← State.tripAny_free hk']
  exact next_when (and_decide hc hm)

theorem exec_limitTrip (hc : (s.elapse dt).canTrip n = true) (hk : ((s.elapse dt).chan n).keepTick = none)
    (hp : (s.elapse dt).pastInrush n 40000 = true) (hm : (s.elapse dt).inrushLimit n ≤ ma) (hh : 200 ≤ held) :
    exec (.limitTrip dt n ⟨ma, held⟩) s = .next ((((s.elapse dt).sample n ma).trip n 1).heat n) := by
  refine next_when (and_decide (and_decide ?_ hm) hh)
  rw [hc, hk, show 200 * usTicks = 40000 from rfl, hp]
  rfl

theorem exec_latchTrip (hc : (s.elapse dt).canTrip n = true) (hk : ((s.elapse dt).chan n).keepTick = none)
    (hv : ((s.elapse dt).chNv n).curveMode = false)
    (hp : (s.elapse dt).pastInrush n (((s.elapse dt).chNv n).blankMs * 200000) = true)
    (hm : (s.elapse dt).latchMa n ≤ ma) (hh : 1000 * ((s.elapse dt).chNv n).blankMs ≤ held) :
    exec (.latchTrip dt n ⟨ma, held⟩) s = .next (((s.elapse dt).sample n ma).trip n 2) := by
  refine next_when (and_decide (and_decide ?_ hm) hh)
  rw [hc, hk, hv, show msTicks = 200000 from rfl, hp]
  rfl

/-- In the inrush window neither LIMIT nor LATCH_TRIP acts. -/
theorem exec_trips_inrush (hi : ((s.elapse dt).chan n).inrush = true) :
    exec (.limitTrip dt n ⟨ma, held⟩) s = .next (s.elapse dt) ∧ exec (.latchTrip dt n ⟨ma, held⟩) s = .next (s.elapse dt) := by
  have hp (ticks : Nat) : (s.elapse dt).pastInrush n ticks = false := State.pastInrush_inrush hi
  exact ⟨congrArg Host.Outcome.next (State.when_neg (by simp only [hp, Bool.and_false, Bool.false_and])),
    congrArg Host.Outcome.next (State.when_neg (by simp only [hp, Bool.and_false, Bool.false_and]))⟩

/-- HARD_SHORT, LIMIT and LATCH_TRIP of a channel outside the keeper's hold. -/
theorem currentTrips_trip (dt n ma held : Nat) (s : State) :
    let u := s.elapse dt
    let past (ticks : Nat) : Prop :=
      (u.chan n).inrush = false ∧ (u.chan n).inrushTick + (u.chNv n).inrushMs * 200000 + ticks ≤ u.now
    u.canTrip n = true → (u.chan n).keepTick = none →
    (u.hardShort n < ma →
      ∃ t : State, exec (.hardShortTrip dt n ma) s = .next t ∧ State.Tripped n 0 u t ∧
        (t.chan n).theta = if (u.chNv n).curveMode then max (u.chan n).theta (u.thetaRoom n).toNat else (u.chan n).theta) ∧
    (past 40000 → u.inrushLimit n ≤ ma → 200 ≤ held →
      ∃ t : State, exec (.limitTrip dt n ⟨ma, held⟩) s = .next t ∧ State.Tripped n 1 u t ∧
        (t.chan n).theta = if (u.chNv n).curveMode then max (u.chan n).theta (u.thetaRoom n).toNat else (u.chan n).theta) ∧
    ((u.chNv n).curveMode = false → past ((u.chNv n).blankMs * 200000) → u.latchMa n ≤ ma → 1000 * (u.chNv n).blankMs ≤ held →
      ∃ t : State, exec (.latchTrip dt n ⟨ma, held⟩) s = .next t ∧ State.Tripped n 2 u t ∧ (t.chan n).prot = .latched) ∧
    ((u.chan n).inrush = true → exec (.limitTrip dt n ⟨ma, held⟩) s = .next u ∧ exec (.latchTrip dt n ⟨ma, held⟩) s = .next u) := by
  intro u past hc hk
  refine ⟨fun hm => ?_, fun hp hm hh => ?_, fun hv hp hm hh => ?_, exec_trips_inrush⟩
  · exact ⟨_, exec_hardShortTrip hc hk hm, State.sampled_trips_heated n ma u (by decide)⟩
  · exact ⟨_, exec_limitTrip hc hk (State.pastInrush_of hp.1 hp.2) hm hh, State.sampled_trips_heated n ma u (by decide)⟩
  · have ht : State.Tripped n 2 u ((u.sample n ma).trip n 2) := State.sampled_trips n ma u (by decide)
    refine ⟨_, exec_latchTrip hc hk hv (State.pastInrush_of hp.1 hp.2) hm hh, ht, ?_⟩
    obtain ⟨-, -, -, -, -, -, -, -, hprot, -⟩ := ht
    rw [hprot, if_neg (by rw [hv]; simp)]

/-- A channel whose temperature an OVERTEMP trip has read. -/
def Channel.overheated (c : Int) (ch : Channel) : Channel := { ch with tempC := c, hot := true }

theorem exec_overtempTrip {c : Int} (he : (s.elapse dt).chanExists n = true) (hp : ((s.elapse dt).chan n).prot = .armed)
    (hk : ((s.elapse dt).chan n).keepTick = none) (hc : 175 ≤ c) :
    exec (.overtempTrip dt n c) s = .next (((s.elapse dt).onChan n (Channel.overheated c)).trip n 4) := by
  have hk' : (((s.elapse dt).onChan n (Channel.overheated c)).chan n).keepTick = none := by rw [State.onChan_chan]; exact hk
  rw [← State.tripAny_free hk']
  exact next_when (and_decide (by rw [he, hp]; rfl) hc)

theorem overtempTrip_trips (dt n : Nat) (c : Int) (s : State) :
    let u := s.elapse dt
    u.chanExists n = true → (u.chan n).prot = .armed → (u.chan n).keepTick = none → 175 ≤ c →
    ∃ t : State, exec (.overtempTrip dt n c) s = .next t ∧ State.Tripped n 4 u t ∧ (t.chan n).tempC = c ∧ (t.chan n).hot = true := by
  intro u he hp hk hc
  have hx : (u.onChan n (Channel.overheated c)).chan n = (u.chan n).overheated c := State.onChan_chan ..
  refine ⟨_, exec_overtempTrip he hp hk hc, (State.trip_trips n _ (by decide)).after (State.onChan_chanWork ..)
    (by rw [hx]; rfl) (by rw [hx]; rfl) (by rw [hx]; rfl) (by rw [hx]; rfl), ?_⟩
  rw [State.trip_chan, hx]
  split
  · exact ⟨rfl, rfl⟩
  · exact ⟨rfl, rfl⟩

/-! ### A trip in the keeper's hold (R255) -/

/-- A channel with a trip in the keeper's hold counted and marked. -/
def Channel.keeperTripped (bit cyc tick : Nat) (c : Channel) : Channel :=
  { c with faults := setFlag (setFlag c.faults cyc bit) cyc 6, trips := count32 c.trips, prot := .latched, keepTripped := true,
           tripTick := some tick }

/-- A channel tripped and off in the keeper's hold, and its trip recorded. -/
def State.keeperCut (n bit : Nat) (s : State) : State :=
  (((s.onChan n (Channel.keeperTripped bit s.cycle s.now)).turnOff n).raise (288 + n)).record 0x0701 n [(0, w32 bit)]

theorem State.keeperCut_tripWork (n bit : Nat) : s.TripWork n (s.keeperCut n bit) :=
  .trans ((State.onChan_chanWork ..).trans (State.onChan_chanWork ..)).tripWork <|
    (State.raise_record_records ..).tripWork (State.raise_record_recorded ..)

theorem State.keeperCut_chan (n bit : Nat) :
    (s.keeperCut n bit).chan n = ((s.chan n).keeperTripped bit s.cycle s.now).off s.now := by
  unfold State.keeperCut
  rw [(State.raise_record_records ..).chan, State.turnOff_eq, State.onChan_chan, State.onChan_chan]
  rfl

theorem State.keeperTripped_eq (n bit : Nat) : s.keeperTripped n bit = ((s.keeperCut n bit).latchOut n).lsbFault 5 325 := rfl

theorem State.lsbFault_chan (bit src k : Nat) : (s.lsbFault bit src).chan k = s.chan k := by
  rw [State.lsbFault_eq]
  rfl

theorem State.lsbFault_bit {bit : Nat} (src : Nat) (hb : bit < 32) : (s.lsbFault bit src).lsb.fault.w.getLsbD bit = true := by
  rw [State.lsbFault_eq]
  exact setBit_getLsbD _ hb

/-- What a trip in the keeper's hold makes of its channel. -/
theorem State.keeperTripped_chan (n bit : Nat) : (s.keeperTripped n bit).chan n =
    (((s.chan n).keeperTripped bit s.cycle s.now).off s.now).latchedOut s.cycle := by
  rw [State.keeperTripped_eq, State.lsbFault_chan, State.latchOut_chan, (State.keeperCut_tripWork n bit).cycle, State.keeperCut_chan]

theorem State.keeperTripped_others {k : Nat} (bit : Nat) (h : k ≠ n) : (s.keeperTripped n bit).chan k = s.chan k := by
  rw [State.keeperTripped_eq, State.lsbFault_chan]
  exact ((State.keeperCut_tripWork n bit).trans (State.latchOut_switchWork n).tripWork).others k h

theorem exec_keeperTrip {k : Nat} (hc : (s.elapse dt).canTrip n = true) (hk : ((s.elapse dt).chan n).keepTick = some k)
    (hm : 3 * (s.elapse dt).continuousMa n ≤ 2 * ma) (hh : 10000 ≤ held) :
    exec (.keeperTrip dt ⟨n, ma, held⟩) s = .next (((s.elapse dt).sample n ma).keeperTripped n 6) :=
  next_when (and_decide (and_decide (by rw [hk, hc]; rfl) hm) hh)

theorem keeperTrip_trips (dt n k ma held : Nat) (s : State) :
    let u := s.elapse dt
    u.canTrip n = true → (u.chan n).keepTick = some k → 3 * u.continuousMa n ≤ 2 * ma → 10000 ≤ held →
    ∃ t : State, exec (.keeperTrip dt ⟨n, ma, held⟩) s = .next t ∧ (t.chan n).out = false ∧ (t.chan n).prot = .latched ∧
      (t.chan n).keepTripped = true ∧ (t.chan n).trips = count32 (u.chan n).trips ∧ (t.chan n).faults.w.getLsbD 6 = true ∧
      t.lsb.fault.w.getLsbD 5 = true ∧ (∀ j, j ≠ n → t.chan j = u.chan j) := by
  intro u hc hk hm hh
  refine ⟨_, exec_keeperTrip hc hk hm hh, ?_⟩
  rw [State.keeperTripped_chan, State.sample_chan]
  exact ⟨rfl, rfl, rfl, rfl, setFlag_keeps _ _ (setBit_getLsbD _ (by decide)), State.lsbFault_bit _ (by decide),
    fun j hj => (State.keeperTripped_others 6 hj).trans ((State.sample_chanWork n ma).others j hj)⟩

end Sys2Proof.Machine

namespace Sys2Proof.Machine

variable {s t x : State} {dt n b held : Nat}

/-! ### Operations on some channels, each once -/

section
variable {f : State → Nat → State} (hf : ∀ s n k, k ≠ n → (f s n).chan k = s.chan k)
include hf

/-- Operations on other channels leave a channel as it is. -/
theorem foldl_chan_other {l : List Nat} {k : Nat} (h : k ∉ l) (s : State) : (l.foldl f s).chan k = s.chan k := by
  induction l generalizing s with
  | nil => rfl
  | cons j l ih =>
    rw [List.mem_cons, not_or] at h
    exact (ih h.2 _).trans (hf s j k h.1)

/-- A channel named once is operated on as it stood before. -/
theorem foldl_chan_once {l : List Nat} {k : Nat} (hn : l.Nodup) (h : k ∈ l) (s : State) :
    ∃ a, (List.foldl f s a).chan k = s.chan k ∧ (l.foldl f s).chan k = (f (List.foldl f s a) k).chan k := by
  obtain ⟨a, b, rfl⟩ := List.append_of_mem h
  rw [List.nodup_middle, List.nodup_cons, List.mem_append, not_or] at hn
  obtain ⟨⟨ha, hb⟩, -⟩ := hn
  refine ⟨a, foldl_chan_other hf ha s, ?_⟩
  rw [List.foldl_append]
  exact foldl_chan_other hf hb _

end

theorem State.bankChans_nodup (b : Nat) (s : State) : (s.bankChans b).Nodup := List.nodup_range.filter _

theorem State.mem_bankChans : n ∈ s.bankChans b ↔ n < Config.loadChannels s.part ∧ s.bankOf n = b := by
  unfold State.bankChans
  rw [List.mem_filter, List.mem_range, beq_iff_eq]

/-! ### The samples of a bank (R250, R251) -/

/-- New samples of some channels. -/
structure State.Sampled (s t : State) : Prop where
  frame : t = { s with lsb := { s.lsb with chans := t.lsb.chans } }
  chans : ∀ k, t.chan k = { s.chan k with sense := (t.chan k).sense, sat := (t.chan k).sat }

theorem State.Sampled.refl (s : State) : s.Sampled s := ⟨rfl, fun _ => rfl⟩

theorem State.Sampled.trans {a b c : State} (h : a.Sampled b) (g : b.Sampled c) : a.Sampled c := by
  refine ⟨?_, fun k => ?_⟩
  · have hc := g.frame
    rw [h.frame] at hc
    exact hc
  · have hc := g.chans k
    rw [h.chans k] at hc
    exact hc

theorem State.sample_sampled (n ma : Nat) (s : State) : s.Sampled (s.sample n ma) := by
  refine ⟨(State.sample_chanWork n ma).frame, fun k => ?_⟩
  by_cases hk : k = n
  · subst hk
    rw [State.sample_chan]
  · rw [(State.sample_chanWork n ma).others k hk]

section
variable (h : s.Sampled t)
include h

theorem State.Sampled.canTrip (n : Nat) : t.canTrip n = s.canTrip n := by
  have hs : t.supplied (t.bankOf n) = s.supplied (s.bankOf n) := by rw [h.frame]; rfl
  have he : t.chanExists n = s.chanExists n := by rw [h.frame]; rfl
  unfold State.canTrip
  rw [hs, he, h.chans n]

theorem State.Sampled.overLimit (n ma : Nat) : t.overLimit n ma = s.overLimit n ma := by
  have hnv : t.chNv n = s.chNv n := by rw [h.frame]; rfl
  have hh : t.classH n = s.classH n := by rw [h.frame]; rfl
  have hl : t.latchMa n = s.latchMa n := by rw [h.frame]; rfl
  have hr : t.thetaRoom n = s.thetaRoom n := by rw [h.frame]; rfl
  unfold State.overLimit
  rw [hnv, hh, hl, hr, h.chans n]

theorem State.Sampled.bankChans (b : Nat) : t.bankChans b = s.bankChans b := by
  rw [h.frame]
  rfl

theorem State.Sampled.fault : t.lsb.fault = s.lsb.fault := by rw [h.frame]

end

/-! ### The bank supervisor (R250) -/

/-- The channels whose currents stand in `ma`, sampled. -/
def State.sampleAll (ma : List (Nat × Nat)) (s : State) : State :=
  ma.foldl (fun s m => if s.chanExists m.1 then s.sample m.1 m.2 else s) s

theorem State.sampleAll_sampled (ma : List (Nat × Nat)) (s : State) : s.Sampled (s.sampleAll ma) :=
  foldl_related s .refl .trans
    (fun s m => iteInduction (motive := s.Sampled) (fun _ => s.sample_sampled m.1 m.2) fun _ => .refl s) ma

/-- A channel that a bank overload cuts: over its own limit. -/
def State.isBeyond (s : State) (b : Nat) (ma : List (Nat × Nat)) (n : Nat) : Prop :=
  n ∈ s.bankChans b ∧ s.canTrip n = true ∧ (s.chan n).keepTick = none ∧ s.overLimit n (Tbl.get 0 ma n) = true

/-- The channels that a bank overload cuts. -/
def State.beyond (s : State) (b : Nat) (ma : List (Nat × Nat)) : List Nat :=
  (s.bankChans b).filter fun n => s.canTrip n && (s.chan n).keepTick.isNone && s.overLimit n (Tbl.get 0 ma n)

theorem State.mem_beyond {ma : List (Nat × Nat)} : n ∈ s.beyond b ma ↔ s.isBeyond b ma n := by
  unfold State.beyond State.isBeyond
  rw [List.mem_filter, Bool.and_eq_true, Bool.and_eq_true, Option.isNone_iff_eq_none, and_assoc]

theorem State.beyond_nodup (b : Nat) (ma : List (Nat × Nat)) (s : State) : (s.beyond b ma).Nodup := (State.bankChans_nodup b s).filter _

theorem State.Sampled.mem_beyond (h : s.Sampled t) {ma : List (Nat × Nat)} : n ∈ t.beyond b ma ↔ s.isBeyond b ma n := by
  rw [State.mem_beyond]
  unfold State.isBeyond
  rw [h.bankChans, h.canTrip, h.overLimit, h.chans n]

theorem State.overload_none {ma : List (Nat × Nat)} (h : (s.sampleAll ma).beyond b ma = []) :
    s.overload b ma = (s.sampleAll ma).lsbFault 4 324 := by
  unfold State.beyond State.sampleAll at h
  unfold State.overload
  simp only [h]
  rfl

theorem State.overload_some {ma : List (Nat × Nat)} (h : (s.sampleAll ma).beyond b ma ≠ []) :
    s.overload b ma = ((s.sampleAll ma).beyond b ma).foldl (fun s n => s.trip n 5) (s.sampleAll ma) := by
  unfold State.beyond State.sampleAll at h
  unfold State.overload
  dsimp only
  split
  · next he => exact absurd he h
  · rfl

theorem State.bankRuns_of (hb : s.bankOn b = true) (hm : b = 0 ∨ b = 1 ∧ Config.loadChannels s.part = 32) : s.bankRuns b = true := by
  unfold State.bankRuns
  simpa [hb] using hm

theorem exec_bankOverload {ma : List (Nat × Nat)} {dieC : Int} (hb : (s.elapse dt).bankOn b = true)
    (hm : b = 0 ∨ b = 1 ∧ Config.loadChannels (s.elapse dt).part = 32)
    (ho : (if b = 0 then 100000 else 200000) < (((s.elapse dt).bankChans b).map fun n => Tbl.get 0 ma n).sum ∧ 1000 ≤ held ∨ 150 ≤ dieC) :
    exec (.bankOverload dt b ⟨ma, held, dieC⟩) s = .next ((s.elapse dt).overload b ma) := by
  have hover : (s.elapse dt).isOverload b ⟨ma, held, dieC⟩ = true := by
    unfold State.isOverload
    simpa using ho
  exact next_when (Bool.and_eq_true_iff.mpr ⟨State.bankRuns_of hb hm, hover⟩)

theorem State.trip_others (bit : Nat) (s : State) (n k : Nat) (h : k ≠ n) : (s.trip n bit).chan k = s.chan k :=
  (State.trip_tripWork n bit).others k h

theorem State.trips_fault (bit : Nat) (l : List Nat) (s : State) : (l.foldl (fun s n => s.trip n bit) s).lsb.fault = s.lsb.fault :=
  foldl_related (R := fun s t => t.lsb.fault = s.lsb.fault) s (fun _ => rfl) (fun h g => g.trans h)
    (fun s n => by rw [(State.trip_tripWork (s := s) n bit).frame]) l

theorem bankOverload_cuts (dt b held : Nat) (dieC : Int) (ma : List (Nat × Nat)) (s : State) :
    let u := s.elapse dt
    u.bankOn b = true → b = 0 ∨ b = 1 ∧ Config.loadChannels u.part = 32 →
    (if b = 0 then 100000 else 200000) < ((u.bankChans b).map fun n => Tbl.get 0 ma n).sum ∧ 1000 ≤ held ∨ 150 ≤ dieC →
    ∃ t : State, exec (.bankOverload dt b ⟨ma, held, dieC⟩) s = .next t ∧
      (∀ n, u.isBeyond b ma n → (t.chan n).out = false ∧ (t.chan n).prot ≠ .armed ∧ (t.chan n).faults.w.getLsbD 5 = true ∧
        (t.chan n).trips = count32 (u.chan n).trips) ∧
      (∀ n, ¬ u.isBeyond b ma n → t.chan n = { u.chan n with sense := (t.chan n).sense, sat := (t.chan n).sat }) ∧
      ((∀ n, ¬ u.isBeyond b ma n) → t.lsb.fault = setFlag u.lsb.fault u.cycle 4 ∧ t = { u with lsb := t.lsb, icu := (u.raise 324).icu }) ∧
      ((∃ n, u.isBeyond b ma n) → t.lsb.fault = u.lsb.fault) := by
  intro u hb hm ho
  refine ⟨_, exec_bankOverload hb hm ho, ?_⟩
  have hx := State.sampleAll_sampled ma u
  by_cases he : (u.sampleAll ma).beyond b ma = []
  · have hno (n : Nat) : ¬ u.isBeyond b ma n := by
      rw [← hx.mem_beyond, he]
      exact List.not_mem_nil
    rw [State.overload_none he]
    refine ⟨fun n h => absurd h (hno n), fun n _ => ?_, fun _ => ?_, fun ⟨n, h⟩ => absurd h (hno n)⟩
    · rw [State.lsbFault_chan]
      exact hx.chans n
    · rw [State.lsbFault_eq, hx.frame]
      exact ⟨rfl, by rw [← State.onLsb_raise_icu (s := u) fun l => { l with chans := (u.sampleAll ma).lsb.chans }]; rfl⟩
  · obtain ⟨m, hmem⟩ := List.exists_mem_of_ne_nil _ he
    rw [State.overload_some he]
    refine ⟨fun n h => ?_, fun n h => ?_, fun h => absurd (hx.mem_beyond.mp hmem) (h m), fun _ => ?_⟩
    · obtain ⟨a, hy, hc⟩ := foldl_chan_once (State.trip_others 5) (State.beyond_nodup b ma _) (hx.mem_beyond.mpr h) (u.sampleAll ma)
      obtain ⟨hout, -, -, hbit, htrips, -, -, -, hprot, -⟩ :=
        State.trip_trips (bit := 5) n (a.foldl (fun s n => s.trip n 5) (u.sampleAll ma)) (by decide)
      rw [hc]
      refine ⟨hout, ?_, hbit, ?_⟩
      · rw [hprot]
        split <;> exact Prot.noConfusion
      · rw [htrips, hy, hx.chans n]
    · rw [foldl_chan_other (State.trip_others 5) (mt hx.mem_beyond.mp h)]
      exact hx.chans n
    · rw [State.trips_fault]
      exact hx.fault

/-- Settles O40: the trips of one channel, a trip in the keeper's hold, and the bank supervisor. -/
theorem channelsTrip : Obligations.ChannelsTrip := by
  unfold Obligations.ChannelsTrip
  exact ⟨currentTrips_trip, overtempTrip_trips, keeperTrip_trips, bankOverload_cuts⟩

end Sys2Proof.Machine

namespace Sys2Proof.Machine

variable {s t u : State} {dt n : Nat} {ms : List Int} {c mc : Int}

/-! ### The readings of a millisecond (R248, R251) -/

/-- The module's temperature read. -/
def State.moduleRead (mc : Int) (s : State) : State := s.onLsb fun l => { l with moduleC := mc }

theorem State.moduleRead_chNv (mc : Int) (n : Nat) (s : State) : (s.moduleRead mc).chNv n = s.chNv n := rfl

/-- The sense code that a millisecond's samples leave. -/
def State.lastSense (s : State) (n : Nat) (ms : List Int) : Nat :=
  (ms.getLast?.map fun m => s.senseCode n m.toNat).getD (s.chan n).sense

/-- A channel with the readings of a millisecond. -/
def Channel.wireRead (sense : Nat) (sat : Bool) (tempC : Int) (c : Channel) : Channel :=
  { c with wireTick := c.wireTick + 200000, sense, sat, tempC, hot := c.hot && decide (150 < tempC) }

/-- A millisecond's readings, before what they bring about. -/
def State.wireRead (n : Nat) (ms : List Int) (c mc : Int) (s : State) : State :=
  (((s.moduleRead mc).onChan n fun ch => { ch with wireTick := ch.wireTick + msTicks }).sampled n ms).onChan n fun ch =>
    { ch with tempC := c, hot := ch.hot && decide (150 < c) }

theorem State.wireRead_chanWork (n : Nat) (ms : List Int) (c mc : Int) (s : State) :
    (s.moduleRead mc).ChanWork n (s.wireRead n ms c mc) :=
  (State.onChan_chanWork ..).trans <| (State.onChan_chanWork ..).trans (State.onChan_chanWork ..)

theorem State.wireRead_chan (n : Nat) (ms : List Int) (c mc : Int) (s : State) : (s.wireRead n ms c mc).chan n =
    (s.chan n).wireRead (s.lastSense n ms) ((s.chan n).isShort s.now (s.meanSensed n ms)) c := by
  unfold State.wireRead State.sampled
  rw [State.onChan_chan, State.onChan_chan, State.onChan_chan]
  rfl

/-- Where no OVERTEMP trip holds the channel out, its readings alone have changed. -/
theorem State.wireRead_cool (hh : (s.chan n).hot = false) : (s.wireRead n ms c mc).chan n =
    { s.chan n with tempC := c, sense := s.lastSense n ms, sat := (s.chan n).isShort s.now (s.meanSensed n ms),
                    wireTick := (s.chan n).wireTick + 200000 } := by
  have hstays : ((s.chan n).hot && decide (150 < c)) = (s.chan n).hot := by rw [hh, Bool.false_and]
  rw [State.wireRead_chan]
  unfold Channel.wireRead
  rw [hstays]

/-- The readings, and a channel back at 150 °C after an OVERTEMP trip in service again (R247). -/
def State.wireBack (n : Nat) (ms : List Int) (c mc : Int) (s : State) : State :=
  if (s.chan n).hot && decide (c ≤ 150) && ((s.wireRead n ms c mc).chan n).prot == .armed then (s.wireRead n ms c mc).chanBack n
  else s.wireRead n ms c mc

theorem State.wireBack_eq (n : Nat) (ms : List Int) (c mc : Int) (s : State) :
    (((s.moduleRead mc).onChan n fun ch => { ch with wireTick := ch.wireTick + msTicks }).sampled n ms).chanTemp n c =
      s.wireBack n ms c mc := by
  have hh : ((((s.moduleRead mc).onChan n fun ch => { ch with wireTick := ch.wireTick + msTicks }).sampled n ms).chan n).hot =
      (s.chan n).hot := by
    unfold State.sampled
    rw [State.onChan_chan, State.onChan_chan]
    rfl
  unfold State.chanTemp State.wireBack
  rw [hh]
  rfl

theorem State.wireBack_work (n : Nat) (ms : List Int) (c mc : Int) (s : State) :
    (s.moduleRead mc).SwitchWork n (s.wireBack n ms c mc) ∧
      ((s.wireRead n ms c mc).chan n).Driven ((s.wireBack n ms c mc).chan n) := by
  have hr := (State.wireRead_chanWork n ms c mc s).switchWork
  unfold State.wireBack
  split
  · exact ⟨hr.trans (State.chanBack_work n).1, (State.chanBack_work n).2⟩
  · exact ⟨hr, .refl _⟩

theorem State.wireBack_cool (h : (s.chan n).hot = false) : s.wireBack n ms c mc = s.wireRead n ms c mc :=
  if_neg (by rw [h]; exact Bool.noConfusion)

/-- A change of a channel that leaves what has been read of it. -/
structure Channel.SameReadings (a b : Channel) : Prop where
  tempC : b.tempC = a.tempC
  wireTick : b.wireTick = a.wireTick
  sense : b.sense = a.sense
  hot : b.hot = a.hot

theorem Channel.SameReadings.trans {a b c : Channel} (h : a.SameReadings b) (g : b.SameReadings c) : a.SameReadings c :=
  ⟨g.tempC.trans h.tempC, g.wireTick.trans h.wireTick, g.sense.trans h.sense, g.hot.trans h.hot⟩

theorem Channel.Driven.sameReadings {a b : Channel} (h : a.Driven b) : a.SameReadings b := by
  rw [h]
  exact ⟨rfl, rfl, rfl, rfl⟩

theorem Channel.Driven.theta {a b : Channel} (h : a.Driven b) : b.theta = a.theta := by rw [h]

theorem State.trip_sameReadings (n bit : Nat) : (s.chan n).SameReadings ((s.trip n bit).chan n) := by
  rw [State.trip_chan]
  split
  · exact ⟨rfl, rfl, rfl, rfl⟩
  · exact ⟨rfl, rfl, rfl, rfl⟩

/-! ### A step of the wire model (R247, R248, R255) -/

/-- A step of the wire model, without its trip. -/
def State.wireStep (n ma : Nat) (s : State) : State :=
  s.onChan n fun ch => { ch with theta := thetaNext (s.chNv n).wire ch.theta ma }

theorem State.wireStep_chan (n ma : Nat) (s : State) :
    (s.wireStep n ma).chan n = { s.chan n with theta := thetaNext (s.chNv n).wire (s.chan n).theta ma } := State.onChan_chan ..

theorem State.wireStep_chanWork (n ma : Nat) (s : State) : s.ChanWork n (s.wireStep n ma) := State.onChan_chanWork ..

/-- The rise of the wire model has come to its limit in CURVE mode (R247). -/
def State.curveTrips (s : State) (n : Nat) : Bool :=
  (s.chNv n).curveMode && s.canTrip n && decide (s.thetaRoom n ≤ ((s.chan n).theta : Int))

theorem State.wireUpdate_trips {ma : Nat} (h : (s.wireStep n ma).curveTrips n = true) :
    s.wireUpdate n ma = (s.wireStep n ma).trip n 3 := if_pos h

theorem State.wireUpdate_stands {ma : Nat} (h : (s.wireStep n ma).curveTrips n = false) : s.wireUpdate n ma = s.wireStep n ma :=
  if_neg (Bool.not_eq_true _ ▸ h)

theorem State.wireUpdate_work (n ma : Nat) (s : State) :
    s.TripWork n (s.wireUpdate n ma) ∧ (s.chan n).SameReadings ((s.wireUpdate n ma).chan n) ∧
      ((s.wireUpdate n ma).chan n).theta = thetaNext (s.chNv n).wire (s.chan n).theta ma := by
  have hs := (State.wireStep_chanWork n ma s).tripWork
  have hr : (s.chan n).SameReadings ((s.wireStep n ma).chan n) := by
    rw [State.wireStep_chan]
    exact ⟨rfl, rfl, rfl, rfl⟩
  cases h : (s.wireStep n ma).curveTrips n with
  | false =>
    rw [State.wireUpdate_stands h]
    exact ⟨hs, hr, by rw [State.wireStep_chan]⟩
  | true =>
    rw [State.wireUpdate_trips h]
    exact ⟨hs.trans (State.trip_tripWork n 3), hr.trans (State.trip_sameReadings n 3), by rw [State.trip_theta, State.wireStep_chan]⟩

/-- The rise that a millisecond leaves: the keeper's hold stops the wire model (R255). -/
def State.wireTheta (s : State) (n : Nat) (ms : List Int) : Nat :=
  if (s.chan n).keepTick = none then thetaNext (s.chNv n).wire (s.chan n).theta (s.meanSensed n ms) else (s.chan n).theta

theorem State.SwitchFrame.meanSensed (h : s.SwitchFrame t) (n : Nat) (ms : List Int) : t.meanSensed n ms = s.meanSensed n ms := by
  rw [h]
  rfl

theorem State.wireBack_meanSensed : (s.wireBack n ms c mc).meanSensed n ms = s.meanSensed n ms :=
  (State.wireBack_work n ms c mc s).1.frame.meanSensed n ms

theorem State.wireBack_keepTick : ((s.wireBack n ms c mc).chan n).keepTick = (s.chan n).keepTick := by
  rw [(State.wireBack_work n ms c mc s).2.keepTick, State.wireRead_chan]
  rfl

theorem State.wireMs_eq (n : Nat) (ms : List Int) (c mc : Int) (s : State) : s.wireMs n ms c mc =
    if ((s.wireBack n ms c mc).chan n).keepTick.isNone then
      (s.wireBack n ms c mc).wireUpdate n ((s.wireBack n ms c mc).meanSensed n ms)
    else s.wireBack n ms c mc := by
  rw [← State.wireBack_eq]
  rfl

theorem State.wireMs_free (hk : (s.chan n).keepTick = none) :
    s.wireMs n ms c mc = (s.wireBack n ms c mc).wireUpdate n (s.meanSensed n ms) := by
  rw [State.wireMs_eq, State.wireBack_keepTick, hk, State.wireBack_meanSensed]
  rfl

/-- In the keeper's hold the wire model stands still (R255). -/
theorem State.wireMs_held (hk : (s.chan n).keepTick ≠ none) : s.wireMs n ms c mc = s.wireBack n ms c mc := by
  rw [State.wireMs_eq, State.wireBack_keepTick, if_neg (mt Option.isNone_iff_eq_none.mp hk)]

/-- What a millisecond leaves of a channel, whether it trips or not. -/
theorem State.wireMs_work (n : Nat) (ms : List Int) (c mc : Int) (s : State) :
    (s.moduleRead mc).TripWork n (s.wireMs n ms c mc) ∧
      ((s.wireRead n ms c mc).chan n).SameReadings ((s.wireMs n ms c mc).chan n) ∧
      ((s.wireMs n ms c mc).chan n).theta = s.wireTheta n ms := by
  obtain ⟨hw, hd⟩ := State.wireBack_work n ms c mc s
  have htheta : ((s.wireBack n ms c mc).chan n).theta = (s.chan n).theta := by
    rw [hd.theta, State.wireRead_chan]
    rfl
  unfold State.wireTheta
  by_cases hk : (s.chan n).keepTick = none
  · obtain ⟨hu, hr, ht⟩ := State.wireUpdate_work n (s.meanSensed n ms) (s.wireBack n ms c mc)
    rw [State.wireMs_free hk, if_pos hk]
    refine ⟨hw.tripWork.trans hu, hd.sameReadings.trans hr, ?_⟩
    rw [ht, htheta, hw.tripWork.chNv, State.moduleRead_chNv]
  · rw [State.wireMs_held hk, if_neg hk]
    exact ⟨hw.tripWork, hd.sameReadings, htheta⟩

theorem State.ChanWork.canTrip (h : s.ChanWork n t) (hp : (t.chan n).prot = (s.chan n).prot) (ho : (t.chan n).out = (s.chan n).out) :
    t.canTrip n = s.canTrip n := by
  have hs : t.supplied (t.bankOf n) = s.supplied (s.bankOf n) := by rw [h.frame]; rfl
  have he : t.chanExists n = s.chanExists n := by rw [h.frame]; rfl
  unfold State.canTrip
  rw [hs, he, hp, ho]

/-- A millisecond of a channel outside the keeper's hold that no OVERTEMP trip holds out. -/
structure State.WireStood (n : Nat) (ms : List Int) (c mc : Int) (s t : State) : Prop where
  work : (s.moduleRead mc).ChanWork n t
  chan : t.chan n = { s.chan n with theta := thetaNext (s.chNv n).wire (s.chan n).theta (s.meanSensed n ms), tempC := c,
                                    sense := s.lastSense n ms, sat := (s.chan n).isShort s.now (s.meanSensed n ms),
                                    wireTick := (s.chan n).wireTick + 200000 }

theorem State.wireRead_step (hh : (s.chan n).hot = false) :
    s.WireStood n ms c mc ((s.wireRead n ms c mc).wireStep n (s.meanSensed n ms)) where
  work := (State.wireRead_chanWork n ms c mc s).trans (State.wireStep_chanWork ..)
  chan := by rw [State.wireStep_chan, (State.wireRead_chanWork n ms c mc s).tripWork.chNv, State.wireRead_cool hh, State.moduleRead_chNv]

section
variable (h : s.WireStood n ms c mc t)
include h

theorem State.WireStood.canTrip : t.canTrip n = s.canTrip n :=
  h.work.canTrip (by rw [h.chan]; rfl) (by rw [h.chan]; rfl)

/-- The wire model trips by its mode, what the channel is, and the rise of this millisecond. -/
theorem State.WireStood.curveTrips : t.curveTrips n = ((s.chNv n).curveMode && s.canTrip n &&
    decide ((s.moduleRead mc).thetaRoom n ≤ (thetaNext (s.chNv n).wire (s.chan n).theta (s.meanSensed n ms) : Int))) := by
  unfold State.curveTrips
  rw [h.work.tripWork.chNv, h.canTrip, h.work.tripWork.thetaRoom, h.chan, State.moduleRead_chNv]

theorem State.WireStood.trips : State.Tripped n 3 (s.moduleRead mc) (t.trip n 3) :=
  (State.trip_trips n t (by decide)).after h.work (by rw [h.chan]; rfl) (by rw [h.chan]; rfl) (by rw [h.chan]; rfl)
    (by rw [h.chan]; rfl)

end

/-! ### The commands of the wire model and the retries (R247-R249) -/

theorem exec_wireModelUpdate (he : (s.elapse dt).chanExists n = true) (hp : (s.elapse dt).powered 7 = true)
    (ht : ((s.elapse dt).chan n).wireTick + 200000 ≤ (s.elapse dt).now) :
    exec (.wireModelUpdate dt n ms ⟨c, mc⟩) s = .next ((s.elapse dt).wireMs n ms c mc) :=
  next_when (and_decide (Bool.and_eq_true_iff.mpr ⟨he, hp⟩) ht)

theorem wireModelUpdate_runs (dt n : Nat) (ms : List Int) (c mc : Int) (s : State) :
    let u := s.elapse dt
    let mean := u.meanSensed n ms
    let theta := thetaNext (u.chNv n).wire (u.chan n).theta mean
    let sense := (ms.getLast?.map fun m => u.senseCode n m.toNat).getD (u.chan n).sense
    let u' : State := { u with lsb := { u.lsb with moduleC := mc } }
    u.chanExists n = true → u.powered 7 = true → (u.chan n).wireTick + 200000 ≤ u.now →
    ∃ t : State, exec (.wireModelUpdate dt n ms ⟨c, mc⟩) s = .next t ∧ t.lsb.moduleC = mc ∧ (t.chan n).tempC = c ∧
      (t.chan n).wireTick = (u.chan n).wireTick + 200000 ∧ (t.chan n).sense = sense ∧
      (t.chan n).theta = (if (u.chan n).keepTick = none then theta else (u.chan n).theta) ∧
      (t.chan n).hot = ((u.chan n).hot && decide (150 < c)) ∧ (∀ j, j ≠ n → t.chan j = u.chan j) ∧
      ((u.chan n).hot = false → (u.chan n).keepTick = none → (u.chNv n).curveMode = true → u.canTrip n = true →
        u'.thetaRoom n ≤ theta → State.Tripped n 3 u' t) ∧
      ((u.chan n).hot = false →
        (u.chan n).keepTick ≠ none ∨ (u.chNv n).curveMode = false ∨ u.canTrip n = false ∨ (theta : Int) < u'.thetaRoom n →
        t.chan n = { u.chan n with theta := (t.chan n).theta, tempC := c, sense, sat := (u.chan n).isShort u.now mean,
                                   wireTick := (t.chan n).wireTick } ∧
          t = { u' with lsb := { u'.lsb with chans := t.lsb.chans } }) := by
  intro u mean theta sense u' he hp ht
  obtain ⟨hw, hr, htheta⟩ := State.wireMs_work n ms c mc u
  rw [State.wireRead_chan] at hr
  refine ⟨_, exec_wireModelUpdate he hp ht, by rw [hw.frame]; rfl, hr.tempC, hr.wireTick, hr.sense, htheta, hr.hot, hw.others,
    fun hh hk hv hc hroom => ?_, fun hh h => ?_⟩
  · have hs := State.wireRead_step (ms := ms) (c := c) (mc := mc) hh
    have htrip : ((u.wireRead n ms c mc).wireStep n mean).curveTrips n = true :=
      hs.curveTrips.trans (by rw [hv, hc]; exact decide_eq_true hroom)
    rw [State.wireMs_free hk, State.wireBack_cool hh, State.wireUpdate_trips htrip]
    exact hs.trips
  · by_cases hk : (u.chan n).keepTick = none
    · have hs := State.wireRead_step (ms := ms) (c := c) (mc := mc) hh
      have hstands : ((u.wireRead n ms c mc).wireStep n mean).curveTrips n = false := by
        rw [hs.curveTrips, Bool.and_eq_false_iff, Bool.and_eq_false_iff, decide_eq_false_iff_not, Int.not_le, or_assoc]
        exact h.resolve_left (not_not_intro hk)
      rw [State.wireMs_free hk, State.wireBack_cool hh, State.wireUpdate_stands hstands, hs.chan]
      exact ⟨rfl, hs.work.frame⟩
    · rw [State.wireMs_held hk, State.wireBack_cool hh, State.wireRead_cool hh]
      exact ⟨rfl, (State.wireRead_chanWork n ms c mc u).frame⟩

end Sys2Proof.Machine

namespace Sys2Proof.Machine

variable {s t : State} {dt n d p : Nat}

/-! ### A channel that comes on again (R240, R244) -/

theorem State.chanBack_chan (n : Nat) : (s.chanBack n).chan n = (s.follow n true).chan n := by
  have hn := State.noteChan_pathWork (s := s.follow n true) n
  unfold State.chanBack
  dsimp only
  split
  · exact (hn.trans (State.pathBack_pathWork _)).chan n
  · exact hn.chan n

/-- An output that the escapement does not drive and SAFE does not hold is asked to be where its command puts it. -/
theorem State.wantsOn_level (hh : (s.chan n).holding ≠ .escapement) (hs : (s.chan n).inSafe = false) :
    s.wantsOn n = (s.chan n).level s.now := by
  unfold State.wantsOn Channel.followsEsc
  simp [hh, hs]

/-- An output that comes on opens its inrush window. -/
theorem State.follow_opens (hr : Tbl.get false s.lsb.reversed (s.bankOf n) = false) (hl : s.chanLive n = true)
    (hw : s.wantsOn n = true) (ho : (s.chan n).out = false) :
    ((s.follow n true).chan n).out = true ∧ ((s.follow n true).chan n).inrush = ((s.chNv n).inrushMs != 0) ∧
      ((s.follow n true).chan n).inrushTick = s.now := by
  have hf : s.follow n true = s.turnOn n true := by
    unfold State.follow
    simp [hr, hl, hw, ho]
  rw [hf]
  unfold State.turnOn
  rw [State.onChan_chan]
  exact ⟨rfl, rfl, rfl⟩

/-- A channel of DIRECT_SWITCH that is commanded on, back in service. -/
theorem State.chanBack_opens (hr : Tbl.get false s.lsb.reversed (s.bankOf n) = false) (hl : s.chanLive n = true)
    (hh : (s.chan n).holding = .direct) (hs : (s.chan n).inSafe = false) (hc : (s.chan n).cmd = .on) (ho : (s.chan n).out = false) :
    ((s.chanBack n).chan n).out = true ∧ ((s.chanBack n).chan n).inrush = ((s.chNv n).inrushMs != 0) ∧
      ((s.chanBack n).chan n).inrushTick = s.now := by
  rw [State.chanBack_chan]
  refine State.follow_opens hr hl ?_ ho
  rw [State.wantsOn_level (by rw [hh]; exact Holding.noConfusion) hs]
  unfold Channel.level
  rw [hc]

theorem State.bankOn_ready {b : Nat} (h : s.bankOn b = true) : s.isReady 2 = true ∧ s.supplied b = true := by
  unfold State.bankOn at h
  rw [Bool.and_assoc, Bool.and_eq_true] at h
  exact h

theorem State.chanLive_of (hp : (s.chan n).prot = .armed) (hh : (s.chan n).hot = false) (hb : s.bankOn (s.bankOf n) = true) :
    s.chanLive n = true := by
  obtain ⟨hready, hsup⟩ := State.bankOn_ready hb
  unfold State.chanLive Channel.inService
  simp [hp, hh, hready, hsup]

/-! ### Retries (R249) -/

/-- A channel that retries. -/
def Channel.retried (tick : Nat) (c : Channel) : Channel := { c with prot := .armed, retriesUsed := c.retriesUsed + 1, onTick := tick }

theorem State.mayRetry_of (hp : (s.chan n).prot = .tripped) (hcool : 2 * ((s.chan n).theta : Int) ≤ s.thetaRoom n)
    (htemp : (s.chan n).tempC ≤ 150) (hon : s.holderOn n = true) (hk : (s.chan n).keepTick = none)
    (hsup : s.supplied (s.bankOf n) = true) : s.mayRetry n = true := by
  unfold State.mayRetry
  dsimp only
  rw [hp, decide_eq_true hcool, decide_eq_true htemp, hon, hk, hsup]
  rfl

theorem exec_curveRetry (h : (s.elapse dt).mayRetry n = true) :
    exec (.curveRetry dt n) s = .next (((s.elapse dt).onChan n (Channel.retried (s.elapse dt).now)).chanBack n) := next_when h

theorem curveRetry_retries (dt n : Nat) (s : State) :
    let u := s.elapse dt
    let c := u.chan n
    c.prot = .tripped → 2 * (c.theta : Int) ≤ u.thetaRoom n → c.tempC ≤ 150 → u.holderOn n = true → c.keepTick = none →
    u.supplied (u.bankOf n) = true →
    ∃ t : State, exec (.curveRetry dt n) s = .next t ∧ (t.chan n).prot = .armed ∧ (t.chan n).retriesUsed = c.retriesUsed + 1 ∧
      (∀ j, j ≠ n → t.chan j = u.chan j) ∧
      t = { u with lsb := { u.lsb with chans := t.lsb.chans }, gle := t.gle, rge := t.rge, icu := t.icu } ∧
      (c.inSafe = false → c.hot = false → c.holding = .direct → c.cmd = .on → c.out = false → u.bankOn (u.bankOf n) = true →
        Tbl.get false u.lsb.reversed (u.bankOf n) = false →
        (t.chan n).out = true ∧ (t.chan n).inrushTick = u.now ∧ (t.chan n).inrush = ((u.chNv n).inrushMs != 0)) := by
  intro u c hp hcool htemp hon hk hsup
  have hmay : u.mayRetry n = true := State.mayRetry_of hp hcool htemp hon hk hsup
  have hx : (u.onChan n (Channel.retried u.now)).chan n = c.retried u.now := State.onChan_chan ..
  obtain ⟨hw, hd⟩ := State.chanBack_work (s := u.onChan n (Channel.retried u.now)) n
  have hsw : u.SwitchWork n _ := (State.onChan_chanWork u n (Channel.retried u.now)).switchWork.trans hw
  rw [hx] at hd
  refine ⟨_, exec_curveRetry hmay, hd.prot, hd.retriesUsed, hsw.others, hsw.frame, fun hs hh hdir hcmd ho hb hr => ?_⟩
  have hlive : (u.onChan n (Channel.retried u.now)).chanLive n = true :=
    State.chanLive_of (by rw [hx]; rfl) (by rw [hx]; exact hh) hb
  obtain ⟨hout, hinrush, htick⟩ := State.chanBack_opens (s := u.onChan n (Channel.retried u.now)) hr hlive
    (by rw [hx]; exact hdir) (by rw [hx]; exact hs) (by rw [hx]; exact hcmd) (by rw [hx]; exact ho)
  exact ⟨hout, htick, hinrush⟩

/-! ### Retries restored, inrush and pull-in ended (R244, R245, R249) -/

/-- One channel changed is all that a change of it changes. -/
theorem State.onChan_changes (n : Nat) (f : Channel → Channel) (u : State) :
    (u.onChan n f).chan n = f (u.chan n) ∧ (∀ j, j ≠ n → (u.onChan n f).chan j = u.chan j) ∧
      u.onChan n f = { u with lsb := { u.lsb with chans := (u.onChan n f).lsb.chans } } :=
  ⟨State.onChan_chan .., (State.onChan_chanWork ..).others, (State.onChan_chanWork ..).frame⟩

theorem timers_end (dt n : Nat) (s : State) :
    let u := s.elapse dt
    let c := u.chan n
    (c.prot = .armed → c.out = true → c.retriesUsed ≠ 0 → c.onTick + 12000000000 ≤ u.now →
      ∃ t : State, exec (.retryRestore dt n) s = .next t ∧ t.chan n = { c with retriesUsed := 0 } ∧
        (∀ j, j ≠ n → t.chan j = u.chan j) ∧ t = { u with lsb := { u.lsb with chans := t.lsb.chans } }) ∧
    (c.inrush = true → c.inrushTick + (u.chNv n).inrushMs * 200000 ≤ u.now →
      ∃ t : State, exec (.inrushEnd dt n) s = .next t ∧ t.chan n = { c with inrush := false } ∧
        (∀ j, j ≠ n → t.chan j = u.chan j) ∧ t = { u with lsb := { u.lsb with chans := t.lsb.chans } }) ∧
    (c.pullin = true → c.out = true → c.pullinTick + c.pullinTime * 200000 ≤ u.now →
      ∃ t : State, exec (.pullinEnd dt n) s = .next t ∧ t.chan n = { c with pullin := false, hold := true } ∧
        (∀ j, j ≠ n → t.chan j = u.chan j) ∧ t = { u with lsb := { u.lsb with chans := t.lsb.chans } }) := by
  intro u c
  refine ⟨fun hp ho hr ht => ?_, fun hi ht => ?_, fun hp ho ht => ?_⟩
  · have hg : (c.prot == .armed && c.out && c.retriesUsed != 0) = true := by simp [hp, ho, hr]
    exact ⟨_, next_when (and_decide hg ht), State.onChan_changes ..⟩
  · exact ⟨_, next_when (and_decide hi ht), State.onChan_changes ..⟩
  · exact ⟨_, next_when (and_decide (Bool.and_eq_true_iff.mpr ⟨hp, ho⟩) ht), State.onChan_changes ..⟩

/-! ### PWM at its period's edge (R242, R288) -/

/-- The latest of the edges `a`, `a + per`, … at or before a tick. -/
theorem lastEdge_bounds {a per now : Nat} (hper : 0 < per) (h : a ≤ now) :
    a + (now - a) / per * per ≤ now ∧ now < a + (now - a) / per * per + per ∧ (a + (now - a) / per * per - a) % per = 0 := by
  have hle := Nat.div_mul_le_self (now - a) per
  have hlt := Nat.lt_div_mul_add (a := now - a) hper
  refine ⟨by omega, by omega, ?_⟩
  rw [Nat.add_sub_cancel_left, Nat.mul_mod_left]

/-- A PWM channel that opens a period, with a duty that waited for it. -/
def Channel.edged (d p tick : Nat) (c : Channel) : Channel :=
  { c with pwmTick := c.pwmTick + (tick - c.pwmTick) / (p * 200) * (p * 200), cmd := .pwm (c.nextDuty.getD d) p, nextDuty := none }

/-- A PWM channel's period, before its output follows. -/
def State.pwmTurn (n d p : Nat) (s : State) : State :=
  if (s.chan n).pwmTick + p * 200 ≤ s.now then s.onChan n (Channel.edged d p s.now) else s

theorem State.pwmTurn_chanWork (n d p : Nat) (s : State) : s.ChanWork n (s.pwmTurn n d p) := by
  unfold State.pwmTurn
  split
  · exact State.onChan_chanWork ..
  · exact .refl s n

theorem State.pwmTurn_due (h : (s.chan n).pwmTick + p * 200 ≤ s.now) :
    (s.pwmTurn n d p).chan n = (s.chan n).edged d p s.now := by
  unfold State.pwmTurn
  rw [if_pos h, State.onChan_chan]

theorem State.pwmTurn_early (h : s.now < (s.chan n).pwmTick + p * 200) : s.pwmTurn n d p = s := if_neg (Nat.not_le.mpr h)

/-- The turn of a period is a matter of its edge, its command and what waits for it. -/
theorem State.pwmTurn_chan (n d p : Nat) (s : State) : (s.pwmTurn n d p).chan n =
    { s.chan n with pwmTick := ((s.pwmTurn n d p).chan n).pwmTick, cmd := ((s.pwmTurn n d p).chan n).cmd,
                    nextDuty := ((s.pwmTurn n d p).chan n).nextDuty } := by
  by_cases h : (s.chan n).pwmTick + p * 200 ≤ s.now
  · rw [State.pwmTurn_due h]
    rfl
  · rw [State.pwmTurn_early (Nat.not_le.mp h)]

theorem State.pwmEdge_eq (hc : (s.chan n).cmd = .pwm d p) (hp : 1 ≤ p) : s.pwmEdge n = (s.pwmTurn n d p).follow n false := by
  unfold State.pwmEdge State.pwmTurn Channel.edged
  simp only [hc, Nat.max_eq_right hp]
  rfl

theorem exec_channelPwmEdge (he : (s.elapse dt).chanExists n = true) (hc : ((s.elapse dt).chan n).cmd = .pwm d p) (hp : 1 ≤ p) :
    exec (.channelPwmEdge dt n) s = .next (((s.elapse dt).pwmTurn n d p).follow n false) := by
  rw [← State.pwmEdge_eq hc hp]
  exact next_when he

theorem channelPwmEdge_turns (dt n d p : Nat) (s : State) :
    let u := s.elapse dt
    let c := u.chan n
    u.chanExists n = true → c.cmd = .pwm d p → 1 ≤ p →
    ∃ t : State, exec (.channelPwmEdge dt n) s = .next t ∧
      (c.pwmTick + p * 200 ≤ u.now →
        (t.chan n).cmd = .pwm (c.nextDuty.getD d) p ∧ (t.chan n).nextDuty = none ∧
        (t.chan n).pwmTick ≤ u.now ∧ u.now < (t.chan n).pwmTick + p * 200 ∧ ((t.chan n).pwmTick - c.pwmTick) % (p * 200) = 0) ∧
      (u.now < c.pwmTick + p * 200 →
        (t.chan n).cmd = c.cmd ∧ (t.chan n).nextDuty = c.nextDuty ∧ (t.chan n).pwmTick = c.pwmTick) ∧
      (u.chanLive n = true → c.keepTick = none → c.inSafe = false → c.holding ≠ .escapement →
        Tbl.get false u.lsb.reversed (u.bankOf n) = false → (t.chan n).out = (t.chan n).level u.now) ∧
      (∀ j, j ≠ n → t.chan j = u.chan j) ∧ t = { u with lsb := { u.lsb with chans := t.lsb.chans } } := by
  intro u c he hc hp
  have hturn := State.pwmTurn_chanWork n d p u
  have hchan := State.pwmTurn_chan n d p u
  have hw := hturn.trans (State.follow_chanWork _ n false)
  have hd := State.follow_driven (s := u.pwmTurn n d p) n false
  have htick : (((u.pwmTurn n d p).follow n false).chan n).pwmTick = ((u.pwmTurn n d p).chan n).pwmTick := by rw [hd]
  have hduty : (((u.pwmTurn n d p).follow n false).chan n).nextDuty = ((u.pwmTurn n d p).chan n).nextDuty := by rw [hd]
  refine ⟨_, exec_channelPwmEdge he hc hp, fun h => ?_, fun h => ?_, fun hl _ hs hh hr => ?_, hw.others, hw.frame⟩
  · rw [hd.cmd, htick, hduty, State.pwmTurn_due h]
    exact ⟨rfl, rfl, lastEdge_bounds (by omega) (Nat.le_trans (Nat.le_add_right ..) h)⟩
  · rw [hd.cmd, htick, hduty, State.pwmTurn_early h]
    exact ⟨rfl, rfl, rfl⟩
  · have hlive : (u.pwmTurn n d p).chanLive n = true := by
      rw [hturn.chanLive (by rw [hchan]; rfl) (by rw [hchan]) (by rw [hchan])]
      exact hl
    rw [State.follow_out _ false (by rw [hturn.reversed, hturn.bankOf]; exact hr), hlive, Bool.true_and,
      State.wantsOn_level (by rw [hchan]; exact hh) (by rw [hchan]; exact hs), hd.level, hturn.now]

/-! ### The ambient temperature (R248) -/

theorem ambientStale_gives (dt : Nat) (s : State) :
    let u := s.elapse dt
    u.nv.ambHost = true → u.lsb.hostCStale = false → u.powered 7 = true → u.lsb.hostCTick + 2000000000 ≤ u.now →
    ∃ t : State, exec (.ambientStale dt) s = .next t ∧ t.ambient = u.lsb.moduleC ∧
      t = { u with lsb := { u.lsb with hostCStale := true, fault := setFlag u.lsb.fault u.cycle 7 }, icu := (u.raise 327).icu } := by
  intro u ha hs hp ht
  have hg : (u.nv.ambHost && !u.lsb.hostCStale && u.powered 7) = true := by rw [ha, hs, hp]; rfl
  refine ⟨(u.onLsb fun l => { l with hostCStale := true }).lsbFault 7 327, next_when (and_decide hg ht), ?_, ?_⟩
  · rw [State.lsbFault_eq]
    unfold State.ambient
    simp
  · rw [State.lsbFault_eq, State.onLsb_raise_icu]
    rfl

/-- Settles O41: the wire model's millisecond, the retries, the timers, PWM and the ambient temperature, command by command. -/
theorem channelsRunOnTheirClocks : Obligations.ChannelsRunOnTheirClocks := by
  unfold Obligations.ChannelsRunOnTheirClocks
  exact ⟨wireModelUpdate_runs, curveRetry_retries, timers_end, channelPwmEdge_turns, ambientStale_gives⟩

end Sys2Proof.Machine

namespace Sys2Proof.Machine

variable {l m : Lsb} {p : Supply} {b : Nat} {v : Int}

/-! ### Supplies by their tables (R253) -/

theorem Lsb.isCut_congr (hb : m.bankCut = l.bankCut) (hp : m.pgndLost = l.pgndLost) : m.isCut p = l.isCut p := by
  unfold Lsb.isCut
  rw [hb, hp]

theorem Lsb.isCut_setCut (l : Lsb) (p : Supply) (v : Bool) : (l.setCut p v).isCut p = v := by
  cases p with
  | bankA => exact Tbl.get_set_same
  | bankB => exact Tbl.get_set_same
  | pgnd => rfl

theorem Lsb.setCut_frame (l : Lsb) (p : Supply) (v : Bool) :
    l.setCut p v = { l with bankCut := (l.setCut p v).bankCut, pgndLost := (l.setCut p v).pgndLost } := by
  cases p with
  | bankA => rfl
  | bankB => rfl
  | pgnd => rfl

/-- A supply's voltage read, and what it cuts off for and returns from noted. -/
def Lsb.levelRead (p : Supply) (v : Int) (l : Lsb) : Lsb := (l.setVbat p v).noteLevel p v

theorem Lsb.levelRead_frame (p : Supply) (v : Int) (l : Lsb) : l.levelRead p v =
    { l with vbat := (l.levelRead p v).vbat, overCut := (l.levelRead p v).overCut, underCut := (l.levelRead p v).underCut } := by
  cases p with
  | bankA => rfl
  | bankB => rfl
  | pgnd => rfl

theorem Lsb.levelRead_isCut (p : Supply) (v : Int) (l : Lsb) (q : Supply) : (l.levelRead p v).isCut q = l.isCut q :=
  Lsb.isCut_congr (by rw [Lsb.levelRead_frame]) (by rw [Lsb.levelRead_frame])

/-- A bank's supply and its number. -/
def IsBankSupply (p : Supply) (b : Nat) : Prop := p = .bankA ∧ b = 0 ∨ p = .bankB ∧ b = 1

theorem bankSupply_isBankSupply (h : b = 0 ∨ b = 1) : IsBankSupply (bankSupply b) b := by
  obtain rfl | rfl := h
  · exact .inl ⟨rfl, rfl⟩
  · exact .inr ⟨rfl, rfl⟩

theorem IsBankSupply.isCut (h : IsBankSupply p b) (l : Lsb) : l.isCut p = Tbl.get false l.bankCut b := by
  obtain ⟨rfl, rfl⟩ | ⟨rfl, rfl⟩ := h
  · rfl
  · rfl

theorem IsBankSupply.setVbat (h : IsBankSupply p b) (v : Int) (l : Lsb) : l.setVbat p v = { l with vbat := Tbl.set 0 l.vbat b v } := by
  obtain ⟨rfl, rfl⟩ | ⟨rfl, rfl⟩ := h
  · rfl
  · rfl

/-- A bank's supply is back by its level: each cut has met its return level, and its voltage is in range (R253). -/
theorem IsBankSupply.levelOk (h : IsBankSupply p b) (v : Int) (l : Lsb) : (l.levelRead p v).levelOk p = true ↔
    600 ≤ v ∧ v ≤ 3900 ∧ (Tbl.get false l.overCut b = true → v < 3600) ∧ (Tbl.get false l.underCut b = true → 650 < v) := by
  have hread : (l.levelRead p v).levelOk p =
      (!((Tbl.get false l.overCut b && decide (3600 ≤ v)) || decide (3900 < v)) &&
        !((Tbl.get false l.underCut b && decide (v ≤ 650)) || decide (v < 600))) := by
    unfold Lsb.levelRead Lsb.noteLevel Lsb.levelOk
    obtain ⟨rfl, rfl⟩ | ⟨rfl, rfl⟩ := h
    · simp only [Tbl.get_set_same]
      rfl
    · simp only [Tbl.get_set_same]
      rfl
  rw [hread]
  cases Tbl.get false l.overCut b <;> cases Tbl.get false l.underCut b <;> simp <;> omega

end Sys2Proof.Machine

namespace Sys2Proof.Machine

variable {s t x : State} {n b : Nat} {p : Supply} {v : Int}

/-! ### A supply's channels -/

theorem State.supplyChans_nodup (p : Supply) (s : State) : (s.supplyChans p).Nodup := by
  cases p with
  | bankA => exact State.bankChans_nodup 0 s
  | bankB => exact State.bankChans_nodup 1 s
  | pgnd => exact List.nodup_range

theorem IsBankSupply.supplyChans (h : IsBankSupply p b) (s : State) : s.supplyChans p = s.bankChans b := by
  obtain ⟨rfl, rfl⟩ | ⟨rfl, rfl⟩ := h
  · rfl
  · rfl

/-- What the member's part number says of channels and banks. -/
theorem State.bankOf_congr (h : t.sys = s.sys) (n : Nat) : t.bankOf n = s.bankOf n := by
  unfold State.bankOf State.part
  rw [h]

theorem State.bankChans_congr (h : t.sys = s.sys) (b : Nat) : t.bankChans b = s.bankChans b := by
  unfold State.bankChans State.bankOf State.part
  rw [h]

theorem State.supplyChans_congr (h : t.sys = s.sys) (p : Supply) : t.supplyChans p = s.supplyChans p := by
  cases p with
  | bankA => exact State.bankChans_congr h 0
  | bankB => exact State.bankChans_congr h 1
  | pgnd =>
    unfold State.supplyChans State.part
    rw [h]

/-- A cut supply leaves its channels' banks unsupplied. -/
theorem State.unsupplied_of_cut (hn : n ∈ s.supplyChans p) (hc : s.lsb.isCut p = true) : s.supplied (s.bankOf n) = false := by
  have hbank (b : Nat) (hb : n ∈ s.bankChans b) (hc : Tbl.get false s.lsb.bankCut b = true) : s.supplied (s.bankOf n) = false := by
    rw [(State.mem_bankChans.mp hb).2]
    unfold State.supplied
    rw [hc]
    rfl
  cases p with
  | bankA => exact hbank 0 hn hc
  | bankB => exact hbank 1 hn hc
  | pgnd =>
    unfold State.supplied
    rw [show s.lsb.pgndLost = true from hc, Bool.not_true, Bool.and_false]

theorem State.SwitchFrame.sys (h : s.SwitchFrame t) : t.sys = s.sys := by rw [h]
theorem State.SwitchFrame.nv (h : s.SwitchFrame t) : t.nv = s.nv := by rw [h]
theorem State.SwitchFrame.prs (h : s.SwitchFrame t) : t.prs = s.prs := by rw [h]
theorem State.SwitchFrame.lsb (h : s.SwitchFrame t) : t.lsb = { s.lsb with chans := t.lsb.chans } := by rw [h]
theorem State.Records.sys (h : s.Records t) : t.sys = s.sys := by
  unfold State.Records at h
  rw [h]
theorem State.Records.prs (h : s.Records t) : t.prs = s.prs := by
  unfold State.Records at h
  rw [h]

/-! ### A supply cut off (R253, R398) -/

/-- Every channel's output is driven at most. -/
def State.DrivesAll (s t : State) : Prop := ∀ k, (s.chan k).Driven (t.chan k)

theorem State.DrivesAll.refl (s : State) : s.DrivesAll s := fun _ => .refl _

theorem State.DrivesAll.trans {a b c : State} (h : a.DrivesAll b) (g : b.DrivesAll c) : a.DrivesAll c := fun k => (h k).trans (g k)

theorem State.drivesAll_of (ho : ∀ k, k ≠ n → t.chan k = s.chan k) (hd : (s.chan n).Driven (t.chan n)) : s.DrivesAll t := by
  intro k
  by_cases hk : k = n
  · exact hk ▸ hd
  · rw [ho k hk]
    exact .refl _

/-- A channel of a supply that is cut follows, and loses its path. -/
def State.dropChan (n : Nat) (s : State) : State := (s.follow n true).chanLost n

theorem State.dropChan_switchWork (n : Nat) (s : State) : s.SwitchWork n (s.dropChan n) :=
  (State.follow_chanWork s n true).switchWork.trans ((State.chanLost_pathWork n).switchWork n)

theorem State.dropChan_chan (n : Nat) (s : State) : (s.dropChan n).chan n = (s.follow n true).chan n :=
  (State.chanLost_pathWork n).chan n

theorem State.dropChan_drivesAll (n : Nat) (s : State) : s.DrivesAll (s.dropChan n) :=
  State.drivesAll_of (State.dropChan_switchWork n s).others (by rw [State.dropChan_chan]; exact State.follow_driven n true)

theorem State.dropChan_others (s : State) (n k : Nat) (h : k ≠ n) : (s.dropChan n).chan k = s.chan k :=
  (State.dropChan_switchWork n s).others k h

/-- The channels of some list dropped, one after the other. -/
def State.dropChans (l : List Nat) (s : State) : State := l.foldl (fun s n => s.dropChan n) s

theorem State.dropChans_frame (l : List Nat) (s : State) : s.SwitchFrame (s.dropChans l) :=
  foldl_related s .refl .trans (fun s n => (State.dropChan_switchWork n s).frame) l

theorem State.dropChans_drivesAll (l : List Nat) (s : State) : s.DrivesAll (s.dropChans l) :=
  foldl_related s .refl .trans (fun s n => State.dropChan_drivesAll n s) l

/-- A dropped channel of a cut supply is off. -/
theorem State.dropChans_off {l : List Nat} (hl : l.Nodup) (h : n ∈ l) (hn : n ∈ s.supplyChans p) (hc : s.lsb.isCut p = true)
    (hr : Tbl.get false s.lsb.reversed (s.bankOf n) = false) : ((s.dropChans l).chan n).out = false := by
  obtain ⟨a, -, hchan⟩ : ∃ a, _ ∧ (s.dropChans l).chan n = ((s.dropChans a).dropChan n).chan n :=
    foldl_chan_once State.dropChan_others hl h s
  have hf := State.dropChans_frame a s
  have hcut : (s.dropChans a).supplied ((s.dropChans a).bankOf n) = false :=
    State.unsupplied_of_cut (by rw [State.supplyChans_congr hf.sys]; exact hn)
      ((Lsb.isCut_congr (by rw [hf.lsb]) (by rw [hf.lsb])).trans hc)
  have hrev : Tbl.get false (s.dropChans a).lsb.reversed ((s.dropChans a).bankOf n) = false := by
    rw [hf.lsb, State.bankOf_congr hf.sys]
    exact hr
  have hlive : (s.dropChans a).chanLive n = false := by
    unfold State.chanLive
    dsimp only
    rw [hcut, Bool.and_false, Bool.false_and]
  rw [hchan, State.dropChan_chan, State.follow_out _ true hrev, hlive, Bool.false_and]

/-- What a supply's cut-off does. -/
structure State.CutsSupply (p : Supply) (s t : State) : Prop where
  lsb : t.lsb = { s.lsb.setCut p true with chans := t.lsb.chans, fault := setFlag s.lsb.fault s.cycle (supplyCode p) }
  sys : t.sys = s.sys
  drives : s.DrivesAll t
  others : ∀ k, k ∉ s.supplyChans p → t.chan k = s.chan k
  off : ∀ k, k ∈ s.supplyChans p → s.chanLive k = true → Tbl.get false s.lsb.reversed (s.bankOf k) = false → (t.chan k).out = false

/-- A supply marked as cut, or as back. -/
def State.markSupply (p : Supply) (cut : Bool) (s : State) : State := s.onLsb fun l => l.setCut p cut

theorem State.markSupply_lsb (p : Supply) (cut : Bool) (s : State) : (s.markSupply p cut).lsb =
    { s.lsb with bankCut := (s.markSupply p cut).lsb.bankCut, pgndLost := (s.markSupply p cut).lsb.pgndLost } := Lsb.setCut_frame ..

theorem State.markSupply_isCut (p : Supply) (cut : Bool) (s : State) : (s.markSupply p cut).lsb.isCut p = cut := Lsb.isCut_setCut ..

theorem State.markSupply_chan (p : Supply) (cut : Bool) (s : State) (k : Nat) : (s.markSupply p cut).chan k = s.chan k := by
  unfold State.chan
  rw [State.markSupply_lsb]

/-- A supply marked as cut, with its channels dropped. -/
def State.supplyDropped (p : Supply) (s : State) : State :=
  (s.markSupply p true).dropChans ((s.supplyChans p).filter fun n => s.chanLive n)

theorem State.supplyCut_eq (p : Supply) (s : State) : s.supplyCut p =
    ((s.supplyDropped p).lsbFault (supplyCode p) (320 + supplyCode p)).record 0x0703 (supplyCode p) [(0, 1#32)] := rfl

theorem State.supplyCut_records (p : Supply) (s : State) :
    ((s.supplyDropped p).lsbFault (supplyCode p) (320 + supplyCode p)).Records (s.supplyCut p) := by
  rw [State.supplyCut_eq]
  exact State.record_records ..

theorem State.supplyCut_chan (p : Supply) (s : State) (k : Nat) : (s.supplyCut p).chan k = (s.supplyDropped p).chan k := by
  rw [(State.supplyCut_records p s).chan, State.lsbFault_chan]

theorem State.supplyCut_cuts (p : Supply) (s : State) : s.CutsSupply p (s.supplyCut p) := by
  have hf : (s.markSupply p true).SwitchFrame (s.supplyDropped p) := State.dropChans_frame _ _
  have hrec := State.supplyCut_records p s
  have hmark := State.markSupply_lsb p true s
  refine ⟨?_, ?_, fun k => ?_, fun k hk => ?_, fun k hk hl hr => ?_⟩
  · have hfault : (s.markSupply p true).lsb.fault = s.lsb.fault := by rw [hmark]
    have hcycle : (s.supplyDropped p).cycle = s.cycle := by
      unfold State.cycle
      rw [hf.now]
      rfl
    rw [hrec.lsb, State.lsbFault_eq, hcycle, hf.lsb, hfault]
    rfl
  · rw [hrec.sys, State.lsbFault_eq]
    exact hf.sys
  · rw [State.supplyCut_chan, ← State.markSupply_chan p true s k]
    exact State.dropChans_drivesAll _ _ k
  · rw [State.supplyCut_chan, ← State.markSupply_chan p true s k]
    exact foldl_chan_other State.dropChan_others (mt (fun h => (List.mem_filter.mp h).1) hk) _
  · rw [State.supplyCut_chan]
    refine State.dropChans_off ((State.supplyChans_nodup p s).filter _) (List.mem_filter.mpr ⟨hk, hl⟩) ?_ (State.markSupply_isCut p true s) ?_
    · rw [State.supplyChans_congr (s := s) (t := s.markSupply p true) rfl]
      exact hk
    · rw [hmark]
      exact hr

theorem State.CutsSupply.isCut (h : s.CutsSupply p t) : t.lsb.isCut p = true :=
  (Lsb.isCut_congr (by rw [h.lsb]) (by rw [h.lsb])).trans (Lsb.isCut_setCut s.lsb p true)

/-! ### A supply out of its range (R253) -/

/-- A supply's voltage read. -/
def State.levelRead (p : Supply) (v : Int) (s : State) : State := s.onLsb (Lsb.levelRead p v)

theorem State.levelRead_lsb (p : Supply) (v : Int) (s : State) : (s.levelRead p v).lsb =
    { s.lsb with vbat := (s.levelRead p v).lsb.vbat, overCut := (s.levelRead p v).lsb.overCut,
                 underCut := (s.levelRead p v).lsb.underCut } := Lsb.levelRead_frame ..

theorem State.levelRead_chan (p : Supply) (v : Int) (s : State) (k : Nat) : (s.levelRead p v).chan k = s.chan k := by
  unfold State.chan
  rw [State.levelRead_lsb]

theorem State.levelRead_drivesAll (p : Supply) (v : Int) (s : State) : s.DrivesAll (s.levelRead p v) := fun k => by
  rw [State.levelRead_chan]
  exact .refl _

/-- A supply's voltage read, and the supply cut off where it is not yet. -/
def State.supplyDown (p : Supply) (v : Int) (s : State) : State :=
  if (s.levelRead p v).lsb.isCut p then s.levelRead p v else (s.levelRead p v).supplyCut p

theorem State.supplyDown_cut (h : s.lsb.isCut p = true) : s.supplyDown p v = s.levelRead p v :=
  if_pos ((Lsb.levelRead_isCut ..).trans h)

theorem State.supplyDown_cuts (h : s.lsb.isCut p = false) : s.supplyDown p v = (s.levelRead p v).supplyCut p :=
  if_neg (by rw [← Bool.not_eq_true] at h; exact mt (Lsb.levelRead_isCut p v s.lsb p ▸ ·) h)

/-- A supply that is down is cut off; it changes its own channels' outputs at most. -/
structure State.SupplyDown (p : Supply) (s t : State) : Prop where
  isCut : t.lsb.isCut p = true
  sys : t.sys = s.sys
  drives : s.DrivesAll t
  others : ∀ k, k ∉ s.supplyChans p → t.chan k = s.chan k

theorem State.supplyDown_down (p : Supply) (v : Int) (s : State) : s.SupplyDown p (s.supplyDown p v) := by
  cases h : s.lsb.isCut p with
  | true =>
    rw [State.supplyDown_cut h]
    exact ⟨(Lsb.levelRead_isCut ..).trans h, rfl, State.levelRead_drivesAll p v s, fun k _ => State.levelRead_chan p v s k⟩
  | false =>
    have hc := State.supplyCut_cuts p (s.levelRead p v)
    rw [State.supplyDown_cuts h]
    refine ⟨hc.isCut, hc.sys, (State.levelRead_drivesAll p v s).trans hc.drives,
      fun k hk => (hc.others k ?_).trans (State.levelRead_chan p v s k)⟩
    rw [State.supplyChans_congr (s := s) (t := s.levelRead p v) rfl]
    exact hk

end Sys2Proof.Machine

namespace Sys2Proof.Machine

variable {s t x : State} {dt n b stable : Nat} {p : Supply} {v : Int}

/-! ### The cut-off of a supply (R253) -/

theorem State.levelRead_chanLive (p : Supply) (v : Int) (s : State) (k : Nat) : (s.levelRead p v).chanLive k = s.chanLive k := by
  unfold State.chanLive State.supplied
  rw [State.levelRead_chan, State.levelRead_lsb]
  rfl

theorem exec_bankCutoff (he : (s.elapse dt).supplyExists p = true) (hl : cutLevel p v = true) :
    exec (.bankCutoff dt p v) s = .next ((s.elapse dt).supplyDown p v) :=
  next_when (Bool.and_eq_true_iff.mpr ⟨he, hl⟩)

theorem bankCutoff_cuts (dt : Nat) (p : Supply) (v : Int) (s : State) :
    let u := s.elapse dt
    u.supplyExists p = true → cutLevel p v = true → u.lsb.isCut p = false →
    ∃ t : State, exec (.bankCutoff dt p v) s = .next t ∧ t.lsb.isCut p = true ∧ t.lsb.fault = setFlag u.lsb.fault u.cycle (supplyCode p) ∧
      (∀ n, n ∈ u.supplyChans p → u.chanLive n = true → Tbl.get false u.lsb.reversed (u.bankOf n) = false → (t.chan n).out = false) ∧
      (∀ n, n ∉ u.supplyChans p → t.chan n = u.chan n) ∧
      (∀ n, (t.chan n).prot = (u.chan n).prot ∧ (t.chan n).cmd = (u.chan n).cmd ∧ (t.chan n).keepTick = (u.chan n).keepTick ∧
        (t.chan n).theta = (u.chan n).theta) := by
  intro u he hl hcut
  have hdown := State.supplyDown_down p v u
  have hc := State.supplyCut_cuts p (u.levelRead p v)
  rw [← State.supplyDown_cuts hcut] at hc
  refine ⟨_, exec_bankCutoff he hl, hdown.isCut, ?_, fun n hn hlive hr => ?_, hdown.others, fun n => ?_⟩
  · rw [hc.lsb, State.levelRead_lsb]
    rfl
  · refine hc.off n ?_ ((State.levelRead_chanLive p v u n).trans hlive) (by rw [State.levelRead_lsb]; exact hr)
    rw [State.supplyChans_congr (s := u) (t := u.levelRead p v) rfl]
    exact hn
  · have hd := hdown.drives n
    exact ⟨hd.prot, hd.cmd, hd.keepTick, hd.theta⟩

/-! ### A reversed supply ends (R254) -/

/-- Some outputs go off. -/
structure State.TurnsOff (s t : State) : Prop where
  frame : t = { s with lsb := { s.lsb with chans := t.lsb.chans } }
  drives : s.DrivesAll t
  off : ∀ k, (s.chan k).out = false → (t.chan k).out = false

theorem State.TurnsOff.refl (s : State) : s.TurnsOff s := ⟨rfl, .refl s, fun _ h => h⟩

theorem State.TurnsOff.trans {a b c : State} (h : a.TurnsOff b) (g : b.TurnsOff c) : a.TurnsOff c := by
  refine ⟨?_, h.drives.trans g.drives, fun k hk => g.off k (h.off k hk)⟩
  have hc := g.frame
  rw [h.frame] at hc
  exact hc

theorem State.turnOff_others (s : State) (n k : Nat) (h : k ≠ n) : (s.turnOff n).chan k = s.chan k := State.onChan_chan_ne s _ _ _ h

theorem State.turnOff_turnsOff (s : State) (n : Nat) : s.TurnsOff (s.turnOff n) := by
  have hc : (s.turnOff n).chan n = (s.chan n).off s.now := State.onChan_chan ..
  refine ⟨rfl, State.drivesAll_of (State.turnOff_others s n) (by rw [hc]; rfl), fun k hk => ?_⟩
  by_cases h : k = n
  · rw [h, hc]
    rfl
  · rw [State.turnOff_others s n k h]
    exact hk

/-- The end of a bank's reversal and its keeper's supply, before the supply returns. -/
def State.reverseEnds (p : Supply) (s : State) : State :=
  match supplyBank p with
  | some b => (s.endReverse b).onLsb fun l => { l with keeperDead := Tbl.set false l.keeperDead b false }
  | none => s

/-- What it changes besides the outputs that the reversed supply drove. -/
structure State.ReverseEnds (p : Supply) (s t : State) : Prop where
  frame : t = { s with lsb := { s.lsb with chans := t.lsb.chans, reversed := t.lsb.reversed, keeperDead := t.lsb.keeperDead } }
  drives : s.DrivesAll t
  off : ∀ k, (s.chan k).out = false → (t.chan k).out = false
  others : ∀ k, k ∉ s.supplyChans p → t.chan k = s.chan k

theorem State.endReverse_ends (hp : IsBankSupply p b) (s : State) : s.ReverseEnds p (s.endReverse b) := by
  unfold State.endReverse
  split
  · have h := foldl_related (f := fun s n => State.turnOff n s) (s.onLsb fun l => { l with reversed := Tbl.set false l.reversed b false })
      State.TurnsOff.refl State.TurnsOff.trans State.turnOff_turnsOff (s.bankChans b)
    refine ⟨?_, h.drives, h.off, fun k hk => ?_⟩
    · have hf := h.frame
      generalize List.foldl _ _ _ = y at hf ⊢
      rw [hf]
      rfl
    · rw [hp.supplyChans] at hk
      exact foldl_chan_other State.turnOff_others hk _
  · exact ⟨rfl, .refl s, fun _ h => h, fun _ _ => rfl⟩

theorem State.ReverseEnds.keeperBack (h : s.ReverseEnds p t) (f : Tbl Bool → Tbl Bool) :
    s.ReverseEnds p (t.onLsb fun l => { l with keeperDead := f l.keeperDead }) := by
  refine ⟨?_, h.drives, h.off, h.others⟩
  have hf := h.frame
  generalize hy : (t.onLsb fun l => { l with keeperDead := f l.keeperDead }) = y
  have hfy : y = { t with lsb := { t.lsb with keeperDead := y.lsb.keeperDead } } := by rw [← hy]; rfl
  rw [hf] at hfy
  rw [hfy]

theorem State.reverseEnds_ends (p : Supply) (s : State) : s.ReverseEnds p (s.reverseEnds p) := by
  cases p with
  | bankA => exact (State.endReverse_ends (.inl ⟨rfl, rfl⟩) s).keeperBack fun d => Tbl.set false d 0 false
  | bankB => exact (State.endReverse_ends (.inr ⟨rfl, rfl⟩) s).keeperBack fun d => Tbl.set false d 1 false
  | pgnd => exact ⟨rfl, .refl s, fun _ h => h, fun _ _ => rfl⟩

/-! ### A supply that returns (R240, R253) -/

theorem State.chanBack_others (s : State) (n k : Nat) (h : k ≠ n) : (s.chanBack n).chan k = s.chan k := (State.chanBack_work n).1.others k h

/-- The channels of some list back in service, one after the other. -/
def State.chansBack (l : List Nat) (s : State) : State := l.foldl (fun s n => s.chanBack n) s

theorem State.chansBack_frame (l : List Nat) (s : State) : s.SwitchFrame (s.chansBack l) :=
  foldl_related s .refl .trans (fun s n => (State.chanBack_work (s := s) n).1.frame) l

theorem State.chansBack_drivesAll (l : List Nat) (s : State) : s.DrivesAll (s.chansBack l) :=
  foldl_related s .refl .trans (fun s n => State.drivesAll_of (State.chanBack_others s n) (State.chanBack_work n).2) l

theorem State.bankOn_congr (hp : t.prs = s.prs) (hb : t.lsb.bankCut = s.lsb.bankCut) (hg : t.lsb.pgndLost = s.lsb.pgndLost) (b : Nat) :
    t.bankOn b = s.bankOn b := by
  unfold State.bankOn State.isReady
  rw [hp, hb, hg]

/-- A channel of DIRECT_SWITCH among them that is commanded on comes on, where its bank is in service. -/
theorem State.chansBack_opens {l : List Nat} (hl : l.Nodup) (hn : n ∈ l) (hp : (s.chan n).prot = .armed) (hh : (s.chan n).hot = false)
    (hs : (s.chan n).inSafe = false) (hd : (s.chan n).holding = .direct) (hc : (s.chan n).cmd = .on) (ho : (s.chan n).out = false)
    (hb : s.bankOn (s.bankOf n) = true) (hr : Tbl.get false s.lsb.reversed (s.bankOf n) = false) :
    ((s.chansBack l).chan n).out = true ∧ ((s.chansBack l).chan n).inrush = ((s.chNv n).inrushMs != 0) ∧
      ((s.chansBack l).chan n).inrushTick = s.now := by
  obtain ⟨a, hx, hchan⟩ : ∃ a, (s.chansBack a).chan n = s.chan n ∧ (s.chansBack l).chan n = ((s.chansBack a).chanBack n).chan n :=
    foldl_chan_once State.chanBack_others hl hn s
  have ha := State.chansBack_frame a s
  have hbank : (s.chansBack a).bankOf n = s.bankOf n := State.bankOf_congr ha.sys n
  have hon : (s.chansBack a).bankOn ((s.chansBack a).bankOf n) = true := by
    rw [hbank, State.bankOn_congr ha.prs (by rw [ha.lsb]) (by rw [ha.lsb])]
    exact hb
  have hrev : Tbl.get false (s.chansBack a).lsb.reversed ((s.chansBack a).bankOf n) = false := by
    rw [hbank, ha.lsb]
    exact hr
  rw [← hx] at hp hh hs hd hc ho
  have hopens := State.chanBack_opens hrev (State.chanLive_of hp hh hon) hd hs hc ho
  unfold State.chNv at hopens ⊢
  rw [ha.nv, ha.now] at hopens
  rw [hchan]
  exact hopens

theorem State.supplyReturn_eq (p : Supply) (s : State) : s.supplyReturn p =
    ((((s.reverseEnds p).markSupply p false).chansBack (((s.reverseEnds p).markSupply p false).supplyChans p)).raise (320 + supplyCode p)).record
      0x0703 (supplyCode p) [(0, 2#32)] := rfl

theorem State.supplyReturn_records (p : Supply) (s : State) :
    (((s.reverseEnds p).markSupply p false).chansBack (((s.reverseEnds p).markSupply p false).supplyChans p)).Records (s.supplyReturn p) := by
  rw [State.supplyReturn_eq]
  exact State.raise_record_records ..

/-- What a supply's return does. -/
structure State.SupplyBack (p : Supply) (s t : State) : Prop where
  isCut : t.lsb.isCut p = false
  drives : s.DrivesAll t
  others : ∀ k, k ∉ s.supplyChans p → t.chan k = s.chan k
  opens : ∀ k, k ∈ s.supplyChans p → (s.chan k).prot = .armed → (s.chan k).hot = false → (s.chan k).inSafe = false →
    (s.chan k).holding = .direct → (s.chan k).cmd = .on → (s.chan k).out = false → t.bankOn (s.bankOf k) = true →
    Tbl.get false t.lsb.reversed (s.bankOf k) = false →
    (t.chan k).out = true ∧ (t.chan k).inrush = ((s.chNv k).inrushMs != 0) ∧ (t.chan k).inrushTick = s.now

theorem State.supplyReturn_back (p : Supply) (s : State) : s.SupplyBack p (s.supplyReturn p) := by
  have he := State.reverseEnds_ends p s
  have hrec := State.supplyReturn_records p s
  have hy (k : Nat) : ((s.reverseEnds p).markSupply p false).chan k = (s.reverseEnds p).chan k := State.markSupply_chan ..
  have hsys : ((s.reverseEnds p).markSupply p false).sys = s.sys := by
    show (s.reverseEnds p).sys = s.sys
    rw [he.frame]
  have hnv : ((s.reverseEnds p).markSupply p false).nv = s.nv := by
    show (s.reverseEnds p).nv = s.nv
    rw [he.frame]
  have hnow : ((s.reverseEnds p).markSupply p false).now = s.now := by
    show (s.reverseEnds p).now = s.now
    rw [he.frame]
    rfl
  have hisCut : ((s.reverseEnds p).markSupply p false).lsb.isCut p = false := State.markSupply_isCut ..
  rw [State.supplyChans_congr hsys] at hrec
  generalize (s.reverseEnds p).markSupply p false = y at *
  have hf := State.chansBack_frame (s.supplyChans p) y
  refine ⟨?_, fun k => ?_, fun k hk => ?_, fun k hk hp hh hs hd hc ho hb hr => ?_⟩
  · rw [hrec.lsb, hf.lsb]
    exact (Lsb.isCut_congr rfl rfl).trans hisCut
  · rw [hrec.chan]
    refine (he.drives k).trans ?_
    rw [← hy]
    exact State.chansBack_drivesAll _ _ k
  · rw [hrec.chan]
    exact (foldl_chan_other State.chanBack_others hk y).trans ((hy k).trans (he.others k hk))
  · have hdriven : (s.chan k).Driven (y.chan k) := by
      rw [hy]
      exact he.drives k
    have hbank : y.bankOf k = s.bankOf k := State.bankOf_congr hsys k
    have hon : y.bankOn (y.bankOf k) = true := by
      rw [hbank, ← hb]
      exact (State.bankOn_congr (hrec.prs.trans hf.prs) (by rw [hrec.lsb, hf.lsb]) (by rw [hrec.lsb, hf.lsb]) _).symm
    have hrev : Tbl.get false y.lsb.reversed (y.bankOf k) = false := by
      rw [hrec.lsb, hf.lsb] at hr
      rw [hbank]
      exact hr
    have hopens := State.chansBack_opens (State.supplyChans_nodup p s) hk (hdriven.prot.trans hp)
      (hdriven.sameReadings.hot.trans hh) (hdriven.inSafe.trans hs) (hdriven.holding.trans hd) (hdriven.cmd.trans hc)
      (by rw [hy]; exact he.off k ho) hon hrev
    unfold State.chNv at hopens ⊢
    rw [hnv, hnow] at hopens
    rw [hrec.chan]
    exact hopens

theorem exec_bankReturn (he : (s.elapse dt).supplyExists p = true) (hc : (s.elapse dt).lsb.isCut p = true) (hs : 10 ≤ stable) :
    exec (.bankReturn dt p ⟨v, stable⟩) s = .next (if ((s.elapse dt).levelRead p v).lsb.levelOk p then
      ((s.elapse dt).levelRead p v).supplyReturn p else (s.elapse dt).levelRead p v) :=
  next_when (and_decide (Bool.and_eq_true_iff.mpr ⟨he, hc⟩) hs)

theorem bankReturn_waits (dt b stable : Nat) (p : Supply) (v : Int) (s : State) :
    let u := s.elapse dt
    u.supplyExists p = true → u.lsb.isCut p = true → p = .bankA ∧ b = 0 ∨ p = .bankB ∧ b = 1 → 10 ≤ stable →
    v < 600 ∨ 3900 < v ∨ Tbl.get false u.lsb.overCut b = true ∧ 3600 ≤ v ∨ Tbl.get false u.lsb.underCut b = true ∧ v ≤ 650 →
    ∃ t : State, exec (.bankReturn dt p ⟨v, stable⟩) s = .next t ∧ t.lsb.isCut p = true ∧ (∀ n, t.chan n = u.chan n) ∧
      t = { u with lsb := t.lsb } := by
  intro u he hc hp hs hv
  have hbad : ¬ (u.levelRead p v).lsb.levelOk p = true := by
    refine mt (IsBankSupply.levelOk hp v u.lsb).mp fun ⟨hlo, hhi, hover, hunder⟩ => ?_
    obtain h | h | ⟨h, h'⟩ | ⟨h, h'⟩ := hv
    · omega
    · omega
    · exact absurd (hover h) (by omega)
    · exact absurd (hunder h) (by omega)
  rw [exec_bankReturn he hc hs, if_neg hbad]
  exact ⟨_, rfl, (Lsb.levelRead_isCut ..).trans hc, State.levelRead_chan p v u, rfl⟩

theorem bankReturn_returns (dt stable : Nat) (p : Supply) (v : Int) (s : State) :
    let u := s.elapse dt
    u.supplyExists p = true → u.lsb.isCut p = true → 10 ≤ stable →
    (∀ b, p = .bankA ∧ b = 0 ∨ p = .bankB ∧ b = 1 →
      600 ≤ v ∧ v ≤ 3900 ∧ (Tbl.get false u.lsb.overCut b = true → v < 3600) ∧ (Tbl.get false u.lsb.underCut b = true → 650 < v)) →
    ∃ t : State, exec (.bankReturn dt p ⟨v, stable⟩) s = .next t ∧ t.lsb.isCut p = false ∧
      (∀ n, (t.chan n).prot = (u.chan n).prot ∧ (t.chan n).cmd = (u.chan n).cmd ∧ (t.chan n).keepTick = (u.chan n).keepTick) ∧
      (∀ n, n ∉ u.supplyChans p → t.chan n = u.chan n) ∧
      (∀ n, n ∈ u.supplyChans p → (u.chan n).prot = .armed → (u.chan n).hot = false → (u.chan n).keepTick = none →
        (u.chan n).inSafe = false → (u.chan n).holding = .direct → (u.chan n).cmd = .on → (u.chan n).out = false →
        t.bankOn (u.bankOf n) = true → Tbl.get false t.lsb.reversed (u.bankOf n) = false →
        (t.chan n).out = true ∧ (t.chan n).inrush = ((u.chNv n).inrushMs != 0) ∧ (t.chan n).inrushTick = u.now) := by
  intro u he hc hs hv
  have hok : (u.levelRead p v).lsb.levelOk p = true := by
    cases p with
    | bankA => exact (IsBankSupply.levelOk (.inl ⟨rfl, rfl⟩) v u.lsb).mpr (hv 0 (.inl ⟨rfl, rfl⟩))
    | bankB => exact (IsBankSupply.levelOk (.inr ⟨rfl, rfl⟩) v u.lsb).mpr (hv 1 (.inr ⟨rfl, rfl⟩))
    | pgnd => rfl
  have hb := State.supplyReturn_back p (u.levelRead p v)
  have hchans : (u.levelRead p v).supplyChans p = u.supplyChans p := State.supplyChans_congr rfl p
  rw [exec_bankReturn he hc hs, if_pos hok]
  refine ⟨_, rfl, hb.isCut, fun n => ?_, fun n hn => ?_, fun n hn hp hh _ hsafe hd hcmd ho hon hr => ?_⟩
  · have hd := hb.drives n
    rw [State.levelRead_chan] at hd
    exact ⟨hd.prot, hd.cmd, hd.keepTick⟩
  · rw [hb.others n (by rw [hchans]; exact hn), State.levelRead_chan]
  · rw [← State.levelRead_chan p v u n] at hp hh hsafe hd hcmd ho
    exact hb.opens n (by rw [hchans]; exact hn) hp hh hsafe hd hcmd ho hon hr

end Sys2Proof.Machine

namespace Sys2Proof.Machine

variable {s t : State} {dt n b held k kind : Nat} {v mean value vbat : Int}

/-! ### A reversed supply (R251, R254) -/

/-- A channel that a reversed supply drives on. -/
def Channel.reversed (c : Channel) : Channel := { c with out := true, sense := 0 }

/-- A bank marked as reversed. -/
def State.markReversed (b : Nat) (s : State) : State := s.onLsb fun l => { l with reversed := Tbl.set false l.reversed b true }

theorem State.markReversed_reversed (b : Nat) (s : State) : Tbl.get false (s.markReversed b).lsb.reversed b = true := by
  unfold State.markReversed
  rw [State.onLsb_lsb, Tbl.get_set_same]

/-- The channels of some list driven on by a reversed supply. -/
def State.chansReversed (l : List Nat) (s : State) : State := l.foldl (fun s n => s.onChan n Channel.reversed) s

theorem State.chansReversed_frame (l : List Nat) (s : State) : s.SwitchFrame (s.chansReversed l) :=
  foldl_related s .refl .trans (fun s n => (State.onChan_chanWork s n Channel.reversed).switchWork.frame) l

theorem State.reversed_others (s : State) (n k : Nat) (h : k ≠ n) : (s.onChan n Channel.reversed).chan k = s.chan k :=
  State.onChan_chan_ne s _ _ _ h

theorem State.reverse_eq (b : Nat) (v : Int) (s : State) : s.reverse b v =
    ((s.supplyDown (bankSupply b) v).markReversed b).chansReversed
      (((s.supplyDown (bankSupply b) v).markReversed b).bankChans b) := rfl

theorem exec_reverseBattery (hv : v < -100) (hb : b = 0 ∨ b = 1 ∧ Config.loadChannels (s.elapse dt).part = 32) :
    exec (.reverseBattery dt b v) s = .next ((s.elapse dt).reverse b v) :=
  next_when (Bool.and_eq_true_iff.mpr ⟨decide_eq_true hv, by simpa using hb⟩)

theorem reverseBattery_drives (dt b : Nat) (v : Int) (s : State) :
    let u := s.elapse dt
    v < -100 → b = 0 ∨ b = 1 ∧ Config.loadChannels u.part = 32 →
    ∃ t : State, exec (.reverseBattery dt b v) s = .next t ∧ Tbl.get false t.lsb.bankCut b = true ∧
      Tbl.get false t.lsb.reversed b = true ∧ (∀ n, n ∈ u.bankChans b → (t.chan n).out = true ∧ (t.chan n).sense = 0) ∧
      (∀ n, n ∉ u.bankChans b → t.chan n = u.chan n) := by
  intro u hv hb
  have hp := bankSupply_isBankSupply (hb.imp_right And.left)
  have hdown := State.supplyDown_down (bankSupply b) v u
  have hchans : ((u.supplyDown (bankSupply b) v).markReversed b).bankChans b = u.bankChans b := State.bankChans_congr hdown.sys b
  have hf := State.chansReversed_frame (u.bankChans b) ((u.supplyDown (bankSupply b) v).markReversed b)
  rw [exec_reverseBattery hv hb, State.reverse_eq, hchans]
  refine ⟨_, rfl, ?_, ?_, fun n hn => ?_, fun n hn => ?_⟩
  · rw [hf.lsb]
    exact (hp.isCut _).symm.trans hdown.isCut
  · rw [hf.lsb]
    exact State.markReversed_reversed ..
  · obtain ⟨a, -, hchan⟩ : ∃ a, _ ∧ (((u.supplyDown (bankSupply b) v).markReversed b).chansReversed (u.bankChans b)).chan n =
        ((((u.supplyDown (bankSupply b) v).markReversed b).chansReversed a).onChan n Channel.reversed).chan n :=
      foldl_chan_once State.reversed_others (State.bankChans_nodup b u) hn _
    rw [hchan, State.onChan_chan]
    exact ⟨rfl, rfl⟩
  · rw [← hp.supplyChans] at hn
    refine Eq.trans ?_ (hdown.others n hn)
    rw [hp.supplyChans] at hn
    exact foldl_chan_other State.reversed_others hn _

/-! ### A dip of a supply (R250) -/

theorem exec_bankDip (hb : (s.elapse dt).bankOn b = true) (hm : b = 0 ∨ b = 1 ∧ Config.loadChannels (s.elapse dt).part = 32)
    (hv : 2 * v < mean) (hh : 10 ≤ held) : exec (.bankDip dt ⟨b, v, mean, held⟩) s =
      .next ((((s.elapse dt).onLsb fun l => l.setVbat (bankSupply b) v).lsbFault 3 323).record 0x0702 b []) :=
  next_when (and_decide (and_decide (State.bankRuns_of hb hm) hv) hh)

theorem bankDip_marks (dt b held : Nat) (v mean : Int) (s : State) :
    let u := s.elapse dt
    u.bankOn b = true → b = 0 ∨ b = 1 ∧ Config.loadChannels u.part = 32 → 2 * v < mean → 10 ≤ held →
    ∃ t : State, exec (.bankDip dt ⟨b, v, mean, held⟩) s = .next t ∧
      t.lsb = { u.lsb with vbat := Tbl.set 0 u.lsb.vbat b v, fault := setFlag u.lsb.fault u.cycle 3 } ∧
      t = { u with lsb := t.lsb, evr := t.evr, nv := t.nv, icu := t.icu, hre := t.hre, out := t.out } := by
  intro u hb hm hv hh
  have hp := bankSupply_isBankSupply (hm.imp_right And.left)
  have hrec := State.record_records ((u.onLsb fun l => l.setVbat (bankSupply b) v).lsbFault 3 323) 0x0702 b []
  refine ⟨_, exec_bankDip hb hm hv hh, ?_, ?_⟩
  · rw [hrec.lsb, State.lsbFault_eq, State.onLsb_lsb, hp.setVbat]
    rfl
  · unfold State.Records at hrec
    generalize State.record _ _ _ _ = t at hrec ⊢
    rw [State.lsbFault_eq] at hrec
    rw [hrec]
    rfl

/-! ### Open-load indications (R252) -/

theorem State.bankOf_le (s : State) (n : Nat) : s.bankOf n = 0 ∨ s.bankOf n = 1 := by
  unfold State.bankOf
  split
  · exact .inr rfl
  · exact .inl rfl

/-- The voltage of a channel's bank read. -/
def State.vbatRead (n : Nat) (vbat : Int) (s : State) : State :=
  s.onLsb fun l => { l with vbat := Tbl.set 0 l.vbat (s.bankOf n) vbat }

theorem State.onLsb_setVbat (n : Nat) (vbat : Int) (s : State) :
    (s.onLsb fun l => l.setVbat (bankSupply (s.bankOf n)) vbat) = s.vbatRead n vbat :=
  congrArg (fun f => s.onLsb f) (funext ((bankSupply_isBankSupply (s.bankOf_le n)).setVbat vbat))

/-- The condition of an indication is that of its kind. -/
theorem State.vbatRead_indicates (hk : kind ≤ 2) : (s.vbatRead n vbat).indicates n kind value = true ↔
    (kind = 0 → value < 10 * (s.chan n).openOnMa) ∧ (kind = 1 → 6 * vbat < 10 * value) ∧ (kind = 2 → vbat - 200 < value) := by
  have hread : Tbl.get 0 (s.vbatRead n vbat).lsb.vbat ((s.vbatRead n vbat).bankOf n) = vbat := Tbl.get_set_same
  have hc : (s.vbatRead n vbat).chan n = s.chan n := rfl
  unfold State.indicates
  rw [hread, hc]
  obtain rfl | rfl | rfl : kind = 0 ∨ kind = 1 ∨ kind = 2 := by omega
  · simp
  · simp
  · simp

theorem Channel.setIndication_indication (kind : Nat) (x : Bool) (c : Channel) : (c.setIndication kind x).indication kind = x := by
  match kind with
  | 0 => rfl
  | 1 => rfl
  | _ + 2 => rfl

theorem Channel.setIndication_keeps (kind : Nat) (x : Bool) (c : Channel) : (c.setIndication kind x).out = c.out ∧
    (c.setIndication kind x).prot = c.prot ∧ (c.setIndication kind x).trips = c.trips ∧ (c.setIndication kind x).faults = c.faults := by
  match kind with
  | 0 => exact ⟨rfl, rfl, rfl, rfl⟩
  | 1 => exact ⟨rfl, rfl, rfl, rfl⟩
  | _ + 2 => exact ⟨rfl, rfl, rfl, rfl⟩

/-- A channel whose indication appears, with its fault bit. -/
def Channel.indicated (kind cyc : Nat) (c : Channel) : Channel :=
  { c.setIndication kind true with faults := setFlag c.faults cyc (if kind = 2 then 9 else 8) }

theorem Channel.indicated_indication (kind cyc : Nat) (c : Channel) : (c.indicated kind cyc).indication kind = true :=
  Channel.setIndication_indication kind true c

theorem State.indicate_appears (h : s.indicates n kind value = true) (hl : s.indicatesLong n kind held = true)
    (hi : (s.chan n).indication kind = false) :
    s.indicate n kind value held = (s.onChan n (Channel.indicated kind s.cycle)).raise (288 + n) := by
  unfold State.indicate
  rw [if_pos h, if_pos (by rw [hl, hi]; rfl)]
  rfl

theorem State.indicate_goes (h : ¬ s.indicates n kind value = true) :
    s.indicate n kind value held = s.onChan n fun c => c.setIndication kind false := if_neg h

theorem exec_openLoadIndication (he : (s.elapse dt).chanExists n = true) (hp : (s.elapse dt).powered 7 = true) (hk : kind ≤ 2)
    (hc : (s.elapse dt).canIndicate n kind = true) : exec (.openLoadIndication dt n kind ⟨value, vbat, held⟩) s =
      .next (((s.elapse dt).vbatRead n vbat).indicate n kind value held) := by
  rw [← State.onLsb_setVbat]
  exact next_when (Bool.and_eq_true_iff.mpr ⟨and_decide (Bool.and_eq_true_iff.mpr ⟨he, hp⟩) hk, hc⟩)

theorem openLoadIndication_indicates (dt n kind held : Nat) (value vbat : Int) (s : State) :
    let u := s.elapse dt
    let c := u.chan n
    let meets : Prop := (kind = 0 → value < 10 * c.openOnMa) ∧ (kind = 1 → 6 * vbat < 10 * value) ∧ (kind = 2 → vbat - 200 < value)
    u.chanExists n = true → u.powered 7 = true → kind ≤ 2 → u.canIndicate n kind = true →
    (meets → u.indicatesLong n kind held = true → c.indication kind = false →
      ∃ t : State, exec (.openLoadIndication dt n kind ⟨value, vbat, held⟩) s = .next t ∧ (t.chan n).indication kind = true ∧
        (t.chan n).faults = setFlag c.faults u.cycle (if kind = 2 then 9 else 8) ∧ (t.chan n).out = c.out ∧ (t.chan n).prot = c.prot ∧
        (t.chan n).trips = c.trips ∧ (∀ j, j ≠ n → t.chan j = u.chan j) ∧
        t = { u with lsb := { u.lsb with chans := t.lsb.chans, vbat := t.lsb.vbat }, icu := (u.raise (288 + n)).icu }) ∧
    (¬ meets → ∃ t : State, exec (.openLoadIndication dt n kind ⟨value, vbat, held⟩) s = .next t ∧ (t.chan n).indication kind = false ∧
      (t.chan n).faults = c.faults ∧ (t.chan n).out = c.out ∧ (∀ j, j ≠ n → t.chan j = u.chan j) ∧
      t = { u with lsb := { u.lsb with chans := t.lsb.chans, vbat := t.lsb.vbat } }) := by
  intro u c meets he hp hk hcan
  have hmeets : (u.vbatRead n vbat).indicates n kind value = true ↔ meets := State.vbatRead_indicates hk
  rw [exec_openLoadIndication he hp hk hcan]
  refine ⟨fun hm hl hi => ⟨_, rfl, ?_⟩, fun hm => ⟨_, rfl, ?_⟩⟩
  · have hchan : (((u.vbatRead n vbat).onChan n (Channel.indicated kind u.cycle)).raise (288 + n)).chan n = c.indicated kind u.cycle := by
      rw [(State.raise_pathWork _).chan, State.onChan_chan]
      rfl
    obtain ⟨hout, hprot, htrips, -⟩ := Channel.setIndication_keeps kind true c
    rw [State.indicate_appears (hmeets.mpr hm) hl hi]
    refine ⟨hchan ▸ Channel.indicated_indication kind u.cycle c, hchan ▸ rfl, hchan ▸ hout, hchan ▸ hprot, hchan ▸ htrips,
      fun j hj => ?_, ?_⟩
    · rw [(State.raise_pathWork _).chan]
      exact State.onChan_chan_ne _ _ _ _ hj
    · rw [State.raise_frame]
      unfold State.onChan State.vbatRead
      rw [State.onLsb_raise_icu, State.onLsb_raise_icu]
      rfl
  · have hchan : ((u.vbatRead n vbat).onChan n fun c => c.setIndication kind false).chan n = c.setIndication kind false :=
      State.onChan_chan ..
    obtain ⟨hout, -, -, hfaults⟩ := Channel.setIndication_keeps kind false c
    rw [State.indicate_goes (mt hmeets.mp hm), hchan]
    exact ⟨Channel.setIndication_indication kind false c, hfaults, hout,
      fun j hj => State.onChan_chan_ne _ _ _ _ hj, rfl⟩

end Sys2Proof.Machine

namespace Sys2Proof.Machine

variable {s t : State} {dt n b k : Nat} {v : Int}

/-! ### The end of a keeper's hold (R255, R256) -/

/-- A channel that goes from the keeper's hold to SAFE. -/
def Channel.toSafe (c : Channel) : Channel := { c with keepTick := none, inSafe := true, cmd := .off }

/-- A channel in SAFE with KEEPER raised, before its output follows. -/
def State.madeSafe (n : Nat) (s : State) : State := (s.onChan n Channel.toSafe).lsbFault 5 325

theorem State.keeperEnds_eq (n : Nat) (s : State) : s.keeperEnds n = (s.madeSafe n).follow n true := rfl

theorem State.madeSafe_eq (n : Nat) (s : State) : s.madeSafe n =
    { s with lsb := { s.lsb with chans := (s.madeSafe n).lsb.chans, fault := setFlag s.lsb.fault s.cycle 5 }, icu := (s.raise 325).icu } := by
  unfold State.madeSafe
  rw [State.lsbFault_eq]
  unfold State.onChan
  rw [State.onLsb_raise_icu]
  rfl

theorem State.madeSafe_chan (n : Nat) (s : State) : (s.madeSafe n).chan n = (s.chan n).toSafe := by
  unfold State.madeSafe
  rw [State.lsbFault_chan, State.onChan_chan]

theorem State.keeperEnds_driven (n : Nat) (s : State) : (s.chan n).toSafe.Driven ((s.keeperEnds n).chan n) := by
  rw [← State.madeSafe_chan]
  exact State.follow_driven n true

theorem State.keeperEnds_others (s : State) (n k : Nat) (h : k ≠ n) : (s.keeperEnds n).chan k = s.chan k := by
  rw [State.keeperEnds_eq, (State.follow_chanWork _ n true).others k h]
  unfold State.madeSafe
  rw [State.lsbFault_chan, State.onChan_chan_ne _ _ _ _ h]

theorem State.keeperEnds_frame (n : Nat) (s : State) : s.keeperEnds n =
    { s with lsb := { s.lsb with chans := (s.keeperEnds n).lsb.chans, fault := setFlag s.lsb.fault s.cycle 5 },
             icu := (s.raise 325).icu } := by
  have h := (State.follow_chanWork (s.madeSafe n) n true).frame
  rw [← State.keeperEnds_eq] at h
  generalize s.keeperEnds n = t at h ⊢
  rw [State.madeSafe_eq] at h
  exact h

/-- A channel that goes to SAFE takes its SAFE state, where its protection and its supply let it. -/
theorem State.keeperEnds_out (hp : (s.chan n).prot = .armed) (hh : (s.chan n).hot = false) (hs : s.supplied (s.bankOf n) = true)
    (hr : Tbl.get false s.lsb.reversed (s.bankOf n) = false) : ((s.keeperEnds n).chan n).out = (s.chNv n).safeOn := by
  have hchan := State.madeSafe_chan n s
  have hframe := State.madeSafe_eq n s
  have hrev : Tbl.get false (s.madeSafe n).lsb.reversed ((s.madeSafe n).bankOf n) = false := by
    rw [hframe]
    exact hr
  have hsup : (s.madeSafe n).supplied ((s.madeSafe n).bankOf n) = true := by
    rw [hframe]
    exact hs
  have hnv : (s.madeSafe n).chNv n = s.chNv n := by
    rw [hframe]
    rfl
  have hlive : (s.madeSafe n).chanLive n = true := by
    unfold State.chanLive Channel.inService
    rw [hchan, hsup]
    simp [Channel.toSafe, hp, hh]
  have hwants : (s.madeSafe n).wantsOn n = (s.chNv n).safeOn := by
    unfold State.wantsOn Channel.followsEsc Channel.isKept
    rw [hchan, hnv]
    simp [Channel.toSafe]
  rw [State.keeperEnds_eq, State.follow_out _ true hrev, hlive, hwants, Bool.true_and]

theorem exec_keeperExpiry (hk : ((s.elapse dt).chan n).keepTick = some k)
    (ht : k + ((s.elapse dt).chNv n).keep10ms * 2000000 ≤ (s.elapse dt).tbu.wall) :
    exec (.keeperExpiry dt n) s = .next ((s.elapse dt).keeperEnds n) := by
  show execKeeperExpiry dt n s = _
  unfold execKeeperExpiry
  simp only [hk]
  exact next_when (decide_eq_true (Nat.le_trans (Nat.add_le_add_left (Nat.mul_le_mul_left _ (by norm_num)) k) ht))

theorem keeperExpiry_ends (dt n k : Nat) (s : State) :
    let u := s.elapse dt
    (u.chan n).keepTick = some k → k + (u.chNv n).keep10ms * 2000000 ≤ u.tbu.wall →
    ∃ t : State, exec (.keeperExpiry dt n) s = .next t ∧ (t.chan n).keepTick = none ∧ (t.chan n).inSafe = true ∧
      t.lsb.fault = setFlag u.lsb.fault u.cycle 5 ∧ (t.chan n).holding = (u.chan n).holding ∧ (t.chan n).context = (u.chan n).context ∧
      ((u.chan n).prot = .armed → (u.chan n).hot = false → u.supplied (u.bankOf n) = true →
        Tbl.get false u.lsb.reversed (u.bankOf n) = false → (t.chan n).out = (u.chNv n).safeOn) ∧
      (∀ j, j ≠ n → t.chan j = u.chan j) ∧ t = { u with lsb := t.lsb, icu := (u.raise 325).icu } := by
  intro u hk ht
  have hd := State.keeperEnds_driven n u
  have hf := State.keeperEnds_frame n u
  refine ⟨_, exec_keeperExpiry hk ht, hd.keepTick, hd.inSafe, by rw [hf], hd.holding, hd.context, State.keeperEnds_out,
    State.keeperEnds_others u n, ?_⟩
  generalize u.keeperEnds n = t at hf ⊢
  rw [hf]

/-! ### A keeper that loses its supply (R253, R256) -/

/-- The keeper's holds of some channels end. -/
def State.keepersEnd (l : List Nat) (s : State) : State := l.foldl (fun s n => s.keeperEnds n) s

/-- What the ends of holds change besides the channels: KEEPER, raised at most. -/
structure State.KeeperWork (s t : State) : Prop where
  frame : t = { s with lsb := { s.lsb with chans := t.lsb.chans, fault := t.lsb.fault }, icu := t.icu }
  fault : s.lsb.fault.w.getLsbD 5 = true → t.lsb.fault.w.getLsbD 5 = true

theorem State.KeeperWork.refl (s : State) : s.KeeperWork s := ⟨rfl, id⟩

theorem State.KeeperWork.trans {a b c : State} (h : a.KeeperWork b) (g : b.KeeperWork c) : a.KeeperWork c := by
  refine ⟨?_, fun hb => g.fault (h.fault hb)⟩
  have hc := g.frame
  rw [h.frame] at hc
  exact hc

theorem State.keeperEnds_fault (n : Nat) (s : State) : (s.keeperEnds n).lsb.fault.w.getLsbD 5 = true := by
  rw [State.keeperEnds_frame]
  exact setBit_getLsbD _ (by decide)

theorem State.keeperEnds_work (s : State) (n : Nat) : s.KeeperWork (s.keeperEnds n) := by
  refine ⟨?_, fun _ => State.keeperEnds_fault n s⟩
  have hf := State.keeperEnds_frame n s
  generalize s.keeperEnds n = t at hf ⊢
  rw [hf]

theorem State.keepersEnd_work (l : List Nat) (s : State) : s.KeeperWork (s.keepersEnd l) :=
  foldl_related s .refl .trans State.keeperEnds_work l

theorem State.keepersEnd_fault {l : List Nat} (h : n ∈ l) (s : State) : (s.keepersEnd l).lsb.fault.w.getLsbD 5 = true := by
  cases l with
  | nil => exact absurd h List.not_mem_nil
  | cons m l => exact (State.keepersEnd_work l (s.keeperEnds m)).fault (State.keeperEnds_fault m s)

theorem State.keepersEnd_chan {l : List Nat} (hl : l.Nodup) (h : n ∈ l) (s : State) :
    ((s.keepersEnd l).chan n).keepTick = none ∧ ((s.keepersEnd l).chan n).inSafe = true := by
  obtain ⟨a, -, hchan⟩ : ∃ a, _ ∧ (s.keepersEnd l).chan n = ((s.keepersEnd a).keeperEnds n).chan n :=
    foldl_chan_once State.keeperEnds_others hl h s
  have hd := State.keeperEnds_driven n (s.keepersEnd a)
  rw [hchan]
  exact ⟨hd.keepTick, hd.inSafe⟩

/-- The channels of a bank that its keeper holds. -/
def State.keptChans (s : State) (b : Nat) : List Nat := (s.bankChans b).filter fun n => (s.chan n).keepTick.isSome

theorem State.mem_keptChans : n ∈ s.keptChans b ↔ n ∈ s.bankChans b ∧ (s.chan n).keepTick ≠ none := by
  unfold State.keptChans
  rw [List.mem_filter, Option.isSome_iff_ne_none]

theorem State.keptChans_nodup (b : Nat) (s : State) : (s.keptChans b).Nodup := (State.bankChans_nodup b s).filter _

/-- A bank's keeper marked as without supply. -/
def State.markDead (b : Nat) (s : State) : State := s.onLsb fun l => { l with keeperDead := Tbl.set false l.keeperDead b true }

theorem State.markDead_keeperDead (b : Nat) (s : State) : Tbl.get false (s.markDead b).lsb.keeperDead b = true := by
  unfold State.markDead
  rw [State.onLsb_lsb, Tbl.get_set_same]

theorem State.keeperDies_eq (b : Nat) (s : State) : s.keeperDies b = (s.markDead b).keepersEnd (s.keptChans b) := rfl

theorem exec_keeperSupplyLoss (hb : b = 0 ∨ b = 1 ∧ Config.loadChannels (s.elapse dt).part = 32) (hv : v < 400) :
    exec (.keeperSupplyLoss dt ⟨b, v⟩) s = .next (((s.elapse dt).supplyDown (bankSupply b) v).keeperDies b) := by
  have hexists : ((s.elapse dt).supplyExists (bankSupply b) && decide (b ≤ 1)) = true := by
    obtain rfl | ⟨rfl, h⟩ := hb
    · rfl
    · exact and_decide (beq_iff_eq.mpr h) (Nat.le_refl 1)
  exact next_when (and_decide hexists hv)

theorem keeperSupplyLoss_ends (dt b : Nat) (v : Int) (s : State) :
    let u := s.elapse dt
    b = 0 ∨ b = 1 ∧ Config.loadChannels u.part = 32 → v < 400 →
    ∃ t : State, exec (.keeperSupplyLoss dt ⟨b, v⟩) s = .next t ∧ Tbl.get false t.lsb.keeperDead b = true ∧
      Tbl.get false t.lsb.bankCut b = true ∧
      (∀ n, n ∈ u.bankChans b → (u.chan n).keepTick ≠ none → (t.chan n).keepTick = none ∧ (t.chan n).inSafe = true) ∧
      (∀ n, n ∉ u.bankChans b → t.chan n = u.chan n) ∧
      ((∃ n, n ∈ u.bankChans b ∧ (u.chan n).keepTick ≠ none) → t.lsb.fault.w.getLsbD 5 = true) ∧
      (Tbl.get false u.lsb.bankCut b = true → (∀ n, (u.chan n).keepTick = none → t.chan n = u.chan n) ∧
        t = { u with lsb := t.lsb, icu := t.icu }) := by
  intro u hb hv
  have hp := bankSupply_isBankSupply (hb.imp_right And.left)
  have hdown := State.supplyDown_down (bankSupply b) v u
  have hkept (n : Nat) : n ∈ (u.supplyDown (bankSupply b) v).keptChans b ↔ n ∈ u.bankChans b ∧ (u.chan n).keepTick ≠ none := by
    rw [State.mem_keptChans, State.bankChans_congr hdown.sys, (hdown.drives n).keepTick]
  have hw := State.keepersEnd_work ((u.supplyDown (bankSupply b) v).keptChans b) ((u.supplyDown (bankSupply b) v).markDead b)
  have hother (n : Nat) (h : n ∉ (u.supplyDown (bankSupply b) v).keptChans b) :
      ((u.supplyDown (bankSupply b) v).keeperDies b).chan n = (u.supplyDown (bankSupply b) v).chan n :=
    foldl_chan_other State.keeperEnds_others h _
  rw [exec_keeperSupplyLoss hb hv]
  refine ⟨_, rfl, ?_, ?_, fun n hn hk => ?_, fun n hn => ?_, fun ⟨n, hn⟩ => ?_, fun hc => ⟨fun n hk => ?_, ?_⟩⟩
  · rw [State.keeperDies_eq, hw.frame]
    exact State.markDead_keeperDead ..
  · rw [State.keeperDies_eq, hw.frame]
    exact (hp.isCut _).symm.trans hdown.isCut
  · exact State.keepersEnd_chan (State.keptChans_nodup ..) ((hkept n).mpr ⟨hn, hk⟩) _
  · rw [hother n (mt (fun h => ((hkept n).mp h).1) hn)]
    exact hdown.others n (by rw [hp.supplyChans]; exact hn)
  · exact State.keepersEnd_fault ((hkept n).mpr hn) _
  · rw [hother n (fun h => ((hkept n).mp h).2 hk), State.supplyDown_cut ((hp.isCut _).trans hc), State.levelRead_chan]
  · have hf := hw.frame
    rw [← State.keeperDies_eq, State.supplyDown_cut ((hp.isCut _).trans hc)] at hf
    rw [State.supplyDown_cut ((hp.isCut _).trans hc)]
    generalize State.keeperDies _ _ = t at hf ⊢
    rw [hf]
    rfl

/-- Settles O42: a supply's cut-off and return, its reversal and its dip, the indications, and the ends of a keeper's hold. -/
theorem suppliesCutAndReturn : Obligations.SuppliesCutAndReturn := by
  unfold Obligations.SuppliesCutAndReturn
  exact ⟨bankCutoff_cuts, bankReturn_waits, bankReturn_returns, reverseBattery_drives, bankDip_marks, openLoadIndication_indicates,
    keeperExpiry_ends, keeperSupplyLoss_ends⟩

end Sys2Proof.Machine
